-- ==== Sys2Proof/Word.lean ====
section
/-! DEFINITION. The word types of the VX-4800 (R4, R5): bytes, the 16-, 32- and 64-bit words that
registers, descriptors and addresses are made of, and the formats that hold numbers. -/

namespace Sys2Proof

/-- One byte of any store (R5). -/
abbrev Byte := BitVec 8
/-- A 16-bit word. -/
abbrev W16 := BitVec 16
/-- A 32-bit word: every register of control space (R566). -/
abbrev W32 := BitVec 32
/-- A 64-bit word: scalar registers, address registers and global addresses (R34, R69). -/
abbrev W64 := BitVec 64
/-- The bits of an FP32 value (R46). -/
abbrev F32 := BitVec 32
/-- The bits of a BF16 value (R46). -/
abbrev B16 := BitVec 16

end Sys2Proof
end

