-- ==== Sys2Proof/Fields.lean ====
section
/-! DEFINITION. The operand types of the commands: streams, who writes a register, the instruction word a
stream fetched, the frames, requests, blocks and datagrams that arrive from outside a block, and the physical
faults a command may report. -/

namespace Sys2Proof

/-- The two instruction streams of a core (R69). -/
inductive Stream where
  | a | b
deriving DecidableEq, Repr

/-- Who reaches control space (R36): a gondola core, or the owner through the host port. -/
inductive Who where
  | gon (g : Nat)
  | owner
deriving DecidableEq, Repr

/-- The instruction word that a stream fetched (R74): the major and minor opcode in bits [63:52], the predicate select, the
negate bit and bits [47:0]. -/
structure InsnW where
  op : BitVec 12 := 0
  pred : BitVec 3 := 0
  neg : Bool := false
  low : BitVec 48 := 0
deriving DecidableEq, Repr

/-- What the error code of a stored word found when it was read (R541). -/
inductive Ecc where
  | ok | corrected | double
deriving DecidableEq, Repr

/-- What has gone wrong in the array as a tile drains or a spill is checked: the residue or parity of one cell (R141), at a physical
row and column; or a bit that is upset in the check value of one result, that of vector or row m and position q, or of the
result itself where it is that which is compared (R139, R140, R142); or a disagreement of the lane's datapaths in what it does for the
tile (R199). -/
inductive ChkFail where
  | cell (prow col : Nat)
  | sum (m q bit : Nat)
  | lane
deriving DecidableEq, Repr

/-- A stack-link frame (R303), without its SEQ and CRC, which its transmitter forms. -/
structure LinkFrame where
  kind : Nat
  flags : Nat := 0
  block : Nat := 0
  src : Nat := 0
  tag : Nat := 0
  gen : Nat := 0
  ctx : Nat := 0xFFF
  payload : List Byte := []
deriving DecidableEq, Repr

/-- The sources of stack requests (R303, R314). -/
inductive ReqSrc where
  | core (l : Nat) | tether (p : Nat) | host | gondola (slice : Nat) | ballast (st : Nat) | scrub
deriving DecidableEq, Repr

/-- A request to a stack for one 256-byte block (R303, R312): a read, or a write of bytes from an offset in
the block on. A guarded read carries its core and guard number (R320). -/
structure StackReq where
  src : ReqSrc
  tag : Nat
  write : Bool
  block : Nat
  off : Nat := 0
  data : List Byte := []
  poison : Bool := false
  ctx : Nat := 0xFFF
  gen : Nat := 0
  guard : Option (Nat × Nat) := none
deriving DecidableEq, Repr

/-- The fields of a tether block that belong to one hop (R396): LSEQ, LACK and CRED. -/
structure Hop where
  lseq : Nat
  lack : Nat
  credCls : Nat := 0
  cred : Nat := 0
deriving DecidableEq, Repr

/-- A tether block (R394) without the four fields of one hop (R396): its class and kind, flags, source and destination, HOPS,
context, generation, tag, flow sequence number, payload and AUTH. -/
structure Block where
  cls : Nat := 0
  kind : Nat
  pmask : Nat := 0
  enc : Bool := true
  epoch : Bool := false
  fault : Bool := false
  dst : Nat
  src : Nat := 0
  hops : Nat := 15
  ctx : Nat := 0xFFF
  gen : Nat := 0
  tag : Nat := 0
  fseq : Nat := 0
  payload : List Byte := []
  auth : List Byte := List.replicate 12 0
deriving DecidableEq, Repr

/-- A tether block as it comes in: the block and its CRC (R394, R396). -/
structure RxBlock where
  blk : Block
  crc : Nat := 0
deriving DecidableEq, Repr

/-- A bridle message that arrives, by its number among those on their way, or a heartbeat, by the link it comes on; and the bridle
link of the package on which a double-bit error was detected in it (R387). -/
structure Arrival where
  k : Nat
  bad : Option Nat := none
deriving DecidableEq, Repr

/-- What is found as knot operations reach their home: by the error code of the first one's entry (R541), and on the bridle link of
the package on which a double-bit error was detected in them (R387). -/
structure KnotCheck where
  entry : Ecc := .ok
  bad : Option Nat := none
deriving DecidableEq, Repr

/-- The sensors the envelope samples at a boundary (R458, R471, R330): junction sensor n of die d at 16d + n,
the logic die and the hottest DRAM die of each stack, in degrees, and the monitored rails in mV. A reading
that is not listed stays as it was. -/
structure EnvSample where
  junction : List Nat := []
  logic : List Nat := []
  dram : List Nat := []
  rails : List Nat := []
deriving DecidableEq, Repr

/-- Why the host port discards a frame or a datagram: its FCS; an EtherType, tag, extension header, checksum or UDP port
that the port does not take (R518, R520, R521); or its header or type (R523). -/
inductive BadFrame where
  | fcs | foreign | malformed
deriving DecidableEq, Repr

/-- A number that a received frame carries, and the VID of the frame's 802.1Q tag, when it has one (R518). -/
structure Framed where
  n : Nat
  vid : Option Nat := none
deriving DecidableEq, Repr

/-- The fields of a session datagram's header that its type does not fix (R522), and the VID of its frame's tag (R518). -/
structure DgramHead where
  vid : Option Nat := none
  sess : Nat
  queue : Nat := 0
  seq : Nat
  ack : Nat := 0
deriving DecidableEq, Repr

/-- The body of a session datagram as it came, encrypted, and the tag after it (R524). -/
structure Sealed where
  body : List Byte := []
  tag : List Byte := List.replicate 16 0
deriving DecidableEq, Repr

/-- A received datagram of a session (R522, R524). -/
structure Dgram extends DgramHead, Sealed
deriving DecidableEq, Repr

/-- A command record of the host (R531). `rsv` says that a reserved byte is not 0. -/
structure HostCmd where
  op : Nat
  flags : Nat := 0
  tag : Nat := 0
  addr : Nat := 0
  val : Nat := 0
  arg : Nat := 0
  rsv : Bool := false
deriving DecidableEq, Repr

end Sys2Proof
end

