-- ==== Sys2Proof/Syntax.lean ====
section
/-! DEFINITION. The commands of the VX-4800: one constructor for every row of the operation table, in its
order, with the operands the row takes. A core is named by its physical number (R12), a stack, port, gondola core,
session slot and context by its number. -/

namespace Sys2Proof

/-- The commands. -/
inductive Instr where
  /-- KEEL_POWER_ON (R27). The keel rails are in tolerance, the 100 MHz reference is valid and KEEL_RST_N is released, so the device goes from OFF to KEEL and samples the straps. -/
  | keelPowerOn (flashEn flashQuad : Bool)
  /-- KEEL_RAIL_LOST (R27). Loss of the keel rail takes the device from any state to OFF. -/
  | keelRailLost
  /-- STOW (R29). A write of TO = stow to KEEL_STATE_REQ requests MOORED to KEEL, decided as R27 and R28 state. -/
  | stow (w : Who)
  /-- UNRIG (R29). A write of TO = unrig to KEEL_STATE_REQ requests RIGGED to MOORED, which powers down the compute dies. -/
  | unrig (w : Who)
  /-- LAND (R29). A write of TO = land to KEEL_STATE_REQ begins ALOFT to RIGGED. -/
  | land (w : Who)
  /-- LAUNCH (R29). A write of TO = launch to KEEL_STATE_REQ begins RIGGED to ALOFT; dealing starts at the next interval boundary. -/
  | launch (w : Who)
  /-- LAND_COMPLETE (R27). Once no tile is queued or in the array and no reel transfer is outstanding, a land in progress completes and STATE becomes RIGGED. -/
  | landComplete
  /-- BOOT_ROM_COMPLETE (R498). The anchor boot ROM finishes its self-tests, PUF derivation and measurement reset, starts gondola core 0 and sets STATE to MOORED. -/
  | bootRomComplete (kat puf entropy gon0 : Bool)
  /-- ENTROPY_HEALTH_FAIL (R499). The continuous entropy health test fails after boot, which reports cause 0x0103 and leads to a package reset. -/
  | entropyHealthFail
  /-- RIGGED_REACHED (R494). After a successful FULL commit, the dies, stacks, tether ports and gondola cores finish bring-up and STATE becomes RIGGED. -/
  | riggedReached (badStacks : List Nat)
  /-- HOST_LINK_UP (R517). Training of the host port finishes and its link becomes UP. -/
  | hostLinkUp
  /-- NOP (R81). No operation. -/
  | nop (c : Nat) (x : Stream) (w : InsnW)
  /-- HALT (R81). The stream stops in HALTED with pc = PC + 8. -/
  | halt (c : Nat) (x : Stream) (w : InsnW)
  /-- BR (R81). Branch relative by IMM instruction words. -/
  | br (c : Nat) (x : Stream) (w : InsnW)
  /-- CALL (R81). Writes the return address to s31 and branches. -/
  | call (c : Nat) (x : Stream) (w : InsnW)
  /-- JR (R81). Jumps to the address held in sA. -/
  | jr (c : Nat) (x : Stream) (w : InsnW)
  /-- TWAIT (R81). The stream waits until its tiles in flight number at most IMM. -/
  | twait (c : Nat) (x : Stream) (w : InsnW)
  /-- RWAIT (R81). The stream waits until PENDING of the named reel is at most n. -/
  | rwait (c : Nat) (x : Stream) (w : InsnW)
  /-- FENCE (R104). The stream waits until its earlier operations of the masked classes are complete and visible. -/
  | fence (c : Nat) (x : Stream) (w : InsnW)
  /-- SYNCI (R73). Instruction refetch, so that later fetches see stores made to scratch. -/
  | synci (c : Nat) (x : Stream) (w : InsnW)
  /-- EVENT (R81). Sends a USER event with the core, the stream and a code to the gondola runtime. -/
  | event (c : Nat) (x : Stream) (w : InsnW)
  /-- ADD (R82). Scalar add, in register or immediate form. -/
  | add (c : Nat) (x : Stream) (imm : Bool) (w : InsnW)
  /-- SUB (R82). Scalar subtract. -/
  | sub (c : Nat) (x : Stream) (imm : Bool) (w : InsnW)
  /-- AND (R82). Scalar bitwise AND. -/
  | and (c : Nat) (x : Stream) (imm : Bool) (w : InsnW)
  /-- OR (R82). Scalar bitwise OR. -/
  | or (c : Nat) (x : Stream) (imm : Bool) (w : InsnW)
  /-- XOR (R82). Scalar bitwise XOR. -/
  | xor (c : Nat) (x : Stream) (imm : Bool) (w : InsnW)
  /-- SHL (R82). Scalar shift left. -/
  | shl (c : Nat) (x : Stream) (imm : Bool) (w : InsnW)
  /-- SHR (R82). Scalar logical shift right. -/
  | shr (c : Nat) (x : Stream) (imm : Bool) (w : InsnW)
  /-- SRA (R82). Scalar arithmetic shift right. -/
  | sra (c : Nat) (x : Stream) (imm : Bool) (w : InsnW)
  /-- MUL (R82). Low 64 bits of the product. -/
  | mul (c : Nat) (x : Stream) (imm : Bool) (w : InsnW)
  /-- MULH (R82). High 64 bits of the signed product. -/
  | mulh (c : Nat) (x : Stream) (imm : Bool) (w : InsnW)
  /-- MULHU (R82). High 64 bits of the unsigned product. -/
  | mulhu (c : Nat) (x : Stream) (imm : Bool) (w : InsnW)
  /-- DIV (R82). Signed divide; a divisor of 0 gives 0 and sets DIV0. -/
  | div (c : Nat) (x : Stream) (imm : Bool) (w : InsnW)
  /-- DIVU (R82). Unsigned divide. -/
  | divu (c : Nat) (x : Stream) (imm : Bool) (w : InsnW)
  /-- REM (R82). Signed remainder. -/
  | rem (c : Nat) (x : Stream) (imm : Bool) (w : InsnW)
  /-- REMU (R82). Unsigned remainder. -/
  | remu (c : Nat) (x : Stream) (imm : Bool) (w : InsnW)
  /-- MIN (R82). Signed minimum. -/
  | min (c : Nat) (x : Stream) (imm : Bool) (w : InsnW)
  /-- MAX (R82). Signed maximum. -/
  | max (c : Nat) (x : Stream) (imm : Bool) (w : InsnW)
  /-- MINU (R82). Unsigned minimum. -/
  | minu (c : Nat) (x : Stream) (imm : Bool) (w : InsnW)
  /-- MAXU (R82). Unsigned maximum. -/
  | maxu (c : Nat) (x : Stream) (imm : Bool) (w : InsnW)
  /-- MOV (R82). Moves b into sD. -/
  | mov (c : Nat) (x : Stream) (imm : Bool) (w : InsnW)
  /-- MOVH (R82). Writes the immediate into the upper 32 bits of sD. -/
  | movh (c : Nat) (x : Stream) (imm : Bool) (w : InsnW)
  /-- CMP_EQ (R83). pD = (sA == sB). -/
  | cmpEq (c : Nat) (x : Stream) (w : InsnW)
  /-- CMP_NE (R83). pD = (sA != sB). -/
  | cmpNe (c : Nat) (x : Stream) (w : InsnW)
  /-- CMP_LT (R83). Signed less-than compare of registers. -/
  | cmpLt (c : Nat) (x : Stream) (w : InsnW)
  /-- CMP_LE (R83). Signed less-or-equal compare of registers. -/
  | cmpLe (c : Nat) (x : Stream) (w : InsnW)
  /-- CMP_LTU (R83). Unsigned less-than compare of registers. -/
  | cmpLtu (c : Nat) (x : Stream) (w : InsnW)
  /-- CMP_LEU (R83). Unsigned less-or-equal compare of registers. -/
  | cmpLeu (c : Nat) (x : Stream) (w : InsnW)
  /-- CMPI_EQ (R83). Equality compare with the immediate. -/
  | cmpiEq (c : Nat) (x : Stream) (w : InsnW)
  /-- CMPI_NE (R83). Inequality compare with the immediate. -/
  | cmpiNe (c : Nat) (x : Stream) (w : InsnW)
  /-- CMPI_LT (R83). Signed less-than compare with the immediate. -/
  | cmpiLt (c : Nat) (x : Stream) (w : InsnW)
  /-- CMPI_LE (R83). Signed less-or-equal compare with the immediate. -/
  | cmpiLe (c : Nat) (x : Stream) (w : InsnW)
  /-- CMPI_LTU (R83). Unsigned less-than compare with the immediate. -/
  | cmpiLtu (c : Nat) (x : Stream) (w : InsnW)
  /-- CMPI_LEU (R83). Unsigned less-or-equal compare with the immediate. -/
  | cmpiLeu (c : Nat) (x : Stream) (w : InsnW)
  /-- PAND (R83). Predicate AND. -/
  | pand (c : Nat) (x : Stream) (w : InsnW)
  /-- POR (R83). Predicate OR. -/
  | por (c : Nat) (x : Stream) (w : InsnW)
  /-- PXOR (R83). Predicate XOR. -/
  | pxor (c : Nat) (x : Stream) (w : InsnW)
  /-- PANDN (R83). Predicate AND NOT. -/
  | pandn (c : Nat) (x : Stream) (w : InsnW)
  /-- ADDA (R83). Adds sB to the address offset modulo 2^44. -/
  | adda (c : Nat) (x : Stream) (w : InsnW)
  /-- ADDAI (R83). Adds the immediate to the address offset modulo 2^44. -/
  | addai (c : Nat) (x : Stream) (w : InsnW)
  /-- MOVA (R83). Copies a scalar register into an address register. -/
  | mova (c : Nat) (x : Stream) (w : InsnW)
  /-- MOVS (R83). Copies an address register into a scalar register. -/
  | movs (c : Nat) (x : Stream) (w : InsnW)
  /-- SETDEV (R83). Sets the device ID field of an address. -/
  | setdev (c : Nat) (x : Stream) (w : InsnW)
  /-- SETSP (R83). Sets the space field of an address. -/
  | setsp (c : Nat) (x : Stream) (w : InsnW)
  /-- SELF (R83). Sets the device ID field of an address to the device's own ID. -/
  | self (c : Nat) (x : Stream) (w : InsnW)
  /-- LD8U (R84). Zero-extending 1-byte load. -/
  | ld8u (c : Nat) (x : Stream) (w : InsnW) (e : Ecc)
  /-- LD16U (R84). Zero-extending 2-byte load. -/
  | ld16u (c : Nat) (x : Stream) (w : InsnW) (e : Ecc)
  /-- LD32U (R84). Zero-extending 4-byte load. -/
  | ld32u (c : Nat) (x : Stream) (w : InsnW) (e : Ecc)
  /-- LD64 (R84). 8-byte load. -/
  | ld64 (c : Nat) (x : Stream) (w : InsnW) (e : Ecc)
  /-- LD8S (R84). Sign-extending 1-byte load. -/
  | ld8s (c : Nat) (x : Stream) (w : InsnW) (e : Ecc)
  /-- LD16S (R84). Sign-extending 2-byte load. -/
  | ld16s (c : Nat) (x : Stream) (w : InsnW) (e : Ecc)
  /-- LD32S (R84). Sign-extending 4-byte load. -/
  | ld32s (c : Nat) (x : Stream) (w : InsnW) (e : Ecc)
  /-- ST8 (R84). 1-byte store. -/
  | st8 (c : Nat) (x : Stream) (w : InsnW)
  /-- ST16 (R84). 2-byte store. -/
  | st16 (c : Nat) (x : Stream) (w : InsnW)
  /-- ST32 (R84). 4-byte store. -/
  | st32 (c : Nat) (x : Stream) (w : InsnW)
  /-- ST64 (R84). 8-byte store. -/
  | st64 (c : Nat) (x : Stream) (w : InsnW)
  /-- SCALAR_LOAD_RETURN (R78). Data for a scalar load from another core or from stack memory returns and its register becomes readable. -/
  | scalarLoadReturn (c k : Nat)
  /-- REEL_GO (R94). Makes the next n descriptors of a reel's ring pending, or raises REEL_FULL. -/
  | reelGo (c : Nat) (x : Stream) (w : InsnW)
  /-- REEL_STAT (R94). Writes SEQ_REELn_HEAD of the named reel into sD. -/
  | reelStat (c : Nat) (x : Stream) (w : InsnW)
  /-- REEL_DESC_START (R95). A reel starts its next pending descriptor, after the knot and context checks and its credit charge. -/
  | reelDescStart (c r : Nat)
  /-- REEL_DESC_COMPLETE (R95). Every write of a descriptor is visible, so the reel advances HEAD and arrives on the completion knot. -/
  | reelDescComplete (c r : Nat) (e : Ecc)
  /-- REEL_DESC_FAIL (R96). A descriptor fails, so the reel records the code, signals the knot with the error flag, sends an event and stops. -/
  | reelDescFail (c r : Nat)
  /-- CRD_GET (R100). Reads the credit balance into sD. -/
  | crdGet (c : Nat) (x : Stream) (w : InsnW)
  /-- CRD_WAIT (R100). The stream waits until the balance is at least sA. -/
  | crdWait (c : Nat) (x : Stream) (w : InsnW)
  /-- CRD_GIVE (R100). Returns min(sA, balance) to the envelope controller in a credit return. -/
  | crdGive (c : Nat) (x : Stream) (w : InsnW)
  /-- START_A (R111). A write of START_A to SEQ_CTRL runs stream A from SEQ_PC_A. -/
  | startA (c : Nat) (v : W32)
  /-- START_B (R111). A write of START_B to SEQ_CTRL runs stream B from SEQ_PC_B. -/
  | startB (c : Nat) (v : W32)
  /-- STOP_A (R111). A write of STOP_A to SEQ_CTRL stops stream A at its next instruction boundary. -/
  | stopA (c : Nat) (v : W32)
  /-- STOP_B (R111). A write of STOP_B to SEQ_CTRL stops stream B at its next instruction boundary. -/
  | stopB (c : Nat) (v : W32)
  /-- SEQ_PC_WRITE (R113). A write to SEQ_PC_x, which is ignored with WR_IGN while the stream is RUNNING or WAITING. -/
  | seqPcWrite (c : Nat) (x : Stream) (v : W32)
  /-- SEQ_REEL_RING_WRITE (R113). A write to SEQ_REELr_RING, which is ignored with WR_IGN while PENDING is not 0. -/
  | seqReelRingWrite (c r : Nat) (v : W32)
  /-- SEQ_CREDIT_CAP_WRITE (R115). A write of a new credit cap, which lowers the balance to the cap and counts the excess as lost. -/
  | seqCreditCapWrite (c : Nat) (v : W32)
  /-- SEQ_ARB_WRITE (R102). New arbitration weights, which apply from the next change of turn. -/
  | seqArbWrite (c : Nat) (v : W32)
  /-- REEL_RESUME_FLUSH (R116). A write of FLUSH to SEQ_REELr_RESUME discards all pending descriptors and clears the failure. -/
  | reelResumeFlush (c r : Nat) (v : W32)
  /-- REEL_RESUME_SKIP (R116). A write of SKIP to SEQ_REELr_RESUME counts the failed descriptor as done and resumes at the next one. -/
  | reelResumeSkip (c r : Nat) (v : W32)
  /-- CREDIT_DEAL (R454). A credit deal message reaches a core and is added to the balance, up to the cap, at the end of the ac. -/
  | creditDeal (k : Nat)
  /-- ARB_GRANT (R101). At an acceptance point the arbiter picks an eligible head tile or spill, charges it and moves it toward the array. -/
  | arbGrant (c : Nat)
  /-- TILE_START (R129). A prepared tile begins streaming at its T0, swapping in new weights along the moving front. -/
  | tileStart (c : Nat) (e : Ecc)
  /-- TILE_COMPLETE (R154). A tile's last output has been drained, or its last product made, so it becomes complete. -/
  | tileComplete (c : Nat) (fail : Option ChkFail) (residue : Bool)
  /-- SPILL_START (R146). A granted spill begins once RESIDE ac have passed and any earlier spill has completed. -/
  | spillStart (c : Nat)
  /-- SPILL_COMPLETE (R146). A spill's last row reaches the spool after checking, or a check-only spill ends. -/
  | spillComplete (c : Nat) (fail : Option ChkFail) (residue : Bool)
  /-- ARR_CHK_TIMER_EXPIRY (R143). ARR_CHK_TIMER reaches 1,800 kt, so the array pauses any weight-gradient tile and runs a forced check-only spill. -/
  | arrChkTimerExpiry (c : Nat)
  /-- ARRAY_ACCESS_FAIL (R595). An array feeder read or a tail write fails after issue, so the affected blocks read as NaN, XFAULT is set and ARR_XFAULT is sent. -/
  | arrayAccessFail (c seq : Nat) (write : Bool) (addr : W64)
  /-- ARR_FWD (R148). Issues a forward tile. -/
  | arrFwd (c : Nat) (x : Stream) (m : BitVec 6) (w : InsnW)
  /-- ARR_IG (R148). Issues an input-gradient tile. -/
  | arrIg (c : Nat) (x : Stream) (m : BitVec 6) (w : InsnW)
  /-- ARR_WG (R148). Issues a weight-gradient tile. -/
  | arrWg (c : Nat) (x : Stream) (m : BitVec 6) (w : InsnW)
  /-- ARR_DIST (R148). Issues a distance or comparison tile. -/
  | arrDist (c : Nat) (x : Stream) (m : BitVec 6) (w : InsnW)
  /-- ARR_SPILL (R148). Issues a spill or a check-only spill. -/
  | arrSpill (c : Nat) (x : Stream) (m : BitVec 6) (w : InsnW)
  /-- FORCE_CHECK (R159). A write of FORCE_CHECK to ARR_CTRL runs a check-only spill at the next opportunity and restarts the timer. -/
  | forceCheck (c : Nat) (v : W32)
  /-- ARR_INJECT_ARM (R160). A write of ARM = 1 to ARR_ARM applies the staged fault and sets ARMED. -/
  | arrInjectArm (c : Nat) (v : W32)
  /-- ARR_INJECT_CANCEL (R160). A write of ARM = 0 to ARR_ARM cancels any armed fault. -/
  | arrInjectCancel (c : Nat) (v : W32)
  /-- ARR_TOPK_ARM (R185). Applies the staged top-k configuration from the next tile, and empties the records when CLEAR is set. -/
  | arrTopkArm (c : Nat) (v : W32)
  /-- COR_PROJ (R202). Forms the low-rank projection Z = X·U. -/
  | corProj (c : Nat) (x : Stream) (w : InsnW)
  /-- COR_EXPAND (R202). Forms Z·Vᵀ into the correction accumulator, or adds it. -/
  | corExpand (c : Nat) (x : Stream) (w : InsnW)
  /-- COR_OP_COMPLETE (R203). A COR instruction's last write reaches scratch, after its lane cycles. -/
  | corOpComplete (c : Nat) (e : Ecc) (mismatch : Bool)
  /-- WATCH_NORM (R209). Adds an FP32 norm value into a watch slot's accumulator. -/
  | watchNorm (c : Nat) (x : Stream) (w : InsnW)
  /-- WATCH_CLOSE (R220). Waits for all earlier work, then merges and releases every held slot. -/
  | watchClose (c : Nat) (x : Stream) (w : InsnW)
  /-- WATCH_LOAD (R217). Copies the fall-back bitmap of the watch table into WATCH_FB. -/
  | watchLoad (c : Nat) (x : Stream) (w : InsnW)
  /-- WATCH_VERDICT (R219). Arrives on the verdict knot with STEP_OVF as the error flag and clears STEP_OVF. -/
  | watchVerdict (c : Nat) (x : Stream) (w : InsnW)
  /-- WATCH_STEP (R221). Waits for the verdict, then updates the loss scale, the slot states and the bitmap of the watch table. -/
  | watchStep (c : Nat) (x : Stream) (w : InsnW)
  /-- WATCH_MERGE (R210). A slot merge reaches the stack holding the record and is applied as one read-add-write. -/
  | watchMerge (k : Nat)
  /-- WATCH_BASE_WRITE (R226). A write to WATCH_BASE, which is ignored while slots are held and otherwise re-evaluates VALID. -/
  | watchBaseWrite (c : Nat) (hi : Bool) (v : W32)
  /-- VADD (R243). Vector integer add. -/
  | vadd (c : Nat) (x : Stream) (w : InsnW)
  /-- VSUB (R243). Vector integer subtract. -/
  | vsub (c : Nat) (x : Stream) (w : InsnW)
  /-- VMUL (R243). Vector integer multiply, low bits. -/
  | vmul (c : Nat) (x : Stream) (w : InsnW)
  /-- VMIN (R243). Vector integer minimum. -/
  | vmin (c : Nat) (x : Stream) (w : InsnW)
  /-- VMAX (R243). Vector integer maximum. -/
  | vmax (c : Nat) (x : Stream) (w : InsnW)
  /-- VABS (R243). Vector integer absolute value. -/
  | vabs (c : Nat) (x : Stream) (w : InsnW)
  /-- VAND (R243). Vector AND. -/
  | vand (c : Nat) (x : Stream) (w : InsnW)
  /-- VOR (R243). Vector OR. -/
  | vor (c : Nat) (x : Stream) (w : InsnW)
  /-- VXOR (R243). Vector XOR. -/
  | vxor (c : Nat) (x : Stream) (w : InsnW)
  /-- VANDN (R243). Vector AND NOT. -/
  | vandn (c : Nat) (x : Stream) (w : InsnW)
  /-- VSHL (R243). Vector shift left. -/
  | vshl (c : Nat) (x : Stream) (w : InsnW)
  /-- VSHR (R243). Vector logical shift right. -/
  | vshr (c : Nat) (x : Stream) (w : InsnW)
  /-- VSRA (R243). Vector arithmetic shift right. -/
  | vsra (c : Nat) (x : Stream) (w : InsnW)
  /-- VPOPC (R243). Vector population count. -/
  | vpopc (c : Nat) (x : Stream) (w : InsnW)
  /-- VFADD (R244). Vector floating-point add. -/
  | vfadd (c : Nat) (x : Stream) (w : InsnW)
  /-- VFSUB (R244). Vector floating-point subtract. -/
  | vfsub (c : Nat) (x : Stream) (w : InsnW)
  /-- VFMUL (R244). Vector floating-point multiply. -/
  | vfmul (c : Nat) (x : Stream) (w : InsnW)
  /-- VFMA (R244). Vector fused multiply-add. -/
  | vfma (c : Nat) (x : Stream) (w : InsnW)
  /-- VFMIN (R245). Vector floating-point minimum. -/
  | vfmin (c : Nat) (x : Stream) (w : InsnW)
  /-- VFMAX (R245). Vector floating-point maximum. -/
  | vfmax (c : Nat) (x : Stream) (w : InsnW)
  /-- VFABS (R244). Vector floating-point absolute value. -/
  | vfabs (c : Nat) (x : Stream) (w : InsnW)
  /-- VFNEG (R244). Vector floating-point negate. -/
  | vfneg (c : Nat) (x : Stream) (w : InsnW)
  /-- VCVT (R246). Vector type conversion. -/
  | vcvt (c : Nat) (x : Stream) (w : InsnW)
  /-- VEXP2 (R247). Vector 2^a. -/
  | vexp2 (c : Nat) (x : Stream) (w : InsnW)
  /-- VEXP (R247). Vector e^a. -/
  | vexp (c : Nat) (x : Stream) (w : InsnW)
  /-- VLOG2 (R247). Vector log2. -/
  | vlog2 (c : Nat) (x : Stream) (w : InsnW)
  /-- VLN (R247). Vector natural logarithm. -/
  | vln (c : Nat) (x : Stream) (w : InsnW)
  /-- VRCP (R247). Vector reciprocal. -/
  | vrcp (c : Nat) (x : Stream) (w : InsnW)
  /-- VSQRT (R247). Vector square root. -/
  | vsqrt (c : Nat) (x : Stream) (w : InsnW)
  /-- VRSQRT (R247). Vector reciprocal square root. -/
  | vrsqrt (c : Nat) (x : Stream) (w : InsnW)
  /-- VDIV (R247). Vector divide. -/
  | vdiv (c : Nat) (x : Stream) (w : InsnW)
  /-- VTANH (R247). Vector tanh. -/
  | vtanh (c : Nat) (x : Stream) (w : InsnW)
  /-- VSIGM (R247). Vector sigmoid. -/
  | vsigm (c : Nat) (x : Stream) (w : InsnW)
  /-- VERF (R247). Vector error function. -/
  | verf (c : Nat) (x : Stream) (w : InsnW)
  /-- VSINPI (R247). Vector sin(πa). -/
  | vsinpi (c : Nat) (x : Stream) (w : InsnW)
  /-- VCOSPI (R247). Vector cos(πa). -/
  | vcospi (c : Nat) (x : Stream) (w : InsnW)
  /-- VRED_SUM (R249). Tree sum of the active elements into sD. -/
  | vredSum (c : Nat) (x : Stream) (w : InsnW)
  /-- VRED_PROD (R249). Tree product of the active elements. -/
  | vredProd (c : Nat) (x : Stream) (w : InsnW)
  /-- VRED_MAX (R251). Largest active value and its position. -/
  | vredMax (c : Nat) (x : Stream) (w : InsnW)
  /-- VRED_MIN (R251). Smallest active value and its position. -/
  | vredMin (c : Nat) (x : Stream) (w : InsnW)
  /-- VRED_COUNT (R249). Count of the active nonzero elements. -/
  | vredCount (c : Nat) (x : Stream) (w : InsnW)
  /-- VRED_MEAN (R249). Mean of the active elements. -/
  | vredMean (c : Nat) (x : Stream) (w : InsnW)
  /-- VRED_SUMSQ (R249). Tree sum of squares of the active elements. -/
  | vredSumsq (c : Nat) (x : Stream) (w : InsnW)
  /-- VTRED_SUM (R253). Sums each row or column of a tile register. -/
  | vtredSum (c : Nat) (x : Stream) (w : InsnW)
  /-- VTRED_SUMSQ (R253). Sums the squares of each row or column of a tile register. -/
  | vtredSumsq (c : Nat) (x : Stream) (w : InsnW)
  /-- VTRED_MAX (R253). Maximum of each row or column of a tile register. -/
  | vtredMax (c : Nat) (x : Stream) (w : InsnW)
  /-- VTRED_MIN (R253). Minimum of each row or column of a tile register. -/
  | vtredMin (c : Nat) (x : Stream) (w : InsnW)
  /-- VSMAX (R254). Soft maximum of one row. -/
  | vsmax (c : Nat) (x : Stream) (w : InsnW)
  /-- VTOPK (R255). Selects the k best active elements into a record. -/
  | vtopk (c : Nat) (x : Stream) (w : InsnW)
  /-- VCMPK (R256). Compares two operands and packs the results as B1 bits. -/
  | vcmpk (c : Nat) (x : Stream) (w : InsnW)
  /-- VQUANT (R257). Quantises elements into the codes, block scales and outliers of a tensor. -/
  | vquant (c : Nat) (x : Stream) (w : InsnW)
  /-- VDEQ (R258). Dequantises the elements of a tensor into an operand. -/
  | vdeq (c : Nat) (x : Stream) (w : InsnW)
  /-- VLD (R259). Vector load from memory. -/
  | vld (c : Nat) (x : Stream) (w : InsnW)
  /-- VST (R259). Vector store to memory. -/
  | vst (c : Nat) (x : Stream) (w : InsnW)
  /-- VMOV (R260). Copies one operand to another. -/
  | vmov (c : Nat) (x : Stream) (w : InsnW)
  /-- VFILL (R260). Fills an operand with sB. -/
  | vfill (c : Nat) (x : Stream) (w : InsnW)
  /-- VTRANSP (R260). Transposes a tile register. -/
  | vtransp (c : Nat) (x : Stream) (w : InsnW)
  /-- VSPL (R261). Converts spool values to FP32 or BF16. -/
  | vspl (c : Nat) (x : Stream) (w : InsnW)
  /-- VSPLEXP (R261). Reads the E_row of a spool row into sD. -/
  | vsplexp (c : Nat) (x : Stream) (w : InsnW)
  /-- VFLAGS (R262). Waits for earlier vector work, then reads and clears the stream's flags. -/
  | vflags (c : Nat) (x : Stream) (w : InsnW)
  /-- VEC_INSTR_START (R239). A queued vector instruction starts once the engine is free and its dependences have completed. -/
  | vecInstrStart (c : Nat) (e : Ecc)
  /-- VEC_INSTR_COMPLETE (R238). A vector instruction's results become complete L ac after its last occupied ac, or when remote data returns. -/
  | vecInstrComplete (c id : Nat) (mismatch : Bool)
  /-- VEC_ACCESS_FAIL (R242). A part of a vector load or store, or a VDEQ read, fails after issue, so XFAULT is set and VEC_XFAULT is sent. -/
  | vecAccessFail (c id : Nat) (addr : W64)
  /-- VEC_SR_STATE_WRITE (R62). A write to the stochastic-rounding state, deferred until any stochastic quantise in flight completes. -/
  | vecSrStateWrite (c : Nat) (v : W32)
  /-- CLEAR (R264). A write of CLEAR to VEC_CTRL zeroes the operand cache and the tile file when both streams are stopped, and is otherwise ignored. -/
  | clear (c : Nat) (v : W32)
  /-- VEC_CLEAR_DONE (R264). The 768 ac of a CLEAR end and CLEARING clears. -/
  | vecClearDone (c : Nat)
  /-- LOFT_SPILL_DONE (R279). A loft entry's copy to overflow finishes, so it becomes OVERFLOW and its loft pages are freed. -/
  | loftSpillDone (c entry : Nat)
  /-- LOFT_RECALL_START (R281). Once pages can be freed, the manager places an OVERFLOW entry and begins copying it back. -/
  | loftRecallStart (c : Nat)
  /-- LOFT_RECALL_DONE (R281). A recall copy finishes and the entry becomes LOFT. -/
  | loftRecallDone (c entry : Nat)
  /-- LOFT_RELEASE (R296). A write naming one entry in LOFT_RELEASE releases that entry if it is unpinned. -/
  | loftRelease (c : Nat) (v : W32)
  /-- LOFT_RELEASE_ALL (R296). A write of ALL to LOFT_RELEASE releases every unpinned entry. -/
  | loftReleaseAll (c : Nat) (v : W32)
  /-- LOFT_CONFIG_WRITE (R296). A write to the loft directory, page or overflow registers, which is ignored while entries are live. -/
  | loftConfigWrite (c off : Nat) (v : W32)
  /-- STACK_REQUEST (R312). A request reaches a stack's sorter and is admitted, held back with BANK_HOLD, or dropped for a stale generation. -/
  | stackRequest (st : Nat) (q : StackReq)
  /-- STACK_REQUEST_SERVICE (R315). The sorter serves a request to DRAM, with ECC correction, stale notices and BANK_OPEN as they apply. -/
  | stackRequestService (st bank : Nat) (ups : List (Nat × Nat × Nat))
  /-- BANK_OPEN (R313). BANK_OPEN reaches a source, which resends its held requests for that bank. -/
  | bankOpen (st k : Nat)
  /-- STACK_WRITE_ACK (R317). A stack write acknowledgement reaches its source, making the write visible. -/
  | stackWriteAck (st k : Nat)
  /-- STACK_LINK_FRAME (R305). A stack-link frame is received and is accepted, or is discarded with a NAK. -/
  | stackLinkFrame (st : Nat) (toStack send : Bool) (f : LinkFrame) (ups : List (Nat × Nat))
  /-- STACK_LINK_RESEND_TIMEOUT (R305). The oldest unacknowledged stack-link frame has waited 2 µs, so frames are resent from it. -/
  | stackLinkResendTimeout (st : Nat) (toStack : Bool)
  /-- STACK_LINK_RETRAIN_DONE (R306). A stack-link retrain ends, and the stack may enter FAULT under the retrain limits. -/
  | stackLinkRetrainDone (st : Nat) (ok : Bool)
  /-- SCRUB_READ (R311). The patrol scrub reads its next codeword, correcting it or recording it as poisoned. -/
  | scrubRead (st : Nat) (ups : List (Nat × Nat × Nat))
  /-- REFRESH (R327). A bank's refresh interval comes due and a row group is refreshed. -/
  | refresh (st bank : Nat)
  /-- SELF_REFRESH_ENTRY (R328). A stack with no request for 100 µs enters self-refresh. -/
  | selfRefreshEntry (st : Nat)
  /-- STALE_NOTICE (R322). A stale notice reaches the guard's core, which marks the guard stale. -/
  | staleNotice (k : Nat)
  /-- GUARD_RECOPY_DONE (R323). A re-copy of a stale guarded prefetch completes, so the guard becomes clean, copies again, or ends. -/
  | guardRecopyDone (c guard : Nat)
  /-- LOAD (R339). A write of LOAD to BAL_CTRL starts a load and check of the ballast tables, or is ignored while the engine is busy. -/
  | load (st : Nat) (v : W32)
  /-- BAL_LOAD_DONE (R339). A table load finishes, replacing the loaded copy or recording LOAD_ERR. -/
  | balLoadDone (st : Nat)
  /-- OPEN_SEGMENT (R347). An OPEN segment is accepted, reads the watch header and puts every engine into APPLY or SKIP. -/
  | openSegment (c r : Nat)
  /-- RUN_SEGMENT (R342). A RUN segment is checked, forwarded and applied to its touched elements. -/
  | runSegment (c r : Nat) (residue : Bool)
  /-- LIST_SEGMENT (R342). A LIST segment is checked, forwarded and applied to its listed rows. -/
  | listSegment (c r : Nat) (residue : Bool)
  /-- BAL_SEGMENT_FORWARDED (R345). A forwarded segment reaches another engine, which applies its own share. -/
  | balSegmentForwarded (st : Nat) (residue : Bool)
  /-- BAL_SEGMENT_COMPLETE (R346). Every engine holding a segment has made its writes visible, so the segment completes. -/
  | balSegmentComplete (id : Nat)
  /-- BAL_STEP_WRITE (R365). A write to BAL_STEP, which is ignored unless the engine is idle. -/
  | balStepWrite (st : Nat) (v : W32)
  /-- BAL_SNAP_MAP_WRITE (R357). A write to BAL_SNAP_MAP sets the map location and P = 0, and is ignored unless the engine is idle. -/
  | balSnapMapWrite (st : Nat) (v : W32)
  /-- ARM (R358). A write of ARM to BAL_SNAP_CTRL arms a snapshot for the next OPEN. -/
  | arm (st : Nat) (v : W32)
  /-- SNAP_SWEEP (R360). The engine uses free cycles to copy the next uncopied chunk, and sets DONE when the sweep ends. -/
  | snapSweep (st : Nat)
  /-- KN_ARRIVE (R371). Sends a barrier or counter arrival with release semantics. -/
  | knArrive (c : Nat) (x : Stream) (w : InsnW)
  /-- KN_WAIT (R373). Waits with acquire semantics until the knot condition holds. -/
  | knWait (c : Nat) (x : Stream) (w : InsnW)
  /-- KN_GIVE (R375). Adds tokens to a semaphore, capped at LIMIT. -/
  | knGive (c : Nat) (x : Stream) (w : InsnW)
  /-- KN_TAKE (R375). Waits for tokens in order and takes them. -/
  | knTake (c : Nat) (x : Stream) (w : InsnW)
  /-- KN_SET (R371). Advances a flag's generation. -/
  | knSet (c : Nat) (x : Stream) (w : InsnW)
  /-- KN_STORE (R371). Sets a counter's value and clears its ERR. -/
  | knStore (c : Nat) (x : Stream) (w : InsnW)
  /-- KN_READ (R371). Reads the knot status. -/
  | knRead (c : Nat) (x : Stream) (w : InsnW)
  /-- KN_ABORT (R376). Aborts the knot and releases every waiter with ABORTED. -/
  | knAbort (c : Nat) (x : Stream) (w : InsnW)
  /-- KNOT_OP_AT_HOME (R377). A knot operation message reaches its home and is applied in arrival order, completing phases and waking waiters. -/
  | knotOpAtHome (ks : List Nat) (e : KnotCheck)
  /-- KNOT_REPLY (R372). A knot reply reaches the waiting stream, pair or command and delivers its status. -/
  | knotReply (m : Arrival)
  /-- TREE_ARRIVE (R380). A child's arrival reaches a group knot record, adding to CHILD_IN and ORing ERR. -/
  | treeArrive (k : Nat)
  /-- TREE_DONE (R380). A completion reaches a group knot record, which completes its phase and forwards the completion. -/
  | treeDone (k : Nat)
  /-- TREE_ABORT (R376). An abort reaches a group knot record and aborts it throughout the tree. -/
  | treeAbort (k : Nat)
  /-- HEARTBEAT (R388). A bridle heartbeat message arrives and keeps the link alive. -/
  | heartbeat (tether : Bool) (m : Arrival)
  /-- BRIDLE_HEARTBEAT_TIMER (R402). A bridle link or tether bridle class has sent nothing for 100 µs, so a heartbeat is sent. -/
  | bridleHeartbeatTimer (tether : Bool) (n : Nat)
  /-- BRIDLE_LINK_LOST (R388). A bridle link has been silent for 1 ms and is declared lost. -/
  | bridleLinkLost (tether : Bool) (n : Nat)
  /-- EVENT_MESSAGE (R561). An event bridle message reaches the gondola port and is placed in the event ring. -/
  | eventMessage (k : Nat)
  /-- KNOT_ENTRY_STAGE (R370). A write to bytes 0–11 of a knot entry is held in the writer's staging buffer. -/
  | knotEntryStage (w : Who) (knot word : Nat) (v : W32)
  /-- KNOT_ENTRY_REPLACE (R370). A write to bytes 12–15 replaces the whole knot entry from the staging buffer and clears ABORTED. -/
  | knotEntryReplace (w : Who) (knot : Nat) (v : W32)
  /-- KNT_OP_ARRIVE (R389). KNT_OP with minor KN.ARRIVE performs an arrive from a gondola core or the owner. -/
  | kntOpArrive (g : Nat) (knot : BitVec 18)
  /-- KNT_OP_WAIT (R389). KNT_OP with minor KN.WAIT performs a wait whose reply loads KNT_OP_RES. -/
  | kntOpWait (g : Nat) (knot : BitVec 18)
  /-- KNT_OP_GIVE (R389). KNT_OP with minor KN.GIVE performs a semaphore give. -/
  | kntOpGive (g : Nat) (knot : BitVec 18)
  /-- KNT_OP_TAKE (R389). KNT_OP with minor KN.TAKE performs a semaphore take. -/
  | kntOpTake (g : Nat) (knot : BitVec 18)
  /-- KNT_OP_SET (R389). KNT_OP with minor KN.SET advances a flag. -/
  | kntOpSet (g : Nat) (knot : BitVec 18)
  /-- KNT_OP_STORE (R389). KNT_OP with minor KN.STORE sets a counter. -/
  | kntOpStore (g : Nat) (knot : BitVec 18)
  /-- KNT_OP_READ (R389). KNT_OP with minor KN.READ reads the knot status into KNT_OP_RES. -/
  | kntOpRead (g : Nat) (knot : BitVec 18)
  /-- KNT_OP_ABORT (R389). KNT_OP with minor KN.ABORT aborts a knot. -/
  | kntOpAbort (g : Nat) (knot : BitVec 18)
  /-- KNT_NOTIFY_WRITE (R390). Arms or rewrites a notify record that sends KNOT_NOTIFY at the next change of the knot. -/
  | kntNotifyWrite (n : Nat) (v : W32)
  /-- BRIDLE (R395). A BRIDLE tether block is received and its bridle messages are delivered, forwarded or broadcast. -/
  | bridle (p : Nat) (h : Hop) (b : Block) (crc : Nat)
  /-- HELLO (R409). A tether HELLO is received and checked, and answered or refused. -/
  | hello (p : Nat) (h : Hop) (b : RxBlock)
  /-- HELLO_REPLY (R409). A tether HELLO_REPLY is received and checked. -/
  | helloReply (p : Nat) (h : Hop) (b : RxBlock)
  /-- CONFIRM (R409). A tether CONFIRM completes a handshake, so keys are derived and the entry becomes UP. -/
  | confirm (p : Nat) (h : Hop) (b : RxBlock)
  /-- READ_REQ (R407). A READ_REQ block is received, checked and its entries performed or refused. -/
  | readReq (p : Nat) (h : Hop) (b : Block) (crc : Nat)
  /-- READ_DATA (R407). A READ_DATA block is received and completes its read. -/
  | readData (p : Nat) (h : Hop) (b : Block) (crc : Nat)
  /-- WRITE_HDR (R407). A WRITE_HDR block is received and checked. -/
  | writeHdr (p : Nat) (h : Hop) (b : Block) (crc : Nat)
  /-- WRITE_DATA (R407). A WRITE_DATA block is received and its data is written. -/
  | writeData (p : Nat) (h : Hop) (b : Block) (crc : Nat)
  /-- WRITE_ACK (R407). A WRITE_ACK block is received and completes its writes, or fails them with ADDR_FAULT. -/
  | writeAck (p : Nat) (h : Hop) (b : Block) (crc : Nat)
  /-- REDUCE_HDR (R431). A REDUCE_HDR block is received, and is discarded if its SEQ is stale. -/
  | reduceHdr (p : Nat) (h : Hop) (b : Block) (crc : Nat)
  /-- REDUCE_DATA (R432). A REDUCE_DATA block fills staging or a result, and may make a part ready. -/
  | reduceData (p : Nat) (h : Hop) (b : Block) (crc : Nat)
  /-- LINK (R397). A LINK block brings LACK, NAK and credit returns. -/
  | link (p : Nat) (h : Hop) (b : Block) (payload : List Byte) (crc : Nat)
  /-- TETHER_RESEND_TIMEOUT (R397). The oldest held tether block has waited 4 µs, so blocks are resent from it. -/
  | tetherResendTimeout (p : Nat)
  /-- LINK_BLOCK_TIMER (R397). With unacknowledged blocks outstanding and nothing else to send, a LINK block is sent every 100 ns. -/
  | linkBlockTimer (p : Nat)
  /-- TETHER_TRAINED (R409). A tether port finishes training and begins its link handshake. -/
  | tetherTrained (p : Nat)
  /-- PMA_LOCK_LOST (R398). A tether port's PMA loses lock and the port retrains. -/
  | pmaLockLost (p : Nat)
  /-- TETHER_RETRAIN_DONE (R398). A tether retrain ends and the handshake runs again. -/
  | tetherRetrainDone (p : Nat) (ok : Bool) (long : Bool)
  /-- PEER_PORT_SILENCE (R410). A port has heard no block for 1 ms, so it loses its partner and entries may become LOST. -/
  | peerPortSilence (p : Nat)
  /-- PEER_WATCH_TIMEOUT (R410). No bridle block has come from a WATCH peer for 10 ms, so its entry becomes LOST. -/
  | peerWatchTimeout (dev : Nat)
  /-- PEER_HEARTBEAT_TIMER (R417). Every 1 ms a heartbeat is sent to each UP peer with WATCH set. -/
  | peerHeartbeatTimer
  /-- HANDSHAKE_RETRY (R409). A refused or unanswered handshake starts again after 100 ms or 10 ms. -/
  | handshakeRetry (p : Nat)
  /-- TTH_RETRAIN (R438). A write of RETRAIN to TTH_CTRL retrains the port at once. -/
  | tthRetrain (p : Nat) (v : W32)
  /-- TTH_DOWN_WRITE (R438). A write to DOWN holds the port untrained or releases it. -/
  | tthDownWrite (p : Nat) (v : W32)
  /-- PEER_ENTRY_STAGE (R413). A write to bytes 0–27 of a directory entry is staged. -/
  | peerEntryStage (dev word : Nat) (v : W32)
  /-- PEER_ENTRY_REPLACE (R413). A write to bytes 28–31 replaces the entry, or is ignored for an entry that is UP or SELF. -/
  | peerEntryReplace (dev : Nat) (v : W32)
  /-- TTH_RED_ARM (R429). Checks a bucket record and arms the bucket, or records an ARM failure. -/
  | tthRedArm (v : W32)
  /-- PORT_ADDER_TAKE (R435). A ready part whose owner is fenced or stopped is taken by a tether-port adder. -/
  | portAdderTake (bucket part : Nat)
  /-- PORT_ADDER_DONE (R435). A port adder finishes recomputing a part, writes RESULT and arrives on PDONE_KNOT. -/
  | portAdderDone (bucket part : Nat) (residue : Bool)
  /-- CTX_OPEN (R422). CTX_CMD OPEN takes a CLOSED context to OPEN. -/
  | ctxOpen (v : W32)
  /-- CTX_CLOSE (R423). CTX_CMD CLOSE puts a context into DRAINING. -/
  | ctxClose (v : W32)
  /-- CTX_DRAIN_END (R423). Outstanding traffic drains or the drain timeout expires, so GEN advances, knots abort and the context closes. -/
  | ctxDrainEnd (ctx : Nat)
  /-- CTX_RANGE_WRITE (R440). A write to CTX_RANGE, which is ignored unless the context is CLOSED. -/
  | ctxRangeWrite (ctx : Nat) (v : W32)
  /-- CTX_GEN_WRITE (R424). A write to GEN, which takes effect only while the context is CLOSED. -/
  | ctxGenWrite (ctx : Nat) (v : W32)
  /-- ENVELOPE_INTERVAL (R443). At each 10 µs boundary the controller samples its inputs, chooses the point, updates records and notices and deals credits. -/
  | envelopeInterval (x : EnvSample)
  /-- CORE_REPORT (R454). A core's interval report of spend, stall and shortfall reaches the envelope controller. -/
  | coreReport (k : Nat)
  /-- CREDIT_RETURN (R454). A credit return from CRD.GIVE reaches the envelope controller for the next deal. -/
  | creditReturn (k : Nat)
  /-- BURNER_STEP (R445). Every 100 ns a burner moving toward its target changes by one 50 MHz step, and point changes apply their costs. -/
  | burnerStep
  /-- RAIL_RAISE_TIMEOUT (R449). No SET_OK has come within 200 µs of a raise, so the request is reverted and RAIL_SLOW is set. -/
  | railRaiseTimeout
  /-- SAG_WARNING (R461). A monitored rail falls below 96 % of its set point, so the target drops to the sag point within 100 ns. -/
  | sagWarning (rail mv : Nat)
  /-- SUPPLY_SAG_RESET (R462). A rail stays below 92 % for 1 µs, so the device is reset to KEEL. -/
  | supplySagReset (rail mv : Nat)
  /-- THERMAL_TRIP (R459). A sensor reads 105 °C or more, so the device trips to KEEL. -/
  | thermalTrip (logic : Bool) (n celsius : Nat)
  /-- ENV_ARM (R456). Applies the staged ENV_MODE, or refuses a fixed point above 26. -/
  | envArm (v : W32)
  /-- ENV_PACE_WRITE (R468). A write to ENV_PACE; a change of GROUP discards every held notice. -/
  | envPaceWrite (v : W32)
  /-- SLACK_NOTICE (R468). A slack notice of the device's pace group is accepted and held, and ENV_PEER_SLACK is sent. -/
  | slackNotice (k : Nat)
  /-- RESUME_NOTICE (R468). A resume notice removes the matching held notice. -/
  | resumeNotice (k : Nat)
  /-- NOTICE_EXPIRY (R468). A held slack notice reaches its expiry and is removed. -/
  | noticeExpiry (src : Nat)
  /-- KEEL_TICKS_READ (R444). A read of KEEL_TICKS_LO returns the low half and latches the high half. -/
  | keelTicksRead (w : Who)
  /-- ENV_WS_ENERGY_READ (R444). A read of ENV_WS_ENERGY_LO returns the low half and latches the high half. -/
  | envWsEnergyRead (w : Who)
  /-- CORE_SLEEP (R446). A core has been idle for 50 kt, so its burner stops. -/
  | coreSleep (c : Nat)
  /-- CORE_WAKE (R446). A bridle message, window write or stale notice wakes a sleeping core, which issues again within 4 µs. -/
  | coreWake (c : Nat)
  /-- APERTURE_WRITE (R485). A write to the shadow-store aperture, which sets LOADING or is ignored while verifying or committing. -/
  | apertureWrite (w : Who) (off : Nat) (v : W32)
  /-- VERIFY (R486). RIG_CMD VERIFY starts the anchor's check of the staged image. -/
  | verify (w : Who)
  /-- RIG_VERIFY_DONE (R486). Verification ends in VERIFIED with the image measured, or in LOADING with a code. -/
  | rigVerifyDone
  /-- COMMIT (R487). RIG_CMD COMMIT checks the agreement rules and requests the holds. -/
  | commit (w : Who)
  /-- RIG_APPLY (R487). All holds stand together, so every frame is applied in one step and the holds are released. -/
  | rigApply
  /-- RIG_QUIET_TIMEOUT (R490). The holds did not all stand within RIG_QUIET_TO, so the commit is rejected. -/
  | rigQuietTimeout
  /-- ABORT (R490). RIG_CMD ABORT stops a verification or a commit not yet applied. -/
  | abort (w : Who)
  /-- FLASH_IMAGE_LOADED (R495). The flash image is in the shadow store, so it is verified and committed. -/
  | flashImageLoaded (img fw : List Byte)
  /-- QUOTE (R509). ANC_CMD QUOTE forms and signs an attestation report. -/
  | quote (w : Who)
  /-- EXTEND (R505). ANC_CMD EXTEND extends MR5 to MR7 with the digest in ANC_EXTEND. -/
  | extend (w : Who) (mr : BitVec 3)
  /-- CHALLENGE (R514). ANC_CMD CHALLENGE draws a new token challenge. -/
  | challenge (w : Who)
  /-- TOKEN (R514). ANC_CMD TOKEN checks a debug or release token and opens scopes or releases the owner. -/
  | token (w : Who)
  /-- FIRMWARE (R507). ANC_CMD FIRMWARE verifies a firmware image, copies it, extends MR2 and starts the gondola cores. -/
  | firmware (w : Who)
  /-- DEBUG_CLOSE (R514). ANC_CMD DEBUG_CLOSE closes every open debug scope. -/
  | debugClose (w : Who)
  /-- ANCHOR_OP_DONE (R508). An anchor operation that took time completes, BUSY clears and queued extends proceed. -/
  | anchorOpDone (badSig : Bool)
  /-- DISCOVER (R529). A DISCOVER datagram is answered with a signed ANNOUNCE. -/
  | discover (addr : Framed) (port : Nat) (nonce : List Byte)
  /-- ANNOUNCE_TIMER (R529). While ANNOUNCE is set, an unsolicited ANNOUNCE is sent each second. -/
  | announceTimer
  /-- ATTEST (R530). An ATTEST datagram requests a quote or log records and is answered with REPORT. -/
  | attest (addr : Framed) (port : Nat) (nonce : List Byte) (start : Nat)
  /-- HOST_HELLO (R526). A host HELLO is checked, referred to the anchor, and given a session or refused. -/
  | hostHello (addr : Framed) (port : Nat) (body : List Byte)
  /-- HOST_CONFIRM (R526). A host CONFIRM opens the session and its keys are derived. -/
  | hostConfirm (sess : Framed) (body : List Byte)
  /-- HOST_CONFIRM_TIMEOUT (R527). No valid CONFIRM came within 10 ms, so the assigned slot is freed. -/
  | hostConfirmTimeout (sess : Nat)
  /-- RD32 (R531). Host command that reads a control-space register. -/
  | rd32 (h : DgramHead) (b : Sealed)
  /-- WR32 (R531). Host command that writes a control-space register. -/
  | wr32 (h : DgramHead) (b : Sealed)
  /-- WRITE (R533). Host command that receives data and writes it to device memory. -/
  | write (h : DgramHead) (b : Sealed)
  /-- READ (R533). Host command that sends device memory to the host. -/
  | read (h : DgramHead) (b : Sealed)
  /-- KNOT (R534). Host command that performs a knot operation. -/
  | knot (h : DgramHead) (b : Sealed)
  /-- STATE (R531). Host command that requests a device state transition. -/
  | state (h : DgramHead) (b : Sealed)
  /-- HOST_CMD_START (R534). A queued host command starts once the commands it must follow have completed. -/
  | hostCmdStart (sess id : Nat)
  /-- HOST_DATA (R533). A DATA datagram delivers data for an open WRITE. -/
  | hostData (h : DgramHead) (head data tag : List Byte)
  /-- ACKONLY (R525). An ACKONLY datagram brings an acknowledgement. -/
  | ackonly (d : Dgram)
  /-- HOST_CLOSE (R528). A CLOSE datagram ends the session and its keys are erased. -/
  | hostClose (d : Dgram)
  /-- HOST_ACK_TIMER (R525). Datagrams have been received for 20 µs with nothing sent, so an ACKONLY is sent. -/
  | hostAckTimer (sess : Nat)
  /-- HOST_RESEND_TIMEOUT (R525). The oldest unacknowledged datagram has waited RTO, so datagrams are resent from ACK. -/
  | hostResendTimeout (sess : Nat)
  /-- HOST_SESSION_IDLE (R528). No datagram has been accepted for IDLE seconds, so the session ends. -/
  | hostSessionIdle (sess : Nat)
  /-- NEIGHBOUR_SOLICITATION (R520). A neighbour solicitation is answered, or reveals a duplicate address. -/
  | neighbourSolicitation (src : Framed) (target : Nat) (dad : Bool)
  /-- NEIGHBOUR_ADVERTISEMENT (R520). A neighbour advertisement is received, and duplicate address detection may set DUP. -/
  | neighbourAdvertisement (target : Framed)
  /-- ECHO_REQUEST (R520). An ICMPv6 echo request is answered. -/
  | echoRequest (src : Framed) (data : List Byte)
  /-- PAUSE (R518). A PAUSE or priority flow-control frame is received and obeyed. -/
  | pause (quanta : Nat) (priority : Option Nat)
  /-- STALL_WATCHDOG_EXPIRY (R543). A core's STALL watchdog reaches STALL_MS, so the core is reported hung and fenced. -/
  | stallWatchdogExpiry (c : Nat)
  /-- WAIT_WATCHDOG_EXPIRY (R543). A stream's WAIT watchdog reaches WAIT_MS, so WAIT_LONG is sent and the count restarts. -/
  | waitWatchdogExpiry (c : Nat) (x : Stream)
  /-- GON_WATCHDOG_EXPIRY (R544). A gondola core's GON watchdog expires and that core is reset alone. -/
  | gonWatchdogExpiry (g : Nat)
  /-- RIP_PET (R543). A write to RIP_PET_g restarts gondola core g's watchdog. -/
  | ripPet (g : Nat)
  /-- SPARE_READY (R548). The spare's binding, reset and self-test complete and CORE_FENCED is sent. -/
  | spareReady (c : Nat) (ok : Bool)
  /-- BURNER_LOCK_LOST (R540). A burner's lock detector reports loss of lock, leading to a core fence or a die reset. -/
  | burnerLockLost (mesh : Bool) (n : Nat)
  /-- KEEL_VOTE_DISAGREE (R540). The triplicated keel state disagrees, which is recorded and may lead to a package reset. -/
  | keelVoteDisagree (bit : Nat)
  /-- RIP_FENCE_REQ (R550). A keyed write fences the named physical core with cause 0x1007. -/
  | ripFenceReq (v : W32)
  /-- RIP_DIE_RESET (R554). A keyed write starts the reset sequence of the named die. -/
  | ripDieReset (v : W32)
  /-- RIP_PKG_RESET (R553). A keyed write resets the package to KEEL. -/
  | ripPkgReset (v : W32)
  /-- RIP_CODE_CLR (R564). Clears RIP_CODE and MORE. -/
  | ripCodeClr (v : W32)
  /-- RIP_EVT_BASE_WRITE (R564). A write of the event ring address resets HEAD and TAIL to 0. -/
  | ripEvtBaseWrite (hi : Bool) (v : W32)
  /-- DIE_RESET_DONE (R554). The last step of a die reset ends: bridges release, gondola cores restart and DIE_RESET_DONE is sent. -/
  | dieResetDone (d : Nat) (failed badStacks : List Nat)
  /-- RAILS_GOOD (R579). A RAILS_GOOD frame with all bits set after entry to KEEL starts the rise to MOORED. -/
  | railsGood (seq : Nat) (v : W16) (data : W32)
  /-- BUDGET (R584). A BUDGET frame sets or withdraws the rail-control budget. -/
  | budget (seq : Nat) (v : W16) (data : W32)
  /-- ENERGY (R586). An ENERGY frame gives the package energy for the interval. -/
  | energy (seq : Nat) (v : W16) (data : W32)
  /-- SET_OK (R575). A SET_OK frame confirms VDD_ARR, so the pending raise continues. -/
  | setOk (seq : Nat) (v : W16) (data : W32)
  /-- ALERT (R584). An ALERT frame reports current-limit alerts on rails. -/
  | alert (seq : Nat) (v : W16) (data : W32)
  /-- RC_RESET (R584). A RESET frame with the right DATA causes a package reset with cause 0x0302. -/
  | rcReset (seq : Nat) (v : W16) (data : W32)
  /-- RC_STOW (R584). A STOW frame requests MOORED to KEEL. -/
  | rcStow (seq : Nat) (v : W16) (data : W32)
  /-- STATUS_TIMER (R585). A STATUS frame is sent at each change of STATE or TARGET and at least every 1 ms. -/
  | statusTimer
  /-- RC_REGISTER_READ (R7). A read of an RC field returns its value and clears it. -/
  | rcRegisterRead (w : Who) (off : Nat)
  /-- REGISTER_WRITE (R7). A write to any register without a row of its own, applied by its access codes (RW, W1C, WO). -/
  | registerWrite (w : Who) (off : Nat) (v : W32)
  /-- TETHER_BAD_BLOCK (R397). A tether block arrives with a failed CRC, an unexpected LSEQ or a KIND foreign to its class, so it and later blocks are discarded, counted and a NAK is sent. -/
  | tetherBadBlock (p : Nat) (h : Hop) (b : Block) (payload : List Byte) (crc : Nat)
  /-- BAD_DATAGRAM (R523). A host-port frame with a bad FCS, a foreign EtherType or UDP port, or a malformed or unknown datagram is discarded and counted in HST_FCS_ERR or HST_BAD_DGRAM. -/
  | badDatagram (why : BadFrame)
  /-- RC_BAD_FRAME (R585). A rail-control frame with an unknown TYPE, or a RESET with the wrong DATA, is acknowledged with BAD_VALUE and does nothing. -/
  | rcBadFrame (type seq : Nat) (v : W16) (data : W32)
  /-- HOST_LINK_DOWN (R580). The host port's PMA loses lock or its link fails, so HST_STATUS.LINK leaves UP and the port must train again. -/
  | hostLinkDown
deriving DecidableEq, Repr

end Sys2Proof
end

