-- ==== Sys2Proof/Decode.lean ====
section
/-! DEFINITION. The command that an instruction word spells by its major and minor opcodes (R74, R76), and the commands that
words of the operation table spell. -/

namespace Sys2Proof

/-! ### Opcodes (R76) -/

/-- The CTRL instructions by their minors (R81). -/
def insnCtrl (c : Nat) (x : Stream) (w : InsnW) : List Instr :=
  [.nop c x w, .halt c x w, .br c x w, .call c x w, .jr c x w, .twait c x w, .rwait c x w, .fence c x w, .synci c x w,
   .event c x w]

/-- The SALU and SALUI instructions by their minors (R82); MOVH, 0x14, has an immediate form only. -/
def insnSalu (c : Nat) (x : Stream) (imm : Bool) (w : InsnW) : List Instr :=
  [.add c x imm w, .sub c x imm w, .and c x imm w, .or c x imm w, .xor c x imm w, .shl c x imm w, .shr c x imm w,
   .sra c x imm w, .mul c x imm w, .mulh c x imm w, .mulhu c x imm w, .div c x imm w, .divu c x imm w, .rem c x imm w,
   .remu c x imm w, .min c x imm w, .max c x imm w, .minu c x imm w, .maxu c x imm w, .mov c x imm w]

/-- The compares of SCMP, minors 0x00 to 0x05 (R83). -/
def insnCmp (c : Nat) (x : Stream) (w : InsnW) : List Instr :=
  [.cmpEq c x w, .cmpNe c x w, .cmpLt c x w, .cmpLe c x w, .cmpLtu c x w, .cmpLeu c x w]

/-- The immediate compares of SCMP, minors 0x08 to 0x0D (R83). -/
def insnCmpi (c : Nat) (x : Stream) (w : InsnW) : List Instr :=
  [.cmpiEq c x w, .cmpiNe c x w, .cmpiLt c x w, .cmpiLe c x w, .cmpiLtu c x w, .cmpiLeu c x w]

/-- The predicate logic of SCMP, minors 0x10 to 0x13 (R83). -/
def insnPred (c : Nat) (x : Stream) (w : InsnW) : List Instr :=
  [.pand c x w, .por c x w, .pxor c x w, .pandn c x w]

/-- The ADDR instructions by their minors (R83). -/
def insnAddr (c : Nat) (x : Stream) (w : InsnW) : List Instr :=
  [.adda c x w, .addai c x w, .mova c x w, .movs c x w, .setdev c x w, .setsp c x w, .self c x w]

/-- The loads of LDST, minors 0x00 to 0x06 (R84). -/
def insnLoad (c : Nat) (x : Stream) (w : InsnW) (e : Ecc) : List Instr :=
  [.ld8u c x w e, .ld16u c x w e, .ld32u c x w e, .ld64 c x w e, .ld8s c x w e, .ld16s c x w e, .ld32s c x w e]

/-- The stores of LDST, minors 0x08 to 0x0B (R84). -/
def insnStore (c : Nat) (x : Stream) (w : InsnW) : List Instr :=
  [.st8 c x w, .st16 c x w, .st32 c x w, .st64 c x w]

/-- The REEL instructions by their minors (R94). -/
def insnReel (c : Nat) (x : Stream) (w : InsnW) : List Instr :=
  [.reelGo c x w, .reelStat c x w]

/-- The CRED instructions by their minors (R100). -/
def insnCred (c : Nat) (x : Stream) (w : InsnW) : List Instr :=
  [.crdGet c x w, .crdWait c x w, .crdGive c x w]

/-- The KNOT instructions by their minors (R371). -/
def insnKnot (c : Nat) (x : Stream) (w : InsnW) : List Instr :=
  [.knArrive c x w, .knWait c x w, .knGive c x w, .knTake c x w, .knSet c x w, .knStore c x w, .knRead c x w,
   .knAbort c x w]

/-- The correction-lane instructions by their minors (R223). -/
def insnCor (c : Nat) (x : Stream) (w : InsnW) : List Instr :=
  [.corProj c x w, .corExpand c x w]

/-- The WATCH instructions by their minors (R223). -/
def insnWatch (c : Nat) (x : Stream) (w : InsnW) : List Instr :=
  [.watchNorm c x w, .watchClose c x w, .watchLoad c x w, .watchVerdict c x w, .watchStep c x w]

/-- The VINT instructions by their minors (R243). -/
def insnVint (c : Nat) (x : Stream) (w : InsnW) : List Instr :=
  [.vadd c x w, .vsub c x w, .vmul c x w, .vmin c x w, .vmax c x w, .vabs c x w, .vand c x w, .vor c x w, .vxor c x w,
   .vandn c x w, .vshl c x w, .vshr c x w, .vsra c x w, .vpopc c x w]

/-- The VFP instructions by their minors (R244). -/
def insnVfp (c : Nat) (x : Stream) (w : InsnW) : List Instr :=
  [.vfadd c x w, .vfsub c x w, .vfmul c x w, .vfma c x w, .vfmin c x w, .vfmax c x w, .vfabs c x w, .vfneg c x w,
   .vcvt c x w]

/-- The VTR instructions by their minors (R247). -/
def insnVtr (c : Nat) (x : Stream) (w : InsnW) : List Instr :=
  [.vexp2 c x w, .vexp c x w, .vlog2 c x w, .vln c x w, .vrcp c x w, .vsqrt c x w, .vrsqrt c x w, .vdiv c x w,
   .vtanh c x w, .vsigm c x w, .verf c x w, .vsinpi c x w, .vcospi c x w]

/-- The VRED instructions by their minors (R249). -/
def insnVred (c : Nat) (x : Stream) (w : InsnW) : List Instr :=
  [.vredSum c x w, .vredProd c x w, .vredMax c x w, .vredMin c x w, .vredCount c x w, .vredMean c x w, .vredSumsq c x w]

/-- The VTRED instructions by their minors (R253). -/
def insnVtred (c : Nat) (x : Stream) (w : InsnW) : List Instr :=
  [.vtredSum c x w, .vtredSumsq c x w, .vtredMax c x w, .vtredMin c x w]

/-- The VSEL instructions by their minors (R254, R255). -/
def insnVsel (c : Nat) (x : Stream) (w : InsnW) : List Instr :=
  [.vsmax c x w, .vtopk c x w]

/-- The VQ instructions by their minors (R256 to R258). -/
def insnVq (c : Nat) (x : Stream) (w : InsnW) : List Instr :=
  [.vquant c x w, .vdeq c x w, .vcmpk c x w]

/-- The VMEM instructions by their minors (R259 to R262). -/
def insnVmem (c : Nat) (x : Stream) (w : InsnW) : List Instr :=
  [.vld c x w, .vst c x w, .vmov c x w, .vfill c x w, .vtransp c x w, .vspl c x w, .vsplexp c x w, .vflags c x w]

/-- The instruction of a list that starts at minor lo. -/
def minorAt (l : List Instr) (lo mn : Nat) : Option Instr := if mn < lo then none else l[mn - lo]?

/-- The array instruction of a major and minor (R148): minor bits that the major does not name are 0. -/
def insnArr (mj mn c : Nat) (x : Stream) (w : InsnW) : Option Instr :=
  let m := BitVec.ofNat 6 mn
  match mj with
  | 0x10 => if mn < 4 then some (.arrFwd c x m w) else none
  | 0x11 => if mn < 4 then some (.arrIg c x m w) else none
  | 0x12 => if mn < 8 ∧ mn % 2 = 0 then some (.arrWg c x m w) else none
  | 0x13 => if mn / 2 % 4 = 0 then some (.arrDist c x m w) else none
  | 0x14 => if mn < 8 then some (.arrSpill c x m w) else none
  | _ => none

/-- The instruction of a major and minor opcode (R76); none for a reserved one. `e` is what the error code of a word that the
instruction reads finds. -/
def insnOf (op c : Nat) (x : Stream) (w : InsnW) (e : Ecc) : Option Instr :=
  let mn := op % 64
  match op / 64 with
  | 0x00 => (insnCtrl c x w)[mn]?
  | 0x01 => (insnSalu c x false w)[mn]?
  | 0x02 => (insnSalu c x true w ++ [.movh c x true w])[mn]?
  | 0x03 => (insnCmp c x w)[mn]? <|> minorAt (insnCmpi c x w) 8 mn <|> minorAt (insnPred c x w) 16 mn
  | 0x04 => (insnAddr c x w)[mn]?
  | 0x05 => (insnLoad c x w e)[mn]? <|> minorAt (insnStore c x w) 8 mn
  | 0x06 => (insnReel c x w)[mn]?
  | 0x07 => (insnCred c x w)[mn]?
  | 0x08 => (insnKnot c x w)[mn]?
  | 0x18 => (insnCor c x w)[mn]?
  | 0x19 => (insnWatch c x w)[mn]?
  | 0x20 => (insnVint c x w)[mn]?
  | 0x21 => (insnVfp c x w)[mn]?
  | 0x22 => (insnVtr c x w)[mn]?
  | 0x23 => (insnVred c x w)[mn]?
  | 0x24 => (insnVtred c x w)[mn]?
  | 0x25 => (insnVsel c x w)[mn]?
  | 0x26 => (insnVq c x w)[mn]?
  | 0x27 => (insnVmem c x w)[mn]?
  | mj => insnArr mj mn c x w

/-- Whether an opcode is reserved (R76). -/
def reservedOp (op : Nat) : Bool := (insnOf op 0 .a {} .ok).isNone

/-- The parts of a 64-bit instruction word (R74). -/
def splitWord (v : Nat) : InsnW :=
  { op := BitVec.ofNat 12 (v / 2 ^ 52), pred := BitVec.ofNat 3 (v / 2 ^ 49), neg := v.testBit 48, low := BitVec.ofNat 48 v }

/-- The 64 bits of an instruction word (R74). -/
def joinWord (w : InsnW) : Nat :=
  w.op.toNat * 2 ^ 52 + w.pred.toNat * 2 ^ 49 + (if w.neg then 2 ^ 48 else 0) + w.low.toNat

/-- The command that the word a stream fetched spells (R74, R76); none when its opcode is reserved, which raises ILLEGAL_OP. -/
def decodeInsn (c : Nat) (x : Stream) (e : Ecc) (v : Nat) : Option Instr :=
  let w := splitWord v
  insnOf w.op.toNat c x w e

/-! ### The operation table -/

/-- The command a word spells. The operation table gives no row any bits, so no word spells a command.
DESIGN CHOICE, log entry 2. -/
def decodeTableWord (_nbits _w : Nat) : Option Instr := none

end Sys2Proof
end

