-- ==== Sys2Proof/Machine/Bits.lean ====
section
/-! DEFINITION. Bit fields, little-endian byte strings, sign extension and saturating counts
(R4, R5, R7, R10): the helpers every register and descriptor layout is read with. -/

namespace Sys2Proof.Machine

/-- Field [hi:lo] of a word given as a number (R4). -/
def fld (hi lo : Nat) (v : Nat) : Nat := (v >>> lo) % 2 ^ (hi + 1 - lo)

/-- Bit i of a word given as a number. -/
def bit (i : Nat) (v : Nat) : Bool := v.testBit i

/-- A field's value placed at bit lo. -/
def at' (lo : Nat) (x : Nat) : Nat := x <<< lo

/-- A flag placed at bit i. -/
def flag (i : Nat) (b : Bool) : Nat := if b then 2 ^ i else 0

/-- A number as a number of 0 or 1. -/
def b2n (b : Bool) : Nat := if b then 1 else 0

/-- The two's-complement reading of the low w bits of a number (R43). -/
def sx (w : Nat) (v : Nat) : Int :=
  let x := v % 2 ^ w
  if x < 2 ^ (w - 1) then (x : Int) else (x : Int) - (2 : Int) ^ w

/-- The low w bits of an integer in two's complement. -/
def wrap (w : Nat) (i : Int) : Nat := (i % ((2 : Int) ^ w)).toNat

/-- n little-endian bytes of a number (R5). -/
def leBytes : Nat → Nat → List Byte
  | 0, _ => []
  | n + 1, v => BitVec.ofNat 8 v :: leBytes n (v / 256)

/-- The number that little-endian bytes spell (R5). -/
def ofLe : List Byte → Nat
  | [] => 0
  | b :: t => b.toNat + 256 * ofLe t

/-- Bytes lo to lo + n − 1 of a byte string, read as a little-endian number; bytes beyond its end
read 0. -/
def leAt (bs : List Byte) (lo n : Nat) : Nat := ofLe ((bs.drop lo).take n)

/-- n bytes from lo on. -/
def slice (bs : List Byte) (lo n : Nat) : List Byte := (bs.drop lo).take n

/-- Every one of bytes lo to lo + n − 1 is 0. -/
def zeros (bs : List Byte) (lo n : Nat) : Bool := (slice bs lo n).all (· == 0)

/-- A byte string with bytes lo on replaced by new ones. -/
def putBytes (bs : List Byte) (lo : Nat) (x : List Byte) : List Byte :=
  bs.take lo ++ x ++ bs.drop (lo + x.length)

/-- Whether two runs of bytes meet. -/
def runsMeet (a n b m : Nat) : Bool := decide (a < b + m) && decide (b < a + n)

/-- The largest value of a 32-bit counter. -/
def cntMax : Nat := 0xFFFFFFFF

/-- A counter that stops at 0xFFFF_FFFF. DEDUCED where the spec does not say it, log entry 97. -/
def cnt (x n : Nat) : Nat := min (x + n) cntMax

/-- The ceiling of a division. -/
def cdiv (a b : Nat) : Nat := (a + b - 1) / b

/-- The integer square root, by deciding one bit at a time from bit k down. -/
def isqrtAux : Nat → Nat → Nat → Nat
  | 0, _, r => r
  | k + 1, n, r => let c := r + 2 ^ k; isqrtAux k n (if c * c ≤ n then c else r)

/-- The largest r with r × r ≤ n. -/
def isqrt (n : Nat) : Nat := isqrtAux (n.log2 / 2 + 1) n 0

/-- An integer halved s times and rounded to nearest, ties to even (R49). -/
def rneShift (v : Int) (s : Nat) : Int :=
  let d := (2 : Int) ^ s
  let q := v / d
  let r := v % d
  if 2 * r < d then q else if 2 * r > d then q + 1 else if q % 2 = 0 then q else q + 1

/-- An integer times 2^s, rounded to nearest even when s is negative (R165, R170, R176). -/
def shiftRne (v : Int) (s : Int) : Int :=
  if 0 ≤ s then v * (2 : Int) ^ s.toNat else rneShift v (-s).toNat

/-- An integer held within two limits, and whether it had to be moved. -/
def clampI (lo hi v : Int) : Int × Bool :=
  if v < lo then (lo, true) else if hi < v then (hi, true) else (v, false)

/-- The number of set bits of the low n bits. -/
def popcount : Nat → Nat → Nat
  | 0, _ => 0
  | n + 1, v => v % 2 + popcount n (v / 2)

/-- The set bits of the low n bits, in increasing order. -/
def setBits (n v : Nat) : List Nat := (List.range n).filter (fun i => v.testBit i)

/-- Replace element i of a list when there is one. -/
def upd {α : Type} (l : List α) (i : Nat) (a : α) : List α := l.set i a

/-- Whether a list has no repeated element. -/
def distinct {α : Type} [DecidableEq α] : List α → Bool
  | [] => true
  | a :: t => !(t.contains a) && distinct t

end Sys2Proof.Machine
end

