-- ==== Sys2Proof/Machine/Crypto.lean ====
section
/-! DEFINITION. SHA-512 (FIPS 180-4), HMAC and HKDF-SHA-512 (RFC 5869), Ed25519 (RFC 8032) and X25519
(RFC 7748), as R409, R473, R500, R504 and R511 use them. -/

namespace Sys2Proof.Machine

open Sys2Proof

/-! ### SHA-512 -/

/-- Constants 0 to 15 of SHA-512. -/
def shaK0 : List Nat :=
  [0x428A2F98D728AE22, 0x7137449123EF65CD, 0xB5C0FBCFEC4D3B2F, 0xE9B5DBA58189DBBC,
   0x3956C25BF348B538, 0x59F111F1B605D019, 0x923F82A4AF194F9B, 0xAB1C5ED5DA6D8118,
   0xD807AA98A3030242, 0x12835B0145706FBE, 0x243185BE4EE4B28C, 0x550C7DC3D5FFB4E2,
   0x72BE5D74F27B896F, 0x80DEB1FE3B1696B1, 0x9BDC06A725C71235, 0xC19BF174CF692694]

/-- Constants 16 to 31 of SHA-512. -/
def shaK1 : List Nat :=
  [0xE49B69C19EF14AD2, 0xEFBE4786384F25E3, 0x0FC19DC68B8CD5B5, 0x240CA1CC77AC9C65,
   0x2DE92C6F592B0275, 0x4A7484AA6EA6E483, 0x5CB0A9DCBD41FBD4, 0x76F988DA831153B5,
   0x983E5152EE66DFAB, 0xA831C66D2DB43210, 0xB00327C898FB213F, 0xBF597FC7BEEF0EE4,
   0xC6E00BF33DA88FC2, 0xD5A79147930AA725, 0x06CA6351E003826F, 0x142929670A0E6E70]

/-- Constants 32 to 47 of SHA-512. -/
def shaK2 : List Nat :=
  [0x27B70A8546D22FFC, 0x2E1B21385C26C926, 0x4D2C6DFC5AC42AED, 0x53380D139D95B3DF,
   0x650A73548BAF63DE, 0x766A0ABB3C77B2A8, 0x81C2C92E47EDAEE6, 0x92722C851482353B,
   0xA2BFE8A14CF10364, 0xA81A664BBC423001, 0xC24B8B70D0F89791, 0xC76C51A30654BE30,
   0xD192E819D6EF5218, 0xD69906245565A910, 0xF40E35855771202A, 0x106AA07032BBD1B8]

/-- Constants 48 to 63 of SHA-512. -/
def shaK3 : List Nat :=
  [0x19A4C116B8D2D0C8, 0x1E376C085141AB53, 0x2748774CDF8EEB99, 0x34B0BCB5E19B48A8,
   0x391C0CB3C5C95A63, 0x4ED8AA4AE3418ACB, 0x5B9CCA4F7763E373, 0x682E6FF3D6B2B8A3,
   0x748F82EE5DEFB2FC, 0x78A5636F43172F60, 0x84C87814A1F0AB72, 0x8CC702081A6439EC,
   0x90BEFFFA23631E28, 0xA4506CEBDE82BDE9, 0xBEF9A3F7B2C67915, 0xC67178F2E372532B]

/-- Constants 64 to 79 of SHA-512. -/
def shaK4 : List Nat :=
  [0xCA273ECEEA26619C, 0xD186B8C721C0C207, 0xEADA7DD6CDE0EB1E, 0xF57D4F7FEE6ED178,
   0x06F067AA72176FBA, 0x0A637DC5A2C898A6, 0x113F9804BEF90DAE, 0x1B710B35131C471B,
   0x28DB77F523047D84, 0x32CAAB7B40C72493, 0x3C9EBE0A15C9BEBC, 0x431D67C49C100D4C,
   0x4CC5D4BECB3E42B6, 0x597F299CFC657E2A, 0x5FCB6FAB3AD6FAEC, 0x6C44198C4A475817]

/-- The 80 round constants of SHA-512. -/
def shaK : List Nat := shaK0 ++ shaK1 ++ shaK2 ++ shaK3 ++ shaK4

/-- The initial hash value of SHA-512. -/
def shaInit : List Nat :=
  [0x6A09E667F3BCC908, 0xBB67AE8584CAA73B, 0x3C6EF372FE94F82B, 0xA54FF53A5F1D36F1,
   0x510E527FADE682D1, 0x9B05688C2B3E6C1F, 0x1F83D9ABFB41BD6B, 0x5BE0CD19137E2179]

/-- Modulo 2^64. -/
def m64 (n : Nat) : Nat := n % 2 ^ 64
/-- A 64-bit rotation to the right. -/
def rotr (k n : Nat) : Nat := (n >>> k) ||| m64 (n <<< (64 - k))
/-- The complement of a 64-bit word. -/
def not64 (n : Nat) : Nat := 2 ^ 64 - 1 - n

/-- The big-endian number that bytes spell. -/
def ofBe (bs : List Byte) : Nat := bs.foldl (fun a b => a * 256 + b.toNat) 0
/-- n big-endian bytes of a number. -/
def beBytes (n v : Nat) : List Byte := (leBytes n v).reverse

/-- n more words of the message schedule; the last sixteen words, newest first, are at the front. -/
def shaSched : Nat → List Nat → List Nat
  | 0, w => w
  | n + 1, w =>
    let w15 := w.getD 14 0
    let w2 := w.getD 1 0
    let s0 := rotr 1 w15 ^^^ rotr 8 w15 ^^^ (w15 >>> 7)
    let s1 := rotr 19 w2 ^^^ rotr 61 w2 ^^^ (w2 >>> 6)
    shaSched n (m64 (s1 + w.getD 6 0 + s0 + w.getD 15 0) :: w)

/-- The eight working variables of SHA-512. -/
structure ShaVar where
  a : Nat
  b : Nat
  c : Nat
  d : Nat
  e : Nat
  f : Nat
  g : Nat
  h : Nat

/-- One round of SHA-512 with k + w. -/
def shaRound (v : ShaVar) (kw : Nat) : ShaVar :=
  let s1 := rotr 14 v.e ^^^ rotr 18 v.e ^^^ rotr 41 v.e
  let ch := (v.e &&& v.f) ^^^ (not64 v.e &&& v.g)
  let t1 := v.h + s1 + ch + kw
  let s0 := rotr 28 v.a ^^^ rotr 34 v.a ^^^ rotr 39 v.a
  let maj := (v.a &&& v.b) ^^^ (v.a &&& v.c) ^^^ (v.b &&& v.c)
  { a := m64 (t1 + s0 + maj), b := v.a, c := v.b, d := v.c, e := m64 (v.d + t1), f := v.e, g := v.f, h := v.g }

/-- The hash value after one block of 128 bytes. -/
def shaBlock (hs : List Nat) (blk : List Byte) : List Nat :=
  let w16 := (List.range 16).map (fun i => ofBe (slice blk (8 * i) 8))
  let w := (shaSched 64 w16.reverse).reverse
  let v := (w.zip shaK).foldl (fun v p => shaRound v (p.1 + p.2))
    { a := hs.getD 0 0, b := hs.getD 1 0, c := hs.getD 2 0, d := hs.getD 3 0, e := hs.getD 4 0,
      f := hs.getD 5 0, g := hs.getD 6 0, h := hs.getD 7 0 }
  (hs.zip [v.a, v.b, v.c, v.d, v.e, v.f, v.g, v.h]).map (fun p => m64 (p.1 + p.2))

/-- The hash value after the blocks of a padded message. -/
def shaBlocks : Nat → List Nat → List Byte → List Nat
  | 0, hs, _ => hs
  | n + 1, hs, bs => shaBlocks n (shaBlock hs (bs.take 128)) (bs.drop 128)

/-- SHA-512 of a byte string. -/
def sha512 (bs : List Byte) : List Byte :=
  let n := bs.length
  let padded := bs ++ [0x80] ++ List.replicate ((239 - n % 128) % 128) 0 ++ beBytes 16 (8 * n)
  (shaBlocks (padded.length / 128) shaInit padded).flatMap (beBytes 8)

/-! ### HKDF-SHA-512 -/

/-- HMAC-SHA-512. -/
def hmac512 (key msg : List Byte) : List Byte :=
  let k0 := if key.length > 128 then sha512 key else key
  let k := k0 ++ List.replicate (128 - k0.length) 0
  sha512 (k.map (· ^^^ 0x5C) ++ sha512 (k.map (· ^^^ 0x36) ++ msg))

/-- The first 32 bytes of HKDF-SHA-512 (R511). -/
def hkdf32 (salt ikm info : List Byte) : List Byte := (hmac512 (hmac512 salt ikm) (info ++ [1])).take 32

/-! ### The field and the curve of Ed25519 -/

/-- 2^255 − 19. -/
def fp : Nat := 2 ^ 255 - 19
/-- The order of the base point of Ed25519. -/
def edL : Nat := 2 ^ 252 + 27742317777372353535851937790883648493

/-- A power modulo p, taking n bits of the exponent. -/
def fpow : Nat → Nat → Nat → Nat
  | 0, _, _ => 1
  | n + 1, b, e => let r := fpow n (b * b % fp) (e / 2); if e % 2 = 1 then r * b % fp else r

/-- The inverse modulo p. -/
def finv (a : Nat) : Nat := fpow 256 (a % fp) (fp - 2)
/-- A difference modulo p. -/
def fpSub (a b : Nat) : Nat := (a + fp - b % fp) % fp
/-- The constant d of the curve. -/
def edD : Nat := fpSub 0 (121665 * finv 121666 % fp)

/-- A point of the curve in extended coordinates. -/
structure EdPt where
  x : Nat
  y : Nat
  z : Nat
  t : Nat

/-- The neutral point. -/
def edZero : EdPt := { x := 0, y := 1, z := 1, t := 0 }

/-- The sum of two points. -/
def edAdd (p q : EdPt) : EdPt :=
  let a := fpSub p.y p.x * fpSub q.y q.x % fp
  let b := (p.y + p.x) * (q.y + q.x) % fp
  let c := 2 * edD * p.t % fp * q.t % fp
  let d := 2 * p.z * q.z % fp
  let e := fpSub b a
  let f := fpSub d c
  let g := (d + c) % fp
  let h := (b + a) % fp
  { x := e * f % fp, y := g * h % fp, z := f * g % fp, t := e * h % fp }

/-- n bits of a scalar times a point. -/
def edMul : Nat → Nat → EdPt → EdPt
  | 0, _, _ => edZero
  | n + 1, k, p =>
    let r := edMul n (k / 2) (edAdd p p)
    if k % 2 = 1 then edAdd r p else r

/-- Whether two points are the same. -/
def edEq (p q : EdPt) : Bool :=
  p.x * q.z % fp == q.x * p.z % fp && p.y * q.z % fp == q.y * p.z % fp

/-- The 32 bytes of a point. -/
def edEncode (p : EdPt) : List Byte :=
  let zi := finv p.z
  leBytes 32 ((p.y * zi % fp) + (p.x * zi % fp) % 2 * 2 ^ 255)

/-- The x of a point with a given y and lowest bit, when there is one. -/
def edX (y sign : Nat) : Option Nat :=
  if fp ≤ y then none else
    let u := fpSub (y * y) 1
    let v := (edD * (y * y % fp) + 1) % fp
    let v3 := v * v % fp * v % fp
    let v7 := v3 * v3 % fp * v % fp
    let x0 := u * v3 % fp * fpow 256 (u * v7 % fp) ((fp - 5) / 8) % fp
    let vx := v * (x0 * x0 % fp) % fp
    let x1 := if vx = u then some x0
      else if vx = fpSub 0 u then some (x0 * fpow 256 2 ((fp - 1) / 4) % fp) else none
    match x1 with
    | none => none
    | some x => if x = 0 ∧ sign = 1 then none else if x % 2 = sign then some x else some (fp - x)

/-- The point that 32 bytes spell. -/
def edDecode (bs : List Byte) : Option EdPt :=
  let n := ofLe (bs.take 32)
  let y := n % 2 ^ 255
  match edX y (n / 2 ^ 255) with
  | none => none
  | some x => some { x := x, y := y, z := 1, t := x * y % fp }

/-- The base point. -/
def edBase : EdPt :=
  let y := 4 * finv 5 % fp
  let x := (edX y 0).getD 0
  { x := x, y := y, z := 1, t := x * y % fp }

/-- The scalar of a private key, from the low half of its hash. -/
def clamp (n : Nat) : Nat := (n % 2 ^ 254) / 8 * 8 + 2 ^ 254

/-- The public key of an Ed25519 private key. -/
def edPublic (seed : List Byte) : List Byte :=
  edEncode (edMul 256 (clamp (ofLe ((sha512 seed).take 32))) edBase)

/-- An Ed25519 signature. -/
def edSign (seed msg : List Byte) : List Byte :=
  let h := sha512 seed
  let a := clamp (ofLe (h.take 32))
  let pub := edEncode (edMul 256 a edBase)
  let r := ofLe (sha512 (h.drop 32 ++ msg)) % edL
  let rb := edEncode (edMul 256 r edBase)
  let k := ofLe (sha512 (rb ++ pub ++ msg)) % edL
  rb ++ leBytes 32 ((r + k * a) % edL)

/-- Whether an Ed25519 signature verifies, by the check [8][S]B = [8]R + [8][k]A. -/
def edVerify (pub msg sig : List Byte) : Bool :=
  let sS := leAt sig 32 32
  if edL ≤ sS then false else
    match edDecode pub, edDecode (sig.take 32) with
    | some a, some r =>
      let k := ofLe (sha512 (sig.take 32 ++ pub ++ msg)) % edL
      edEq (edMul 260 (8 * sS) edBase) (edAdd (edMul 4 8 r) (edMul 260 (8 * k) a))
    | _, _ => false

/-- The fingerprint of an identity key (R409, R500). -/
def fingerprint (pub : List Byte) : List Byte := (sha512 pub).take 16

/-! ### X25519 -/

/-- The state of the Montgomery ladder. -/
structure Lad where
  x2 : Nat
  z2 : Nat
  x3 : Nat
  z3 : Nat

/-- One step of the ladder on coordinate u, for one bit of the scalar. -/
def ladStep (u : Nat) (b : Bool) (l : Lad) : Lad :=
  let l := if b then { x2 := l.x3, z2 := l.z3, x3 := l.x2, z3 := l.z2 } else l
  let a := (l.x2 + l.z2) % fp
  let aa := a * a % fp
  let b' := fpSub l.x2 l.z2
  let bb := b' * b' % fp
  let e := fpSub aa bb
  let da := fpSub l.x3 l.z3 * a % fp
  let cb := (l.x3 + l.z3) % fp * b' % fp
  let x3 := (da + cb) % fp
  let d2 := fpSub da cb
  let r : Lad := { x2 := aa * bb % fp, z2 := e * ((aa + 121665 * e) % fp) % fp,
                   x3 := x3 * x3 % fp, z3 := u * (d2 * d2 % fp) % fp }
  if b then { x2 := r.x3, z2 := r.z3, x3 := r.x2, z3 := r.z2 } else r

/-- Bits n − 1 down to 0 of the scalar. -/
def ladder (u k : Nat) : Nat → Lad → Lad
  | 0, l => l
  | n + 1, l => ladder u k n (ladStep u (k.testBit n) l)

/-- X25519 of a scalar of 32 bytes, given as a number, and a coordinate. -/
def x25519 (k u : Nat) : Nat :=
  let u := u % 2 ^ 255 % fp
  let l := ladder u (clamp k) 255 { x2 := 1, z2 := 0, x3 := u, z3 := 1 }
  l.x2 * finv l.z2 % fp

end Sys2Proof.Machine
end

