-- ==== Sys2Proof/Machine/Aes.lean ====
section
/-! DEFINITION. AES-256 (FIPS 197) in Galois/Counter mode (SP 800-38D), as R404, R405 and R524 use it. A block is a list of its 16
bytes, or the big-endian number they spell. -/

namespace Sys2Proof.Machine

open Sys2Proof

/-! ### The cipher -/

/-- The S-box: byte j of entry i is that of 16i + j. -/
def aesS : List Nat :=
  [0x76ABD7FE2B670130C56F6BF27B777C63, 0xC072A49CAFA2D4ADF04759FA7DC982CA, 0x1531D871F1E5A534CCF73F362693FDB7,
   0x75B227EBE28012079A059618C323C704, 0x842FE329B3D63B52A05A6E1B1A2C8309, 0xCF584C4A39BECB6A5BB1FC20ED00D153,
   0xA89F3C507F02F94585334D43FBAAEFD0, 0xD2F3FF1021DAB6BCF5389D928F40A351, 0x73195D643D7EA7C41744975FEC130CCD,
   0xDB0B5EDE14B8EE4688902A22DC4F8160, 0x79E4959162ACD3C25C2406490A3A32E0, 0x08AE7A65EAF4566CA94ED58D6D37C8E7,
   0x8A8BBD4B1F74DDE8C6B4A61C2E2578BA, 0x9E1DC186B95735610EF6034866B53E70, 0xDF2855CEE9871E9B948ED9691198F8E1,
   0x16BB54B00F2D99416842E6BF0D89A18C]

/-- The S-box of a byte. -/
def aesSub (x : Nat) : Nat := (aesS.getD (x / 16) 0 >>> (8 * (x % 16))) % 256

/-- Twice a byte in GF(2^8). -/
def aesX2 (x : Nat) : Nat := if x < 128 then 2 * x else (2 * x) ^^^ 0x11B

/-- The S-box of each byte of a 32-bit word. -/
def aesSubWord (w : Nat) : Nat :=
  aesSub (w / 2 ^ 24 % 256) * 2 ^ 24 + aesSub (w / 2 ^ 16 % 256) * 2 ^ 16 + aesSub (w / 2 ^ 8 % 256) * 2 ^ 8 + aesSub (w % 256)

/-- n more words of the key schedule, from word i on: `l` holds the words before it, the newest first. -/
def aesSched : Nat → Nat → Nat → List Nat → List Nat
  | 0, _, _, l => l
  | n + 1, i, rcon, l =>
    let t := l.headD 0
    let t := if i % 8 = 0 then aesSubWord (t * 256 % 2 ^ 32 + t / 2 ^ 24) ^^^ (rcon * 2 ^ 24) else if i % 8 = 4 then aesSubWord t else t
    aesSched n (i + 1) (if i % 8 = 0 then aesX2 rcon else rcon) ((l.getD 7 0 ^^^ t) :: l)

/-- The 60 words of the key schedule of 32 key bytes. -/
def aesKey (key : List Byte) : List Nat :=
  (aesSched 52 8 1 ((List.range 8).map (fun i => ofBe (slice key (4 * i) 4))).reverse).reverse

/-- The big-endian bytes of a 32-bit word. -/
def aesBytes (w : Nat) : List Nat := [w / 2 ^ 24 % 256, w / 2 ^ 16 % 256, w / 2 ^ 8 % 256, w % 256]

/-- A round key is added. -/
def aesAdd (ws : List Nat) (b : List Nat) : List Nat := ((ws.take 4).flatMap aesBytes |>.zip b).map (fun p => p.1 ^^^ p.2)

/-- SubBytes and ShiftRows. -/
def aesShift (b : List Nat) : List Nat := (List.range 16).map (fun i => aesSub (b.getD (5 * i % 16) 0))

/-- MixColumns. -/
def aesMix : List Nat → List Nat
  | a :: b :: c :: d :: t =>
    let s := a ^^^ b ^^^ c ^^^ d
    (a ^^^ s ^^^ aesX2 (a ^^^ b)) :: (b ^^^ s ^^^ aesX2 (b ^^^ c)) :: (c ^^^ s ^^^ aesX2 (c ^^^ d))
      :: (d ^^^ s ^^^ aesX2 (d ^^^ a)) :: aesMix t
  | _ => []

/-- n rounds with MixColumns, then the last round. -/
def aesRounds : Nat → List Nat → List Nat → List Nat
  | 0, ws, b => aesAdd ws (aesShift b)
  | n + 1, ws, b => aesRounds n (ws.drop 4) (aesAdd ws (aesMix (aesShift b)))

/-- AES-256 of a block of 16 bytes, with a key schedule. -/
def aesEnc (ws : List Nat) (b : List Nat) : List Nat := aesRounds 13 (ws.drop 4) (aesAdd ws b)

/-! ### Galois/Counter mode -/

/-- The product of two blocks in GF(2^128): n bits of x are left, `v` is y times the power reached. -/
def ghMul : Nat → Nat → Nat → Nat → Nat
  | 0, _, _, z => z
  | n + 1, x, v, z =>
    ghMul n x (if v % 2 = 1 then (v / 2) ^^^ (0xE1 * 2 ^ 120) else v / 2) (if x / 2 ^ n % 2 = 1 then z ^^^ v else z)

/-- The blocks of a byte string as numbers, the last one filled up with zeros. -/
def gcmBlocks : Nat → List Byte → List Nat
  | 0, _ => []
  | n + 1, bs => ofBe (bs.take 16 ++ List.replicate (16 - bs.length) 0) :: gcmBlocks n (bs.drop 16)

/-- GHASH under key h. -/
def ghash (h : Nat) (l : List Nat) : Nat := l.foldl (fun y x => ghMul 128 (y ^^^ x) h 0) 0

/-- Key stream bytes of n blocks, from counter i on. -/
def gcmStream (ws iv : List Nat) : Nat → Nat → List Nat
  | 0, _ => []
  | n + 1, i => aesEnc ws (iv ++ aesBytes i) ++ gcmStream ws iv n (i + 1)

/-- A byte string with the key stream added, which enciphers it and deciphers it again. -/
def gcmXor (ws iv : List Nat) (bs : List Byte) : List Byte :=
  (bs.zip (gcmStream ws iv (cdiv bs.length 16) 2)).map (fun p => p.1 ^^^ BitVec.ofNat 8 p.2)

/-- The 16-byte tag of a ciphertext and its additional data. -/
def gcmTag (ws iv : List Nat) (aad ct : List Byte) : List Byte :=
  let h := ofBe ((aesEnc ws (List.replicate 16 0)).map (BitVec.ofNat 8))
  let l := gcmBlocks (cdiv aad.length 16) aad ++ gcmBlocks (cdiv ct.length 16) ct ++ [8 * aad.length * 2 ^ 64 + 8 * ct.length]
  beBytes 16 (ghash h l ^^^ ofBe ((aesEnc ws (iv ++ aesBytes 1)).map (BitVec.ofNat 8)))

/-- AES-256-GCM: the ciphertext and the tag of a plaintext under a key, a nonce of 12 bytes and additional data. -/
def gcmSeal (key iv aad pt : List Byte) : List Byte × List Byte :=
  let ws := aesKey key
  let iv := iv.map (·.toNat)
  let ct := gcmXor ws iv pt
  (ct, gcmTag ws iv aad ct)

/-- The plaintext of a ciphertext whose tag, as far as it goes, is right. -/
def gcmOpen (key iv aad ct tag : List Byte) : Option (List Byte) :=
  let ws := aesKey key
  let iv := iv.map (·.toNat)
  if (gcmTag ws iv aad ct).take tag.length = tag then some (gcmXor ws iv ct) else none

end Sys2Proof.Machine
end

