-- ==== Sys2Proof/Config.lean ====
section
/-! DEFINITION. What the spec leaves to each part: the cells of the PUF (R500), the draws of the entropy
source (R500, R511, R514) and the digest of the boot ROM (R505). Each is an opaque constant: nothing can be
proved of its value. -/

namespace Sys2Proof.Config

/-- Byte i of the 4,096 stabilised bits of the PUF (R500). Free value, log entry 20. -/
opaque pufByte : Nat → Byte

/-- Byte i of draw n from the entropy source (R409, R511, R514). Free value, log entry 20. -/
opaque entropyByte : Nat → Nat → Byte

/-- Byte i of the digest of the boot ROM (R505). Free value, log entry 20. -/
opaque romDigestByte : Nat → Byte

/-- NEXP_OUT (0) or NEXP_GRAD (1) of a slot taken while there is no watch table to read it from (R210, R226).
Free value, log entry 22. -/
opaque freeNexp : Nat → Nat → W16

/-- OVF_W of a slot taken while there is no watch table to read it from (R210, R226). Free value, log entry 22. -/
opaque freeOvfW : Nat → Bool

/-- The block scale of a cell that the tile which last loaded weights did not use (R127, R138).
Free value, log entry 23. -/
opaque freeScale : Nat → Nat → Byte

/-- The exponent at which a cell of row l and column n that a tile does not use aligns a product (R160, R165): the spec gives such a
cell no block scale. Free value, log entry 23. -/
opaque freeExp : Nat → Nat → BitVec 10

/-- The NEXP of slot i after a step whose running norm is infinite: an output norm at 2i, a gradient norm at 2i + 1
(R213). Free value, log entry 24. -/
opaque freeNexpInf : Nat → W16

/-- VALUE of a host response to which the spec gives none, by OP and TAG (R531). Free value, log entry 21. -/
opaque freeResp : Nat → Nat → BitVec 64

/-- The level of TDO at a keel tick while a debug scope is open, by the levels of TCK, TMS, TDI and TRST_N (R573): the spec gives the
test pins no protocol. Free value, log entry 104. -/
opaque freeTdo : Nat → Bool → Bool → Bool → Bool → Bool

end Sys2Proof.Config
end

