-- ==== Sys2Proof/Machine/Sparse.lean ====
section
/-! DEFINITION. Sparse stores: a list of (index, value) pairs in one canonical form (indexes strictly
rising, no pair equal to what an unlisted index reads as), used for memories, register files and tables.
A store of bytes is a list of `Host.Cell`. -/

namespace Sys2Proof.Machine

/-- A sparse store of values indexed by numbers. -/
abbrev Sparse (α : Type) := List (Nat × α)

/-- What index k reads as; an unlisted index reads as d.
DESIGN CHOICE for a byte the spec gives no value, log entry 4. -/
def sget {α : Type} (d : α) : Sparse α → Nat → α
  | [], _ => d
  | (k', v) :: t, k => if k = k' then v else sget d t k

/-- A pair put in front of the first pair with a larger index. -/
def sinsert {α : Type} (k : Nat) (v : α) : Sparse α → Sparse α
  | [] => [(k, v)]
  | (k', v') :: t => if k < k' then (k, v) :: (k', v') :: t else (k', v') :: sinsert k v t

/-- Every pair of index k removed. -/
def sdrop {α : Type} (k : Nat) : Sparse α → Sparse α
  | [] => []
  | (k', v') :: t => if k = k' then sdrop k t else (k', v') :: sdrop k t

/-- Index k set to v. Writing what an unlisted index reads as removes the pair. -/
def sset {α : Type} [DecidableEq α] (d : α) (m : Sparse α) (k : Nat) (v : α) : Sparse α :=
  if v = d then sdrop k m else sinsert k v (sdrop k m)

/-- Every value changed by f, which keeps what an unlisted index reads as. -/
def smap {α : Type} [DecidableEq α] (d : α) (f : α → α) : Sparse α → Sparse α
  | [] => []
  | (k, v) :: t => if f v = d then sdrop k (smap d f t) else (k, f v) :: smap d f t

/-- The canonical form, above a lower bound for the first index. -/
def swfFrom {α : Type} [DecidableEq α] (d : α) : Nat → Sparse α → Bool
  | _, [] => true
  | lo, (k, v) :: t => decide (lo ≤ k) && decide (v ≠ d) && swfFrom d (k + 1) t

/-- The canonical form of a store. -/
def swf {α : Type} [DecidableEq α] (d : α) (m : Sparse α) : Bool := swfFrom d 0 m

/-- n values from index k on. -/
def sread {α : Type} (d : α) (m : Sparse α) (k : Nat) : Nat → List α
  | 0 => []
  | n + 1 => sget d m k :: sread d m (k + 1) n

/-- Values written from index k on. -/
def swrite {α : Type} [DecidableEq α] (d : α) : Sparse α → Nat → List α → Sparse α
  | m, _, [] => m
  | m, k, v :: t => swrite d (sset d m k v) (k + 1) t

/-- A memory of bytes: a list of `Host.Cell`. -/
abbrev Memory := Sparse Byte

/-- The canonical form of a memory whose unlisted bytes read 0. -/
def Memory.wf (m : Memory) : Bool := swf (0 : Byte) m

/-- n bytes of a memory. -/
def mread (m : Memory) (k n : Nat) : List Byte := sread (0 : Byte) m k n

/-- Bytes written to a memory. -/
def mwrite (m : Memory) (k : Nat) (bs : List Byte) : Memory := swrite (0 : Byte) m k bs

end Sys2Proof.Machine
end

