-- ==== Sys2Proof/Machine/StMem.lean ====
section
/-! DEFINITION. The state of a Rhambe stack (R297 to R331) and of its ballast engine (R332 to R366). -/

namespace Sys2Proof.Machine

/-- The states of a stack (R330). -/
inductive StackState where
  | off | training | ready | selfRefresh | retraining | fault
deriving DecidableEq, Repr

/-- One direction of a stack link (R305, R306): the transmitter's next SEQ, the frames it keeps, oldest first, each with its
SEQ, and the SEQs of the frames on their way; the receiver's expected SEQ, how often that frame has failed in succession,
whether a NAK for it is out, the frames accepted and not yet acknowledged, and when the first of them was. -/
structure LinkEnd where
  nextSeq : Nat := 0
  held : List (Nat × LinkFrame) := []
  wire : List Nat := []
  expect : Nat := 0
  fails : Nat := 0
  naked : Bool := false
  owed : Nat := 0
  owedAt : Nat := 0
deriving DecidableEq, Repr

/-- A request the sorter has admitted (R312, R315, R317): when it was admitted, in keel ticks, and whether its write has
been acknowledged at its admission. -/
structure Slot where
  req : StackReq
  at' : Nat := 0
  acked : Bool := false
deriving DecidableEq, Repr

/-- A response a stack has sent (R313, R316, R317): read data, a write acknowledgement with the stale notices that must be
accepted before it, or BANK_HOLD. -/
inductive StackResp where
  | data (src : ReqSrc) (tag : Nat) (bytes : List Byte) (poison : List Bool)
  | ack (src : ReqSrc) (tag : Nat) (notes : List (Nat × Nat))
  | hold (src : ReqSrc) (tag : Nat) (bank : Nat)
deriving DecidableEq, Repr

/-- A watch range of a guard (R320): its core, the serial number of the guard and the first and last block. -/
structure WatchRange where
  core : Nat
  guard : Nat
  lo : Nat
  hi : Nat
deriving DecidableEq, Repr

/-- Why an access to memory cannot be served now: its stack cannot take it; it has been returned with BANK_HOLD by a bank of a
stack (R313); or it reads the span of a stale guard of a core (R323). -/
inductive Stop where
  | wait
  | hold (st bank : Nat)
  | guard (core addr len : Nat)
deriving DecidableEq, Repr

/-- The access that a command makes: its source at the stacks (R303, R314), the core whose agent makes it, and why it has
stopped. The model's own; between commands it has its default value. -/
structure AccSt where
  src : ReqSrc := .host
  core : Option Nat := none
  stop : Option Stop := none
deriving DecidableEq, Repr

/-- The states of a ballast engine (R364). -/
inductive BalState where
  | idle | apply | skip
deriving DecidableEq, Repr

/-- A segment an engine holds (R342 to R347): its bytes, the core and reel that sent it while it has not been accepted, and the
LS_PREV and HFLAGS it carries when it is an OPEN. -/
structure Seg where
  id : Nat
  bytes : List Byte
  reel : Option (Nat × Nat) := none
  lsPrev : Nat := 0
  hflags : Nat := 0
deriving DecidableEq, Repr

/-- A ballast engine (R335 to R366). `input` holds the segments it has taken in and not yet applied, `prog` those it has
applied and that are not yet complete, `copy` its loaded tables, `loadAt` the address of those that a LOAD in progress reads; `mapOk` is BAL_SNAP_MAP.VALID; `halted` says that a residue check has failed (R542). -/
structure BalSt where
  state : BalState := .idle
  wrIgn : Bool := false
  strictHit : Bool := false
  poison : Bool := false
  nonfinite : Bool := false
  segErr : Bool := false
  loadErr : Bool := false
  loaded : Bool := false
  loading : Bool := false
  loadAt : Nat := 0
  errCode : Nat := 0
  errGroup : Nat := 0
  step : Nat := 0
  table : Nat := 0
  watch : Nat := 0
  mapBase : Nat := 0
  mapOk : Bool := false
  parity : Bool := false
  done : Bool := false
  active : Bool := false
  armed : Bool := false
  sweepGroup : Nat := 0
  sweepChunk : Nat := 0
  copy : Memory := []
  lsPrev : Nat := 0
  kappa : Nat := 0
  input : List Seg := []
  prog : List Seg := []
  halted : Bool := false
  segments : Nat := 0
  elemsK : Nat := 0
  elemsRem : Nat := 0
  frozenSkips : Nat := 0
  ovfSkips : Nat := 0
  nonfiniteN : Nat := 0
  poisonSkips : Nat := 0
  singular : Nat := 0
  dampRaises : Nat := 0
  snapCopies : Nat := 0
deriving DecidableEq, Repr

/-- One Rhambe stack (R297 to R331): its DRAM by stack-local byte address, the upsets that stand in its codewords as
(symbol, value), the poisoned codewords, its link, sorter, watch table, refresh and scrub, and its ballast engine. `meshQ`
holds the requests that wait in the mesh while all slots are full (R313), `srcQ` those that wait in their sources (R314); `awaitData` holds
the writes of accepted request groups whose data has not come (R303). -/
structure Stack where
  mem : Memory := []
  upsets : Sparse (List (Nat × Nat)) := []
  poisoned : List Nat := []
  state : StackState := .off
  ue : Bool := false
  ce : Bool := false
  retrained : Bool := false
  hot : Bool := false
  ceEvent : Bool := false
  srEn : Bool := true
  tempNow : Nat := 0
  tempPeak : Nat := 0
  resends : Nat := 0
  retrains : Nat := 0
  eccCe : Nat := 0
  eccUe : Nat := 0
  logKind : Nat := 0
  logAddr : Nat := 0
  scrubPeriod : Nat := 8
  scrubPos : Nat := 0
  occPeak : Nat := 0
  bankHolds : Nat := 0
  urgent : Nat := 0
  watchMiss : Nat := 0
  staleNotices : Nat := 0
  genDrops : Nat := 0
  toStack : LinkEnd := {}
  toDie : LinkEnd := {}
  awaitData : List StackReq := []
  retrainFails : Nat := 0
  retrainTimes : List Nat := []
  slots : List Slot := []
  heldReqs : List StackReq := []
  meshQ : List StackReq := []
  srcQ : List StackReq := []
  waiters : List (Nat × ReqSrc) := []
  bankOpens : List (Nat × ReqSrc) := []
  openRow : Sparse Nat := []
  hits : Sparse Nat := []
  responses : List StackResp := []
  ranges : List WatchRange := []
  refreshes : Sparse Nat := []
  gens : Sparse Nat := []
  bal : BalSt := {}
deriving DecidableEq, Repr

end Sys2Proof.Machine
end

