-- ==== Sys2Proof/Machine/Dram.lean ====
section
/-! DEFINITION. The DRAM of a stack (R297, R298, R307): the bank and row of a block, and the Reed-Solomon code of its
codewords. -/

namespace Sys2Proof.Machine

open Sys2Proof

/-! ### Banks and slots (R297, R298, R312) -/

/-- The bank of a block, among the 512 of its stack: channel × 16 + bank. -/
def blkBank (b : Nat) : Nat := b % 32 * 16 + ((b / 256) ^^^ (b / 4096)) % 16
/-- The row of a block. -/
def blkRow (b : Nat) : Nat := b / 4096
/-- Blocks in a stack. -/
def stackBlocks : Nat := 0xC000000
/-- The slots of a bank, in the order of admission. -/
def Stack.bankSlots (t : Stack) (bank : Nat) : List Slot := t.slots.filter (fun q => blkBank q.req.block == bank)

/-- A bank's row after a request has been served from it: its number plus 1, and how many were served in succession while
it was open (R315). -/
def Stack.useRow (t : Stack) (bank row : Nat) : Stack :=
  if sget 0 t.openRow bank = row + 1 then { t with hits := sset 0 t.hits bank (sget 0 t.hits bank + 1) }
  else { t with openRow := sset 0 t.openRow bank (row + 1), hits := sset 0 t.hits bank 1 }

/-! ### GF(2^8) (R307) -/

/-- A symbol times α, modulo x^8 + x^4 + x^3 + x^2 + 1. -/
def gfDbl (a : Nat) : Nat := if 128 ≤ a then (2 * a) ^^^ 0x11D else 2 * a

/-- A symbol times α^k. -/
def gfPow : Nat → Nat → Nat
  | 0, a => a
  | k + 1, a => gfPow k (gfDbl a)

/-- The product of two symbols, by the bits of the second from bit 0 up. -/
def gfMulGo : Nat → Nat → Nat → Nat
  | 0, _, _ => 0
  | k + 1, a, b => (if b % 2 = 1 then a else 0) ^^^ gfMulGo k (gfDbl a) (b / 2)

/-- The product of two symbols. -/
def gfMul (a b : Nat) : Nat := gfMulGo 8 a b

/-! ### The code (R307) -/

/-- The generator polynomial without its leading 1, from x^3 down to x^0: its roots are α^0 to α^3.
DESIGN CHOICE, log entry 99. -/
def rsGen : List Nat := [15, 54, 120, 64]

/-- The remainder register after one more data symbol. -/
def rsStep (r : List Nat) (d : Nat) : List Nat :=
  let f := r.headD 0 ^^^ d
  List.zipWith (fun x g => x ^^^ gfMul f g) (r.drop 1 ++ [0]) rsGen

/-- The 4 check symbols of 64 data symbols. -/
def rsCheck (d : List Nat) : List Nat := d.foldl rsStep [0, 0, 0, 0]

/-- Syndrome j of a word of 68 symbols: its value at α^j. -/
def rsSyn (j : Nat) (w : List Nat) : Nat := w.foldl (fun a x => gfPow j a ^^^ x) 0

/-- The four syndromes. -/
def rsSyns (w : List Nat) : List Nat := (List.range 4).map (fun j => rsSyn j w)

/-- What the decoder finds: no error, an error of one symbol with its place and value, or one it cannot correct. -/
inductive RsFound where
  | none | one (symbol value : Nat) | many
deriving DecidableEq, Repr

/-- The decoder: an error of value e in symbol k gives the syndromes e × α^((67 − k) × j), and no other error of at most three
symbols gives these. -/
def rsFind (w : List Nat) : RsFound :=
  match rsSyns w with
  | [0, 0, 0, 0] => .none
  | [a, b, c, d] =>
    match (List.range 68).find? (fun k =>
      decide (a ≠ 0) && gfPow (67 - k) a == b && gfPow (67 - k) b == c && gfPow (67 - k) c == d) with
    | some k => .one k a
    | none => .many
  | _ => .many

/-- A word with the upsets of some symbols put into it. -/
def rsUpset (w : List Nat) : List (Nat × Nat) → List Nat
  | [] => w
  | (k, v) :: t => rsUpset (w.set k (w.getD k 0 ^^^ v % 256)) t

/-- The 68 symbols that stand in the DRAM for codeword cw. -/
def Stack.word (t : Stack) (cw : Nat) : List Nat :=
  let d := (mread t.mem (cw * 64) 64).map (·.toNat)
  rsUpset (d ++ rsCheck d) (sget [] t.upsets cw)

/-- What the error code finds when codeword cw is read (R307 to R309); a codeword stored poisoned is uncorrectable. -/
def Stack.sense (t : Stack) (cw : Nat) : RsFound :=
  if t.poisoned.contains cw then .many
  else if sget [] t.upsets cw = [] then .none
  else rsFind (t.word cw)

/-- Upsets strike symbols of codewords: (codeword, symbol, value). -/
def Stack.strike (t : Stack) : List (Nat × Nat × Nat) → Stack
  | [] => t
  | (cw, k, v) :: l => Stack.strike { t with upsets := sset [] t.upsets cw (sget [] t.upsets cw ++ [(k, v)]) } l

end Sys2Proof.Machine
end

