-- ==== Sys2Proof/Machine/Queues.lean ====
section
/-! DEFINITION. The queues between blocks and their depths (R18, R19, R24). -/

namespace Sys2Proof.Machine

/-- The queues between blocks (R24); the sorter of a stack, and one bank of it (R312). -/
inductive Queue where
  | tile | spill | injection | router | bridge | core | sorter | bank | ballast | bridleNode | tether
deriving DecidableEq, Repr

/-- The depth of a queue: a producer holds one credit for each item the queue has room for, so a queue of `depth` items has none left
(R18, R19, R24). What passes a spill, injection, router, bridge or bridle node queue does so within one command. DESIGN CHOICE,
log entry 105. -/
def Queue.depth : Queue → Nat
  | .tile => 4
  | .spill => 16
  | .injection => 32
  | .router => 8
  | .bridge => 32
  | .core => 256
  | .sorter => 6144
  | .bank => 48
  | .ballast => 64
  | .bridleNode => 4
  | .tether => 512

/-- Whether a producer holds a credit for a queue that holds n items (R18). -/
def Queue.credit (q : Queue) (n : Nat) : Bool := decide (n < q.depth)

end Sys2Proof.Machine
end

