-- ==== Sys2Proof/Machine/StEnv.lean ====
section
/-! DEFINITION. The state of the envelope controller, the windsock and the rail-control interface (R442
to R471, R573 to R586). -/

namespace Sys2Proof.Machine

/-- A throttle record (R465). -/
structure ThrRec where
  start : Nat := 0
  duration : Nat := 0
  opened : Bool := false
  reason : Nat := 0
  low : Nat := 0
  peer : Nat := 0
  deficit : Nat := 0
  deficitRem : Nat := 0
  rate : Nat := 0
deriving DecidableEq, Repr

/-- A peer's slack notice held (R468). -/
structure HeldNotice where
  src : Nat
  seq : Nat
  reason : Nat
  rate : Nat
  expiry : Nat
deriving DecidableEq, Repr

/-- A core's interval report (R454): the logical core, and its counts. -/
structure CoreReport where
  core : Nat
  stall : Nat
  spent : Nat
  short : Nat
deriving DecidableEq, Repr

/-- A bridle message of the envelope on its way (R384, R454): a deal to a core by its node, a report, a credit return of a logical
core. -/
inductive EnvMsg where
  | deal (core amount iseq point : Nat)
  | report (r : CoreReport)
  | give (core amount : Nat)
deriving DecidableEq, Repr

/-- The phases of a change of operating point (R449): none, a raise to a point that waits for SET_OK, or burners that
step to a point. -/
inductive PointPhase where
  | idle
  | waitSet (goal : Nat)
  | stepping (goal : Nat)
deriving DecidableEq, Repr

/-- An interval boundary whose reports are still on their way (R443, R452): its tick, the energy frame of the interval
that ended, the credit returns that reached the controller in it and its ac. -/
structure Boundary where
  tick : Nat
  ac : Nat
  energy : Option Nat
  given : Nat
deriving DecidableEq, Repr

/-- The notice this device has outstanding (R466). -/
structure OwnNotice where
  seq : Nat
  rate : Nat
  start : Nat
  duration : Nat
deriving DecidableEq, Repr

/-- The envelope controller (R442 to R471). `openRecs` are the reasons with an open record and its
entry of the ring, none when that has been overwritten, `rails` the last average of each rail, none before the first, `setWas` the
set point before a raise. `sagDirty` says that a sag warning came in the current interval, `costPt` is
the point whose costs the cores hold, `stalled` that the stall fraction of the last interval was above STALL_HI, `ivAc`
counts the ac of the current interval, `due` is a boundary whose reports have not all come, `boardSeq` and
`boardStatus` are the last frame of the board and the status it was acknowledged with, `sent` what the device sent. -/
structure EnvSt where
  ticks : Nat := 0
  ticksHi : Nat := 0
  energyMj : Nat := 0
  energyRemUj : Nat := 0
  energyHi : Nat := 0
  railSlow : Bool := false
  budgetLow : Bool := false
  sagHold : Bool := false
  sagClean : Nat := 0
  sagDirty : Bool := false
  wrIgn : Bool := false
  modeFixed : Bool := false
  modePt : Nat := 26
  fixed : Bool := false
  fixedPt : Nat := 26
  cur : Nat := 0
  target : Nat := 0
  budgetRail : Nat := 0
  budgetMs : Nat := 0
  inForce : Nat := 1100
  pmax : Nat := 1100
  hostBudget : Nat := 0
  hostCeil : Nat := 29
  boostEn : Bool := true
  boostMargin : Nat := 10
  stallHi : Nat := 32
  stallLo : Nat := 4
  sagPoint : Nat := 8
  sagHoldN : Nat := 100
  paceMatch : Bool := false
  paceSend : Bool := false
  paceGroup : Nat := 0
  durHost : Nat := 50
  durCurrent : Nat := 10
  durThermal : Nat := 10
  durBudget : Nat := 50
  thrTotal : Nat := 0
  thrNext : Nat := 0
  ring : Sparse ThrRec := []
  openRecs : List (Nat × Option Nat) := []
  held : List HeldNotice := []
  own : Option OwnNotice := none
  ownSeq : Nat := 0
  lastSend : Option Nat := none
  dealtUnits : Nat := 0
  carry : Nat := 0
  given : Nat := 0
  reports : List CoreReport := []
  msgs : List EnvMsg := []
  govPt : Nat := 29
  thermPt : Nat := 29
  iccPt : Nat := 29
  stalled : Bool := false
  phase : PointPhase := .idle
  setReq : Nat := 600
  setWas : Nat := 600
  costPt : Nat := 0
  raiseBarred : Nat := 0
  powerNow : Nat := 0
  powerPeak : Nat := 0
  junction : Sparse Nat := []
  stackTemp : Sparse Nat := []
  tempPeak : Sparse Nat := []
  rails : Sparse (Option Nat) := []
  res : Sparse Nat := []
  alerts : Nat := 0
  energyNew : Option Nat := none
  energyAt : Nat := 0
  due : Option Boundary := none
  ivAc : Nat := 0
  boardSeq : Option Nat := none
  boardStatus : Nat := 0
  sent : List (List Byte) := []
  frameSeq : Nat := 0
deriving DecidableEq, Repr

end Sys2Proof.Machine
end

