-- ==== Sys2Proof/Machine/StKnot.lean ====
section
/-! DEFINITION. The state of the knots (R367 to R383), the operations of gondola cores and the owner
(R389, R390) and the bridle's messages in flight (R384 to R388). -/

namespace Sys2Proof.Machine

/-- The knot operations of R371. -/
inductive KOp where
  | arrive | wait | give | take | set | store | read | abort
deriving DecidableEq, Repr

/-- Who performs a knot operation, and so who receives its reply (R371, R379, R389, R534): a stream with
the scalar register that takes the status and its ticket; a reel's completion arrive; a WATCH.VERDICT and a WATCH.STEP's wait
with their tickets;
an operation pair of R389 with the number of its operation; a host command; the reduction unit, for a bucket, `done` when the
arrive is the one on DONE_KNOT; or a bridle node of another device (R384). -/
inductive KWho where
  | stream (c : Nat) (x : Stream) (d : Nat) (ticket : Nat) (stop : Bool)
  | reel (c : Nat)
  | verdict (c : Nat) (ticket : Nat)
  | step (c : Nat) (x : Stream) (ticket : Nat)
  | pair (g n : Nat)
  | host (sess : Nat) (id : Nat)
  | unit (b : Nat) (done : Bool)
  | far (dev node : Nat)
deriving DecidableEq, Repr

/-- A waiter of a knot (R379): KN.WAIT with the value it compares, or KN.TAKE with the tokens it needs. -/
structure Waiter where
  who : KWho
  take : Bool
  arg : Nat
deriving DecidableEq, Repr

/-- A knot's entry (R368) and its waiters in order (R375, R379). -/
structure Knot where
  value : Nat := 0
  limit : Nat := 0
  phase : Nat := 0
  childIn : Nat := 0
  valid : Bool := false
  aborted : Bool := false
  err : Bool := false
  lastErr : Bool := false
  upSent : Bool := false
  tree : Nat := 0
  waiters : List Waiter := []
deriving DecidableEq, Repr

/-- A knot operation message on its way to the knot's home (R377, R384): when it reaches the home, its
source node and the agent there, which decide the order within one cycle, and, for release semantics, the
tiles, vector instructions and remote requests it must come after (R105). -/
structure KMsg where
  who : KWho
  op : KOp
  knot : Nat
  arg : Nat
  err : Bool := false
  node : Nat
  agent : Nat
  relTiles : List Nat := []
  relVecs : List Nat := []
  relReqs : List Nat := []
deriving DecidableEq, Repr

/-- A reply on its way back (R372), from the home of a knot. -/
structure KReply where
  knot : Nat
  who : KWho
  op : KOp
  status : Nat
deriving DecidableEq, Repr

/-- The types of tree message (R380, R385). -/
inductive TreeKind where
  | arrive | done | abort
deriving DecidableEq, Repr

/-- A tree message (R380, R384). -/
structure TreeMsg where
  kind : TreeKind
  knot : Nat
  src : Nat
  dst : Nat
  gen : Nat
  phase : Nat
  err : Bool
deriving DecidableEq, Repr

/-- An event message on its way to the gondola port (R561). -/
structure EvMsg where
  code : Nat
  source : Nat
  arg : Nat
deriving DecidableEq, Repr

/-- A notify record (R390). -/
structure Notify where
  en : Bool := false
  gon : Nat := 0
  knot : Nat := 0
deriving DecidableEq, Repr

/-- An operation pair of a gondola core or of the owner (R389, R390), with the staging buffer of its
writer (R370). `serial` numbers its operations. -/
structure KPair where
  arg : Nat := 0
  serial : Nat := 0
  waiting : Bool := false
  resValid : Bool := false
  resAborted : Bool := false
  resErr : Bool := false
  resValue : Nat := 0
  stage0 : Nat := 0
  stage1 : Nat := 0
  stage2 : Nat := 0
deriving DecidableEq, Repr

/-- The knots, their registers and the bridle messages in flight (R367 to R390); the bridle links of the package that are
lost (R388) the keel tick at which each was last heard, the heartbeats on their way, and the operations a commit holds back
(R488). -/
structure KnotSt where
  knots : Sparse Knot := []
  pairs : Sparse KPair := []
  notify : Sparse Notify := []
  linkLost : Bool := false
  semaOvf : Bool := false
  stale : Bool := false
  wrIgn : Bool := false
  aborts : Nat := 0
  semaOvfN : Nat := 0
  staleDrops : Nat := 0
  phaseDrops : Nat := 0
  bridleErr : Nat := 0
  ops : List KMsg := []
  heldOps : List KMsg := []
  replies : List KReply := []
  tree : List TreeMsg := []
  events : List EvMsg := []
  lostLinks : List Nat := []
  heard : Sparse Nat := []
  beats : List Nat := []
deriving DecidableEq, Repr

end Sys2Proof.Machine
end

