-- ==== Sys2Proof/Machine/StHost.lean ====
section
/-! DEFINITION. The state of the anchor (R498 to R516), the host port (R517 to R538), the ripcord logic
(R539 to R564), the gondola cores as the spec shows them (R544, R570) and the keel domain (R25 to R30). -/

namespace Sys2Proof.Machine

/-- The states of the device (R26). -/
inductive DevState where
  | off | keel | moored | rigged | aloft
deriving DecidableEq, Repr

/-- KEEL_DEV_STATE and KEEL_STATE_RES (R25, R29), the straps (R581), whether the boot ROM runs or has stopped (R498,
R499), and the bits on which the three copies of the keel state have disagreed, each with its keel tick (R540). -/
structure KeelSt where
  state : DevState := .keel
  target : DevState := .keel
  resDone : Bool := false
  resTo : Nat := 0
  resStatus : Nat := 0
  flashEn : Bool := false
  flashQuad : Bool := false
  booting : Bool := false
  stopped : Bool := false
  votes : List (Nat × Nat) := []
deriving DecidableEq, Repr

/-- An operation of the anchor (R508): a command of ANC_CMD, a VERIFY or COMMIT, an extend (R504), or an ATTEST's
quote or its read of the log from record `start` on. A report is formed as its operation starts. -/
inductive AncOp where
  | quote (body : List Byte)
  | attest (addr port : Nat) (nonce body : List Byte)
  | log (addr port start : Nat)
  | extend (mr kind serial : Nat) (fp digest : List Byte)
  | token (bytes : List Byte)
  | firmware (addr : Nat)
  | verify
  | commit
deriving DecidableEq, Repr

/-- The anchor (R498 to R516). Byte strings are little-endian in register order. -/
structure AncSt where
  fwRun : Bool := false
  logFull : Bool := false
  debug : Nat := 0
  selftest : Bool := true
  err : Bool := false
  op : Option AncOp := none
  resCode : Nat := 0
  resOp : Nat := 0
  quotes : Nat := 0
  fails : Nat := 0
  fwAddr : Nat := 0
  owner : Option (List Byte) := none
  nonce : List Byte := List.replicate 32 0
  challenge : List Byte := List.replicate 16 0
  challengeUsed : Bool := false
  draws : Nat := 0
  ext : List Byte := List.replicate 64 0
  report : List Byte := List.replicate 704 0
  token : List Byte := List.replicate 128 0
  mr : List (List Byte) := List.replicate 8 (List.replicate 64 0)
  log : List (List Byte) := []
  seq : Nat := 0
  waiting : List AncOp := []
  fwLoad : Nat := 0
  fwLen : Nat := 0
  fwEntry : Nat := 0
  fwProtect : Bool := false
deriving DecidableEq, Repr

/-- A command a session has accepted and not completed (R533, R534, R535): of a WRITE, the spans of its data that have
come, what came before it started, and whether a part was refused. -/
structure CmdSt where
  id : Nat
  queue : Nat
  cmd : HostCmd
  started : Bool := false
  bad : Bool := false
  early : List (Nat × List Byte) := []
  spans : List (Nat × Nat) := []
deriving DecidableEq, Repr

/-- What the host port sends: a datagram to an address and a port, its 32-byte header, its body and, when it is encrypted, its tag
(R522, R524); or an IPv6 packet of ICMPv6 (R520). -/
inductive Tx where
  | dgram (addr port : Nat) (bytes : List Byte)
  | packet (p : List Byte)
deriving DecidableEq, Repr

/-- What the host port has sent, and the PCP and VID of the tag of its frame, when it has one (R518). -/
structure TxFrame where
  tag : Option (Nat × Nat)
  tx : Tx
deriving DecidableEq, Repr

/-- A datagram held for resend: its SEQ, its bytes, and the keel tick at which it was last sent (R525). -/
structure Unacked where
  seq : Nat
  bytes : List Byte
  at' : Nat
deriving DecidableEq, Repr

/-- A session of the host port (R525 to R528, R534, R535). `unacked` are the datagrams held for resend, by SEQ, and
`outq` the types and bodies of those that wait for room among them; `owed` says that an acknowledgement is owed (R525). -/
structure Session where
  opening : Bool := false
  isOpen : Bool := false
  addr : Nat := 0
  port : Nat := 0
  hostKey : List Byte := []
  hello : List Byte := []
  reply : List Byte := []
  eph : Nat := 0
  txKey : List Byte := []
  rxKey : List Byte := []
  events : Bool := false
  expect : Nat := 0
  nextSeq : Nat := 0
  unacked : List Unacked := []
  outq : List (Nat × List Byte) := []
  dupAcks : Nat := 0
  lastAck : Nat := 0
  cmds : List CmdSt := []
  nextId : Nat := 0
  age : Nat := 0
  owed : Bool := false
deriving DecidableEq, Repr

/-- The states of the host port's link (R538). -/
inductive LinkState where
  | down | training | up
deriving DecidableEq, Repr

/-- The host port (R517 to R538). `sent` is what it has sent; while it obeys a PAUSE, up to keel tick `paused`, what it
would send waits in `heldTx`. Duplicate address detection runs up to keel tick `dadEnd` (R520). -/
structure HostSt where
  link : LinkState := .down
  dup : Bool := false
  auth : Bool := false
  evLost : Bool := false
  rto : Nat := 20
  idle : Nat := 10
  txRate : Nat := 0
  jumbo : Bool := true
  announce : Bool := true
  vlanEn : Bool := false
  pcp : Nat := 0
  pfc : Bool := false
  vid : Nat := 0
  authFail : Nat := 0
  resends : Nat := 0
  rlDrops : Nat := 0
  fcsErr : Nat := 0
  badDgram : Nat := 0
  sessions : Sparse Session := []
  sent : List TxFrame := []
  paused : Nat := 0
  heldTx : List Tx := []
  dadEnd : Nat := 0
  rlMs : Nat := 0
  rlCount : Nat := 0
deriving DecidableEq, Repr

/-- The ripcord logic (R539 to R564). `codeAt` is the keel tick at which the latched code came and `codePkg` says that it
is one of a package reset. -/
structure RipSt where
  wrIgn : Bool := false
  dieHeld : Nat := 0
  dieResetting : Nat := 0
  evtLost : Bool := false
  more : Bool := false
  fenceNew : Bool := false
  fault : Bool := false
  code : Nat := 0
  codeAt : Option Nat := none
  codePkg : Bool := false
  last : Nat := 0
  lastTick : Nat := 0
  autoDie : Bool := true
  evtGon : Nat := 0
  gonMs : Nat := 10
  waitMs : Nat := 10
  stallMs : Nat := 10
  evtBase : Nat := 0
  evtBaseSet : Bool := false
  head : Nat := 0
  tail : Nat := 0
  evtLostN : Nat := 0
  faults : Nat := 0
  corrected : Nat := 0
  fenced : List Nat := []
  sparesPending : List (Nat × Nat × Nat) := []
  gonIrq : List Nat := []
deriving DecidableEq, Repr

/-- A gondola core as the device shows it (R543, R544, R570). -/
structure Gon where
  mode : Nat := 0
  wfi : Bool := false
  pc : Nat := 0
  petTicks : Option Nat := none
deriving DecidableEq, Repr

end Sys2Proof.Machine
end

