-- ==== Sys2Proof/Machine/StRig.lean ====
section
/-! DEFINITION. The state of the rigging controller (R472 to R497): the live copy of the configuration,
the shadow store and the commit in progress. -/

namespace Sys2Proof.Machine

/-- The states of the rigging controller (R497). -/
inductive RigState where
  | empty | loading | verifying | verified | committing
deriving DecidableEq, Repr

/-- An interleave region (R300, R480). -/
structure Region where
  base : Nat
  size : Nat
  lbase : Nat
  set : Nat
  gran : Nat
deriving DecidableEq, Repr

/-- A knot range (R369, R481). -/
structure KRange where
  first : Nat
  count : Nat
  kind : Nat
  scope : Nat
  owner : Nat
  ctx : Nat
  tree : Nat
deriving DecidableEq, Repr

/-- A tree record (R380, R481). -/
structure TreeRec where
  parent : Nat := 0xFFFF
  children : List Nat := []
deriving DecidableEq, Repr

/-- One point of the power tables (R483). -/
structure PowerPoint where
  vset : Nat := 0
  full : Nat := 0
  other : Nat := 0
deriving DecidableEq, Repr

/-- The live copy of the configuration (R475 to R484). `bind` maps a logical core to 1 + its physical core, 0
when it is unbound; `spares` lists each die's spares in order. -/
structure Live where
  present : Bool := false
  bind : Sparse Nat := []
  spares : Sparse (List Nat) := []
  retired : Sparse (List Nat) := []
  mesh : Nat := 0
  regions : List Region := []
  ranges : List KRange := []
  trees : List TreeRec := []
  roles : List Nat := []
  power : List PowerPoint := []
  costs : Sparse W32 := []
  debug : Nat := 0
  sources : Nat := 0
  signer2 : List Byte := []
deriving DecidableEq, Repr

/-- The agents an image may come from (R484). -/
inductive RigSrc where
  | flash | host | gondola
deriving DecidableEq, Repr

/-- What a commit holds back beside the streams and arbiters of cores (R488): stack requests, the operations of every
knot, or of the group knots that use some tree records. -/
structure Holds where
  ileave : Bool := false
  knots : Bool := false
  treeLo : Nat := 0
  treeHi : Nat := 0
deriving DecidableEq, Repr

/-- The rigging controller (R485 to R497). `src` is the last writer of the staged image, `flashRead` says that the flash has
been read since the last entry to MOORED, `flashRun` that its launch runs, `flashFw` is the firmware found in it, and `commitAt` the keel tick at which the last commit began. -/
structure RigSt where
  live : Live := {}
  shadow : Memory := []
  state : RigState := .empty
  src : RigSrc := .host
  flashOk : Bool := false
  flashSeen : Bool := false
  flashRun : Bool := false
  wrIgn : Bool := false
  code : Nat := 0
  frame : Nat := 0xFF
  detail : Nat := 0
  page : Nat := 0
  quietTo : Nat := 100
  serial : Nat := 0
  commits : Nat := 0
  rejects : Nat := 0
  seedSkips : Nat := 0
  holds : Holds := {}
  flashRead : Bool := false
  flashFw : List Byte := []
  commitAt : Nat := 0
deriving DecidableEq, Repr

end Sys2Proof.Machine
end

