-- ==== Sys2Proof/Machine/StTether.lean ====
section
/-! DEFINITION. The state of the tether ports, the peer directory, the transfer contexts, the remote
requests and the reduction unit (R391 to R441). -/

namespace Sys2Proof.Machine

/-- The roles of a port (R392). -/
inductive PortRole where
  | off | direct | switch
deriving DecidableEq, Repr

/-- The states of a port (R438). -/
inductive PortState where
  | off | training | handshake | up | retraining
deriving DecidableEq, Repr

/-- A handshake in progress on a link or between two devices (R408, R409): the part this device plays, its
nonce and ephemeral secret, and the partner's as received. -/
structure Handshake where
  initiator : Bool
  peer : Nat := 0xFFFF
  nonce : List Byte := []
  eph : Nat := 0
  sent : List Byte := []
  got : List Byte := []
  stage : Nat := 0
  refused : Bool := false
deriving DecidableEq, Repr

/-- How a block that waits at a port is sealed as it goes out (R404): it is as it is, or it is encrypted with a flow key, or with the
port's link key. -/
inductive Seal where
  | done
  | flow (key : List Byte)
  | link
deriving DecidableEq, Repr

/-- A block that waits at a port; of a BRIDLE block of this device, `msgs` counts the messages placed in it (R402). -/
structure TxBlock where
  blk : Block
  how : Seal
  msgs : Nat := 0
deriving DecidableEq, Repr

/-- A flow (R401): class, source, destination and context, the next number to be given and the last one accepted. -/
structure Flow where
  cls : Nat
  src : Nat
  dst : Nat
  ctx : Nat
  next : Nat := 0
  last : Option Nat := none
deriving DecidableEq, Repr

/-- One tether port (R391 to R410, R438). `held` are the blocks kept for resend, `waiting` those not yet sent, `sent` the 296 bytes of
each block that has gone out; `ret` counts the buffers of a class freed since the handshake, `told` what the partner has been
told of them and `seen` what it has told, all modulo 2^14 (R399); `fails` counts the failures in succession of the block expected
next, `naked` says that a NAK for it is out, and `heard` is the keel tick of the last block accepted. `linkSeq` numbers the
port's LINK blocks, and `rxFlows` are the flows received under its link key. -/
structure Port where
  role : PortRole := .off
  state : PortState := .off
  lost : Bool := false
  refused : Bool := false
  auth : Bool := false
  down : Bool := false
  peerPort : Nat := 0
  peerRole : Nat := 0
  peerDev : Nat := 0xFFFF
  resends : Nat := 0
  retrains : Nat := 0
  crcErr : Nat := 0
  authFail : Nat := 0
  replay : Nat := 0
  ctrlRefused : Nat := 0
  hopDrops : Nat := 0
  noRoute : Nat := 0
  fwdBlocks : Nat := 0
  hsRefused : Nat := 0
  adds : Nat := 0
  lseq : Nat := 0
  expect : Nat := 0
  held : List Block := []
  waiting : List TxBlock := []
  credBridle : Nat := 32
  credResp : Nat := 256
  credReq : Nat := 256
  retBridle : Nat := 0
  retResp : Nat := 0
  retReq : Nat := 0
  toldBridle : Nat := 0
  toldResp : Nat := 0
  toldReq : Nat := 0
  seenBridle : Nat := 0
  seenResp : Nat := 0
  seenReq : Nat := 0
  fails : Nat := 0
  hs : Option Handshake := none
  linkKey : List Byte := []
  sent : List (List Byte) := []
  naked : Bool := false
  heard : Nat := 0
  linkSeq : Nat := 0
  rxFlows : List Flow := []
deriving DecidableEq, Repr

/-- The keys shared with a peer (R404, R406): the flow key of each direction, and the ones before them. -/
structure PeerKey where
  dev : Nat
  tx : List Byte
  rx : List Byte
  oldRx : List Byte := []
  epochTx : Bool := false
  epochRx : Bool := false
deriving DecidableEq, Repr

/-- The states of a directory entry (R412). -/
inductive PeerState where
  | absent | expected | up | lost | refused | self
deriving DecidableEq, Repr

/-- A peer directory entry (R411). `heard` is the keel tick of the last bridle block from the device (R410). -/
structure Peer where
  state : PeerState := .absent
  flags : Nat := 0
  ports : Nat := 0
  nextDev : Nat := 0
  appears : Nat := 0
  seen : Nat := 0
  fp : List Byte := []
  heard : Nat := 0
deriving DecidableEq, Repr

/-- The states of a transfer context (R440). -/
inductive CtxState where
  | closed | opened | draining
deriving DecidableEq, Repr

/-- A transfer context (R420 to R424, R440). `since` is the keel tick at which it began to drain. -/
structure Ctx where
  state : CtxState := .closed
  gen : Nat := 0
  drain : Nat := 100
  lo : Nat := 0
  hi : Nat := 0xFFFE
  drops : Nat := 0
  since : Nat := 0
deriving DecidableEq, Repr

/-- Who waits for a remote request (R85, R93, R242, R431). -/
inductive ReqWho where
  | load (c : Nat) (x : Stream) (d size : Nat) (signed : Bool)
  | store (c : Nat) (x : Stream)
  | vec (c : Nat) (x : Stream) (id : Nat)
  | reel (c r : Nat)
deriving DecidableEq, Repr

/-- A remote request sent and not yet answered: its tag, context, generation and device, the address of
its 256-byte block, the bytes of it that matter, and, for a read, where they go in the requester's data. `merge` holds the
bytes of a write that is no whole number of aligned 4-byte words, while the words around it are being read. -/
structure Req where
  tag : Nat
  who : ReqWho
  write : Bool
  ctx : Nat
  gen : Nat
  dev : Nat
  addr : Nat
  len : Nat
  pos : Nat := 0
  done : Bool := false
  fault : Nat := 0
  data : List Byte := []
  poison : List Bool := []
  merge : List (BitVec 8 × Bool) := []
deriving DecidableEq, Repr

/-- A remote write being received: entries whose WRITE_DATA blocks have not all come (R407). -/
structure RxWrite where
  flow : Nat × Nat × Nat
  entries : List (Nat × Nat × Nat)
deriving DecidableEq, Repr

/-- A reduction header whose data blocks have not all come (R431, R432). -/
structure RxReduce where
  flow : Nat × Nat × Nat
  bucket : Nat
  slot : Nat
  seg : Nat
  part : Nat
  left : Nat
  at' : Nat
  drop : Bool
deriving DecidableEq, Repr

/-- An armed bucket (R426 to R436): its slot, the group and bucket records as the unit took them, the generation its context had, what has
been put, present (slot and part), ready, combined, taken and being worked on (part and port), the parts of the result that
are in RESULT (segment and part), whether the own segment has been sent, and whether the arrive on DONE_KNOT has left. -/
structure Armed where
  slot : Nat
  bucket : Nat
  group : List Byte
  record : List Byte
  gen : Nat := 0
  put : Bool := false
  present : List (Nat × Nat) := []
  ready : List Nat := []
  combined : List Nat := []
  taken : List Nat := []
  working : List (Nat × Nat) := []
  results : List (Nat × Nat) := []
  sentResult : Bool := false
  done : Bool := false
deriving DecidableEq, Repr

/-- The ports, directory, contexts, remote traffic and reduction unit (R391 to R441). -/
structure TetherSt where
  ports : Sparse Port := []
  flows : List Flow := []
  keys : List PeerKey := []
  e2e : List Handshake := []
  peers : Sparse Peer := []
  peerStage : Sparse (List Byte) := []
  peerOpen : Sparse Nat := []
  switchFp : Sparse (List Byte) := []
  admitNew : Bool := false
  bcast : Nat := 0
  peerWrIgn : Bool := false
  self : Nat := 0xFFFF
  ctxs : Sparse Ctx := []
  ctxBadState : Bool := false
  reqs : List Req := []
  nextTag : Nat := 0
  rxWrites : List RxWrite := []
  rxReduces : List RxReduce := []
  redBase : Nat := 0
  armed : List Armed := []
  redErr : Bool := false
  redCode : Nat := 0
  redBucket : Nat := 0
  redLate : Nat := 0
  redMismatch : Nat := 0
  redTaken : Nat := 0
deriving DecidableEq, Repr

end Sys2Proof.Machine
end

