-- ==== Sys2Proof/Machine/StCore.lean ====
section
/-! DEFINITION. The state of a compute core's sequencer (R69 to R116): streams, reels, credits, the
accesses it waits for, and the array with its tail (R117 to R187). -/

namespace Sys2Proof.Machine

/-- The states of a stream (R112). -/
inductive StState where
  | halted | running | waiting | exception
deriving DecidableEq, Repr

/-- The kinds of wait of a stream (R112, R563); `far` is that for the answer to its own remote access. -/
inductive WaitKind where
  | knot | twait | rwait | crdWait | tileQueue | credit | remote | far
deriving DecidableEq, Repr

/-- A scalar register whose value is still on its way (R78): the register and the ticket of the operation
that will write it. -/
structure PendReg where
  reg : Nat
  ticket : Nat
deriving DecidableEq, Repr

/-- What a WATCH.CLOSE waits for (R220), fixed when it is first presented: what issued before ticket `ticket`, the remote
requests then outstanding, and the descriptors that had left the pending ones of each reel or were pending. -/
structure CloseSet where
  ticket : Nat := 0
  tags : List Nat := []
  gone0 : Nat := 0
  gone1 : Nat := 0
deriving DecidableEq, Repr

/-- One stream of a core (R69 to R71, R112, R114). `waitTicks` is the WAIT watchdog's count (R543);
`stopReq` marks a stream that has been stopped while its knot operation or remote access is on its way (R111);
`startReq` that its start is held back by a commit (R488);
`waitCost` is the cost of the instruction that waits for credit (R454). `closeAt` is what its
WATCH.CLOSE waits for, and `closed` says that it has sent its merges (R220). -/
structure StreamSt where
  s : Sparse W64 := []
  a : Sparse W64 := []
  p : Sparse Bool := []
  pc : Nat := 0
  state : StState := .halted
  wait : WaitKind := .knot
  excCode : Nat := 0
  excPc : Nat := 0
  aovf : Bool := false
  div0 : Bool := false
  pend : List PendReg := []
  waitTicks : Nat := 0
  stopReq : Bool := false
  startReq : Bool := false
  waitCost : Nat := 0
  closeAt : Option CloseSet := none
  closed : Bool := false
deriving DecidableEq, Repr

/-- A descriptor a reel has in progress (R95): its ring index, its 64 bytes as read at its start, the code
of its failure or 0, whether its data has been moved, the remote requests it waits for, its guard, for
BALLAST the segments accepted so far, those of them not yet complete and the one sent and not yet accepted, and the generation its context had at its start. -/
structure ReelProg where
  idx : Nat
  owner : Stream
  desc : List Byte
  code : Nat := 0
  moved : Bool := false
  reqs : List Nat := []
  guard : Option Nat := none
  segs : Nat := 0
  segIds : List Nat := []
  sent : Option Nat := none
  gen : Nat := 0
deriving DecidableEq, Repr

/-- One reel (R93 to R96, R116). `owners` holds, for every pending descriptor, the stream whose REEL.GO
made it pending; `waitCost` is the cost of a descriptor that waits for credit (R454); `gone` counts the descriptors that have
ceased to be pending. -/
structure Reel where
  sizeM1 : Nat := 0
  base : Nat := 0
  head : Nat := 0
  tail : Nat := 0
  pending : Nat := 0
  err : Nat := 0
  errIdx : Nat := 0
  stopped : Bool := false
  prog : List ReelProg := []
  owners : List Stream := []
  waitCost : Nat := 0
  gone : Nat := 0
deriving DecidableEq, Repr

/-- A scalar load whose data has been read and is on its way to register d (R78). -/
structure LoadRet where
  x : Stream
  d : Nat
  ticket : Nat
  v : W64
deriving DecidableEq, Repr

/-- A guarded prefetch (R319 to R324): its serial number, which no later guard of its core has, the guarded span, the
descriptor it belongs to, and its state: `first` until its first copy has completed, `copying` while a re-copy runs,
`again` when a notice has come during it. -/
structure Guard where
  uid : Nat := 0
  base : Nat
  last : Nat
  reel : Nat
  ringIdx : Nat
  desc : List Byte
  stale : Bool := false
  unwatched : Bool := false
  first : Bool := true
  copying : Bool := false
  again : Bool := false
  recopies : Nat := 0
deriving DecidableEq, Repr

/-- The kinds of array operation (R148). -/
inductive TileKind where
  | fwd | ig | wg | dist | spill
deriving DecidableEq, Repr

/-- An array operation as it was issued (R92, R148, R151): its number among issues and, once granted,
among grants; its descriptors as read at issue, whether R214 makes its operands INT8, its energy class and its jobs. -/
structure Tile where
  id : Nat := 0
  gid : Nat := 0
  x : Stream
  kind : TileKind
  pair : Bool := false
  loadw : Bool := false
  start : Bool := false
  op : Nat := 0
  add : Bool := false
  checkOnly : Bool := false
  forced : Bool := false
  addr : Nat := 0
  desc : List Byte := []
  sdesc : List Byte := []
  wdesc : List Byte := []
  odesc : List Byte := []
  corr : List Byte := []
  job : List Byte := []
  sFall : Bool := false
  wFall : Bool := false
  cls : Nat := 0
  vectors : Nat := 0
  loftEntries : List Nat := []
deriving DecidableEq, Repr

/-- One element of a scaled operand as the feeders read it: its image, its block exponent, whether its block counts as scale
0xFF, whether its own code byte is lost, whether it is a carried outlier, and its lane value (R188). -/
structure El where
  img : Int := 0
  b : Int := 0
  bad : Bool := false
  lost : Bool := false
  outl : Bool := false
  u : Nat := 0
deriving DecidableEq, Repr

/-- Where an armed fault strikes a tile (R160): the streamed line, the other line, the reduction index and the bit. -/
structure Flip where
  i : Nat
  j : Nat
  k : Nat
  bit' : Nat
deriving DecidableEq, Repr

/-- A tile that has started (R129) and whose sums are on their way: its number (R157), its tile exponent (R164), the streamed
lines and the lines they meet as its feeders and cells hold them, whether an injected fault is applied in it, where and the
column its comparison names (R160), for each vector the residue that the checksum cells predict and that of the cells the
tile does not use (R139), the ac of streaming left (R130), the blocks its tail cannot write (R595) and the top-k
configuration it feeds (R185). -/
structure RunTile where
  tile : Tile
  seq : Nat
  etile : Int := 0
  xs : List (List El) := []
  ws : List (List El) := []
  inj : Bool := false
  flip : Option Flip := none
  injCol : Nat := 0xFF
  pred : List Nat := []
  rest : List Nat := []
  left : Nat := 0
  xfault : Bool := false
  wfail : List Nat := []
  tkCfg : Nat := 0
  tkBase : Nat := 0
  tkLine0 : Nat := 0
deriving DecidableEq, Repr

/-- The stationary registers of one cell, WT and WX or SWT and SWX (R120, R127, R595): whether the tile that loaded weights last
used the cell, the integer image of its code, its block exponent, whether its block counts as scale 0xFF or its code was
lost, and whether its lane value is a NaN (R188). -/
structure WtCell where
  loaded : Bool := false
  img : Int := 0
  b : Int := 0
  bad : Bool := false
  lost : Bool := false
  uNan : Bool := false
deriving DecidableEq, Repr

/-- One sum or accumulator of a cell (R120): its value, saturation and NaN marks (R145, R166) and check residue (R139, R140). -/
structure AccCell where
  v : Int := 0
  sat : Bool := false
  nan : Bool := false
  ck : Nat := 0
deriving DecidableEq, Repr

/-- The array and its tail (R117 to R187). Cells are keyed by 256 times the logical row plus the tile's column. `wt` holds WT and
WX, `swt` SWT and SWX, `ss` and `es` SS and ES with their residues as the last vector to pass left them, `dl` DL by column,
`acc` ACC; `cCol` and `cRow` hold the stationary values of the checksum column by row and of the checksum row by column (R138),
`ckCol`, `ckRow` and `ckCorner` the residues of their ACC (R140), by logical row and by physical column. `tkClears` are the pairs whose
records an ARM has yet to empty (R185). -/
structure ArrSt where
  tqA : List Tile := []
  tqB : List Tile := []
  granted : List Tile := []
  running : List RunTile := []
  spills : List Tile := []
  spilling : Option (Tile × Nat) := none
  wt : Sparse WtCell := []
  swt : Sparse WtCell := []
  cCol : Sparse Nat := []
  cRow : Sparse Nat := []
  ss : Sparse AccCell := []
  es : Sparse AccCell := []
  dl : Sparse Int := []
  wtLoaded : Bool := false
  wtFmt : Nat := 0
  wtPair : Bool := false
  acc : Sparse AccCell := []
  ckCol : Sparse Nat := []
  ckRow : Sparse Nat := []
  ckCorner : Nat := 0
  accSlot : Nat := 0
  xfault : Bool := false
  spillMismatch : Bool := false
  accPaired : Bool := false
  unchecked : Bool := false
  halted : Bool := false
  chkFail : Bool := false
  accDiscard : Bool := false
  dirty : Bool := false
  paused : Bool := false
  tileSeq : Nat := 0
  logSet : Bool := false
  logKind : Nat := 0
  logRow : Nat := 0x3FF
  logCol : Nat := 0xFF
  logTile : Nat := 0
  chkTimer : Nat := 0
  forcedChecks : Nat := 0
  injRow : Nat := 0
  injCol : Nat := 0
  injBit : Nat := 0
  armed : Bool := false
  armRow : Nat := 0
  armCol : Nat := 0
  armBit : Nat := 0
  accInj : Option Nat := none
  grantSeq : Nat := 0
  eRes : Int := 0
  eResFresh : Bool := false
  eLast : Int := 0
  frameSat : Nat := 0
  pairSat : Nat := 0
  spoolSat : Nat := 0
  peak : Nat := 0
  peakLast : Nat := 0
  tkCfg : Nat := 0
  tkBase : Nat := 0
  tkCfgOn : Nat := 0
  tkBaseOn : Nat := 0
  tkNextCfg : Option (Nat × Nat) := none
  tkClears : List (Nat × Nat) := []
  tkLine0 : Option Nat := none
  eRow : Sparse Int := []
deriving DecidableEq, Repr

end Sys2Proof.Machine
end

