-- ==== Sys2Proof/Machine/StVec.lean ====
section
/-! DEFINITION. The state of a compute core's correction lane and precision watch (R188 to R226), its
vector engine (R227 to R264) and its loft manager (R270 to R296), and the core that holds them all. -/

namespace Sys2Proof.Machine

/-- A COR instruction accepted by the lane (R195, R200): its lane descriptor and the tensor descriptors
as read at issue, and the number of the array operation that issued last before it. -/
structure CorOp where
  x : Stream
  expand : Bool
  id : Nat
  desc : List Byte
  adesc : List Byte
  fdesc : List Byte
  aFall : Bool := false
deriving DecidableEq, Repr

/-- The correction lane (R188 to R203, R225). -/
structure LaneSt where
  queue : List CorOp := []
  chkFail : Bool := false
  outlIgn : Bool := false
  terms : Nat := 0
  busy : Nat := 0
deriving DecidableEq, Repr

/-- A watch slot that a core holds (R210). -/
structure HeldSlot where
  slot : Nat
  nexpOut : Int := 0
  nexpGrad : Int := 0
  ovfW : Bool := false
  flags : Nat := 0
  sat : Nat := 0
  flush : Nat := 0
  elems : Nat := 0
  nsqOut : Nat := 0
  nsqGrad : Nat := 0
deriving DecidableEq, Repr

/-- The precision watch of a core (R204 to R226). Held slots are kept in order of use, the least recent
first. `verdict` is the verdict phase, `verdictOut` says that the reply to the last WATCH.VERDICT, the one with ticket
`verdictId`, has not come, and `stepA` and `stepB` hold the ticket of a WATCH.STEP of that stream that waits for it. -/
structure WatchSt where
  lost : Bool := false
  nonfinite : Bool := false
  outlierOvf : Bool := false
  stepOvf : Bool := false
  valid : Bool := false
  base : Nat := 0
  merges : Nat := 0
  fb : Nat := 0
  held : List HeldSlot := []
  unacked : Nat := 0
  verdict : Option Nat := none
  verdictOut : Bool := false
  verdictKnot : Nat := 0
  verdictId : Nat := 0
  stepA : Option Nat := none
  stepB : Option Nat := none
deriving DecidableEq, Repr

/-- The operations of the vector engine (R243 to R262). -/
inductive VOp where
  | add | sub | mul | min | max | abs | and | or | xor | andn | shl | shr | sra | popc
  | fadd | fsub | fmul | fma | fmin | fmax | fabs | fneg | cvt
  | exp2 | exp | log2 | ln | rcp | sqrt | rsqrt | div | tanh | sigm | erf | sinpi | cospi
  | redSum | redProd | redMax | redMin | redCount | redMean | redSumsq
  | tredSum | tredSumsq | tredMax | tredMin
  | smax | topk | cmpk | quant | deq
  | ld | st | mov | fill | transp | spl | splexp | flags
deriving DecidableEq, Repr

/-- A vector instruction accepted by the engine (R234, R235): its fields, the scalar and address registers
it read at issue, its context and the generation that had then, the byte offsets of its operands in the two stores, the descriptor it named, the remote requests it
waits for, and the addresses of accesses that have failed since it issued (R242). -/
structure VInsn where
  id : Nat
  x : Stream
  op : VOp
  low : BitVec 48
  sa : W64 := 0
  sb : W64 := 0
  sv : W64 := 0
  aa : W64 := 0
  ctx : Nat := 0
  gen : Nat := 0
  dOff : Nat := 0
  aOff : Nat := 0
  bOff : Nat := 0
  kOff : Nat := 0
  desc : List Byte := []
  fall : Bool := false
  started : Bool := false
  reqs : List Nat := []
  fails : List Nat := []
  xfault : Bool := false
deriving DecidableEq, Repr

/-- The vector engine (R227 to R264). The stores are one memory: the tile file at bytes 0 to 0x3_FFFF and
the operand cache from 0x4_0000 on. -/
structure VecSt where
  store : Memory := []
  queue : List VInsn := []
  flagsA : Nat := 0
  flagsB : Nat := 0
  srState : Nat := 1
  srWrite : Option Nat := none
  busy : Nat := 0
  clearing : Bool := false
deriving DecidableEq, Repr

/-- A copy the loft manager has in progress (R279, R281): the entry, the first overflow page and the first
loft page. -/
structure LoftCopy where
  entry : Nat
  ovf : Nat
  page : Nat
  isRecall : Bool
deriving DecidableEq, Repr

/-- The loft manager (R270 to R283, R295, R296). `waitAlloc` holds entries whose allocation waits for the
spill it started; `waitRecall` those whose recall waits for space. -/
structure LoftSt where
  dirBase : Nat := 0
  en : Bool := false
  page0 : Nat := 0
  ovf : Nat := 0
  ovfPages : Nat := 0
  spills : Nat := 0
  recalls : Nat := 0
  drops : Nat := 0
  stamp : Nat := 0
  copies : List LoftCopy := []
  waitAlloc : List Nat := []
  waitRecall : List Nat := []
deriving DecidableEq, Repr

/-- One physical compute core (R69 to R296). `stallTicks` is the STALL watchdog's count (R543);
`spent` and `stallIv` are what its interval report has not yet told the envelope (R454); `waking` marks a
sleeping core that an event has reached (R446); `startHold` and `grantHold` that a commit holds back the starts of its
streams, or the grants of its arbiter (R488). -/
structure Core where
  sa : StreamSt := {}
  sb : StreamSt := {}
  haltBoth : Bool := false
  wrIgn : Bool := false
  asleep : Bool := false
  wasAwake : Bool := true
  idleTicks : Nat := 0
  ctxA : Nat := 0
  ctxB : Nat := 0
  arbFirst : Bool := true
  wa : Nat := 1
  wb : Nat := 2
  turn : Stream := .b
  g : Nat := 2
  credit : Nat := 0
  cap : Nat := 0x10000
  lost : Nat := 0
  creditStall : Nat := 0
  cost : Sparse W32 := []
  reel0 : Reel := {}
  reel1 : Reel := {}
  scratch : Memory := []
  loft : Memory := []
  spool : Memory := []
  loads : List LoadRet := []
  nextTicket : Nat := 1
  guards : List (Nat × Guard) := []
  nextGuard : Nat := 1
  arr : ArrSt := {}
  lane : LaneSt := {}
  watch : WatchSt := {}
  vec : VecSt := {}
  loftM : LoftSt := {}
  stallTicks : Nat := 0
  spent : Nat := 0
  stallIv : Nat := 0
  waking : Bool := false
  fenced : Bool := false
  resetting : Bool := false
  retired : List Nat := []
  startHold : Bool := false
  grantHold : Bool := false
deriving DecidableEq, Repr

end Sys2Proof.Machine
end

