-- ==== Sys2Proof/Machine/State.lean ====
section
/-! DEFINITION. The state of the device, and its state after reset. -/

namespace Sys2Proof.Machine

/-- The reasons a step can stop with a fault: there are none, since every event of the spec leads to a next
state. -/
inductive Fault where
deriving DecidableEq, Repr

/-- The reasons a step can be refused. -/
inductive Refusal where
  /-- Raised by the dispatch of a command that has no meaning yet. Safe: the machine stops. -/
  | notModelled (mnemonic : String)
deriving DecidableEq, Repr

/-- A slot merge on its way to the stack that holds the record (R210): the physical core that sent it, the
table it goes to and the counts it carries. -/
structure Merge where
  core : Nat
  base : Nat
  held : HeldSlot
deriving DecidableEq, Repr

/-- A slack or resume notice on its way to the controller (R467). -/
structure PaceMsg where
  resume : Bool
  src : Nat
  group : Nat
  seq : Nat
  reason : Nat
  rate : Nat
  duration : Nat
deriving DecidableEq, Repr

/-- The device (R1). `pending` is the queue of commands, first in, first out. `lastRead` is the value the
last register read returned. `stale` holds the stale notices on their way, each with its core and guard (R322). -/
structure State where
  pending : List Instr := []
  keel : KeelSt := {}
  cores : Sparse Core := []
  stks : Sparse Stack := []
  knot : KnotSt := {}
  teth : TetherSt := {}
  env : EnvSt := {}
  rig : RigSt := {}
  anc : AncSt := {}
  host : HostSt := {}
  rip : RipSt := {}
  gons : Sparse Gon := []
  gonCe : Nat := 0
  merges : List Merge := []
  stale : List (Nat × Nat) := []
  pace : List PaceMsg := []
  nextSeg : Nat := 0
  acc : AccSt := {}
  lastRead : Nat := 0
deriving DecidableEq, Repr

/-- The device after the release of its keel power-on reset (R25, R27): in KEEL, with nothing listed in any
store and every register at its reset value. DESIGN CHOICE where the spec gives no value, log entry 3. -/
def State.reset : State := {}

end Sys2Proof.Machine
end

