-- ==== Sys2Proof/Machine/Ops.lean ====
section
/-! DEFINITION. The named operations over the state: accessors of the parts, events and ripcord reports,
global addresses (R34, R108), the interleave map (R299 to R302), and reads and writes of device memory with
poison, stale notices and guards (R307 to R324). -/

namespace Sys2Proof.Machine

/-! ### Accessors -/

/-- Physical core c (R12). -/
def State.core (s : State) (c : Nat) : Core := sget {} s.cores c
/-- Physical core c replaced. -/
def State.setCore (s : State) (c : Nat) (k : Core) : State := { s with cores := sset {} s.cores c k }
/-- Physical core c changed. -/
def State.updCore (s : State) (c : Nat) (f : Core → Core) : State := s.setCore c (f (s.core c))
/-- Stream x of a core. -/
def Core.st (k : Core) : Stream → StreamSt
  | .a => k.sa
  | .b => k.sb
/-- Stream x of a core replaced. -/
def Core.setSt (k : Core) (x : Stream) (t : StreamSt) : Core :=
  match x with
  | .a => { k with sa := t }
  | .b => { k with sb := t }
/-- The context of a stream's remote accesses (R114). -/
def Core.ctx (k : Core) : Stream → Nat
  | .a => k.ctxA
  | .b => k.ctxB
/-- Reel r of a core. -/
def Core.reel (k : Core) (r : Nat) : Reel := if r = 0 then k.reel0 else k.reel1
/-- Reel r of a core replaced. -/
def Core.setReel (k : Core) (r : Nat) (q : Reel) : Core :=
  if r = 0 then { k with reel0 := q } else { k with reel1 := q }
/-- The number of a stream in an event's ARG (R563). -/
def sNum : Stream → Nat
  | .a => 0
  | .b => 1
/-- The other stream. -/
def sOther : Stream → Stream
  | .a => .b
  | .b => .a
/-- Stack i (R11). -/
def State.stk (s : State) (i : Nat) : Stack := sget {} s.stks i
/-- Stack i replaced. -/
def State.setStk (s : State) (i : Nat) (t : Stack) : State := { s with stks := sset {} s.stks i t }
/-- Stack i changed. -/
def State.updStk (s : State) (i : Nat) (f : Stack → Stack) : State := s.setStk i (f (s.stk i))
/-- The ballast engine of stack i changed. -/
def State.updBal (s : State) (i : Nat) (f : BalSt → BalSt) : State :=
  s.updStk i (fun t => { t with bal := f t.bal })
/-- Tether port p. -/
def State.port (s : State) (p : Nat) : Port := sget {} s.teth.ports p
/-- Tether port p changed. -/
def State.updPort (s : State) (p : Nat) (f : Port → Port) : State :=
  { s with teth := { s.teth with ports := sset {} s.teth.ports p (f (s.port p)) } }
/-- Knot k (R368). -/
def State.kn (s : State) (k : Nat) : Knot := sget {} s.knot.knots k
/-- Knot k replaced. -/
def State.setKn (s : State) (k : Nat) (e : Knot) : State :=
  { s with knot := { s.knot with knots := sset {} s.knot.knots k e } }
/-- Operation pair g (R389). -/
def State.pair (s : State) (g : Nat) : KPair := sget {} s.knot.pairs g
/-- Operation pair g changed. -/
def State.updPair (s : State) (g : Nat) (f : KPair → KPair) : State :=
  { s with knot := { s.knot with pairs := sset {} s.knot.pairs g (f (s.pair g)) } }
/-- Transfer context c (R420): record 0xFFF is always OPEN with GEN 0. -/
def State.ctx (s : State) (c : Nat) : Ctx :=
  if c = 0xFFF then { sget {} s.teth.ctxs c with state := .opened, gen := 0 } else sget {} s.teth.ctxs c
/-- Transfer context c changed. -/
def State.updCtx (s : State) (c : Nat) (f : Ctx → Ctx) : State :=
  { s with teth := { s.teth with ctxs := sset {} s.teth.ctxs c (f (sget {} s.teth.ctxs c)) } }
/-- The directory entry of device d (R411). -/
def State.peer (s : State) (d : Nat) : Peer := sget {} s.teth.peers d
/-- The directory entry of device d replaced. -/
def State.setPeer (s : State) (d : Nat) (e : Peer) : State :=
  { s with teth := { s.teth with peers := sset {} s.teth.peers d e } }
/-- Gondola core g. -/
def State.gon (s : State) (g : Nat) : Gon := sget {} s.gons g
/-- Gondola core g changed. -/
def State.updGon (s : State) (g : Nat) (f : Gon → Gon) : State :=
  { s with gons := sset {} s.gons g (f (s.gon g)) }
/-- Session slot n, 1 to 4 (R522). -/
def State.sess (s : State) (n : Nat) : Session := sget {} s.host.sessions n
/-- Session slot n changed. -/
def State.updSess (s : State) (n : Nat) (f : Session → Session) : State :=
  { s with host := { s.host with sessions := sset {} s.host.sessions n (f (s.sess n)) } }
/-- The ac in one keel tick at the point the burners are at (R442, R447): 400 + 50p MHz over 50 MHz. -/
def State.acPerKt (s : State) : Nat := 8 + s.env.cur

/-! ### Bindings (R12, R13, R477) -/

/-- The die of a physical core. -/
def dieOfCore (c : Nat) : Nat := c / 100
/-- The physical core bound to a logical number, when there is one. -/
def State.phys (s : State) (l : Nat) : Option Nat :=
  if l < 384 then
    match sget 0 s.rig.live.bind l with
    | 0 => none
    | n + 1 => some n
  else none
/-- The logical number a physical core is bound to, when there is one. -/
def State.logical (s : State) (c : Nat) : Option Nat :=
  (s.rig.live.bind.find? (fun p => p.2 == c + 1)).map (·.1)
/-- The logical number an event names for a physical core: 0xFFFF when it has none. -/
def State.logNum (s : State) (c : Nat) : Nat := (s.logical c).getD 0xFFFF
/-- Whether die d is isolated or resetting (R546, R554). -/
def State.dieOut (s : State) (d : Nat) : Bool := bit d s.rip.dieHeld || bit d s.rip.dieResetting

/-! ### Events and ripcord reports (R545, R558 to R561) -/

/-- An event is sent to the gondola runtime (R561). -/
def State.event (s : State) (code source arg : Nat) : State :=
  { s with knot := { s.knot with events := s.knot.events ++ [{ code, source, arg }] } }

/-- A ripcord code (R558). -/
def ripCode (domain block cause : Nat) : Nat := domain * 0x1000000 + block * 0x10000 + cause

/-- The ripcord logic receives a fault (R545), before its action. -/
def State.report (s : State) (code : Nat) : State :=
  ({ s with rip := { s.rip with last := code, lastTick := s.env.ticks, faults := cnt s.rip.faults 1,
                                 fault := true } } : State).event 0x60 0 code

/-- A reset code is latched (R558): the first one since RIP_CODE was cleared; of several in one keel tick a package code
before a die code, and the lower of equal scope. DESIGN CHOICE, log entry 76. -/
def State.latch (s : State) (pkg : Bool) (code : Nat) : State :=
  let r := s.rip
  let first := r.code = 0
  let before := r.codeAt = some s.env.ticks ∧ ((pkg ∧ !r.codePkg) ∨ (pkg = r.codePkg ∧ code < r.code))
  let r := if first ∨ before then { r with code := code, codeAt := some s.env.ticks, codePkg := pkg } else r
  { s with rip := { r with more := s.rip.more || s.rip.code ≠ 0 } }

/-- The ripcord code of a stack's fault (R559). -/
def stackCode (st cause : Nat) : Nat := ripCode (0x10 + st / 4) (0x10 + st % 4) cause
/-- The ripcord code of a tether port's fault (R559). -/
def portCode (p cause : Nat) : Nat := ripCode (0x10 + p / 3) (0x20 + p % 3) cause
/-- The ripcord code of a compute core's fault (R559). -/
def coreCode (c cause : Nat) : Nat := ripCode (0x20 + c / 100) (c % 100) cause

/-! ### Global addresses (R34, R108, R299) -/

/-- The device field of a global address. -/
def aDev (a : Nat) : Nat := fld 63 48 a
/-- The space field of a global address. -/
def aSpace (a : Nat) : Nat := fld 47 44 a
/-- The offset field of a global address. -/
def aOff (a : Nat) : Nat := fld 43 0 a
/-- A global address of this device. -/
def State.ownAddr (s : State) (space off : Nat) : Nat := s.teth.self * 2 ^ 48 + space * 2 ^ 44 + off
/-- 768 GiB: the end of space 0x0 (R299). -/
def stackEnd : Nat := 0xC000000000
/-- 48 GiB: the end of one stack's local addresses (R298). -/
def stackLocalEnd : Nat := 0xC00000000

/-- The region in force when no interleave frame is (R302). -/
def defaultRegion : Region := { base := 0, size := stackEnd, lbase := 0, set := 0xFFFF, gran := 12 }

/-- The regions in force (R300, R302). -/
def State.regions (s : State) : List Region :=
  if s.rig.live.regions.isEmpty then [defaultRegion] else s.rig.live.regions

/-- The region that holds an offset of space 0x0. -/
def State.regionOf (s : State) (o : Nat) : Option Region :=
  s.regions.find? (fun r => decide (r.base ≤ o) && decide (o < r.base + r.size))

/-- The XOR of successive k-bit fields of g (R301). -/
def foldXor (k : Nat) : Nat → Nat → Nat
  | 0, _ => 0
  | fuel + 1, g => if g = 0 then 0 else (g % 2 ^ k) ^^^ foldXor k fuel (g >>> k)

/-- Where an offset of a region lies: the stack and the stack-local address (R301). -/
def Region.map (r : Region) (o : Nat) : Nat × Nat :=
  let g := (o - r.base) >>> r.gran
  let sets := setBits 16 r.set
  let k := sets.length.log2
  let slot := if k = 0 then 0 else foldXor k 44 g
  (sets.getD slot 0, r.lbase + ((g >>> k) <<< r.gran) + o % 2 ^ r.gran)

/-- Where a byte of device memory lies: a stack and its local address, or a store of a physical core, or the
control space, or another device; `bad` for an address R34, R108, R299, R493 or R555 refuses. -/
inductive Loc where
  | stack (st a : Nat)
  | scratch (c off : Nat)
  | loft (c off : Nat)
  | spool (c off : Nat)
  | ctrl (off : Nat)
  | remote (dev : Nat)
  | bad
deriving DecidableEq, Repr

/-- Where a global address leads (R34, R35, R108, R299). -/
def State.locate (s : State) (a : Nat) : Loc :=
  if aDev a = 0xFFFF then .bad
  else if aDev a ≠ s.teth.self then .remote (aDev a)
  else
    let o := aOff a
    match aSpace a with
    | 0 =>
      if o < stackEnd then
        match s.regionOf o with
        | some r => let m := r.map o; if s.dieOut (m.1 / 4) then .bad else .stack m.1 m.2
        | none => .bad
      else .bad
    | 1 =>
      match s.phys (o / 0x400000) with
      | some c => if s.dieOut (dieOfCore c) || (s.core c).fenced then .bad else .scratch c (o % 0x400000)
      | none => .bad
    | 2 =>
      match s.phys (o / 0x400000) with
      | some c =>
        if s.dieOut (dieOfCore c) || (s.core c).fenced then .bad
        else
          let b := o % 0x400000
          if b < 0x300000 then .loft c b else .spool c (b - 0x300000)
      | none => .bad
    | 15 => .ctrl o
    | _ => .bad

/-! ### Requests to a stack (R306, R312 to R317) -/

/-- The outstanding requests of a source at a stack, held ones and those in the mesh included (R314). -/
def Stack.outOf (t : Stack) (q : ReqSrc) : List StackReq :=
  (t.slots.map (·.req)).filter (fun r => r.src == q) ++ (t.heldReqs ++ t.meshQ).filter (fun r => r.src == q)

/-- Whether a source may send another request for a bank of stack st (R314, R362). -/
def State.mayAsk (s : State) (st : Nat) (src : ReqSrc) (bank : Nat) : Bool :=
  let mine := (s.stk st).outOf src
  let some' := decide ((mine.filter (fun r => blkBank r.block == bank)).length < 32)
  match src with
  | .ballast i =>
    if i = st then decide (mine.length < 1536)
    else decide ((((List.range 16).filter (· ≠ i)).map (fun j => ((s.stk j).outOf src).length)).sum < 256)
  | .core l => some' && Queue.core.credit (((List.range 16).map (fun i => ((s.stk i).outOf (.core l)).length)).sum)
  | .tether _ => some' && decide (mine.length < 256)
  | .host => some' && decide (mine.length < 512)
  | .gondola _ => some' && decide (mine.length < 256)
  | .scrub => some' && decide (mine.length < 16)

/-- Whether a source holds its requests for a bank back until BANK_OPEN has reached it (R313, R314). -/
def Stack.holds (t : Stack) (bank : Nat) (src : ReqSrc) : Bool :=
  t.waiters.contains (bank, src) || t.bankOpens.contains (bank, src)

/-- Whether a request that the sorter holds must take effect before an access to a block: any of the block before a write, a
write of it before a read (R316). -/
def Stack.conflict (t : Stack) (blk : Nat) (write : Bool) : Bool :=
  t.slots.any (fun q => q.req.block == blk && (write || q.req.write))

/-- Why an access of a source to a block of stack st cannot be served now (R306, R312 to R316, R488), when it cannot. A stack
in FAULT answers every request. -/
def State.askStop (s : State) (st blk : Nat) (write : Bool) : Option Stop :=
  let t := s.stk st
  let bank := blkBank blk
  if t.state = .fault then none
  else if (t.state != .ready && t.state != .selfRefresh) || s.rig.holds.ileave || t.holds bank s.acc.src
      || !(s.mayAsk st s.acc.src bank) || !(Queue.sorter.credit t.slots.length) then some .wait
  else if !(Queue.bank.credit (t.bankSlots bank).length) then some (.hold st bank)
  else if t.conflict blk write then some .wait
  else none

/-- A stack that sleeps in self-refresh is woken by a request (R328). -/
def State.wakeStk (s : State) (st : Nat) : State :=
  if (s.stk st).state = .selfRefresh then s.updStk st (fun t => { t with state := .ready }) else s

/-- A block of a stack is served: it has held one slot, and its row has been used (R312, R315). -/
def Stack.served (t : Stack) (blk : Nat) : Stack :=
  if t.state = .fault then t
  else ({ t with occPeak := Nat.max t.occPeak (t.slots.length + 1) } : Stack).useRow (blkBank blk) (blkRow blk)

/-- A request of the access at hand for one block is made: it is served at once, or the access stops (R312 to R316).
DESIGN CHOICE, log entry 13. -/
def State.ask (s : State) (st blk : Nat) (write : Bool) : State :=
  if s.acc.stop.isSome then s
  else
    match s.askStop st blk write with
    | some w => { s with acc := { s.acc with stop := some w } }
    | none => (s.wakeStk st).updStk st (fun t => t.served blk)

/-! ### Stack memory: errors, poison and stale notices (R307 to R310, R320 to R322) -/

/-- A byte with its poison mark (R309). -/
abbrev PByte := Byte × Bool

/-- A byte of a read is marked. -/
def marked (bs : List PByte) : Bool := bs.any (·.2)

/-- An uncorrectable or poisoned codeword is found (R309): `kind` is that of STK_ECC_LOG (R331). -/
def State.uncorr (s : State) (st cw kind : Nat) : State :=
  let t := s.stk st
  let t := if t.ue then t else { t with logKind := kind, logAddr := cw }
  ((s.setStk st { t with ue := true, eccUe := cnt t.eccUe 1 }).event 0x20 st cw).report (stackCode st 0x2001)

/-- A correctable codeword is found (R308). -/
def State.corr (s : State) (st cw : Nat) : State :=
  let t := s.stk st
  let s := s.setStk st { t with ce := true, eccCe := cnt t.eccCe 1 }
  if t.ceEvent then s.event 0x24 st cw else s

/-- A codeword takes 68 symbols that the code accepts. -/
def Stack.setWord (t : Stack) (cw : Nat) (w : List Nat) : Stack :=
  { t with mem := mwrite t.mem (cw * 64) ((w.take 64).map (BitVec.ofNat 8)), upsets := sset [] t.upsets cw [] }

/-- A codeword is stored poisoned (R309). -/
def Stack.poison (t : Stack) (cw : Nat) : Stack :=
  { t with upsets := sset [] t.upsets cw [], poisoned := if t.poisoned.contains cw then t.poisoned else cw :: t.poisoned }

/-- A codeword of stack st is read (R307 to R309): a correctable error is corrected in the DRAM too; the flag tells whether
its data can be used. -/
def State.senseCw (s : State) (st cw kind : Nat) : State × Bool :=
  let t := s.stk st
  match t.sense cw with
  | .many => (s.uncorr st cw kind, false)
  | .one k v => ((s.setStk st (t.setWord cw (rsUpset (t.word cw) [(k, v)]))).corr st cw, true)
  | .none => (if sget [] t.upsets cw = [] then s else s.setStk st (t.setWord cw (t.word cw)), true)

/-- n bytes of one codeword are read from stack st at local address a (R308, R309). -/
def State.readCw (s : State) (st a n : Nat) : State × List PByte :=
  let r := s.senseCw st (a / 64) 1
  (r.1, if r.2 then (mread (r.1.stk st).mem a n).map (fun b => (b, false)) else List.replicate n (0xFF, true))

/-- Bytes are written to one codeword of stack st at local address a (R309, R310). -/
def State.writeCw (s : State) (st a : Nat) (bs : List PByte) : State :=
  let cw := a / 64
  let bad := bs.any (·.2)
  let put (t : Stack) : Stack := if bad then t.poison cw else { t with mem := mwrite t.mem a (bs.map (·.1)) }
  if bs.length = 64 then
    s.updStk st (fun t => put { t with upsets := sset [] t.upsets cw [], poisoned := t.poisoned.filter (· ≠ cw) })
  else
    let r := s.senseCw st cw 3
    r.1.updStk st (if r.2 then put else fun t => t.poison cw)

/-- The pieces of n bytes at address a, cut at multiples of w. -/
def cuts (w : Nat) : Nat → Nat → Nat → List (Nat × Nat)
  | 0, _, _ => []
  | fuel + 1, a, n =>
    if n = 0 then [] else
      let m := Nat.min n (w - a % w)
      (a, m) :: cuts w fuel (a + m) (n - m)

/-- The pieces of n bytes at address a that lie in one codeword each. -/
def cwCuts (a n : Nat) : List (Nat × Nat) := cuts 64 (n / 64 + 2) a n
/-- The pieces of n bytes at address a that lie in one block each. -/
def blkCuts (a n : Nat) : List (Nat × Nat) := cuts 256 (n / 256 + 2) a n

/-- Codewords are read in order. -/
def State.readCws (s : State) (st : Nat) : List (Nat × Nat) → State × List PByte
  | [] => (s, [])
  | (a, n) :: t =>
    let r := s.readCw st a n
    let q := r.1.readCws st t
    (q.1, r.2 ++ q.2)

/-- Codewords are written in order. -/
def State.writeCws (s : State) (st : Nat) : List (Nat × Nat) → List PByte → State
  | [], _ => s
  | (a, n) :: t, bs => (s.writeCw st a (bs.take n)).writeCws st t (bs.drop n)

/-- An event that wakes a sleeping core has reached it (R446). DEDUCED, log entry 28. -/
def Core.poke (k : Core) : Core := if k.asleep then { k with waking := true } else k

/-- A stale notice for guard `uid` of core c reaches it (R322, R446). A notice for a guard that has ended, or is UNWATCHED, is
ignored. -/
def Core.staleGuard (k : Core) (uid : Nat) : Core :=
  { k.poke with guards := k.guards.map (fun p =>
      if p.2.uid = uid ∧ !p.2.unwatched then (p.1, { p.2 with stale := true, again := p.2.again || p.2.copying }) else p) }

/-- Stale notices are accepted. -/
def State.tellStale (s : State) : List (Nat × Nat) → State
  | [] => s
  | (c, g) :: t =>
    let s := if (s.core c).fenced || s.dieOut (dieOfCore c) then s else s.updCore c (fun k => k.staleGuard g)
    s.tellStale t

/-- The guards whose watch ranges hold a block. -/
def Stack.notesFor (t : Stack) (b : Nat) : List (Nat × Nat) :=
  (t.ranges.filter (fun r => decide (r.lo ≤ b) && decide (b ≤ r.hi))).map (fun r => (r.core, r.guard))

/-- The stale notices of a write to a block leave (R322). -/
def State.sendStale (s : State) (st : Nat) (l : List (Nat × Nat)) : State :=
  s.updStk st (fun t => { t with staleNotices := cnt t.staleNotices l.length })

/-- Bytes of one block are read from stack st at local address a (R306, R309). -/
def State.readStk (s : State) (st a n : Nat) : State × List PByte :=
  let s := s.ask st (a / 256) false
  if s.acc.stop.isSome || (s.stk st).state == .fault then (s, List.replicate n (0xFF, true))
  else s.readCws st (cwCuts a n)

/-- Bytes are written to one block of stack st at local address a (R306, R309, R310, R322). Its notices are accepted before
the write is visible (R317). -/
def State.writeStk (s : State) (st a : Nat) (bs : List PByte) : State :=
  let s := s.ask st (a / 256) true
  if s.acc.stop.isSome || (s.stk st).state == .fault then s
  else
    let l := (s.stk st).notesFor (a / 256)
    ((s.sendStale st l).tellStale l).writeCws st (cwCuts a bs.length) bs

/-! ### Guards (R319 to R324) -/

/-- The watch ranges of guard `uid` of core c are removed from every stack (R324). -/
def State.dropRanges (s : State) (c uid : Nat) : State :=
  { s with stks := s.stks.map (fun p => (p.1, { p.2 with ranges := p.2.ranges.filter (fun r => !(r.core == c && r.guard == uid)) })) }

/-- Guard number g of core c ends (R324). -/
def State.endGuard (s : State) (c g : Nat) : State :=
  match (s.core c).guards.find? (fun p => p.1 == g) with
  | none => s
  | some (_, q) => (s.updCore c (fun k => { k with guards := k.guards.filter (fun p => p.1 ≠ g) })).dropRanges c q.uid

/-- The guards of core c whose span a write of n bytes at a touches, but the one whose copy writes. -/
def Core.guardsHit (k : Core) (copy : Option Nat) (a n : Nat) : List Nat :=
  (k.guards.filter (fun p => decide (p.2.base < a + n) && decide (a ≤ p.2.last) && !(copy == some p.1))).map (·.1)

/-- Guards of core c end (R324). -/
def State.endGuards (s : State) (c : Nat) : List Nat → State
  | [] => s
  | g :: t => (s.endGuard c g).endGuards c t

/-- The guards that a write of n bytes at a touches end, in each of some cores (R324); `copy` names the guard whose own copy
writes. -/
def State.endTouched (s : State) (copy : Option (Nat × Nat)) (a n : Nat) : List Nat → State
  | [] => s
  | c :: t =>
    (s.endGuards c ((s.core c).guardsHit (match copy with
      | some (c', g) => if c' = c then some g else none
      | none => none) a n)).endTouched copy a n t

/-- Every guard that a write of n bytes at a touches ends (R324). -/
def State.endWritten (s : State) (copy : Option (Nat × Nat)) (a n : Nat) : State :=
  s.endTouched copy a n ((s.cores.filter (fun p => !(p.2.guards.isEmpty))).map (·.1))

/-- Whether a read of n bytes at global address a by an agent of core c meets a stale guard, and so stalls
(R323). -/
def Core.readStalls (k : Core) (a n : Nat) : Bool :=
  k.guards.any (fun p => p.2.stale && decide (p.2.base < a + n) && decide (a ≤ p.2.last))

/-- A stalled read makes the reel copy the descriptors of the stale guards it meets again (R323). -/
def Core.stallRead (k : Core) (a n : Nat) : Core :=
  { k with guards := k.guards.map (fun p =>
      if p.2.stale && decide (p.2.base < a + n) && decide (a ≤ p.2.last) then (p.1, { p.2 with copying := true })
      else p) }

/-- An agent of core c reads n bytes at global address a: the access stops where a stale guard of the core spans one (R323). -/
def State.guardRead (s : State) (c a n : Nat) : State :=
  if s.acc.stop.isNone && (s.core c).readStalls a n then { s with acc := { s.acc with stop := some (.guard c a n) } } else s

/-! ### Accesses -/

/-- What a stopped access leaves behind: a source returned with BANK_HOLD has been counted and waits for the bank (R313), and
a stale guard is copied again (R323). -/
def State.stopped (s : State) (src : ReqSrc) : Stop → State
  | .wait => s
  | .hold st bank => s.updStk st (fun t => { t with bankHolds := cnt t.bankHolds 1, waiters := t.waiters ++ [(bank, src)] })
  | .guard c a n => s.updCore c (fun k => k.stallRead a n)

/-- A command that reads or writes device memory for a source, by an agent of a core when it is one. When an access of it cannot
be served now, the command waits: it has had no effect but what its stopped access leaves. DESIGN CHOICE, log entry 13. -/
def State.access (s : State) (src : ReqSrc) (core : Option Nat) (f : State → State) : State :=
  let t := f { s with acc := { src, core } }
  match t.acc.stop with
  | none => { t with acc := s.acc }
  | some w => s.stopped src w

/-- A command of an agent of core c that reads or writes device memory. -/
def State.coreAccess (s : State) (c : Nat) (f : State → State) : State := s.access (.core (s.logNum c)) (some c) f

/-! ### Reads and writes of device memory -/

/-- Who makes an access: whether it is a gondola core (R507), and the guarded copy it belongs to (R324). -/
structure Acc where
  gon : Bool := false
  copy : Option (Nat × Nat) := none

/-- Whether the firmware's span keeps a write of n bytes at global address a out (R507). -/
def State.fwGuards (s : State) (w : Acc) (a n : Nat) : Bool :=
  s.anc.fwProtect && !w.gon && decide (s.anc.fwLoad < a + n) && decide (a < s.anc.fwLoad + s.anc.fwLen)

/-- Bytes of one block are read; none where R34 refuses the address. -/
def State.readPiece (s : State) (a n : Nat) : Option (State × List PByte) :=
  let s := match s.acc.core with
    | some c => s.guardRead c a n
    | none => s
  let pl (m : Memory) (o : Nat) : List PByte := (mread m o n).map (fun b => (b, false))
  match s.locate a with
  | .stack st l => some (s.readStk st l n)
  | .scratch c o => some (s, pl (s.core c).scratch o)
  | .loft c o => some (s, pl (s.core c).loft o)
  | .spool c o => some (s, pl (s.core c).spool o)
  | _ => none

/-- Bytes of one block are written; none where R34 or R507 refuses the address. -/
def State.writePiece (s : State) (w : Acc) (a : Nat) (bs : List PByte) : Option State :=
  let raw := bs.map (·.1)
  if s.fwGuards w a bs.length then none
  else
    let t := s.endWritten w.copy a bs.length
    match s.locate a with
    | .stack st l => some (t.writeStk st l bs)
    | .scratch c o => some (t.updCore c (fun k => { k with scratch := mwrite k.scratch o raw }))
    | .loft c o => some (t.updCore c (fun k => { k with loft := mwrite k.loft o raw }))
    | .spool c o => some (t.updCore c (fun k => { k with spool := mwrite k.spool o raw }))
    | _ => none

/-- Pieces are read in order; the bytes of a piece that fails come as `fail` says, and the flag tells
whether one failed. -/
def State.readPieces (s : State) (fail : Byte) : List (Nat × Nat) → State × List PByte × Bool
  | [] => (s, [], false)
  | (a, n) :: t =>
    match s.readPiece a n with
    | some (s', bs) =>
      let r := s'.readPieces fail t
      (r.1, bs ++ r.2.1, r.2.2)
    | none =>
      let r := s.readPieces fail t
      (r.1, List.replicate n (fail, false) ++ r.2.1, true)

/-- n bytes read at global address a, and whether a part was refused. -/
def State.readMem (s : State) (a n : Nat) : State × List PByte × Bool :=
  s.readPieces 0 (blkCuts a n)

/-- Pieces are written in order up to the first that is refused. -/
def State.writePieces (s : State) (w : Acc) : List (Nat × Nat) → List PByte → State × Bool
  | [], _ => (s, true)
  | (a, n) :: t, bs =>
    match s.writePiece w a (bs.take n) with
    | some s' => s'.writePieces w t (bs.drop n)
    | none => (s, false)

/-- Bytes written at global address a, and whether all of them were. -/
def State.writeMem (s : State) (w : Acc) (a : Nat) (bs : List PByte) : State × Bool :=
  s.writePieces w (blkCuts a bs.length) bs

/-- Plain bytes written at global address a. -/
def State.writeBytes (s : State) (w : Acc) (a : Nat) (bs : List Byte) : State × Bool :=
  s.writeMem w a (bs.map (fun b => (b, false)))

/-- n plain bytes read at global address a (a refused part reads 0). -/
def State.readBytes (s : State) (a n : Nat) : State × List Byte :=
  let r := s.readMem a n
  (r.1, r.2.1.map (·.1))

/-- The global address of a byte of a core's own scratch. -/
def State.scrAddr (s : State) (c o : Nat) : Nat := s.ownAddr 1 ((s.logNum c) * 0x400000 + o)
/-- The global address of a byte of a core's own loft; its spool lies from 0x30_0000 on (R108). -/
def State.loftAddr (s : State) (c o : Nat) : Nat := s.ownAddr 2 ((s.logNum c) * 0x400000 + o)

/-- n bytes of a core's own scratch. -/
def Core.scr (k : Core) (o n : Nat) : List Byte := mread k.scratch o n

/-- An agent of core c reads n bytes of its own scratch (R323). -/
def State.scrRead (s : State) (c o n : Nat) : State := s.guardRead c (s.scrAddr c o) n

/-- Bytes written to a core's own scratch by the core's own units. -/
def State.scrWrite (s : State) (c o : Nat) (bs : List Byte) : State :=
  (s.endWritten none (s.scrAddr c o) bs.length).updCore c (fun k => { k with scratch := mwrite k.scratch o bs })

end Sys2Proof.Machine
end

