-- ==== Sys2Proof/Machine/HostOps.lean ====
section
/-! DEFINITION. What the host port sends (R518, R525, R531, R537): datagrams of a session, responses and events. -/

namespace Sys2Proof.Machine

open Sys2Proof

/-- The frame in which something leaves (R518). -/
def HostSt.frame (h : HostSt) (d : Tx) : TxFrame := { tag := if h.vlanEn then some (h.pcp, h.vid) else none, tx := d }

/-- The host port sends, or holds what it sends to the end of a PAUSE (R518, R520). -/
def State.emitTx (s : State) (d : Tx) : State :=
  let h := s.host
  if h.link ≠ .up ∨ h.dup then s
  else if s.env.ticks < h.paused then { s with host := { h with heldTx := h.heldTx ++ [d] } }
  else { s with host := { h with sent := h.sent ++ [h.frame d] } }

/-- The 32-byte header of a datagram (R522). -/
def dgHeader (type sess queue seq ack len : Nat) (enc : Bool) : List Byte :=
  leBytes 2 0x5648 ++ leBytes 1 1 ++ leBytes 1 type ++ leBytes 2 sess ++ leBytes 1 (flag 0 enc) ++ leBytes 1 queue
    ++ leBytes 8 seq ++ leBytes 8 ack ++ leBytes 4 len ++ leBytes 4 0

/-- The nonce of a session's datagram (R524). -/
def dgNonce (seq sess : Nat) : List Byte := leBytes 8 seq ++ leBytes 2 sess ++ leBytes 2 0

/-- The bytes of a session's datagram (R522, R524): its header, its encrypted body and the tag. -/
def dgSeal (key : List Byte) (type sess seq ack : Nat) (body : List Byte) : List Byte :=
  let h := dgHeader type sess 0 seq ack body.length true
  let r := gcmSeal key (dgNonce seq sess) h body
  h ++ r.1 ++ r.2

/-- The body of a received datagram of a type, when its tag is that of a key (R524). -/
def dgOpen (key : List Byte) (type : Nat) (d : Dgram) : Option (List Byte) :=
  gcmOpen key (dgNonce d.seq d.sess) (dgHeader type d.sess d.queue d.seq d.ack d.body.length true) d.body d.tag

/-- A datagram without a key leaves the host port, its SEQ and ACK 0. -/
def State.emitDg (s : State) (addr port type sess : Nat) (body : List Byte) : State :=
  s.emitTx (.dgram addr port (dgHeader type sess 0 0 0 body.length false ++ body))

/-- What a PAUSE has held back leaves, unless the port sends nothing (R517, R518, R520). -/
def State.unpause (s : State) : State :=
  let h := s.host
  let out := if h.link ≠ .up ∨ h.dup then [] else h.heldTx.map h.frame
  { s with host := { h with sent := h.sent ++ out, heldTx := [] } }

/-- A datagram of session n takes its number and leaves, encrypted (R524, R525). -/
def State.sendNow (s : State) (n type : Nat) (body : List Byte) : State :=
  let q := s.sess n
  let b := dgSeal q.txKey type n q.nextSeq q.expect body
  (s.updSess n (fun q => { q with
      nextSeq := q.nextSeq + 1, owed := false,
      unacked := q.unacked ++ [{ seq := q.nextSeq, bytes := b, at' := s.env.ticks }] })).emitTx (.dgram q.addr q.port b)

/-- A datagram of session n is sent, or waits while 1,024 are unacknowledged (R525). -/
def State.sendSess (s : State) (n type : Nat) (body : List Byte) : State :=
  let q := s.sess n
  if !q.isOpen then s
  else if 1024 ≤ q.unacked.length ∨ !(q.outq.isEmpty) then
    s.updSess n (fun q => { q with outq := q.outq ++ [(type, body)] })
  else s.sendNow n type body

/-- What waits for room leaves, while fewer than 1,024 are unacknowledged (R525). -/
def State.sendRest (s : State) (n : Nat) : List (Nat × List Byte) → State
  | [] => s.updSess n (fun q => { q with outq := [] })
  | d :: t =>
    if 1024 ≤ (s.sess n).unacked.length then s.updSess n (fun q => { q with outq := d :: t })
    else (s.sendNow n d.1 d.2).sendRest n t

/-- A session ends (R528): its keys, what it held for resend and its commands go; one that has started runs on, and what it
would answer is discarded. -/
def State.endSession (s : State) (n : Nat) : State := s.updSess n (fun q => { nextId := q.nextId })

/-- Every session ends. -/
def State.endSessions (s : State) : State := [1, 2, 3, 4].foldl State.endSession s

/-- A response record (R531). -/
def respBytes (op status tag value : Nat) : List Byte :=
  leBytes 1 op ++ leBytes 1 status ++ leBytes 2 0 ++ leBytes 4 tag ++ leBytes 8 value

/-- Command id of session n completes with a status and a value (R531, R536). -/
def State.cmdDone (s : State) (n id status value : Nat) : State :=
  match (s.sess n).cmds.find? (fun c => c.id == id) with
  | none => s
  | some c =>
    (s.updSess n (fun q => { q with cmds := q.cmds.filter (fun c => c.id ≠ id) })).sendSess n 0x21
      (respBytes c.cmd.op status c.cmd.tag value)

/-- Command id of session n completes with a status and no stated value (R531, R536). -/
def State.cmdEnd (s : State) (n id status : Nat) : State :=
  match (s.sess n).cmds.find? (fun c => c.id == id) with
  | none => s
  | some c => s.cmdDone n id status (Config.freeResp c.cmd.op c.cmd.tag).toNat

/-- An event goes to every session that asked for events (R537), or, with `every`, to every open session (R544). -/
def State.eventSessions (s : State) (msg : List Byte) (every : Bool) : List Nat → State
  | [] => s
  | n :: t =>
    let q := s.sess n
    let s :=
      if !q.isOpen || !(q.events || every) then s
      else if 1024 ≤ q.unacked.length then { s with host := { s.host with evLost := true } }
      else s.sendSess n 0x24 msg
    s.eventSessions msg every t

end Sys2Proof.Machine
end

