-- ==== Sys2Proof/Machine/AncOps.lean ====
section
/-! DEFINITION. The anchor: identity and entropy (R500, R511), measurement (R504, R505), reports (R510) and the order
of its operations (R508). -/

namespace Sys2Proof.Machine

open Sys2Proof

/-- The encoding of a device state (R26). -/
def DevState.code : DevState → Nat
  | .off => 0
  | .keel => 1
  | .moored => 2
  | .rigged => 3
  | .aloft => 4

/-- The identity seed (R500). -/
def idSeed : List Byte :=
  (sha512 ([0x56, 0x58, 0x34, 0x38, 0x30, 0x30, 0x2D, 0x49, 0x44]
    ++ (List.range 512).map Config.pufByte)).take 32

/-- The identity key (R500). -/
def idKey : List Byte := edPublic idSeed

/-- n bytes of a fresh draw from the entropy source (R511). DESIGN CHOICE, log entry 20. -/
def State.draw (s : State) (n : Nat) : State × List Byte :=
  ({ s with anc := { s.anc with draws := s.anc.draws + 1 } },
   (List.range n).map (Config.entropyByte s.anc.draws))

/-! ### Measurement (R504, R505) -/

/-- An event record (R504). -/
def recBytes (mr kind seq serial : Nat) (fp digest : List Byte) : List Byte :=
  leBytes 1 mr ++ leBytes 1 kind ++ leBytes 2 0 ++ leBytes 4 seq ++ leBytes 8 serial ++ fp ++ digest

/-- A measurement register is extended (R504). -/
def AncSt.extend (a : AncSt) (mr kind serial : Nat) (fp digest : List Byte) : AncSt :=
  let e := recBytes mr kind a.seq serial fp digest
  let m := a.mr.set mr (sha512 (a.mr.getD mr [] ++ e))
  if 256 ≤ a.log.length then { a with mr := m, seq := (a.seq + 1) % 2 ^ 32, logFull := true }
  else { a with mr := m, seq := (a.seq + 1) % 2 ^ 32, log := a.log ++ [e] }

/-- The fingerprint of the bound owner, or 0 (R502). -/
def AncSt.ownerFp (a : AncSt) : List Byte :=
  match a.owner with
  | some k => fingerprint k
  | none => List.replicate 16 0

/-- Bytes 0 to 639 of an attestation report (R510). -/
def State.reportBody (s : State) (nonce : List Byte) : List Byte :=
  let a := s.anc
  let serial := match s.keel.state with
    | .moored => 0
    | _ => s.rig.serial
  leBytes 4 0x31515441 ++ leBytes 2 1 ++ leBytes 2 704
    ++ leBytes 4 (flag 5 a.logFull + flag 4 (a.debug ≠ 0) + flag 3 a.owner.isSome + s.keel.state.code)
    ++ leBytes 4 a.seq ++ nonce ++ idKey ++ a.ownerFp ++ leBytes 8 s.env.ticks ++ leBytes 8 serial
    ++ List.replicate 16 0 ++ a.mr.flatten

/-- A report with its signature (R510). -/
def signReport (body : List Byte) : List Byte := body ++ edSign idSeed body

/-! ### The order of operations (R508) -/

/-- An operation as it starts: a report shows the registers as they stand then (R509). -/
def State.ancBegin (s : State) : AncOp → AncOp
  | .quote _ => .quote (s.reportBody s.anc.nonce)
  | .attest a p n _ => .attest a p n (s.reportBody n)
  | o => o

/-- The operations that wait start in order: extends are done at once, and the first other one is in progress; an
ATTEST writes its nonce (R530). -/
def State.ancPump (s : State) : List AncOp → State
  | [] => { s with anc := { s.anc with op := none, waiting := [] } }
  | .extend mr kind serial fp digest :: t =>
    ({ s with anc := s.anc.extend mr kind serial fp digest } : State).ancPump t
  | .attest p q n b :: t =>
    { s with anc := { s.anc with nonce := n, op := some (s.ancBegin (.attest p q n b)), waiting := t } }
  | o :: t => { s with anc := { s.anc with op := some (s.ancBegin o), waiting := t } }

/-- An operation reaches the anchor. -/
def State.ancSubmit (s : State) (o : AncOp) : State :=
  match s.anc.op with
  | some _ => { s with anc := { s.anc with waiting := s.anc.waiting ++ [o] } }
  | none => s.ancPump (s.anc.waiting ++ [o])

/-- The operation in progress ends, and the next one starts. -/
def State.ancEnd (s : State) : State := s.ancPump s.anc.waiting

/-- A VERIFY or COMMIT that has been stopped leaves the anchor (R490). -/
def State.ancDrop (s : State) (o : AncOp) : State :=
  if s.anc.op = some o then s.ancEnd
  else { s with anc := { s.anc with waiting := s.anc.waiting.filter (fun w => w ≠ o) } }

/-- An owner is bound (R502). -/
def State.bindOwner (s : State) (k : List Byte) : State :=
  ({ s with anc := { s.anc with owner := some k } } : State).ancSubmit (.extend 3 5 0 (fingerprint k) (sha512 k))

/-- Whether the anchor accepts a signer of a rigging or firmware image other than SIGNER2 (R503). -/
def AncSt.signerOk (a : AncSt) (k : List Byte) : Bool :=
  match a.owner with
  | some o => o == k
  | none => true

end Sys2Proof.Machine
end

