-- ==== Sys2Proof/Machine/Crc.lean ====
section
/-! DEFINITION. CRC-32C as R304 gives it: polynomial 0x1EDC_6F41 processed least significant bit first,
initial value and final XOR 0xFFFF_FFFF. -/

namespace Sys2Proof.Machine

/-- n bits of the shift register; 0x82F6_3B78 is the polynomial with its bits reversed. -/
def crcBits : Nat → Nat → Nat
  | 0, r => r
  | n + 1, r => crcBits n (if r % 2 = 1 then (r / 2) ^^^ 0x82F63B78 else r / 2)

/-- The register after a byte string. -/
def crcBytes : Nat → List Byte → Nat
  | r, [] => r
  | r, b :: t => crcBytes (crcBits 8 (r ^^^ b.toNat)) t

/-- CRC-32C of a byte string (R304). -/
def crc32c (bs : List Byte) : Nat := crcBytes 0xFFFFFFFF bs ^^^ 0xFFFFFFFF

end Sys2Proof.Machine
end

