-- ==== Sys2Proof/Machine/Sorter.lean ====
section
/-! DEFINITION. The sorter of a stack: admission (R312 to R314, R317, R325), service (R308 to R310, R315, R316) and the
watch table (R320 to R322). -/

namespace Sys2Proof.Machine

open Sys2Proof

/-- Whether a stack takes part in traffic. -/
def Stack.powered (t : Stack) : Bool := t.state != .off && t.state != .training

/-! ### The watch table (R320, R321) -/

/-- Block `blk` gets into the watch range of guard `uid` of core c: true when it finds a place. -/
def Stack.watch (t : Stack) (c uid blk : Nat) : Stack × Bool :=
  if t.ranges.any (fun r => r.core == c && r.guard == uid) then
    ({ t with ranges := t.ranges.map (fun r =>
        if r.core = c ∧ r.guard = uid then { r with lo := Nat.min r.lo blk, hi := Nat.max r.hi blk } else r) }, true)
  else if t.ranges.length < 1024 then
    ({ t with ranges := t.ranges ++ [{ core := c, guard := uid, lo := blk, hi := blk }] }, true)
  else ({ t with watchMiss := cnt t.watchMiss 1 }, false)

/-- Guard number g of core c. -/
def Core.guard (k : Core) (g : Nat) : Option Guard := (k.guards.find? (fun p => p.1 == g)).map (·.2)

/-- Guard number g of core c becomes UNWATCHED (R321). -/
def State.unwatch (s : State) (c g : Nat) : State :=
  match (s.core c).guard g with
  | none => s
  | some q =>
    if q.unwatched then s
    else
      (s.updCore c (fun k => { k with guards := k.guards.map (fun p =>
        if p.1 = g then (p.1, { p.2 with unwatched := true, stale := false }) else p) })).event
        0x21 (s.logNum c) (q.reel * 0x10000 + q.ringIdx)

/-- A guarded read's block gets into its guard's watch range (R320, R321). The read of a guard that has ended is watched for
nobody. -/
def State.watchBlock (s : State) (st c g blk : Nat) : State :=
  match (s.core c).guard g with
  | none => s
  | some q =>
    let r := (s.stk st).watch c q.uid blk
    let s := s.setStk st r.1
    if r.2 then s else s.unwatch c g

/-- A served read's block gets into the watch range of the guard it carries. -/
def State.watchRead (s : State) (st : Nat) (q : StackReq) : State :=
  match q.guard with
  | none => s
  | some (c, g) => s.watchBlock st c g q.block

/-- The reads that are served together get their watch ranges (R316, R320). -/
def State.watchReads (s : State) (st : Nat) : List Slot → State
  | [] => s
  | q :: t => (s.watchRead st q.req).watchReads st t

/-! ### Admission (R312 to R314, R317, R325) -/

/-- A response leaves stack st. -/
def State.respond (s : State) (st : Nat) (r : StackResp) : State :=
  s.updStk st (fun t => { t with responses := t.responses ++ [r] })

/-- A controller's answer for a stack in FAULT (R306). -/
def faultAnswer (q : StackReq) : StackResp :=
  if q.write then .ack q.src q.tag [] else .data q.src q.tag (List.replicate 256 0xFF) (List.replicate 4 true)

/-- Whether a write of a block can be acknowledged at its admission (R317): no watch range holds the block, and no guarded read
that the sorter holds may yet put it into one. -/
def Stack.ackNow (t : Stack) (b : Nat) : Bool := (t.notesFor b).isEmpty && t.slots.all (fun q => q.req.guard.isNone)

/-- A request is admitted: it holds a slot. -/
def State.takeReq (s : State) (st : Nat) (q : StackReq) : State :=
  let t := s.stk st
  let acked := q.write && t.ackNow q.block
  let slots := t.slots ++ [{ req := q, at' := s.env.ticks, acked }]
  let s := s.setStk st { t with slots, occPeak := Nat.max t.occPeak slots.length }
  if acked then s.respond st (.ack q.src q.tag []) else s

/-- A request is turned back with BANK_HOLD (R313). -/
def State.bankHold (s : State) (st : Nat) (q : StackReq) : State :=
  let bank := blkBank q.block
  let t := s.stk st
  let waiters := if t.waiters.contains (bank, q.src) then t.waiters else t.waiters ++ [(bank, q.src)]
  (s.setStk st { t with bankHolds := cnt t.bankHolds 1, heldReqs := t.heldReqs ++ [q], waiters }).respond st
    (.hold q.src q.tag bank)

/-- A request goes on waiting in the mesh (R306, R313). -/
def State.inMesh (s : State) (st : Nat) (q : StackReq) : State :=
  s.updStk st (fun t => { t with meshQ := t.meshQ ++ [q] })

/-- A request meets the sorter. With all slots full, or while the link retrains, it waits in the mesh (R306, R313). -/
def State.sorter (s : State) (st : Nat) (q : StackReq) : State :=
  let t := s.stk st
  if t.state = .fault then s.respond st (faultAnswer q)
  else if t.state ≠ .ready ∨ !(Queue.sorter.credit t.slots.length) then s.inMesh st q
  else if !(Queue.bank.credit (t.bankSlots (blkBank q.block)).length) then s.bankHold st q
  else if q.ctx ≠ 0xFFF ∧ sget 0 t.gens q.ctx ≠ q.gen then
    (s.updStk st (fun t => { t with genDrops := cnt t.genDrops 1 })).updCtx q.ctx (fun c => { c with drops := cnt c.drops 1 })
  else s.takeReq st q

/-- Requests meet the sorter in order; one behind others in the mesh waits there. -/
def State.arriveAll (s : State) (st : Nat) : List StackReq → State
  | [] => s
  | q :: t => (if (s.stk st).meshQ.isEmpty then s.sorter st q else s.inMesh st q).arriveAll st t

/-- A request waits in its source (R314, R488). -/
def State.inSource (s : State) (st : Nat) (q : StackReq) : State :=
  s.updStk st (fun t => { t with srcQ := t.srcQ ++ [q] })

/-- Requests leave their sources in order; one beyond a limit, behind another of its source for its bank, or held back by a
commit of the interleave frame waits in its source (R314, R488). -/
def State.submitAll (s : State) (st : Nat) : List StackReq → State
  | [] => s
  | q :: t =>
    let bank := blkBank q.block
    let behind := (s.stk st).srcQ.any (fun r => r.src == q.src && blkBank r.block == bank)
    (if s.rig.holds.ileave || behind || !(s.mayAsk st q.src bank) then s.inSource st q
     else (s.wakeStk st).arriveAll st [q]).submitAll st t

/-- The requests that wait in the mesh and in the sources of stack st go on as far as they can. -/
def State.pump (s : State) (st : Nat) : State :=
  let l := (s.stk st).meshQ
  let s := (s.updStk st (fun t => { t with meshQ := [] })).arriveAll st l
  let l := (s.stk st).srcQ
  (s.updStk st (fun t => { t with srcQ := [] })).submitAll st l

/-- The waiting requests of every stack go on. -/
def State.pumpAll (s : State) : State := (List.range 16).foldl (fun s st =>
  if (s.stk st).meshQ.isEmpty && (s.stk st).srcQ.isEmpty then s else s.pump st) s

/-! ### Service (R308 to R310, R315, R316) -/

/-- Whether a slot's request has waited 2 µs. DESIGN CHOICE, log entry 48. -/
def Slot.urgent (q : Slot) (now : Nat) : Bool := decide (q.at' + 100 ≤ now)

/-- The request of a bank that is served next (R315), and whether it is served as urgent. Scrub reads come last. -/
def Stack.pick (t : Stack) (bank now : Nat) : Option (Slot × Bool) :=
  let all := t.bankSlots bank
  let l := all.filter (fun q => q.req.src != .scrub)
  let l := if l.isEmpty then all else l
  match l.find? (fun q => q.urgent now) with
  | some q => some (q, true)
  | none =>
    let row := sget 0 t.openRow bank
    match (if sget 0 t.hits bank < 16 then l.find? (fun q => blkRow q.req.block + 1 == row) else none) with
    | some q => some (q, false)
    | none => l.head?.map (fun q => (q, false))

/-- The reads merged with a read (R316): those of its block up to the next write of it. -/
def mergedReads (b : Nat) : List Slot → List Slot
  | [] => []
  | q :: t => if q.req.block = b then (if q.req.write then [] else q :: mergedReads b t) else mergedReads b t

/-- Read data leaves for each of some requests. -/
def State.sendData (s : State) (st : Nat) (d : List PByte) : List Slot → State
  | [] => s
  | q :: t =>
    let ps := (List.range 4).map (fun i => marked ((d.drop (64 * i)).take 64))
    (s.respond st (.data q.req.src q.req.tag (d.map (·.1)) ps)).sendData st d t

/-- The codewords of a block read for the patrol scrub (R311): nothing is delivered, and an uncorrectable one is stored
poisoned. -/
def State.scrubCw (s : State) (st cw : Nat) : State :=
  let r := s.senseCw st cw 2
  if r.2 then r.1 else r.1.updStk st (fun t => t.poison cw)

/-- Stale notices of a write leave for their cores. -/
def State.postStale (s : State) (st : Nat) (l : List (Nat × Nat)) : State :=
  let s := s.sendStale st l
  { s with stale := s.stale ++ l }

/-- One request is served. -/
def State.serve (s : State) (st : Nat) (q : Slot) : State :=
  let b := q.req.block
  if q.req.write then
    let notes := (s.stk st).notesFor b
    let data := (q.req.data.take (256 - q.req.off)).map (fun x => (x, q.req.poison))
    let s := (s.postStale st notes).writeCws st (cwCuts (b * 256 + q.req.off) data.length) data
    let s := s.updStk st (fun t => { t with slots := t.slots.erase q })
    if q.acked then s else s.respond st (.ack q.req.src q.req.tag notes)
  else
    let ms := mergedReads b ((s.stk st).slots.dropWhile (fun p => p ≠ q))
    let s := s.watchReads st ms
    let out := ms.filter (fun p => p.req.src != .scrub)
    let drop (s : State) : State := s.updStk st (fun t => { t with slots := t.slots.filter (fun p => !(ms.contains p)) })
    if out.isEmpty then drop ((List.range 4).foldl (fun s i => s.scrubCw st (b * 4 + i)) s)
    else
      let r := s.readCws st (cwCuts (b * 256) 256)
      (drop r.1).sendData st r.2 out

/-- BANK_OPEN leaves for every source that waits for a bank whose occupancy has fallen from above 40 (R313). -/
def State.openBank (s : State) (st bank before : Nat) : State :=
  let t := s.stk st
  if 40 < before ∧ (t.bankSlots bank).length ≤ 40 then
    s.setStk st { t with bankOpens := t.bankOpens ++ t.waiters.filter (fun w => w.1 == bank),
                         waiters := t.waiters.filter (fun w => w.1 != bank) }
  else s

/-- Held requests are sent again, in order (R313). -/
def State.resendAll (s : State) (st : Nat) (l : List StackReq) : State :=
  (s.updStk st (fun t => { t with heldReqs := t.heldReqs.filter (fun q => !(l.contains q)) })).arriveAll st l

/-- A stack enters FAULT (R306): everything outstanding is answered, and the ripcord logic is told once. -/
def State.stackFault (s : State) (st : Nat) : State :=
  let t := s.stk st
  if t.state = .fault then s
  else
    let out := ((t.slots.filter (fun q => !(q.acked))).map (·.req) ++ t.heldReqs ++ t.meshQ ++ t.srcQ ++ t.awaitData).filter
      (fun q => q.src != .scrub)
    (s.setStk st { t with state := .fault, slots := [], heldReqs := [], meshQ := [], srcQ := [], waiters := [], bankOpens := [],
                          awaitData := [], responses := t.responses ++ out.map faultAnswer }).report (stackCode st 0x2002)

end Sys2Proof.Machine
end

