-- ==== Sys2Proof/Machine/RipOps.lean ====
section
/-! DEFINITION. Changes of device state (R25 to R30), rail-control frames (R583 to R585), fences (R547,
R493), die resets (R546, R554 to R556) and package resets (R553, R557). -/

namespace Sys2Proof.Machine

/-- KEEL_DEV_STATE (R25). -/
def State.devWord (s : State) : Nat := s.keel.target.code * 256 + s.keel.state.code

/-- A rail-control frame sent to the board (R583, R584). -/
def State.sendRc (s : State) (type value data : Nat) : State :=
  let body := leBytes 1 type ++ leBytes 1 s.env.frameSeq ++ leBytes 2 value ++ leBytes 4 data
  { s with env := { s.env with sent := s.env.sent ++ [body ++ leBytes 4 (crc32c body)],
                               frameSeq := (s.env.frameSeq + 1) % 256 } }

/-- A STATUS frame (R584, R585). -/
def State.sendStatus (s : State) : State :=
  s.sendRc 0x82 s.devWord s.rip.code

/-- STATE and TARGET change, and the board is told (R585). -/
def State.setDev (s : State) (st tg : DevState) : State :=
  ({ s with keel := { s.keel with state := st, target := tg } } : State).sendStatus

/-- One throttle record is closed at tick t (R464, R465), unless its entry has been overwritten. -/
def State.closeRec (s : State) (t : Nat) (i : Option Nat) : State :=
  match i with
  | none => s
  | some i =>
  let r := sget {} s.env.ring i
  let r := { r with opened := false, duration := Nat.min (t - r.start) cntMax }
  { s with env := { s.env with ring := sset {} s.env.ring i r } }

/-- Every open throttle record is closed (R464). -/
def State.closeRecs (s : State) : List (Nat × Option Nat) → State
  | [] => { s with env := { s.env with openRecs := [] } }
  | (_, i) :: t => (s.closeRec s.env.ticks i).closeRecs t

/-- What unpowered dies keep of their cores: which of them are fenced (R549). -/
def State.fencedCores (s : State) : Sparse Core :=
  s.rip.fenced.foldl (fun m c => sset {} m c { fenced := true }) []

/-- Every unit outside the keel domain is off or at reset (R26, R329, R496, R515, R528, R538): what KEEL
keeps is the queue, the keel domain, the owner key and the ripcord registers. -/
def State.powerDown (s : State) : State :=
  { s with cores := s.fencedCores, stks := [], knot := {}, teth := {}, rig := {}, gons := [], gonCe := 0,
           merges := [], stale := [], pace := [],
           anc := { owner := s.anc.owner, draws := s.anc.draws }, host := { sent := s.host.sent } }

/-- The device enters KEEL (R27, R464). -/
def State.enterKeel (s : State) : State :=
  let s := s.powerDown.closeRecs s.env.openRecs
  ({ s with keel := { s.keel with booting := false, stopped := false } } : State).setDev .keel .keel

/-- The envelope's registers at their reset values, with what survives a package reset (R442, R464, R553,
R585). -/
def EnvSt.afterPkg (e : EnvSt) : EnvSt :=
  { ticks := e.ticks, ticksHi := e.ticksHi, energyMj := e.energyMj, energyRemUj := e.energyRemUj,
    energyHi := e.energyHi, thrTotal := e.thrTotal, thrNext := e.thrNext, ring := e.ring,
    boardSeq := e.boardSeq, boardStatus := e.boardStatus, sent := e.sent, frameSeq := e.frameSeq,
    energyAt := e.ticks, ownSeq := e.ownSeq }

/-- A package reset (R30, R553, R557, R558): the code is latched and the device enters KEEL. DONE, TO and STATUS of KEEL_STATE_RES
are kept: DESIGN CHOICE, log entry 106. -/
def State.pkgReset (s : State) (code : Nat) : State :=
  let s := s.latch true code
  let s := s.closeRecs s.env.openRecs
  let s := { s with rip := { code := s.rip.code, codeAt := s.rip.codeAt, codePkg := s.rip.codePkg, more := s.rip.more },
                    env := s.env.afterPkg }
  s.enterKeel

/-- A fault whose action is a package reset (R545, R560). -/
def State.pkgFault (s : State) (code : Nat) : State := (s.report code).pkgReset code

/-! ### Cores (R70, R233, R493, R547 to R549) -/

/-- A core after core reset, with the rows its live ROW_SPARE entry retires (R493, R553). No later guard takes the serial number of
one that has ended (R322). -/
def State.freshCore (s : State) (c : Nat) : Core :=
  { retired := sget [] s.rig.live.retired c, nextGuard := (s.core c).nextGuard }

/-- Whether a knot operation's waiter is on core c. -/
def KWho.onCore (c : Nat) : KWho → Bool
  | .stream c' _ _ _ _ => c' == c
  | .reel c' => c' == c
  | .verdict c' _ => c' == c
  | .step c' _ _ => c' == c
  | _ => false

/-- A knot's waiters on core c are removed (R547). -/
def Knot.dropCore (c : Nat) (k : Knot) : Knot :=
  { k with waiters := k.waiters.filter (fun w => !(w.who.onCore c)) }

/-- The messages on their way to a core are discarded (R547). -/
def State.dropToCore (s : State) (c : Nat) : State :=
  { s with
    knot := { s.knot with knots := smap {} (Knot.dropCore c) s.knot.knots,
                          heldOps := s.knot.heldOps.filter (fun m => !(m.who.onCore c)),
                          replies := s.knot.replies.filter (fun r => !(r.who.onCore c)) },
    env := { s.env with msgs := s.env.msgs.filter (fun m => match m with
      | .deal c' _ _ _ => c' ≠ c
      | _ => true) },
    stale := s.stale.filter (fun p => p.1 ≠ c),
    stks := s.stks.map (fun p => (p.1, { p.2 with ranges := p.2.ranges.filter (fun r => r.core ≠ c) })) }

/-- The first spare of die d that is not fenced (R493). -/
def State.nextSpare (s : State) (d : Nat) : Option Nat :=
  ((sget [] s.rig.live.spares d).map (fun i => d * 100 + i)).find? (fun c => !s.rip.fenced.contains c)

/-- The logical number of a fenced core is unbound, and the next spare is put through core reset to take it
(R493, R548). With no spare left the number stays unbound and CORE_FENCED says so. -/
def State.rebind (s : State) (l fencedC d : Nat) : State :=
  let live := s.rig.live
  match s.nextSpare d with
  | some sp =>
    let rest := (sget [] live.spares d).filter (fun i => d * 100 + i ≠ sp)
    let s := { s with rig := { s.rig with live := { live with bind := sset 0 live.bind l 0,
                                                              spares := sset [] live.spares d rest } },
                      rip := { s.rip with sparesPending := s.rip.sparesPending ++ [(l, fencedC, sp)] } }
    s.setCore sp { s.freshCore sp with resetting := true }
  | none =>
    ({ s with rig := { s.rig with live := { live with bind := sset 0 live.bind l 0 } } } : State).event
      0x61 l (fencedC * 0x10000 + 0xFFFF)

/-- A physical core is fenced (R547, R550): its streams and units stop, its waiters, guards, held counts and
credits go, and its logical number moves to a spare. A core already fenced stays as it is. -/
def State.fence (s : State) (c : Nat) : State :=
  if s.rip.fenced.contains c then s
  else
    let s := s.dropToCore c
    let k := s.core c
    let stop (t : StreamSt) : StreamSt := { t with state := if t.state = .exception then .exception else .halted }
    let s := s.setCore c { k with fenced := true, sa := stop k.sa, sb := stop k.sb, credit := 0,
                                  guards := [], watch := { k.watch with held := [] } }
    let s := { s with rip := { s.rip with fenced := s.rip.fenced ++ [c], fenceNew := true } }
    let s := { s with rig := { s.rig with live := { s.rig.live with
      spares := sset [] s.rig.live.spares (c / 100)
        ((sget [] s.rig.live.spares (c / 100)).filter (fun i => (c / 100) * 100 + i ≠ c)) } } }
    match s.logical c with
    | some l => s.rebind l c (c / 100)
    | none => s

/-- A fault of a core whose action is a fence (R540, R545, R550): discarded for a core of a resetting die;
of two faults in one keel tick RIP_LAST keeps the lower code. -/
def State.coreFault (s : State) (c cause : Nat) : State :=
  if bit (dieOfCore c) s.rip.dieResetting then s
  else if s.rip.fenced.contains c then
    if s.rip.lastTick = s.env.ticks ∧ s.rip.last / 0x10000 = coreCode c 0 / 0x10000 then
      { s with rip := { s.rip with last := Nat.min s.rip.last (coreCode c cause) } }
    else s
  else (s.report (coreCode c cause)).fence c

/-! ### The end of a commit's holds (R487, R490, R491) -/

/-- START_x (R111): a stream that is HALTED, or in EXCEPTION, runs from its pc. -/
def StreamSt.start (t : StreamSt) : StreamSt :=
  match t.state with
  | .halted => { t with state := .running, stopReq := false, waitTicks := 0 }
  | .exception => { t with state := .running, stopReq := false, waitTicks := 0, excCode := 0, excPc := 0 }
  | _ => t

/-- The holds on a core end, and the starts that waited take place. -/
def Core.unhold (k : Core) : Core :=
  let go (t : StreamSt) : StreamSt := if t.startReq then { t.start with startReq := false } else t
  if k.startHold || k.grantHold then { k with startHold := false, grantHold := false, sa := go k.sa, sb := go k.sb } else k

/-- Every hold is released (R487), and what waited for it goes on. -/
def State.unhold (s : State) : State :=
  let cs := smap {} Core.unhold s.cores
  let n := { s.knot with ops := s.knot.ops ++ s.knot.heldOps, heldOps := [] }
  State.pumpAll { s with cores := cs, knot := n, rig := { s.rig with holds := {} } }

/-- RIG_RESULT takes a result; in RIGGED and ALOFT the runtime is told when it is one of a VERIFY or COMMIT (R491). -/
def State.rigResult (s : State) (tell : Bool) (code frame detail : Nat) : State :=
  let d := Nat.min detail 0xFFFF
  let s := { s with rig := { s.rig with code, frame, detail := d } }
  let up := match s.keel.state with
    | .rigged => true
    | .aloft => true
    | _ => false
  if tell && up then s.event 0x50 0 (code * 0x1000000 + frame * 0x10000 + d) else s

/-- A commit is rejected (R490): its holds are released and nothing is applied. -/
def State.rigReject (s : State) (code frame detail : Nat) : State :=
  let s := s.unhold
  let s := { s with rig := { s.rig with state := .verified, rejects := cnt s.rig.rejects 1, flashRun := false } }
  (s.rigResult true code frame detail).ancDrop .commit

/-! ### Die resets (R546, R554 to R556) -/

/-- Step 1 of a die reset (R554, R555): traffic at the die's edge is lost, the gondola cores stop, and a
commit is rejected (R490). -/
def State.isolate (s : State) (d : Nat) : State :=
  let onDie (w : KWho) : Bool := match w with
    | .stream c _ _ _ _ => c / 100 == d
    | .reel c => c / 100 == d
    | .verdict c _ => c / 100 == d
    | .step c _ _ => c / 100 == d
    | _ => false
  let s := { s with
    knot := { s.knot with ops := s.knot.ops.filter (fun m => !(onDie m.who) && m.knot / 65536 != d),
                          heldOps := s.knot.heldOps.filter (fun m => !(onDie m.who)),
                          replies := s.knot.replies.filter (fun r => !(onDie r.who)) },
    merges := s.merges.filter (fun m => m.core / 100 ≠ d),
    stale := s.stale.filter (fun p => p.1 / 100 ≠ d),
    gons := smap {} (fun g => { g with mode := 0, petTicks := none }) s.gons }
  if s.rig.state = .committing then s.rigReject 0x24 0xFF 0 else s

/-- The reset of die d begins (R554). -/
def State.dieReset (s : State) (d : Nat) (code : Nat) : State :=
  if bit d s.rip.dieResetting then s
  else
    let s := (s.latch false code).isolate d
    { s with rip := { s.rip with dieResetting := s.rip.dieResetting ||| 2 ^ d,
                                 dieHeld := if bit d s.rip.dieHeld then s.rip.dieHeld - 2 ^ d else s.rip.dieHeld } }

/-- A fault whose action is a die reset (R545, R546): with AUTO_DIE at 0 the die is isolated and held. A die that is held or
resetting stays so. -/
def State.dieFault (s : State) (d code : Nat) : State :=
  let s := s.report code
  if s.dieOut d then s
  else if s.rip.autoDie then s.dieReset d code
  else
    let s := (s.latch false code).isolate d
    { s with rip := { s.rip with dieHeld := s.rip.dieHeld ||| 2 ^ d } }

/-- An allocated knot as a commit writes it (R369). -/
def allocKnot (r : KRange) (k : Nat) : Knot :=
  { valid := true, tree := if r.scope = 2 then r.tree % 4096 + (k - r.first) % 2 ^ (r.tree / 4096) else 0 }

/-- The range a knot lies in (R369). -/
def State.rangeOf (s : State) (k : Nat) : Option KRange :=
  s.rig.live.ranges.find? (fun r => decide (r.first ≤ k) && decide (k < r.first + r.count))

end Sys2Proof.Machine
end

