-- ==== Sys2Proof/Machine/Operands.lean ====
section
/-! DEFINITION. The operands of instructions: the fields and zero fields of the formats of R75, predicates
(R74), scalar, address and predicate registers (R69, R70), address sums (R83, R84) and descriptors in
scratch (R89). -/

namespace Sys2Proof.Machine

open Sys2Proof

/-! ### Fields (R75) -/

/-- Field [hi:lo] of the low 48 bits of an instruction. -/
def iw (w : InsnW) (hi lo : Nat) : Nat := fld hi lo w.low.toNat
/-- The D field. -/
def iD (w : InsnW) : Nat := iw w 47 43
/-- The A field. -/
def iA (w : InsnW) : Nat := iw w 42 38
/-- The B field. -/
def iB (w : InsnW) : Nat := iw w 37 33
/-- The immediate as 32 bits. -/
def iImmU (w : InsnW) : Nat := iw w 31 0
/-- The immediate, sign-extended. -/
def iImm (w : InsnW) : Int := sx 32 (iImmU w)

/-- The zero bits of format R. -/
def fmtR (w : InsnW) : Bool := iw w 32 0 == 0
/-- The zero bits of format I. -/
def fmtI (w : InsnW) : Bool := iw w 37 32 == 0
/-- The zero bits of format M. -/
def fmtM (w : InsnW) : Bool := iw w 37 32 == 0 && iw w 42 42 == 0
/-- The zero bits of format J. -/
def fmtJ (w : InsnW) : Bool := iw w 47 32 == 0

/-! ### Registers (R69, R70) -/

/-- Scalar register r: s0 reads as 0. -/
def StreamSt.getS (t : StreamSt) (r : Nat) : W64 := if r = 0 then 0 else sget 0 t.s r
/-- A value written to scalar register r: writes to s0 are discarded, and a value on its way to r no longer
reaches it. -/
def StreamSt.setS (t : StreamSt) (r : Nat) (v : W64) : StreamSt :=
  if r = 0 then t else { t with s := sset 0 t.s r v, pend := t.pend.filter (fun p => p.reg ≠ r) }
/-- Address register r. -/
def StreamSt.getA (t : StreamSt) (r : Nat) : W64 := sget 0 t.a r
/-- A value written to address register r. -/
def StreamSt.setA (t : StreamSt) (r : Nat) (v : W64) : StreamSt := { t with a := sset 0 t.a r v }
/-- Predicate r: p0 reads as 1. -/
def StreamSt.getP (t : StreamSt) (r : Nat) : Bool := if r = 0 then true else sget false t.p r
/-- A value written to predicate r: writes to p0 are discarded. -/
def StreamSt.setP (t : StreamSt) (r : Nat) (v : Bool) : StreamSt :=
  if r = 0 then t else { t with p := sset false t.p r v }
/-- Whether scalar register r still waits for its value (R77). -/
def StreamSt.busy (t : StreamSt) (r : Nat) : Bool := t.pend.any (fun p => p.reg == r)
/-- Scalar register r waits for the operation with a ticket. -/
def StreamSt.await (t : StreamSt) (r ticket : Nat) : StreamSt :=
  if r = 0 then t else { t with pend := t.pend.filter (fun p => p.reg ≠ r) ++ [⟨r, ticket⟩] }
/-- The operation with a ticket delivers its value to scalar register r, unless a later write came first.
DEDUCED, log entry 10. -/
def StreamSt.deliver (t : StreamSt) (r ticket : Nat) (v : W64) : StreamSt :=
  if t.pend.contains ⟨r, ticket⟩ then t.setS r v else t
/-- Whether the predicate of an instruction lets it act (R74). -/
def StreamSt.predOn (t : StreamSt) (w : InsnW) : Bool := xor (t.getP w.pred.toNat) w.neg

/-- The signed reading of a scalar register. -/
def sgn (v : W64) : Int := v.toInt
/-- A 64-bit word of an integer, modulo 2^64. -/
def w64 (i : Int) : W64 := BitVec.ofInt 64 i

/-! ### Addresses (R83, R84, R89) -/

/-- The offset of address a plus i, before it is taken modulo 2^44. -/
def offSum (a : W64) (i : Int) : Int := (aOff a.toNat : Int) + i
/-- Whether an offset sum leaves the range 0 to 2^44 − 1. -/
def offOut (i : Int) : Bool := decide (i < 0) || decide (i ≥ (2 : Int) ^ 44)
/-- Address a with its offset moved by i modulo 2^44, bits [63:44] kept. -/
def offAdd (a : W64) (i : Int) : W64 :=
  BitVec.ofNat 64 ((a.toNat / 2 ^ 44) * 2 ^ 44 + wrap 44 (offSum a i))

/-- The scratch offset that a global address names when it is a byte of core c's own scratch, on the
device's own ID and the core's own logical number (R89). -/
def State.ownScr (s : State) (c : Nat) (a : Nat) : Option Nat :=
  if aDev a = s.teth.self ∧ aSpace a = 1 ∧ s.logical c = some (aOff a / 0x400000) then
    some (aOff a % 0x400000)
  else none

/-- A descriptor of 64 bytes named through an address register: its scratch offset, or the code of R89. -/
def State.descAddr (s : State) (c : Nat) (a : W64) : Except Nat Nat :=
  match s.ownScr c a.toNat with
  | none => .error 0x05
  | some o => if o % 64 = 0 then .ok o else .error 0x03

/-- A descriptor of 64 bytes named by a scratch offset: the offset, or the code of R89. -/
def descOff (o : Nat) : Except Nat Nat :=
  if o + 64 > 0x400000 then .error 0x05 else if o % 64 ≠ 0 then .error 0x03 else .ok o

end Sys2Proof.Machine
end

