-- ==== Sys2Proof/Machine/Flags.lean ====
section
/-! DEFINITION. The sticky bits and states of SEQ_STATUS (R82, R83, R112) and the exception record of
SEQ_EXC (R86, R114). -/

namespace Sys2Proof.Machine

open Sys2Proof

/-- AOVF when an address offset left its range (R83). -/
def StreamSt.aovfIf (t : StreamSt) (b : Bool) : StreamSt := { t with aovf := t.aovf || b }
/-- DIV0 when a divisor was 0 (R82). -/
def StreamSt.div0If (t : StreamSt) (b : Bool) : StreamSt := { t with div0 := t.div0 || b }

/-- The encoding of STATE_x (R112). -/
def StState.code : StState → Nat
  | .halted => 0
  | .running => 1
  | .waiting => 2
  | .exception => 3

/-- The wait kind of an event WAIT_LONG (R563). -/
def WaitKind.code : WaitKind → Nat
  | .knot => 0
  | .twait => 1
  | .rwait => 2
  | .crdWait => 3
  | .tileQueue => 4
  | .credit => 5
  | .remote => 6
  | .far => 6

/-- SEQ_STATUS of a core (R112). -/
def Core.seqStatus (k : Core) : Nat :=
  flag 15 k.wrIgn + flag 14 k.sb.aovf + flag 13 k.sa.aovf + flag 12 k.sb.div0 + flag 11 k.sa.div0
    + flag 10 k.asleep + 4 * k.sb.state.code + k.sa.state.code

/-- The bits of SEQ_STATUS that a write of v clears (R7, R112). -/
def Core.seqStatusW1c (k : Core) (v : Nat) : Core :=
  { k with wrIgn := k.wrIgn && !(bit 15 v),
           sb := { k.sb with aovf := k.sb.aovf && !(bit 14 v), div0 := k.sb.div0 && !(bit 12 v) },
           sa := { k.sa with aovf := k.sa.aovf && !(bit 13 v), div0 := k.sa.div0 && !(bit 11 v) } }

/-- SEQ_EXC_x (R114). -/
def StreamSt.excWord (t : StreamSt) : Nat := t.excCode * 2 ^ 24 + (t.excPc / 8 % 2 ^ 19) * 8

/-- A stream stops at its next instruction boundary (R87, R111): at once, but for one whose knot operation
or remote access is on its way, which stops when the answer has come. -/
def StreamSt.stop (t : StreamSt) : StreamSt :=
  let t := { t with closeAt := none, closed := false }
  match t.state with
  | .running => { t with state := .halted }
  | .waiting => if t.wait = .knot ∨ t.wait = .far then { t with stopReq := true } else { t with state := .halted }
  | _ => t

end Sys2Proof.Machine
end

