-- ==== Sys2Proof/Machine/Issue.lean ====
section
/-! DEFINITION. How an instruction issues (R72, R74, R76, R77, R86, R87): whether its stream can issue it,
its predicate, its zero fields, its sources, and the ways it ends: it retires, waits, or raises an
exception. -/

namespace Sys2Proof.Machine

open Sys2Proof

/-- Whether a stream can present an instruction: RUNNING, or waiting for something that the same instruction
tests again. A stream waiting for a reply does not. -/
def StreamSt.ready (t : StreamSt) : Bool :=
  match t.state with
  | .running => true
  | .waiting => t.wait ≠ .knot && t.wait ≠ .far
  | _ => false

/-- Whether core c runs at all: the device is ALOFT, and the core is neither fenced, nor in reset, nor
asleep, nor on a die that is isolated (R26, R31, R547, R554). -/
def State.coreRuns (s : State) (c : Nat) : Bool :=
  let k := s.core c
  decide (c < 400) && decide (s.keel.state = .aloft) && !k.fenced && !k.resetting && !k.asleep
    && !s.dieOut (dieOfCore c)

/-- Whether stream x of core c can present an instruction. -/
def State.canIssue (s : State) (c : Nat) (x : Stream) : Bool := s.coreRuns c && ((s.core c).st x).ready

/-- Stream x of core c changed. -/
def State.updSt (s : State) (c : Nat) (x : Stream) (f : StreamSt → StreamSt) : State :=
  s.updCore c (fun k => k.setSt x (f (k.st x)))

/-- An instruction of stream x has issued (R543): the core's counts restart. -/
def Core.issued (k : Core) : Core := { k with stallTicks := 0, idleTicks := 0 }

/-- A stream whose instruction has ended, and that goes on at pc. -/
def StreamSt.ended (t : StreamSt) (pc : Nat) : StreamSt :=
  { t with pc, state := .running, waitTicks := 0, closeAt := none, closed := false }

/-- The instruction ends, and the stream goes on at pc. -/
def State.goto (s : State) (c : Nat) (x : Stream) (pc : Nat) : State :=
  s.updCore c (fun k => (k.setSt x ((k.st x).ended pc)).issued)

/-- The instruction ends, and the stream goes on at the next one. -/
def State.retire (s : State) (c : Nat) (x : Stream) : State := s.goto c x (((s.core c).st x).pc + 8)

/-- The instruction waits: the stream is WAITING at it. DESIGN CHOICE, log entry 7. -/
def State.waitFor (s : State) (c : Nat) (x : Stream) (w : WaitKind) : State :=
  s.updSt c x (fun t => { t with state := .waiting, wait := w })

/-- The instruction raises an exception (R86, R87): it has no effect, its code and address are recorded, the
runtime is told, and with HALT_BOTH the other stream stops. -/
def State.raise (s : State) (c : Nat) (x : Stream) (code : Nat) : State :=
  let k := s.core c
  let t := k.st x
  let k := k.setSt x { t with state := .exception, excCode := code, excPc := t.pc, waitTicks := 0, closeAt := none,
                              closed := false }
  let k := if k.haltBoth then k.setSt (sOther x) (k.st (sOther x)).stop else k
  (s.setCore c k).event 0x02 (s.logNum c) (sNum x * 0x10000 + code)

/-- The common part of every instruction: `ok` says that every bit R75 and R76 require to be 0 is 0, and
`srcs` are the scalar registers it reads. A reserved opcode raises ILLEGAL_OP (R76); a fetch from the span of a stale guard
stalls (R323). DESIGN CHOICE, log entry 6. -/
def State.issue (s : State) (c : Nat) (x : Stream) (w : InsnW) (ok : Bool) (srcs : List Nat)
    (body : State → State) : State :=
  let t := (s.core c).st x
  if !s.canIssue c x then s
  else if 0x400000 ≤ t.pc then s.raise c x 0x08
  else if (s.core c).readStalls (s.scrAddr c t.pc) 8 then s.updCore c (fun k => k.stallRead (s.scrAddr c t.pc) 8)
  else if !t.predOn w then s.retire c x
  else if reservedOp w.op.toNat || !ok then s.raise c x 0x01
  else if srcs.any t.busy then s
  else body s

/-- Scalar register r of stream x of core c takes v, and the instruction ends. -/
def State.retS (s : State) (c : Nat) (x : Stream) (r : Nat) (v : W64) : State :=
  (s.updSt c x (fun t => t.setS r v)).retire c x

/-- The next ticket of core c. -/
def State.ticket (s : State) (c : Nat) : Nat × State :=
  ((s.core c).nextTicket, s.updCore c (fun k => { k with nextTicket := k.nextTicket + 1 }))

/-! ### Credit (R97 to R99) -/

/-- The cost of n items of a class, in units of `unit` (R98, R115). -/
def Core.cost' (k : Core) (cls n unit : Nat) : Nat :=
  let w := (sget (0 : W32) k.cost cls).toNat
  w / 0x10000 + (w % 0x10000) * cdiv n unit

/-- The credit of a core after a spend (R97, R98); `spent` is what its next interval report tells. -/
def Core.charge (k : Core) (n : Nat) : Core := { k with credit := k.credit - n, spent := k.spent + n }

/-- An issue check and charge of n units (R97, R98): above the cap it raises CREDIT_CAP, beyond the balance the
instruction waits for credit. -/
def State.pay (s : State) (c : Nat) (x : Stream) (n : Nat) (body : State → State) : State :=
  let k := s.core c
  if k.cap < n then s.raise c x 0x06
  else if k.credit < n then
    (s.waitFor c x .credit).updSt c x (fun t => { t with waitCost := n })
  else body (s.updCore c (fun k => k.charge n))

end Sys2Proof.Machine
end

