-- ==== Sys2Proof/Machine/Windows.lean ====
section
/-! DEFINITION. Which register windows a write reaches (R36, R567 to R569), and what a write does to a
sleeping core (R446). -/

namespace Sys2Proof.Machine

open Sys2Proof

/-- Whether the control space can be reached at all: the device is above KEEL (R567). -/
def State.ctrlUp (s : State) : Bool :=
  match s.keel.state with
  | .moored => true
  | .rigged => true
  | .aloft => true
  | _ => false

/-- Whether the windows of the dies can be reached (R567). -/
def State.diesUp (s : State) : Bool :=
  match s.keel.state with
  | .rigged => true
  | .aloft => true
  | _ => false

/-- Whether the window of physical core c can be read (R567, R568). -/
def State.coreWinR (s : State) (c : Nat) : Bool := decide (c < 400) && s.diesUp && !s.dieOut (dieOfCore c)

/-- Whether a write to the window of physical core c acts (R567, R568). -/
def State.coreWin (s : State) (c : Nat) : Bool := s.coreWinR c && !(s.core c).fenced

/-- Whether the window of stack st can be reached. -/
def State.stkWin (s : State) (st : Nat) : Bool := decide (st < 16) && s.diesUp && !s.dieOut (st / 4)

/-- Whether the registers of tether port p can be reached. -/
def State.portWin (s : State) (p : Nat) : Bool := decide (p < 12) && s.diesUp && !s.dieOut (p / 3)

/-- Whether a knot's entry can be reached. -/
def State.knotWin (s : State) (k : Nat) : Bool := decide (k < 262144) && s.diesUp && !s.dieOut (k / 65536)

/-- Whether a gondola core can make an access: it runs code and its die is not isolated. -/
def State.gonRuns (s : State) (g : Nat) : Bool := decide (g < 16) && (s.gon g).mode ≠ 0 && !s.dieOut (g / 4)

/-- Whether a writer reaches control space (R36, R567): a running gondola core, or the owner through an open
session. -/
def State.whoOk (s : State) : Who → Bool
  | .gon g => s.gonRuns g
  | .owner => s.host.sessions.any (fun p => p.2.isOpen)

/-- A write of the window of core c: the core's registers change, and a sleeping core is woken. -/
def State.coreWrite (s : State) (c : Nat) (f : Core → Core) : State :=
  if s.coreWin c then s.updCore c (fun k => (f k).poke) else s

end Sys2Proof.Machine
end

