-- ==== Sys2Proof/Machine/Anc.lean ====
section
/-! DEFINITION. The commands of the anchor (R506 to R516) and its registers (R515). -/

namespace Sys2Proof.Machine

open Sys2Proof

/-- The anchor changed. -/
def State.updAnc (s : State) (f : AncSt → AncSt) : State := { s with anc := f s.anc }

/-- A command of ANC_CMD succeeds (R515, R516). -/
def State.ancOk (s : State) (op : Nat) : State := s.updAnc (fun a => { a with resCode := 0, resOp := op })

/-- A command of ANC_CMD fails (R516). -/
def State.ancFail (s : State) (op code : Nat) : State :=
  s.updAnc (fun a => { a with resCode := code, resOp := op, err := true, fails := cnt a.fails 1 })

/-! ### Firmware (R506, R507) -/

/-- Whether n bytes at a global address lie in space 0x0 of the own device and below 768 GiB. -/
def State.inOwnMem (s : State) (a n : Nat) : Bool :=
  aDev a == s.teth.self && aSpace a == 0 && decide (aOff a + n ≤ stackEnd)

/-- Whether 128 bytes form the header of a firmware image (R506). -/
def fwHeaderOk (h : List Byte) : Bool :=
  let n := leAt h 8 4
  let load := leAt h 72 8
  leAt h 0 4 == 0x31515746 && leAt h 4 2 == 1 && zeros h 6 2 && zeros h 12 4 && zeros h 88 40
    && decide (192 ≤ n) && decide (n ≤ 16777216) && n % 16 == 0 && load % 4096 == 0
    && decide (load ≤ leAt h 80 8) && decide (leAt h 80 8 < load + (n - 192))

/-- Whether FIRMWARE may run (R507). -/
def State.fwAllowed (s : State) : Bool := s.diesUp && !s.anc.fwRun

/-- The gondola cores start at the firmware's ENTRY (R507, R556). -/
def State.startGons (s : State) : State :=
  (List.range 16).foldl (fun s g =>
    s.updGon g (fun k => { k with mode := 2, pc := s.anc.fwEntry, wfi := false, petTicks := none })) s

/-- The body of a firmware image is copied to LOAD, measured and started (R507). -/
def State.takeFirmware (s : State) (b : List Byte) : State :=
  let n := leAt b 8 4
  let load := leAt b 72 8
  let s := (s.writeBytes { gon := true } load ((b.take (n - 64)).drop 128)).1
  let s := s.updAnc (fun a => { a with fwLoad := load, fwLen := n - 192, fwEntry := leAt b 80 8, fwProtect := true,
                                       fwRun := true })
  let s := s.ancSubmit (.extend 2 4 (leAt b 16 8) (fingerprint (slice b 40 32)) (sha512 (b.take (n - 64))))
  (s.startGons).ancOk 5

/-- FIRMWARE on the image at a global address (R507, R516). -/
def State.runFirmware (s : State) (a : Nat) : State :=
  if !s.fwAllowed then s.ancFail 5 2
  else if !(s.inOwnMem a 192) then s.ancFail 5 0xA
  else
    let r := s.readBytes a 128
    let s := r.1
    let h := r.2
    let n := leAt h 8 4
    let fp := slice h 24 16
    if !(fwHeaderOk h) then s.ancFail 5 8
    else if !(s.inOwnMem a n) || !(s.inOwnMem (leAt h 72 8) (n - 192)) then s.ancFail 5 0xA
    else if !(zeros fp 0 16) && fp != fingerprint idKey then s.ancFail 5 4
    else if !(s.anc.signerOk (slice h 40 32)) then s.ancFail 5 5
    else
      let r := s.readBytes a n
      let s := r.1
      let b := r.2
      if edVerify (slice b 40 32) (sha512 (b.take (n - 64))) (slice b (n - 64) 64) then s.takeFirmware b
      else s.ancFail 5 3

/-! ### Tokens (R513, R514) -/

/-- Whether the fields of a token are as R513 states. -/
def AncSt.tokenOk (a : AncSt) (t : List Byte) : Bool :=
  let kind := leAt t 4 1
  leAt t 0 4 == 0x31514B54 && (kind == 1 || kind == 2) && decide (leAt t 5 1 < 4) && zeros t 6 2 && zeros t 40 24
    && slice t 8 16 == fingerprint idKey && slice t 24 16 == a.challenge && !a.challengeUsed

/-- Whether the signature of a token verifies under the bound owner key. -/
def AncSt.tokenSig (a : AncSt) (t : List Byte) : Bool :=
  match a.owner with
  | some k => edVerify k (t.take 64) (slice t 64 64)
  | none => false

/-- Whether debug is permitted (R513). -/
def State.debugOk (s : State) : Bool := decide (s.keel.state = .moored) || s.rig.live.debug == 1

/-! ### The test lands (R513, R573) -/

/-- The levels on the test lands that are inputs (R572). -/
structure TestPins where
  tck : Bool
  tms : Bool
  tdi : Bool
  trstN : Bool
deriving DecidableEq, Repr

/-- Whether the test lands respond: a TAP or GONDOLA debug scope is open (R573). -/
def State.testOpen (s : State) : Bool := bit 0 s.anc.debug || bit 1 s.anc.debug

/-- The test lands take new levels: while no scope is open they are ignored (R573), and what they do while one is open reaches no
state the spec gives. DESIGN CHOICE, log entry 104. -/
def State.testLands (s : State) (_p : TestPins) : State := s

/-- TDO: high-impedance, none, while no scope is open, and a free value while one is (R573). DESIGN CHOICE, log entry 104. -/
def State.tdo (s : State) (p : TestPins) : Option Bool :=
  if s.testOpen then some (Config.freeTdo s.env.ticks p.tck p.tms p.tdi p.trstN) else none

/-- A release token is accepted (R503, R505, R528). -/
def State.release (s : State) : State :=
  match s.anc.owner with
  | some k =>
    let s := (s.updAnc (fun a => { a with owner := none, debug := 0 })).endSessions
    s.ancSubmit (.extend 3 6 0 (fingerprint k) (sha512 k))
  | none => s

/-- TOKEN on 128 bytes (R514). DEDUCED, log entry 84. -/
def State.runToken (s : State) (t : List Byte) : State :=
  let ok := s.anc.tokenOk t
  let s := s.updAnc (fun a => { a with challengeUsed := true })
  if !ok then s.ancFail 4 6
  else if !(s.anc.tokenSig t) then s.ancFail 4 3
  else if leAt t 4 1 = 1 then
    if !s.debugOk then s.ancFail 4 7
    else
      let s := s.updAnc (fun a => { a with debug := a.debug ||| leAt t 5 1 })
      (s.ancSubmit (.extend 4 7 0 s.anc.ownerFp (sha512 t))).ancOk 4
  else if s.keel.state ≠ .moored then s.ancFail 4 2
  else s.release.ancOk 4

/-! ### Commands (R508, R515, R516) -/

/-- A command of ANC_CMD that is not refused with BUSY (R508). -/
def State.ancIdle (s : State) (op : Nat) (body : State → State) : State :=
  match s.anc.op with
  | some _ => s.ancFail op 1
  | none => body s

/-- A write of ANC_CMD. -/
def State.ancCmd (s : State) (op mr : Nat) : State :=
  match op with
  | 1 => s.ancIdle 1 (fun s => s.ancSubmit (.quote []))
  | 2 => s.ancIdle 2 (fun s =>
      if mr < 5 then s.ancFail 2 9
      else (s.ancSubmit (.extend mr 8 0 (List.replicate 16 0) s.anc.ext)).ancOk 2)
  | 3 => s.ancIdle 3 (fun s =>
      let r := s.draw 16
      (r.1.updAnc (fun a => { a with challenge := r.2, challengeUsed := false })).ancOk 3)
  | 4 => s.ancIdle 4 (fun s => s.ancSubmit (.token s.anc.token))
  | 5 => s.ancIdle 5 (fun s => if s.fwAllowed then s.ancSubmit (.firmware s.anc.fwAddr) else s.ancFail 5 2)
  | 6 => s.ancIdle 6 (fun s => (s.updAnc (fun a => { a with debug := 0 })).ancOk 6)
  | _ => s

/-- QUOTE (R509). -/
def execQuote (w : Who) (s : State) : Host.Outcome State Fault Refusal :=
  .next (if s.ctrlUp && s.whoOk w then s.ancCmd 1 0 else s)

/-- EXTEND (R504, R505, R516). -/
def execExtend (w : Who) (mr : BitVec 3) (s : State) : Host.Outcome State Fault Refusal :=
  .next (if s.ctrlUp && s.whoOk w then s.ancCmd 2 mr.toNat else s)

/-- CHALLENGE (R515). -/
def execChallenge (w : Who) (s : State) : Host.Outcome State Fault Refusal :=
  .next (if s.ctrlUp && s.whoOk w then s.ancCmd 3 0 else s)

/-- TOKEN (R514). -/
def execToken (w : Who) (s : State) : Host.Outcome State Fault Refusal :=
  .next (if s.ctrlUp && s.whoOk w then s.ancCmd 4 0 else s)

/-- FIRMWARE (R507). -/
def execFirmware (w : Who) (s : State) : Host.Outcome State Fault Refusal :=
  .next (if s.ctrlUp && s.whoOk w then s.ancCmd 5 0 else s)

/-- DEBUG_CLOSE (R514). -/
def execDebugClose (w : Who) (s : State) : Host.Outcome State Fault Refusal :=
  .next (if s.ctrlUp && s.whoOk w then s.ancCmd 6 0 else s)

/-- A report is signed (R509, R510). -/
def State.signed (s : State) (body : List Byte) : State :=
  (s.updAnc (fun a => { a with report := signReport body, quotes := cnt a.quotes 1 })).ancOk 1

/-- The largest body of a datagram (R522). -/
def HostSt.bodyMax (h : HostSt) : Nat := if h.jumbo then 8208 else 1040

/-- ANCHOR_OP_DONE (R508): the operation in progress, other than a VERIFY or COMMIT, completes; `badSig` says that the
signature it formed does not verify (R540). -/
def execAnchorOpDone (badSig : Bool) (s : State) : Host.Outcome State Fault Refusal :=
  .next (match s.anc.op with
    | some (.quote b) => if badSig then s.pkgFault (ripCode 1 1 0x0104) else (s.signed b).ancEnd
    | some (.attest a p _ b) =>
      if badSig then s.pkgFault (ripCode 1 1 0x0104)
      else ((s.signed b).emitDg a p 4 0 (signReport b)).ancEnd
    | some (.log a p k) =>
      (s.emitDg a p 4 0 ((s.anc.log.drop k).take (s.host.bodyMax / 96)).flatten).ancEnd
    | some (.token t) => (s.runToken t).ancEnd
    | some (.firmware a) => s.access (.gondola 0) none (fun s => (s.runFirmware a).ancEnd)
    | _ => s)

/-! ### Registers (R515) -/

/-- The word of register i of a byte string. -/
def wordAt (b : List Byte) (i : Nat) : Nat := leAt b (4 * i) 4

/-- A read of the anchor window at an offset. -/
def State.ancRead (s : State) (off : Nat) : State × Nat :=
  let a := s.anc
  let i (base : Nat) : Nat := (off - base) / 4
  if off % 4 ≠ 0 then (s, 0)
  else if off = 0 then
    (s, flag 11 a.fwRun + flag 10 a.logFull + a.debug * 0x100 + flag 7 a.owner.isSome + flag 6 a.selftest + flag 1 a.err
      + b2n a.op.isSome)
  else if off = 8 then (s, a.resCode * 0x1000000 + a.resOp * 0x100000)
  else if off = 0xC then (s.updAnc (fun a => { a with quotes := 0 }), a.quotes)
  else if off = 0x10 then (s.updAnc (fun a => { a with fails := 0 }), a.fails)
  else if off = 0x18 then (s, fld 31 0 a.fwAddr)
  else if off = 0x1C then (s, fld 63 32 a.fwAddr)
  else if 0x40 ≤ off ∧ off < 0x60 then (s, wordAt idKey (i 0x40))
  else if 0x60 ≤ off ∧ off < 0x70 then (s, wordAt a.ownerFp (i 0x60))
  else if 0x80 ≤ off ∧ off < 0xA0 then (s, wordAt a.nonce (i 0x80))
  else if 0xA0 ≤ off ∧ off < 0xB0 then (s, wordAt a.challenge (i 0xA0))
  else if 0x100 ≤ off ∧ off < 0x140 then (s, wordAt a.ext (i 0x100))
  else if 0x1000 ≤ off ∧ off < 0x12C0 then (s, wordAt a.report (i 0x1000))
  else if 0x2000 ≤ off ∧ off < 0x2080 then (s, wordAt a.token (i 0x2000))
  else if 0x3000 ≤ off ∧ off < 0x3200 then (s, wordAt a.mr.flatten (i 0x3000))
  else if 0x8000 ≤ off ∧ off < 0xE000 then (s, wordAt (a.log.getD ((off - 0x8000) / 96) []) ((off - 0x8000) % 96 / 4))
  else (s, 0)

/-- A write to the anchor window at an offset. -/
def State.ancWrite (s : State) (off v : Nat) : State :=
  let w := leBytes 4 v
  if off % 4 ≠ 0 then s
  else if off = 0 then s.updAnc (fun a => { a with err := a.err && !bit 1 v })
  else if off = 4 then s.ancCmd (fld 31 28 v) (v % 8)
  else if off = 0x18 then s.updAnc (fun a => { a with fwAddr := fld 63 32 a.fwAddr * 2 ^ 32 + v / 256 * 256 })
  else if off = 0x1C then s.updAnc (fun a => { a with fwAddr := v * 2 ^ 32 + fld 31 0 a.fwAddr })
  else if 0x80 ≤ off ∧ off < 0xA0 then s.updAnc (fun a => { a with nonce := putBytes a.nonce (off - 0x80) w })
  else if 0x100 ≤ off ∧ off < 0x140 then s.updAnc (fun a => { a with ext := putBytes a.ext (off - 0x100) w })
  else if 0x2000 ≤ off ∧ off < 0x2080 then s.updAnc (fun a => { a with token := putBytes a.token (off - 0x2000) w })
  else s

end Sys2Proof.Machine
end

