-- ==== Sys2Proof/Machine/LoftOps.lean ====
section
/-! DEFINITION. The loft manager (R270 to R283, R295, R296): its directory in scratch, the pages entries hold,
allocation, spills, recalls, drops and releases. -/

namespace Sys2Proof.Machine

open Sys2Proof

/-! ### The directory (R270 to R273) -/

/-- The scratch offset of the directory's header. -/
def Core.dirAt (k : Core) : Nat := k.loftM.dirBase * 64
/-- The scratch offset of entry i's record. -/
def Core.entAt (k : Core) (i : Nat) : Nat := k.dirAt + 64 + 16 * i
/-- PAGES of an entry. -/
def Core.entPages (k : Core) (i : Nat) : Nat := ofLe (k.scr (k.entAt i) 2)
/-- GROUP of an entry. -/
def Core.entGroup (k : Core) (i : Nat) : Nat := ofLe (k.scr (k.entAt i + 2) 2)
/-- STATE of an entry. -/
def Core.entState (k : Core) (i : Nat) : Nat := ofLe (k.scr (k.entAt i + 4) 1)
/-- NEXT of an entry. -/
def Core.entNext (k : Core) (i : Nat) : Nat := ofLe (k.scr (k.entAt i + 6) 2)
/-- The first page of LOC of an entry. -/
def Core.entLoc (k : Core) (i : Nat) : Nat := ofLe (k.scr (k.entAt i + 8) 4) % 0x100000
/-- STAMP of an entry. -/
def Core.entStamp (k : Core) (i : Nat) : Nat := ofLe (k.scr (k.entAt i + 12) 4)

/-- The entries in a state. -/
def Core.entsIn (k : Core) (sts : List Nat) : List Nat := (List.range 256).filter (fun i => sts.contains (k.entState i))

/-- STATE of an entry is set. -/
def State.setEnt (s : State) (c i st : Nat) : State := s.scrWrite c ((s.core c).entAt i + 4) (leBytes 1 st)
/-- LOC of an entry is set. -/
def State.setLoc (s : State) (c i : Nat) (ovf : Bool) (page : Nat) : State :=
  s.scrWrite c ((s.core c).entAt i + 8) (leBytes 4 (flag 31 ovf + page))
/-- A 32-bit count of the header grows. -/
def State.hdrAdd (s : State) (c o n : Nat) : State :=
  s.scrWrite c ((s.core c).dirAt + o) (leBytes 4 (Nat.min (ofLe ((s.core c).scr ((s.core c).dirAt + o) 4) + n) cntMax))

/-! ### Status (R295) -/

/-- The overflow region's address. -/
def LoftSt.ovfAddr (l : LoftSt) : Nat := l.ovf / 4096 * 4096

/-- LOFT_STATUS.VALID (R295). -/
def State.loftValid (s : State) (c : Nat) : Bool :=
  let k := s.core c
  let l := k.loftM
  let a := l.ovfAddr
  l.en && decide (k.dirAt + 64 + 4096 ≤ 0x400000)
    && (l.ovfPages == 0 || (aDev a == s.teth.self && aSpace a == 0 && decide (aOff a + 4096 * l.ovfPages ≤ stackEnd)))

/-- The runs of managed loft pages in use: of entries in the loft and of recalls on their way. -/
def Core.loftRuns (k : Core) : List (Nat × Nat) :=
  (k.entsIn [2, 3]).map (fun i => (k.entLoc i, k.entPages i))
    ++ (k.loftM.copies.filter (·.isRecall)).map (fun p => (p.page, k.entPages p.entry))

/-- The runs of overflow pages in use: of entries in overflow and of spills on their way. -/
def Core.ovfRuns (k : Core) : List (Nat × Nat) :=
  (k.entsIn [4, 5]).map (fun i => (k.entLoc i, k.entPages i))
    ++ (k.loftM.copies.filter (fun p => !p.isRecall)).map (fun p => (p.ovf, k.entPages p.entry))

/-- The pages of some runs. -/
def runSum (l : List (Nat × Nat)) : Nat := (l.map (·.2)).sum

/-- LOFT_STATUS.FREE (R295): a manager that is not enabled manages no pages (log entry 98). -/
def Core.loftFree (k : Core) : Nat :=
  if k.loftM.en then 768 - k.loftM.page0 - runSum k.loftRuns else 0

/-- The lowest run of n free pages from page p on, below `top`: past every run in use it would meet. -/
def freeRun (runs : List (Nat × Nat)) (n top : Nat) : Nat → Nat → Option Nat
  | 0, _ => none
  | fuel + 1, p =>
    if top < p + n then none
    else
      match runs.find? (fun r => decide (r.1 < p + n) && decide (p < r.1 + r.2)) with
      | none => some p
      | some r => freeRun runs n top fuel (Nat.max (p + 1) (r.1 + r.2))

/-- The lowest run of n free managed loft pages. -/
def Core.loftRun (k : Core) (n : Nat) : Option Nat := freeRun k.loftRuns n 768 600 k.loftM.page0
/-- The lowest run of n free overflow pages. -/
def Core.ovfRun (k : Core) (n : Nat) : Option Nat := freeRun k.ovfRuns n k.loftM.ovfPages 600 0

/-- PEAK_LOFT and PEAK_OVF take the counts in use, when larger (R271). -/
def State.loftPeaks (s : State) (c : Nat) : State :=
  let k := s.core c
  let pl := Nat.max (ofLe (k.scr (k.dirAt + 16) 2)) (runSum k.loftRuns)
  let po := Nat.max (ofLe (k.scr (k.dirAt + 20) 4)) (runSum k.ovfRuns)
  (s.scrWrite c (k.dirAt + 16) (leBytes 2 pl)).scrWrite c (k.dirAt + 20) (leBytes 4 po)

/-! ### Pins (R277) -/

/-- Every array operation of a core that is queued, prepared, streaming or draining. -/
def ArrSt.live (a : ArrSt) : List Tile := a.tqA ++ a.tqB ++ a.granted ++ a.running.map (·.tile)

/-- An entry that an array operation names. -/
def Core.pinned (k : Core) (i : Nat) : Bool := k.arr.live.any (fun t => t.loftEntries.contains i)

/-! ### Copies, drops and allocation (R278 to R281) -/

/-- The loft manager's own part changed. -/
def State.updLoft (s : State) (c : Nat) (f : LoftSt → LoftSt) : State :=
  s.updCore c (fun k => { k with loftM := f k.loftM })

/-- Entries are set to DROPPED. -/
def State.setDropped (s : State) (c : Nat) : List Nat → State
  | [] => s
  | i :: t => (s.setEnt c i 6).setDropped c t

/-- Entry i is dropped, and with it every unpinned entry of its group in the loft or in overflow (R280). -/
def State.dropEnt (s : State) (c i : Nat) : State :=
  let k := s.core c
  let l := i :: ((k.entsIn [2, 4]).filter (fun j => j ≠ i ∧ k.entGroup j = k.entGroup i ∧ !(k.pinned j)))
  let s := s.setDropped c l
  let first := ofLe (k.scr k.dirAt 4) % 2 = 0
  let s := (s.hdrAdd c 12 l.length).scrWrite c k.dirAt (leBytes 4 1)
  let s := s.updLoft c (fun m => { m with drops := cnt m.drops l.length,
                                          waitRecall := m.waitRecall.filter (fun j => !(l.contains j)) })
  if first then s.event 0x11 (s.logNum c) 0 else s

/-- The unpinned entry in the loft with the smallest STAMP (R278). -/
def Core.victim (k : Core) : Option Nat :=
  ((k.entsIn [2]).filter (fun i => !(k.pinned i))).foldl (fun b i =>
    match b with
    | none => some i
    | some j => if k.entStamp i < k.entStamp j then some i else some j) none

/-- The spill of an entry begins (R279); none when no run of overflow pages is large enough. -/
def State.beginSpill (s : State) (c i : Nat) : Option State :=
  let k := s.core c
  match k.ovfRun (k.entPages i) with
  | none => none
  | some p =>
    some (((s.setEnt c i 3).updLoft c (fun m =>
      { m with copies := m.copies ++ [{ entry := i, ovf := p, page := k.entLoc i, isRecall := false }] })).loftPeaks c)

/-- Entry i takes the loft pages from page p on (R278): LOFT, with the next STAMP. -/
def State.placeEnt (s : State) (c i p : Nat) : State :=
  let st := ((s.core c).loftM.stamp + 1) % 2 ^ 32
  let s := s.updLoft c (fun m => { m with stamp := st })
  let s := (s.setEnt c i 2).setLoc c i false p
  (s.scrWrite c ((s.core c).entAt i + 12) (leBytes 4 st)).loftPeaks c

/-- Whether a spill is on its way. -/
def LoftSt.spilling (m : LoftSt) : Bool := m.copies.any (fun p => !p.isRecall)

/-- The allocation of a DECLARED entry is tried (R278): it is placed, or waits for a spill, or is dropped. -/
def State.tryAlloc (s : State) (c i : Nat) : State :=
  let k := s.core c
  let done (s : State) : State := s.updLoft c (fun m => { m with waitAlloc := m.waitAlloc.filter (· ≠ i) })
  match k.loftRun (k.entPages i) with
  | some p => (done s).placeEnt c i p
  | none =>
    if k.loftM.spilling then s
    else
      match k.victim with
      | none => (done s).dropEnt c i
      | some v =>
        match s.beginSpill c v with
        | some s => s
        | none => (done s).dropEnt c i

/-- Waiting allocations are tried in order. -/
def State.tryAllocs (s : State) (c : Nat) : List Nat → State
  | [] => s
  | i :: t => (s.tryAlloc c i).tryAllocs c t

/-- A recall makes space (R281): when no run fits, a spill begins unless one is on its way. -/
def State.makeRoom (s : State) (c i : Nat) : State :=
  let k := s.core c
  if (k.loftRun (k.entPages i)).isSome || k.loftM.spilling then s
  else
    match k.victim with
    | none => s
    | some v => (s.beginSpill c v).getD s

/-- A recall of an OVERFLOW entry is asked for (R281, R282). -/
def State.askRecall (s : State) (c i : Nat) : State :=
  if (s.core c).entState i ≠ 4 ∨ (s.core c).loftM.waitRecall.contains i then s
  else (s.updLoft c (fun m => { m with waitRecall := m.waitRecall ++ [i] })).makeRoom c i

/-- An entry that becomes pinned while SPILLING stays in the loft (R279). -/
def State.keepEnt (s : State) (c i : Nat) : State :=
  if (s.core c).entState i = 3 then
    let s := (s.setEnt c i 2).updLoft c (fun m => { m with copies := m.copies.filter (fun p => p.entry ≠ i) })
    s.tryAllocs c (s.core c).loftM.waitAlloc
  else s

/-- A tile that names an entry has been placed in its queue (R278, R279, R281). -/
def State.nameEnt (s : State) (c i : Nat) : State :=
  match (s.core c).entState i with
  | 1 => (s.updLoft c (fun m => { m with waitAlloc := m.waitAlloc.filter (· ≠ i) ++ [i] })).tryAlloc c i
  | 3 => s.keepEnt c i
  | 4 => s.askRecall c i
  | _ => s

/-- The entries a tile names. -/
def State.nameEnts (s : State) (c : Nat) : List Nat → State
  | [] => s
  | i :: t => (s.nameEnt c i).nameEnts c t

/-- Everything that waits for loft pages is tried again, when pages have been freed. -/
def State.loftFreed (s : State) (c : Nat) : State :=
  let s := s.tryAllocs c (s.core c).loftM.waitAlloc
  match (s.core c).loftM.waitRecall with
  | [] => s
  | i :: _ => s.makeRoom c i

/-- Entry i becomes EMPTY, and its pages are free (R282, R296). -/
def State.freeEnt (s : State) (c i : Nat) : State :=
  ((s.setEnt c i 0).updLoft c (fun m => { m with waitRecall := m.waitRecall.filter (· ≠ i) })).loftFreed c

end Sys2Proof.Machine
end

