-- ==== Sys2Proof/Machine/Fp.lean ====
section
/-! DEFINITION. BF16 and FP32 arithmetic (R46 to R49): values are decoded to exact dyadic numbers, computed
exactly, and rounded once. Bits are plain numbers: FP32 has precision 24, BF16 precision 8, and both have an
exponent of 8 bits with bias 127. -/

namespace Sys2Proof.Machine

/-- What the bits of a floating-point value stand for: a finite value is ±m × 2^e. -/
inductive Fv where
  | nan
  | inf (neg : Bool)
  | fin (neg : Bool) (m : Nat) (e : Int)
deriving DecidableEq, Repr

/-- The precision of FP32. -/
def pF : Nat := 24
/-- The precision of BF16. -/
def pB : Nat := 8

/-- The canonical quiet NaN of precision p (R47). -/
def qnan (p : Nat) : Nat := 0xFF * 2 ^ (p - 1) + 2 ^ (p - 2)
/-- An infinity of precision p. -/
def finf (p : Nat) (neg : Bool) : Nat := 0xFF * 2 ^ (p - 1) + flag (p + 7) neg
/-- A zero of precision p. -/
def fzero (p : Nat) (neg : Bool) : Nat := flag (p + 7) neg

/-- The value of the bits of precision p. -/
def fdec (p b : Nat) : Fv :=
  let neg := bit (p + 7) b
  let ex := fld (p + 6) (p - 1) b
  let fr := b % 2 ^ (p - 1)
  if ex = 255 then (if fr = 0 then .inf neg else .nan)
  else if ex = 0 then .fin neg fr (-126 - ((p : Int) - 1))
  else .fin neg (2 ^ (p - 1) + fr) ((ex : Int) - 127 - ((p : Int) - 1))

/-- ±m × 2^e rounded to nearest even at precision p; an overflow gives an infinity (R46, R49). -/
def fenc (p : Nat) (neg : Bool) (m : Nat) (e : Int) : Nat :=
  if m = 0 then fzero p neg
  else
    let emin : Int := -126 - ((p : Int) - 1)
    let q : Int := max emin (e + (m.log2 : Int) + 1 - (p : Int))
    let n := (shiftRne (m : Int) (e - q)).toNat
    let mag := (q - emin).toNat * 2 ^ (p - 1) + n
    if 0xFF * 2 ^ (p - 1) ≤ mag then finf p neg else mag + flag (p + 7) neg

/-- As fenc, for a value a little above m × 2^e in magnitude when `more`: m has at least p + 1 bits then. -/
def fencS (p : Nat) (neg : Bool) (m : Nat) (e : Int) (more : Bool) : Nat := fenc p neg (4 * m + b2n more) (e - 2)

/-- v × 2^e rounded at precision p; 0 gives +0. -/
def fofDy (p : Nat) (v e : Int) : Nat := fenc p (decide (v < 0)) v.natAbs e

/-- The bits are a NaN. -/
def isNan (p b : Nat) : Bool := fdec p b == .nan
/-- The bits are an infinity. -/
def isInf (p b : Nat) : Bool :=
  match fdec p b with
  | .inf _ => true
  | _ => false
/-- The bits are finite. -/
def isFin (p b : Nat) : Bool := !(isNan p b) && !(isInf p b)
/-- The bits are a zero of either sign. -/
def isZero (p b : Nat) : Bool := b % 2 ^ (p + 7) == 0

/-- A signed integer of a sign and a magnitude. -/
def sm (neg : Bool) (m : Nat) : Int := if neg then -(m : Int) else (m : Int)

/-- The exact sum of two dyadics, rounded. -/
def addDy (p : Nat) (n1 : Bool) (m1 : Nat) (e1 : Int) (n2 : Bool) (m2 : Nat) (e2 : Int) : Nat :=
  let e := min e1 e2
  let v := sm n1 m1 * (2 : Int) ^ (e1 - e).toNat + sm n2 m2 * (2 : Int) ^ (e2 - e).toNat
  if v = 0 then fzero p (n1 && n2) else fofDy p v e

/-- The sum of two decoded values. -/
def addFv (p : Nat) : Fv → Fv → Nat
  | .nan, _ => qnan p
  | _, .nan => qnan p
  | .inf a, .inf b => if a = b then finf p a else qnan p
  | .inf a, _ => finf p a
  | _, .inf b => finf p b
  | .fin n1 m1 e1, .fin n2 m2 e2 => addDy p n1 m1 e1 n2 m2 e2

/-- The exact product of two decoded values. -/
def mulFv : Fv → Fv → Fv
  | .nan, _ => .nan
  | _, .nan => .nan
  | .inf a, .inf b => .inf (xor a b)
  | .inf a, .fin n m _ => if m = 0 then .nan else .inf (xor a n)
  | .fin n m _, .inf b => if m = 0 then .nan else .inf (xor n b)
  | .fin n1 m1 e1, .fin n2 m2 e2 => .fin (xor n1 n2) (m1 * m2) (e1 + e2)

/-- A decoded value rounded. -/
def encFv (p : Nat) : Fv → Nat
  | .nan => qnan p
  | .inf a => finf p a
  | .fin n m e => fenc p n m e

/-- a + b. -/
def fadd (p a b : Nat) : Nat := addFv p (fdec p a) (fdec p b)
/-- The sign of the bits flipped. -/
def fneg (p a : Nat) : Nat := a ^^^ 2 ^ (p + 7)
/-- The sign of the bits cleared. -/
def fabs (p a : Nat) : Nat := a % 2 ^ (p + 7)
/-- a − b. -/
def fsub (p a b : Nat) : Nat := addFv p (fdec p a) (fdec p (fneg p b))
/-- a × b. -/
def fmul (p a b : Nat) : Nat := encFv p (mulFv (fdec p a) (fdec p b))
/-- a × b + c, rounded once. -/
def ffma (p a b c : Nat) : Nat := addFv p (mulFv (fdec p a) (fdec p b)) (fdec p c)

/-- The quotient of two finite magnitudes, rounded at precision p. -/
def divDy (p : Nat) (neg : Bool) (m1 : Nat) (e1 : Int) (m2 : Nat) (e2 : Int) : Nat :=
  let k := p + 3 + m2.log2 - m1.log2
  let n := m1 * 2 ^ k
  fencS p neg (n / m2) (e1 - e2 - (k : Int)) (n % m2 ≠ 0)

/-- a ÷ b. -/
def fdiv (p a b : Nat) : Nat :=
  match fdec p a, fdec p b with
  | .nan, _ => qnan p
  | _, .nan => qnan p
  | .inf _, .inf _ => qnan p
  | .inf n, .fin n' _ _ => finf p (xor n n')
  | .fin n _ _, .inf n' => fzero p (xor n n')
  | .fin n m e, .fin n' m' e' =>
    if m' = 0 then (if m = 0 then qnan p else finf p (xor n n'))
    else if m = 0 then fzero p (xor n n')
    else divDy p (xor n n') m e m' e'

/-- √(m × 2^e), rounded at precision p. -/
def sqrtDy (p m : Nat) (e : Int) : Nat :=
  let k := 2 * p + 8 - m.log2
  let k := if (e - (k : Int)) % 2 = 0 then k else k + 1
  let n := m * 2 ^ k
  let r := isqrt n
  fencS p false r ((e - (k : Int)) / 2) (r * r ≠ n)

/-- √a. -/
def fsqrt (p a : Nat) : Nat :=
  match fdec p a with
  | .nan => qnan p
  | .inf neg => if neg then qnan p else finf p false
  | .fin neg m e => if m = 0 then fzero p neg else if neg then qnan p else sqrtDy p m e

/-- The order of two values without NaN, with −0 equal to +0. -/
def fcmp (p a b : Nat) : Ordering :=
  match fdec p a, fdec p b with
  | .inf n, .inf n' => if n = n' then .eq else if n then .lt else .gt
  | .inf n, _ => if n then .lt else .gt
  | _, .inf n => if n then .gt else .lt
  | .fin n m e, .fin n' m' e' =>
    let q := min e e'
    compare (sm n m * (2 : Int) ^ (e - q).toNat) (sm n' m' * (2 : Int) ^ (e' - q).toNat)
  | _, _ => .eq

/-- The order of two values, without NaN. -/
def fvLt : Fv → Fv → Bool
  | .nan, _ => false
  | _, .nan => false
  | .inf a, .inf b => a && !b
  | .inf a, _ => a
  | _, .inf b => !b
  | .fin n1 m1 e1, .fin n2 m2 e2 =>
    let e := min e1 e2
    decide (sm n1 m1 * (2 : Int) ^ (e1 - e).toNat < sm n2 m2 * (2 : Int) ^ (e2 - e).toNat)

/-- a < b; false with a NaN. -/
def fLt (p a b : Nat) : Bool := !(isNan p a) && !(isNan p b) && fcmp p a b == .lt
/-- a = b; false with a NaN. -/
def fEq (p a b : Nat) : Bool := !(isNan p a) && !(isNan p b) && fcmp p a b == .eq

/-- VFMIN: a NaN gives the quiet NaN, and −0 lies below +0 (R245). -/
def fmin (p a b : Nat) : Nat :=
  if isNan p a || isNan p b then qnan p
  else if fLt p a b then a else if fLt p b a then b else if bit (p + 7) a then a else b
/-- VFMAX (R245). -/
def fmax (p a b : Nat) : Nat :=
  if isNan p a || isNan p b then qnan p
  else if fLt p a b then b else if fLt p b a then a else if bit (p + 7) a then b else a

/-- FP32 to BF16 (R48). -/
def toB (a : Nat) : Nat := encFv pB (fdec pF a)
/-- BF16 to FP32 (R48). -/
def ofB (a : Nat) : Nat := if isNan pB a then qnan pF else a * 65536

/-- An integer rounded to precision p. -/
def fofInt (p : Nat) (v : Int) : Nat := fofDy p v 0

/-- A finite value rounded to an integer, to nearest even. -/
def fvInt : Fv → Int
  | .fin n m e => shiftRne (sm n m) e
  | _ => 0

/-- fp32(v × 2^e × S) for an FP32 scale S (R178): one rounding. -/
def scaleInt (v e : Int) (sc : Nat) : Nat :=
  encFv pF (mulFv (.fin (decide (v < 0)) v.natAbs e) (fdec pF sc))

/-- Whether a tensor scale meets R50: positive, normal and finite. -/
def goodScale (b : Nat) : Bool := !(bit 31 b) && fld 30 23 b != 0 && fld 30 23 b != 255

/-- FP32 1.0. -/
def fOne : Nat := 0x3F800000

end Sys2Proof.Machine
end

