-- ==== Sys2Proof/Machine/Tensor.lean ====
section
/-! DEFINITION. Tensor descriptors (R89 to R92), their layout in memory (R67, R68), integer images (R37 to
R45), block scales and outlier words (R51, R54, R64), lane values (R188), and the reads and writes of the
feeders, the lane and the tail, which a poisoned codeword or a failed block reaches (R309, R595). -/

namespace Sys2Proof.Machine

open Sys2Proof

/-! ### Descriptors (R89 to R91, R214) -/

/-- A tensor descriptor. `fmt` is the format in use, after R214. -/
structure TDesc where
  codeBase : Nat
  scaleBase : Nat
  outlBase : Nat
  codeStride : Nat
  scaleStride : Nat
  outlStride : Nat
  lineLen : Nat
  lines : Nat
  tscale : Nat
  fmt : Nat
  outl : Bool
  sym : Bool
  watch : Nat
deriving DecidableEq, Repr

/-- A format with block scales: FP4, INT4, INT2 or INT8. -/
def fScaled (f : Nat) : Bool := f == 0 || f == 1 || f == 2 || f == 4
/-- A format of R90. -/
def fKnown (f : Nat) : Bool := f ≤ 4 || f == 8 || f == 9
/-- A 4-bit format. -/
def fFour (f : Nat) : Bool := f == 0 || f == 1

/-- The format code in a descriptor's bytes. -/
def dFmt (b : List Byte) : Nat := leAt b 48 2 % 16
/-- The watch slot in a descriptor's bytes. -/
def dSlot (b : List Byte) : Nat := leAt b 50 2 % 4096

/-- Whether a core uses a descriptor as INT8 (R214): its slot is in fall-back. -/
def Core.falls (k : Core) (b : List Byte) : Bool :=
  fFour (dFmt b) && dSlot b != 0 && k.watch.fb.testBit (dSlot b)

/-- The fields of a descriptor (R89); `fall` says that it is used as INT8. -/
def tdesc (b : List Byte) (fall : Bool) : TDesc :=
  { codeBase := leAt b 0 8, scaleBase := leAt b 8 8, outlBase := leAt b 16 8,
    codeStride := leAt b 24 4, scaleStride := leAt b 28 4, outlStride := leAt b 32 4,
    lineLen := leAt b 36 4, lines := leAt b 40 4, tscale := leAt b 44 4,
    fmt := if fall then 4 else dFmt b,
    outl := fScaled (dFmt b) && bit 6 (leAt b 48 2), sym := bit 5 (leAt b 48 2), watch := dSlot b }

/-- Bytes of codes in one block of 32 (R67). -/
def blkBytes (f : Nat) : Nat :=
  match f with
  | 0 => 16
  | 1 => 16
  | 2 => 8
  | 3 => 4
  | _ => 32

/-- Bytes of one code line of K elements (R67, R68). -/
def lineBytes (f k : Nat) : Nat := if f = 8 then 2 * k else if f = 9 then 4 * k else blkBytes f * cdiv k 32

/-- The check of a descriptor at issue (R90, R91, R50): BAD_DESC, then BAD_SCALE. -/
def tdCheck (b : List Byte) (d : TDesc) : Option Nat :=
  let sc := fScaled d.fmt
  let nb := cdiv d.lineLen 32
  if !(fKnown d.fmt) || leAt b 48 2 / 128 != 0 || bit 4 (leAt b 48 2) || leAt b 50 2 / 4096 != 0 || !(zeros b 52 12)
      || d.lineLen == 0 || decide (16777216 < d.lineLen) || d.lines == 0
      || d.codeBase % 256 != 0 || decide (d.codeStride < lineBytes d.fmt d.lineLen)
      || (sc && (d.scaleBase % 256 != 0 || decide (d.scaleStride < nb)))
      || (d.outl && (d.outlBase % 256 != 0 || decide (d.outlStride < 4 * nb))) then some 0x05
  else if sc && !(goodScale d.tscale) then some 0x04
  else none

/-- The tensor scale in use: 1.0 for the formats without one (R45, R91, R188). -/
def TDesc.scale (d : TDesc) : Nat := if fScaled d.fmt then d.tscale else fOne

/-! ### Codes and images (R38, R43, R45, R68) -/

/-- Code i of a run of packed codes. -/
def codeAt (f : Nat) (bs : List Byte) (i : Nat) : Nat :=
  match f with
  | 0 => fld (4 * (i % 2) + 3) (4 * (i % 2)) (bs.getD (i / 2) 0).toNat
  | 1 => fld (4 * (i % 2) + 3) (4 * (i % 2)) (bs.getD (i / 2) 0).toNat
  | 2 => fld (2 * (i % 4) + 1) (2 * (i % 4)) (bs.getD (i / 4) 0).toNat
  | 3 => fld (i % 8) (i % 8) (bs.getD (i / 8) 0).toNat
  | _ => (bs.getD i 0).toNat

/-- The byte of a run of packed codes that holds code i. -/
def codeByte (f i : Nat) : Nat :=
  match f with
  | 0 => i / 2
  | 1 => i / 2
  | 2 => i / 4
  | 3 => i / 8
  | _ => i

/-- The magnitude of an FP4 integer image (R38). -/
def fp4Mag (c : Nat) : Nat := [0, 1, 2, 3, 4, 6, 8, 12].getD (c % 8) 0

/-- The integer image of a code (R38, R43, R45). -/
def imgOf (f c : Nat) : Int :=
  match f with
  | 0 => if bit 3 c then -(fp4Mag c : Int) else (fp4Mag c : Int)
  | 1 => sx 4 c
  | 2 => sx 2 c
  | 3 => (c : Int)
  | _ => sx 8 c

/-- 1 for FP4, whose image is twice its value (R38, R40). -/
def fp4n (f : Nat) : Nat := if f = 0 then 1 else 0

/-- The width of a streamed operand in bit-times (R37). -/
def fWidth (f : Nat) : Nat := if f = 4 then 8 else if f = 2 then 2 else if f = 3 then 1 else 4

/-- The lane value of a code in a block of exponent b; the FP4 code 0b1000 is −0 (R38). -/
def laneVal (f c : Nat) (b : Int) : Nat :=
  if f = 0 ∧ c % 16 = 8 then fzero pF true else fofDy pF (imgOf f c) (b - (fp4n f : Int))

/-! ### Reads that can fail (R309, R595) -/

/-- Pieces are read in order: a byte is marked when it is poisoned or its read failed; the flag tells whether
a read failed. -/
def State.feedPieces (s : State) : List (Nat × Nat) → State × List PByte × Bool
  | [] => (s, [], false)
  | (a, n) :: t =>
    match s.readPiece a n with
    | some (s', bs) =>
      let r := s'.feedPieces t
      (r.1, bs ++ r.2.1, r.2.2)
    | none =>
      let r := s.feedPieces t
      (r.1, List.replicate n (0xFF, true) ++ r.2.1, true)

/-- n bytes read at an offset from a base address; a run that leaves the offsets of R34 fails. -/
def State.feed (s : State) (base off n : Nat) : State × List PByte × Bool :=
  if 2 ^ 44 < aOff base + off + n then (s, List.replicate n (0xFF, true), n ≠ 0)
  else s.feedPieces (blkCuts (base + off) n)

/-- The elements of one block: its codes, scale byte and outlier word as read, and the number of its elements
within the reduction length. Also whether its outlier word is ignored (R65). -/
def blockEls (d : TDesc) (codes : List PByte) (scale : List PByte) (ow : List PByte) (len : Nat) : List El × Bool :=
  let raw := codes.map (·.1)
  let sb := ofLe (scale.map (·.1))
  let w := ofLe (ow.map (·.1))
  let lostBlk := fScaled d.fmt && (marked scale || marked ow || sb == 255)
  let b : Int := if fScaled d.fmt then (sb : Int) - 127 else 0
  let valid := d.outl && !lostBlk && bit 15 w
  let pos := w % 32
  let el (i : Nat) : El :=
    let c := if i < len then codeAt d.fmt raw i else 0
    let lost := (codes.getD (codeByte d.fmt i) (0, false)).2
    let o := valid && decide (pos < len) && i == pos && !lost
    { img := imgOf d.fmt c, b, bad := lostBlk || marked codes, lost, outl := o,
      u := if lostBlk || lost then qnan pF else if o then ofB (w / 65536) else laneVal d.fmt c b }
  ((List.range 32).map el, valid && decide (len ≤ pos))

/-- n blocks from block i of a line of K elements, cut from the bytes read. -/
def blocksEls (d : TDesc) (codes scale ow : List PByte) : Nat → Nat → List El × Nat
  | _, 0 => ([], 0)
  | i, n + 1 =>
    let bb := blkBytes d.fmt
    let r := blockEls d (codes.take bb) (scale.take 1) (ow.take 4) (Nat.min 32 (d.lineLen - 32 * i))
    let t := blocksEls d (codes.drop bb) (scale.drop 1) (ow.drop 4) (i + 1) n
    (r.1 ++ t.1, (if r.2 then 1 else 0) + t.2)

/-- What a read of elements gave: the elements, the outlier words ignored, and whether a read failed. -/
structure ElRead where
  els : List El
  ign : Nat := 0
  failed : Bool := false

/-- Elements of a BF16 or FP32 tensor (R188). -/
def floatEls (f : Nat) : Nat → List PByte → List El
  | 0, _ => []
  | n + 1, bs =>
    let w := if f = 8 then 2 else 4
    let v := ofLe ((bs.take w).map (·.1))
    let m := marked (bs.take w)
    { u := if m then qnan pF else if f = 8 then ofB v else v, bad := m, lost := m } :: floatEls f n (bs.drop w)

/-- n elements of a line from element e0 on are read. `ow` says whether the outlier words are read. -/
def State.tRead (s : State) (d : TDesc) (ow : Bool) (line e0 n : Nat) : State × ElRead :=
  if fScaled d.fmt || d.fmt == 3 then
    let d := { d with outl := d.outl && ow }
    let b0 := e0 / 32
    let nb := cdiv (e0 % 32 + n) 32
    let c := s.feed d.codeBase (line * d.codeStride + b0 * blkBytes d.fmt) (nb * blkBytes d.fmt)
    let p := if fScaled d.fmt then c.1.feed d.scaleBase (line * d.scaleStride + b0) nb else (c.1, [], false)
    let o := if d.outl then p.1.feed d.outlBase (line * d.outlStride + 4 * b0) (4 * nb) else (p.1, [], false)
    let e := blocksEls d c.2.1 p.2.1 o.2.1 b0 nb
    (o.1, { els := (e.1.drop (e0 % 32)).take n, ign := e.2, failed := c.2.2 || p.2.2 || o.2.2 })
  else
    let w := if d.fmt = 8 then 2 else 4
    let c := s.feed d.codeBase (line * d.codeStride + e0 * w) (n * w)
    (c.1, { els := floatEls d.fmt n c.2.1, failed := c.2.2 })

/-- What a read of several lines gave. -/
structure LineRead where
  rows : List (List El)
  ign : Nat := 0
  failed : Bool := false

/-- nl lines from `line` on are read. -/
def State.tReadLines (s : State) (d : TDesc) (ow : Bool) (e0 n : Nat) : Nat → Nat → State × LineRead
  | _, 0 => (s, { rows := [] })
  | line, nl + 1 =>
    let r := s.tRead d ow line e0 n
    let t := r.1.tReadLines d ow e0 n (line + 1) nl
    (t.1, { rows := r.2.els :: t.2.rows, ign := r.2.ign + t.2.ign, failed := r.2.failed || t.2.failed })

/-- The spans of bytes that a read of nl lines touches: codes, scales and outlier words. -/
def tSpans (d : TDesc) (ow : Bool) (e0 n : Nat) : Nat → Nat → List (Nat × Nat)
  | _, 0 => []
  | line, nl + 1 =>
    let b0 := e0 / 32
    let nb := cdiv (e0 % 32 + n) 32
    let own :=
      if fScaled d.fmt || d.fmt == 3 then
        [(d.codeBase + line * d.codeStride + b0 * blkBytes d.fmt, nb * blkBytes d.fmt)]
          ++ (if fScaled d.fmt then [(d.scaleBase + line * d.scaleStride + b0, nb)] else [])
          ++ (if d.outl && ow then [(d.outlBase + line * d.outlStride + 4 * b0, 4 * nb)] else [])
      else
        let w := if d.fmt = 8 then 2 else 4
        [(d.codeBase + line * d.codeStride + e0 * w, n * w)]
    own ++ tSpans d ow e0 n (line + 1) nl

/-- Whether a run of n bytes at a meets the 256-byte block of an address. -/
def meets256 (blk a n : Nat) : Bool := decide (blk / 256 * 256 < a + n) && decide (a < blk / 256 * 256 + 256)

/-! ### Writes that can fail (R242, R595) -/

/-- Pieces are written one by one, but those that meet a block known to fail; the flag tells whether a piece was
discarded. -/
def State.putPieces (s : State) (bad : List Nat) : List (Nat × Nat) → List PByte → State × Bool
  | [], _ => (s, false)
  | (a, n) :: t, bs =>
    match (if bad.any (fun b => meets256 b a n) then none else s.writePiece {} a (bs.take n)) with
    | some s' => s'.putPieces bad t (bs.drop n)
    | none =>
      let r := s.putPieces bad t (bs.drop n)
      (r.1, true)

/-- Bytes written at an offset from a base address; the flag tells whether a part was discarded. -/
def State.put (s : State) (bad : List Nat) (base off : Nat) (bs : List Byte) : State × Bool :=
  if 2 ^ 44 < aOff base + off + bs.length then (s, bs.length ≠ 0)
  else s.putPieces bad (blkCuts (base + off) bs.length) (bs.map (fun b => (b, false)))

/-! ### Descriptors of an instruction -/

/-- A tensor descriptor named by a scratch offset, as its instruction reads it at issue (R89 to R92, R214): its
bytes and whether it falls back, or the code of the first check it fails. -/
def Core.descAt (k : Core) (o : Nat) : Except Nat (List Byte × Bool) :=
  match descOff o with
  | .error e => .error e
  | .ok o =>
    let b := k.scr o 64
    let f := k.falls b
    match tdCheck b (tdesc b f) with
    | some e => .error e
    | none => .ok (b, f)

/-- An instruction reads the descriptor that an address register names (R323). -/
def State.touchDesc (s : State) (c : Nat) (a : W64) : State :=
  match s.descAddr c a with
  | .error _ => s
  | .ok o => s.scrRead c o 64

/-- An instruction reads 64 bytes at each of some scratch offsets (R323). -/
def State.touchAll (s : State) (c : Nat) : List Nat → State
  | [] => s
  | o :: t => (s.scrRead c o 64).touchAll c t

/-- A tensor descriptor named through an address register. -/
def State.descReg (s : State) (c : Nat) (a : W64) : Except Nat (List Byte × Bool) :=
  match s.descAddr c a with
  | .error e => .error e
  | .ok o => (s.core c).descAt o

end Sys2Proof.Machine
end

