-- ==== Sys2Proof/Machine/ArrOps.lean ====
section
/-! DEFINITION. Array instructions (R148 to R153, R190, R191, R268, R269, R275, R284, R290): the tile
descriptor, the correction job, the step job, and the checks made at issue. -/

namespace Sys2Proof.Machine

open Sys2Proof

/-! ### The tile descriptor (R149) -/

/-- An array tile descriptor (R149). -/
structure ADesc where
  sdesc : Nat
  wdesc : Nat
  odesc : Nat
  sLine : Nat
  sElem : Nat
  wLine : Nat
  wElem : Nat
  vectors : Nat
  oLine : Nat
  oElem : Nat
  rows : Nat
  cols : Nat
  drain : Nat
  spRow : Nat
  corr : Nat
  job : Nat
deriving DecidableEq, Repr

/-- The fields of an array tile descriptor. -/
def adesc (b : List Byte) : ADesc :=
  { sdesc := leAt b 0 4, wdesc := leAt b 4 4, odesc := leAt b 8 4, sLine := leAt b 12 4, sElem := leAt b 16 4,
    wLine := leAt b 20 4, wElem := leAt b 24 4, vectors := leAt b 28 4, oLine := leAt b 32 4, oElem := leAt b 36 4,
    rows := leAt b 40 2, cols := leAt b 42 2, drain := leAt b 44 1, spRow := leAt b 46 2 % 1024, corr := leAt b 48 4,
    job := leAt b 52 2 }

/-- A reserved byte or bit of a tile descriptor is not 0 (R151). -/
def adescBad (b : List Byte) : Bool := leAt b 45 1 != 0 || leAt b 46 2 / 1024 != 0 || !(zeros b 54 10)

/-- A correction job (R190). -/
structure CorrJob where
  cbase : Nat
  cstride : Nat
  apply : Bool
deriving DecidableEq, Repr

/-- The fields of a correction job. -/
def corrJob (b : List Byte) : CorrJob := { cbase := leAt b 0 4, cstride := leAt b 4 4, apply := bit 0 (leAt b 8 1) }

/-- A step job (R275, R284, R290): the fields of its three kinds. -/
structure StepJob where
  kind : Nat
  b1 : Nat
  entry : Nat
  flags : Nat
  line0 : Nat
  elem0 : Nat
  w12 : Nat
  w16 : Nat
  qoff : Nat
  qstride : Nat
  abase : Nat
  astride : Nat
  sbase : Nat
  lbase : Nat
  alpha : Nat
deriving DecidableEq, Repr

/-- The fields of a step job. -/
def stepJob (b : List Byte) : StepJob :=
  { kind := leAt b 0 1, b1 := leAt b 1 1, entry := leAt b 2 1, flags := leAt b 3 1, line0 := leAt b 4 4,
    elem0 := leAt b 8 4, w12 := leAt b 12 4, w16 := leAt b 16 4, qoff := leAt b 20 4, qstride := leAt b 24 4,
    abase := leAt b 28 4, astride := leAt b 32 4, sbase := leAt b 36 4, lbase := leAt b 40 4, alpha := leAt b 44 4 }

/-- Whether logical row l takes part under a MASK job and its row mask (R290). -/
def maskOn (job : List Byte) (l : Nat) : Bool :=
  if job.isEmpty then true
  else if bit 0 (leAt job 1 1) then bit (l % 8) (leAt job (64 + l / 8) 1)
  else bit (l / 32) (leAt job 2 2)

/-! ### Checks (R151, R152, R191, R269) -/

/-- The operand pairs of R37. -/
def pairOk (s w : Nat) : Bool :=
  match s with
  | 2 => w == 2 || w == 1 || w == 0
  | 3 => w == 3 || w == 2 || w == 1 || w == 0
  | 4 => w == 4
  | _ => fFour s && fFour w

/-- Whether nl lines and n elements fit a tensor (R152). -/
def TDesc.fits (d : TDesc) (line nl e n : Nat) : Bool := decide (line + nl ≤ d.lines) && decide (e + n ≤ d.lineLen)

/-- The lines and elements of the correction accumulator and the outputs of a tile: those of R150 and R190. -/
def outDims (kind : TileKind) (a : ADesc) : Nat × Nat :=
  match kind with
  | .ig => (a.vectors, a.rows)
  | .wg => (a.rows, a.cols)
  | _ => (a.vectors, a.cols)

/-- Shape (0x20). -/
def badShape (kind : TileKind) (pair : Bool) (a : ADesc) (sd wd od : TDesc) : Bool :=
  a.vectors == 0 || decide (16777216 < a.vectors) || a.rows == 0 || decide (512 < a.rows) || a.cols == 0
    || decide ((if pair then 256 else 128) < a.cols) || a.sElem % 32 != 0 || a.wElem % 32 != 0
    || !(match kind with
      | .ig => sd.fits a.sLine a.vectors a.sElem a.cols && wd.fits a.wLine a.rows a.wElem a.cols
          && od.fits a.oLine a.vectors a.oElem a.rows
      | .wg => sd.fits a.sLine a.rows a.sElem a.vectors && wd.fits a.wLine a.cols a.wElem a.vectors
      | _ => sd.fits a.sLine a.vectors a.sElem a.rows && wd.fits a.wLine a.cols a.wElem a.rows
          && od.fits a.oLine a.vectors a.oElem a.cols)

/-- Format (0x21): `sf` and `wf` say that R214 makes the operands INT8. -/
def badFmt (k : Core) (kind : TileKind) (pair loadw : Bool) (op : Nat) (sd wd : TDesc) (sf wf : Bool) : Bool :=
  !(pairOk sd.fmt wd.fmt)
    || (pair && !((fFour sd.fmt && fFour wd.fmt) || (sf && wf)))
    || (kind == .dist && (sd.fmt == 0 || wd.fmt == 0 || op == 0 || op == 6 || op == 7
        || (op == 2 && !(sd.fmt == 3 && wd.fmt == 3))))
    || (kind != .wg && !loadw && !(k.arr.wtLoaded && k.arr.wtFmt == wd.fmt && k.arr.wtPair == pair))

/-- Drain (0x22). -/
def badDrain (kind : TileKind) (a : ADesc) (od : TDesc) : Bool :=
  let ff := od.fmt == 8 || od.fmt == 9
  decide (3 < a.drain)
    || (match kind with
      | .wg => a.drain != 0 || a.odesc != 0
      | .dist => a.drain != 3 || !ff
      | _ => decide (2 ≤ a.drain) && !ff)

/-- Spool rows per vector of a drain (R174). -/
def rowsPer (kind : TileKind) (pair : Bool) : Nat := if kind = .ig then 4 else if pair then 2 else 1

/-- The correction job (0x31, R191): `n` are the operands with outliers. -/
def Core.badCorr (k : Core) (kind : TileKind) (a : ADesc) (outl : Bool) : Bool :=
  if a.corr = 0 then outl && kind != .dist
  else
    let b := k.scr a.corr 64
    let j := corrJob b
    let d := outDims kind a
    kind == .dist || a.corr % 64 != 0 || decide (0x400000 < a.corr + 64) || j.cbase % 4 != 0 || j.cstride % 4 != 0
      || leAt b 8 1 / 2 != 0 || !(zeros b 9 55) || decide (0x400000 < j.cbase + (d.1 - 1) * j.cstride + 4 * d.2)
      || (j.apply && (kind == .wg || decide (a.drain < 2)))

/-- Whether a region of nl lines of n elements of w bytes, at an offset from (line0, elem0) on, lies within a store of
`size` bytes for output lines from `line` and elements from `elem` (R276, R285). -/
def regionOk (size off stride line0 elem0 line nl elem n w : Nat) : Bool :=
  decide (line0 ≤ line) && decide (elem0 ≤ elem)
    && decide (off + (line + nl - 1 - line0) * stride + (elem + n - 1 - elem0) * w + w ≤ size)

/-- Whether the line scalars or accumulators of nl lines lie in scratch (R285). -/
def linesOk (base line0 line nl : Nat) : Bool := decide (base + 4 * (line + nl - 1 - line0) + 4 ≤ 0x400000)

/-- The entry a step job names, when it names one. -/
def jobEntry (kind : TileKind) (b : List Byte) : Option Nat :=
  if b.isEmpty then none
  else
    match kind with
    | .fwd => some (stepJob b).entry
    | .ig => if bit 0 (stepJob b).flags then none else some (stepJob b).entry
    | _ => none

/-- An entry whose size is 0 or beyond the managed pages (R269). -/
def Core.entSizeBad (k : Core) (i : Nat) : Bool := k.entPages i == 0 || decide (768 - k.loftM.page0 < k.entPages i)

/-- The step job (BAD_DESC, R269). -/
def State.badJob (s : State) (c : Nat) (kind : TileKind) (a : ADesc) : Bool :=
  if a.job = 0 then false
  else
    let k := s.core c
    let b := k.scr (a.job * 64) 64
    let j := stepJob b
    match kind with
    | .fwd =>
      j.kind != 1 || j.b1 / 2 != 0 || j.flags != 0 || !(zeros b 20 44) || decide (a.drain < 2)
        || !(s.loftValid c) || k.entSizeBad j.entry || k.entState j.entry == 0
        || !(regionOk (k.entPages j.entry * 4096) j.w12 j.w16 j.line0 j.elem0 a.oLine a.vectors a.oElem a.cols
              (if bit 0 j.b1 then 2 else 4))
    | .ig =>
      let pscr := bit 0 j.flags
      let size := if pscr then 0x400000 else k.entPages j.entry * 4096
      let pw := if bit 2 j.flags then 2 else 4
      let f := j.b1
      j.kind != 2 || j.flags / 16 != 0 || !(zeros b 48 16) || decide (a.drain < 2) || f == 0 || decide (10 < f)
        || (!pscr && (!(s.loftValid c) || k.entSizeBad j.entry
            || [0, 1, 6].contains (k.entState j.entry)))
        || !(regionOk size j.w12 j.w16 j.line0 j.elem0 a.oLine a.vectors a.oElem a.rows pw)
        || (usesQ' f && !(regionOk size j.qoff j.qstride j.line0 j.elem0 a.oLine a.vectors a.oElem a.rows pw))
        || ((f == 7 || f == 8) && !(regionOk 0x400000 j.abase j.astride j.line0 j.elem0 a.oLine a.vectors a.oElem a.rows
              (if bit 3 j.flags then 2 else 4)))
        || ((f == 9 || f == 10) && !(linesOk j.sbase j.line0 a.oLine a.vectors))
        || (f == 10 && !(linesOk j.lbase j.line0 a.oLine a.vectors))
    | .wg =>
      let mbase := leAt b 4 4
      j.kind != 3 || j.b1 / 2 != 0 || !(zeros b 8 56)
        || (bit 0 j.b1 && (mbase % 64 != 0 || decide (0x400000 < mbase + 64)))
    | _ => true
where
  /-- Whether a function reads Q. -/
  usesQ' (f : Nat) : Bool := f == 7 || f == 8 || f == 10

/-- The energy class of a tile (R153). -/
def tileClass (kind : TileKind) (pair : Bool) (sfmt : Nat) : Nat :=
  match kind with
  | .dist => 5
  | .spill => 1
  | _ =>
    let w := fWidth sfmt
    if w = 8 then 4 else if w < 4 then 3 else if pair then 2 else if kind = .wg then 1 else 0

/-- The checks of R151 on a tile, and the tile they let through. DEDUCED, log entry 34. -/
def State.tileCheck (s : State) (c : Nat) (x : Stream) (kind : TileKind) (m : Nat) (addr : W64) (out : Bool) :
    Except Nat Tile :=
  let k := s.core c
  let pair := kind != .dist && bit 1 m
  let loadw := kind != .wg && bit 0 m
  let op := if kind = .dist then m / 8 else 0
  match (if out then .error 0x05 else s.descAddr c addr : Except Nat Nat) with
  | .error e => .error e
  | .ok o =>
    let b := k.scr o 64
    if adescBad b then .error 0x05
    else
      let a := adesc b
      match k.descAt a.sdesc with
      | .error e => .error e
      | .ok (sb, sf) =>
        match k.descAt a.wdesc with
        | .error e => .error e
        | .ok (wb, wf) =>
          match (if kind = .wg then .ok ([], false) else k.descAt a.odesc : Except Nat (List Byte × Bool)) with
          | .error e => .error e
          | .ok (ob, of) =>
            let sd := tdesc sb sf
            let wd := tdesc wb wf
            let od := tdesc ob of
            let job := if a.job = 0 then [] else
              let j := k.scr (a.job * 64) 64
              if kind = .wg ∧ bit 0 (leAt j 1 1) then j ++ k.scr (leAt j 4 4) 64 else j
            let cls := tileClass kind pair sd.fmt
            if k.arr.halted then .error 0x24
            else if badShape kind pair a sd wd od then .error 0x20
            else if badFmt k kind pair loadw op sd wd sf wf then .error 0x21
            else if badDrain kind a od then .error 0x22
            else if kind != .wg && decide (a.drain < 3) && decide (1024 < a.spRow + rowsPer kind pair * a.vectors) then
              .error 0x23
            else if k.badCorr kind a (sd.outl || wd.outl) then .error 0x31
            else if s.badJob c kind a then .error 0x05
            else if k.cap < k.cost' cls a.vectors 64 then .error 0x06
            else .ok { x, kind, pair, loadw, start := kind == .wg && bit 2 m, op, desc := b, sdesc := sb, wdesc := wb,
                       odesc := ob, corr := if a.corr = 0 then [] else k.scr a.corr 64, job, sFall := sf, wFall := wf,
                       cls, vectors := a.vectors, loftEntries := (jobEntry kind job).toList }

/-- The spool byte that an address names when it is a byte of core c's own spool (R152). -/
def State.ownSpool (s : State) (c : Nat) (a : Nat) : Option Nat :=
  if aDev a = s.teth.self ∧ aSpace a = 2 ∧ s.logical c = some (aOff a / 0x400000) ∧ 0x300000 ≤ aOff a % 0x400000 then
    some (aOff a % 0x400000 - 0x300000)
  else none

/-- The checks of R151 and R152 on a spill, and the spill they let through. -/
def State.spillCheck (s : State) (c : Nat) (x : Stream) (m : Nat) (addr : W64) (out : Bool) : Except Nat Tile :=
  let k := s.core c
  let pair := bit 2 m
  let only := bit 0 m
  let sp := if out then none else s.ownSpool c addr.toNat
  let at0 := sp.getD 0
  if k.arr.halted then .error 0x24
  else if !only && (sp.isNone || (if pair then at0 != 0 else at0 % 1024 != 0 || decide (0x100000 < at0 + 0x80000))) then
    .error 0x23
  else if k.cap < k.cost' 1 512 64 then .error 0x06
  else .ok { x, kind := .spill, pair, add := bit 1 m, checkOnly := only, addr := at0, cls := 1, vectors := 512 }

/-- The zero bits of the minor opcode of an array instruction (R148). -/
def minorOk (kind : TileKind) (m : Nat) : Bool :=
  match kind with
  | .fwd => m / 4 == 0
  | .ig => m / 4 == 0
  | .wg => m / 8 == 0 && !(bit 0 m)
  | .dist => !(bit 1 m) && !(bit 2 m)
  | .spill => m / 8 == 0

/-- The queue of a stream's tiles. -/
def ArrSt.tq (a : ArrSt) : Stream → List Tile
  | .a => a.tqA
  | .b => a.tqB
/-- The queue of a stream's tiles replaced. -/
def ArrSt.setTq (a : ArrSt) (x : Stream) (l : List Tile) : ArrSt :=
  match x with
  | .a => { a with tqA := l }
  | .b => { a with tqB := l }

/-- The array of core c changed. -/
def State.updArr (s : State) (c : Nat) (f : ArrSt → ArrSt) : State := s.updCore c (fun k => { k with arr := f k.arr })

/-- The scratch offsets of the descriptors and jobs that an array instruction reads at its issue (R149, R323). -/
def State.tileReads (s : State) (c : Nat) (kind : TileKind) (addr : W64) : List Nat :=
  match (if kind = .spill then .error 0 else s.descAddr c addr : Except Nat Nat) with
  | .error _ => []
  | .ok o =>
    let k := s.core c
    let a := adesc (k.scr o 64)
    let j := k.scr (a.job * 64) 64
    [o, a.sdesc, a.wdesc] ++ (if kind = .wg then [] else [a.odesc]) ++ (if a.corr = 0 then [] else [a.corr])
      ++ (if a.job = 0 then [] else [a.job * 64])
      ++ (if a.job ≠ 0 ∧ kind = .wg ∧ bit 0 (leAt j 1 1) then [leAt j 4 4] else [])

/-- An array instruction (R148 to R153): after its checks it takes its place in the tile queue of four. -/
def State.arrIssue (s : State) (c : Nat) (x : Stream) (kind : TileKind) (m : Nat) (w : InsnW) : State :=
  s.coreAccess c (fun s => s.issue c x w (fmtM w && iD w == 0 && minorOk kind m) [] (fun s =>
    let t := (s.core c).st x
    let addr := offAdd (t.getA (iA w)) (iImm w)
    let s := s.touchAll c (s.tileReads c kind addr)
    let out := offOut (offSum (t.getA (iA w)) (iImm w))
    match (if kind = .spill then s.spillCheck c x m addr out else s.tileCheck c x kind m addr out) with
    | .error code => s.raise c x code
    | .ok q =>
      if !(Queue.tile.credit ((s.core c).arr.tq x).length) then s.waitFor c x .tileQueue
      else
        let r := s.ticket c
        let q := { q with id := r.1 }
        let wd := tdesc q.wdesc q.wFall
        let s := r.2.updArr c (fun a =>
          let a := a.setTq x (a.tq x ++ [q])
          if q.loadw then { a with wtLoaded := true, wtFmt := wd.fmt, wtPair := q.pair } else a)
        (s.nameEnts c q.loftEntries).retire c x))

end Sys2Proof.Machine
end

