-- ==== Sys2Proof/Machine/Arr.lean ====
section
/-! DEFINITION. The array instructions (R148) and the array's test, injection and top-k registers (R143, R159
to R161, R185 to R187). -/

namespace Sys2Proof.Machine

open Sys2Proof

/-- ARR.FWD (R148, R151). -/
def execArrFwd (c : Nat) (x : Stream) (m : BitVec 6) (w : InsnW) (s : State) : Host.Outcome State Fault Refusal :=
  .next (s.arrIssue c x .fwd m.toNat w)
/-- ARR.IG (R148, R151). -/
def execArrIg (c : Nat) (x : Stream) (m : BitVec 6) (w : InsnW) (s : State) : Host.Outcome State Fault Refusal :=
  .next (s.arrIssue c x .ig m.toNat w)
/-- ARR.WG (R148, R151). -/
def execArrWg (c : Nat) (x : Stream) (m : BitVec 6) (w : InsnW) (s : State) : Host.Outcome State Fault Refusal :=
  .next (s.arrIssue c x .wg m.toNat w)
/-- ARR.DIST (R148, R151). -/
def execArrDist (c : Nat) (x : Stream) (m : BitVec 6) (w : InsnW) (s : State) : Host.Outcome State Fault Refusal :=
  .next (s.arrIssue c x .dist m.toNat w)
/-- ARR.SPILL (R148, R151). -/
def execArrSpill (c : Nat) (x : Stream) (m : BitVec 6) (w : InsnW) (s : State) : Host.Outcome State Fault Refusal :=
  .next (s.arrIssue c x .spill m.toNat w)

/-- A check-only spill is waiting or in progress (R143, R159). -/
def ArrSt.checkComing (a : ArrSt) : Bool :=
  a.spills.any (·.checkOnly) || (match a.spilling with
    | some (t, _) => t.checkOnly
    | none => false)

/-- Any spill is waiting or in progress (R143). -/
def ArrSt.spillComing (a : ArrSt) : Bool := !(a.spills.isEmpty) || a.spilling.isSome

/-- A forced check-only spill takes its place among the granted spills (R143): it charges no credit. A weight-gradient tile that
streams is paused for it, once no other spill is before it. -/
def ArrSt.force (a : ArrSt) : ArrSt :=
  { a with spills := a.spills ++ [{ x := .a, kind := .spill, checkOnly := true, forced := true, gid := a.grantSeq }],
           grantSeq := a.grantSeq + 1,
           paused := a.paused || (!a.spillComing && a.running.any (fun t => t.tile.kind == .wg && t.left ≠ 0)) }

/-- A write to ARR_CTRL (R159): FORCE_CHECK runs a check-only spill and restarts the timer. -/
def Core.arrCtrl (k : Core) (v : Nat) : Core :=
  if bit 0 v && !k.arr.checkComing && !k.arr.halted then { k with arr := { k.arr.force with chkTimer := 0 } } else k

/-- A write to ARR_INJECT (R160): the staged fields. -/
def Core.arrInject (k : Core) (v : Nat) : Core :=
  { k with arr := { k.arr with injRow := fld 29 20 v, injCol := fld 19 12 v, injBit := fld 4 0 v } }

/-- A write to ARR_ARM (R160, R161). -/
def Core.arrArm (k : Core) (v : Nat) : Core :=
  if bit 0 v then
    { k with arr := { k.arr with armed := true, armRow := k.arr.injRow, armCol := k.arr.injCol, armBit := k.arr.injBit } }
  else { k with arr := { k.arr with armed := false } }

/-- The end of the last record of a staged pair (R187). -/
def topkEnd (cfg base : Nat) : Nat := fld 21 7 base * 128 + fld 23 11 cfg * 128

/-- A write to ARR_TOPK_ARM (R185, R187). -/
def Core.arrTopk (k : Core) (v : Nat) : Core :=
  if !(bit 0 v) then k
  else if 0x400000 < topkEnd k.arr.tkCfg k.arr.tkBase then { k with wrIgn := true }
  else { k with arr := { k.arr with
    tkNextCfg := some (k.arr.tkCfg, k.arr.tkBase),
    tkClears := if bit 1 v then k.arr.tkClears ++ [(k.arr.tkCfg, k.arr.tkBase)] else k.arr.tkClears } }

/-- FORCE_CHECK (R159). -/
def execForceCheck (c : Nat) (v : W32) (s : State) : Host.Outcome State Fault Refusal :=
  .next (s.coreWrite c (fun k => k.arrCtrl v.toNat))
/-- ARR_INJECT_ARM (R160, R161). -/
def execArrInjectArm (c : Nat) (v : W32) (s : State) : Host.Outcome State Fault Refusal :=
  .next (if bit 0 v.toNat then s.coreWrite c (fun k => k.arrArm v.toNat) else s)
/-- ARR_INJECT_CANCEL (R160). -/
def execArrInjectCancel (c : Nat) (v : W32) (s : State) : Host.Outcome State Fault Refusal :=
  .next (if bit 0 v.toNat then s else s.coreWrite c (fun k => k.arrArm v.toNat))
/-- ARR_TOPK_ARM (R185, R187). -/
def execArrTopkArm (c : Nat) (v : W32) (s : State) : Host.Outcome State Fault Refusal :=
  .next (s.coreWrite c (fun k => k.arrTopk v.toNat))

/-- ARR_CHK_TIMER_EXPIRY (R143): the timer has reached 1,800 kt while accumulators are unchecked. -/
def execArrChkTimerExpiry (c : Nat) (s : State) : Host.Outcome State Fault Refusal :=
  .next (
    let a := (s.core c).arr
    if !(s.coreRuns c) || !a.unchecked || decide (a.chkTimer < 1800) || a.spillComing || a.halted then s
    else s.updArr c (fun a => a.force))

end Sys2Proof.Machine
end

