-- ==== Sys2Proof/Machine/WatchOps.lean ====
section
/-! DEFINITION. The precision watch's counting (R204 to R211): held slots, merges and the sticky bits they
set; and the watch table's addresses (R205, R226). -/

namespace Sys2Proof.Machine

open Sys2Proof

/-- The largest 32-bit count. -/
def u32Max : Nat := 0xFFFFFFFF
/-- The largest 64-bit count. -/
def u64Max : Nat := 0xFFFFFFFFFFFFFFFF

/-- The address of a slot's record (R205). -/
def slotAddr (base i : Nat) : Nat := base + 1024 + 64 * i

/-- WATCH_STATUS.VALID for a table address (R226): space 0x0 of this device, 1,024-byte aligned, inside 768 GiB, and
every byte in a region of the interleave frame in force. -/
def State.tableOk (s : State) (base : Nat) : Bool :=
  let o := aOff base
  aDev base == s.teth.self && aSpace base == 0 && o % 1024 == 0 && decide (o + 263168 ≤ stackEnd)
    && (List.range 257).all (fun i => (s.regionOf (o + 1024 * i)).isSome && (s.regionOf (o + 1024 * i + 1023)).isSome)

/-- A merge of a held slot leaves core c, or its counts are discarded for want of a table (R210, R226). -/
def State.sendMerge (s : State) (c : Nat) (h : HeldSlot) : State :=
  let w := (s.core c).watch
  if w.valid then
    let w' := { w with merges := cnt w.merges 1, unacked := w.unacked + 1 }
    let s := s.updCore c (fun k => { k with watch := w' })
    { s with merges := s.merges ++ [{ core := c, base := w.base, held := h }] }
  else s.updCore c (fun k => { k with watch := { k.watch with lost := true } })

/-- What a core reads when it takes a slot (R210). With no table there is nothing to read: the values are free. -/
def State.freshSlot (s : State) (c i : Nat) : State × HeldSlot :=
  let w := (s.core c).watch
  if w.valid then
    let r := s.readBytes (slotAddr w.base i) 20
    (r.1, { slot := i, nexpOut := sx 16 (leAt r.2 16 2), nexpGrad := sx 16 (leAt r.2 18 2), ovfW := bit 3 (leAt r.2 0 4) })
  else
    (s, { slot := i, nexpOut := (Config.freeNexp i 0).toInt, nexpGrad := (Config.freeNexp i 1).toInt,
          ovfW := Config.freeOvfW i })

/-- Core c holds slot i, as its most recent one (R210). -/
def State.takeSlot (s : State) (c i : Nat) : State :=
  let hs := (s.core c).watch.held
  match hs.find? (fun h => h.slot == i) with
  | some h =>
    s.updCore c (fun k => { k with watch := { k.watch with held := hs.filter (fun q => q.slot ≠ i) ++ [h] } })
  | none =>
    let s := match hs with
      | h :: t =>
        if 32 ≤ hs.length then
          (s.sendMerge c h).updCore c (fun k => { k with watch := { k.watch with held := t } })
        else s
      | [] => s
    let r := s.freshSlot c i
    r.1.updCore c (fun k => { k with watch := { k.watch with held := k.watch.held ++ [r.2] } })

/-- A count of core c under slot i (R204, R208): slot 0 counts nothing. -/
def State.countSlot (s : State) (c i : Nat) (f : HeldSlot → HeldSlot) : State :=
  if i = 0 then s
  else (s.takeSlot c i).updCore c (fun k => { k with watch := { k.watch with
    held := k.watch.held.map (fun h => if h.slot = i then f h else h) } })

/-- n saturations. -/
def State.countSat (s : State) (c i n : Nat) : State :=
  if n = 0 then s else s.countSlot c i (fun h => { h with sat := Nat.min (h.sat + n) u32Max })

/-- A non-finite value counted under slot i (R208, R211). -/
def State.countNonfinite (s : State) (c i : Nat) : State :=
  if i = 0 then s
  else
    let s := s.countSlot c i (fun h => { h with flags := h.flags ||| 2 })
    let o := (s.core c).watch.held.any (fun h => h.slot == i && h.ovfW)
    s.updCore c (fun k => { k with watch := { k.watch with nonfinite := true, stepOvf := k.watch.stepOvf || o } })

/-- Integer units added to a norm, with saturation at 2^64 − 1 (R209): the sum, and whether it saturated. -/
def satNorm (a n : Nat) : Nat × Bool := if u64Max < a + n then (u64Max, true) else (a + n, false)

/-- The units of 2^nexp in a non-negative value (R209); an infinity has more than any sum holds. -/
def normUnits (x : Nat) (nexp : Int) : Nat :=
  match fdec pF x with
  | .fin _ m e => (shiftRne (m : Int) (e - nexp)).toNat
  | _ => u64Max + 1

/-- A norm value is added to a held slot (R209): an output norm, or a gradient norm. -/
def HeldSlot.addNorm (h : HeldSlot) (grad : Bool) (x : Nat) : HeldSlot :=
  let u := normUnits x (if grad then h.nexpGrad else h.nexpOut)
  let r := satNorm (if grad then h.nsqGrad else h.nsqOut) u
  if grad then { h with nsqGrad := r.1, flags := h.flags ||| 8 ||| flag 5 r.2 }
  else { h with nsqOut := r.1, flags := h.flags ||| 4 ||| flag 4 r.2 }

/-- A norm value of core c under slot i. -/
def State.countNorm (s : State) (c i : Nat) (grad : Bool) (x : Nat) : State :=
  s.countSlot c i (fun h => h.addNorm grad x)

end Sys2Proof.Machine
end

