-- ==== Sys2Proof/Machine/BalMath.lean ====
section
/-! DEFINITION. The ballast engine's tables (R332 to R339) and the arithmetic of an update: the schedule (R338), the
per-group values (R352), one element (R353) and the block preconditioner (R356). All arithmetic is FP32, every operation
rounded to nearest even. -/

namespace Sys2Proof.Machine

open Sys2Proof

/-! ### FP32 helpers -/

/-- 10.0 in FP32. -/
def fTen : Nat := 0x41200000
/-- a + b. -/
def aF (a b : Nat) : Nat := fadd pF a b
/-- a − b. -/
def sF (a b : Nat) : Nat := fsub pF a b
/-- a × b. -/
def mF (a b : Nat) : Nat := fmul pF a b
/-- a ÷ b. -/
def dF (a b : Nat) : Nat := fdiv pF a b
/-- a ≥ b; false with a NaN. -/
def fGe (a b : Nat) : Bool := fLt pF b a || fEq pF a b
/-- All of some values are finite. -/
def allFin (l : List Nat) : Bool := l.all (isFin pF)
/-- The value lies in [0, 1). -/
def inUnit (a : Nat) : Bool := fGe a 0 && fLt pF a fOne

/-! ### The tables (R335 to R337) -/

/-- Bytes in the ballast tables. -/
def balBytes : Nat := 360448

/-- A parameter group with its coefficient set and curve. -/
structure BGroup where
  pbase : Nat
  rowLen : Nat
  rows : Nat
  t0 : Nat
  layout : Nat
  k : Nat
  span : Nat
  lr : Nat
  clip : Nat
  flags : Nat
  snapBase : Nat
  tailZero : Bool
  cs : List Byte
  curve : List Byte

/-- Group g of a copy of the tables (R336). -/
def groupOf (m : Memory) (g : Nat) : BGroup :=
  let b := mread m (64 * g) 64
  { pbase := leAt b 0 8, rowLen := leAt b 8 4, rows := leAt b 12 4, t0 := leAt b 16 4, layout := leAt b 22 1,
    k := leAt b 23 1, span := leAt b 24 4, lr := leAt b 28 4, clip := leAt b 32 4, flags := leAt b 36 1,
    snapBase := leAt b 40 8, tailZero := zeros b 37 3 && zeros b 48 16,
    cs := mread m (0x40000 + 128 * leAt b 20 1) 128, curve := mread m (0x48000 + 256 * leAt b 21 1) 256 }

/-- A flag of the group. -/
def BGroup.valid (g : BGroup) : Bool := bit 0 g.flags
/-- FREEZE. -/
def BGroup.freeze (g : BGroup) : Bool := bit 1 g.flags
/-- STRICT. -/
def BGroup.strict (g : BGroup) : Bool := bit 2 g.flags
/-- INTERP. -/
def BGroup.interp (g : BGroup) : Bool := bit 3 g.flags
/-- SNAP. -/
def BGroup.snap (g : BGroup) : Bool := bit 4 g.flags
/-- SNAP_BF16. -/
def BGroup.snapB (g : BGroup) : Bool := bit 5 g.flags
/-- S, the state slots. -/
def BGroup.slots (g : BGroup) : Nat := g.layout % 8
/-- Whether slot j is BF16. -/
def BGroup.slotB (g : BGroup) (j : Nat) : Bool := bit (3 + j) g.layout
/-- FP32 word i of the coefficient set. -/
def BGroup.co (g : BGroup) (i : Nat) : Nat := leAt g.cs (4 * i) 4
/-- A_j: the decay of slot j. -/
def BGroup.a (g : BGroup) (j : Nat) : Nat := g.co j
/-- B_j. -/
def BGroup.b (g : BGroup) (j : Nat) : Nat := g.co (4 + j)
/-- C_j. -/
def BGroup.c (g : BGroup) (j : Nat) : Nat := g.co (8 + j)
/-- CG. -/
def BGroup.cg (g : BGroup) : Nat := g.co 12
/-- EPS. -/
def BGroup.eps (g : BGroup) : Nat := g.co 13
/-- WDC. -/
def BGroup.wdc (g : BGroup) : Nat := g.co 14
/-- WDD. -/
def BGroup.wdd (g : BGroup) : Nat := g.co 15
/-- AH. -/
def BGroup.ah (g : BGroup) : Nat := g.co 16
/-- BH. -/
def BGroup.bh (g : BGroup) : Nat := g.co 17
/-- DELTA. -/
def BGroup.delta (g : BGroup) : Nat := g.co 18
/-- TAU. -/
def BGroup.tau (g : BGroup) : Nat := g.co 19
/-- The input of slot j: 0 off, 1 g, 2 g², 3 |g|. -/
def BGroup.inp (g : BGroup) (j : Nat) : Nat := fld (2 * j + 1) (2 * j) (leAt g.cs 80 1)
/-- The byte BC. -/
def BGroup.bc (g : BGroup) : Nat := leAt g.cs 81 1
/-- The byte DEN. -/
def BGroup.den (g : BGroup) : Nat := leAt g.cs 82 1
/-- The byte FLAGS of the coefficient set. -/
def BGroup.cfl (g : BGroup) : Nat := leAt g.cs 83 1
/-- DEN.EN. -/
def BGroup.denEn (g : BGroup) : Bool := bit 7 g.den
/-- PREC. -/
def BGroup.prec (g : BGroup) : Bool := bit 2 g.cfl

/-- Where slot j starts in a record (R332). -/
def BGroup.slotOff (g : BGroup) : Nat → Nat
  | 0 => 256
  | j + 1 => g.slotOff j + (if g.slotB j then 128 else 256)
/-- Bytes of a slot's element. -/
def BGroup.slotW (g : BGroup) (j : Nat) : Nat := if g.slotB j then 2 else 4
/-- Where the statistics start. -/
def BGroup.hOff (g : BGroup) : Nat := g.slotOff g.slots
/-- Bytes of one block's statistics. -/
def hBytes (k : Nat) : Nat := 2 * k * (k + 1)
/-- The sum of a record's parts. -/
def BGroup.used (g : BGroup) : Nat := g.hOff + (if g.k = 0 then 0 else 64 / g.k * hBytes g.k)
/-- RECSZ (R333). -/
def BGroup.recsz (g : BGroup) : Nat := 2 ^ ((g.used - 1).log2 + 1)
/-- Elements. -/
def BGroup.total (g : BGroup) : Nat := g.rows * g.rowLen
/-- Chunks. -/
def BGroup.chunks (g : BGroup) : Nat := cdiv g.total 64
/-- Elements of chunk h. -/
def BGroup.inChunk (g : BGroup) (h : Nat) : Nat := Nat.min 64 (g.total - 64 * h)

/-! ### LOAD's checks (R339) -/

/-- The region that holds a group's records. -/
def State.groupRegion (s : State) (g : BGroup) : Option Region := s.regionOf (aOff g.pbase)

/-- 0x11 LAYOUT (R334, R336). -/
def State.badLayout (s : State) (g : BGroup) : Bool :=
  let o := aOff g.pbase
  decide (g.rowLen < 1) || decide (16777216 < g.rowLen) || g.rows == 0 || decide (4 < g.slots)
    || (g.layout / 8 % 16) / 2 ^ g.slots != 0 || !([0, 2, 4, 8].contains g.k) || (g.k != 0 && g.rowLen % g.k != 0)
    || aDev g.pbase != s.teth.self || aSpace g.pbase != 0
    || (match s.groupRegion g with
        | none => true
        | some r => decide (2 ^ r.gran < g.recsz) || o % g.recsz != 0
            || decide (r.base + r.size < o + g.chunks * g.recsz))

/-- 0x12 CSET (R337). -/
def BGroup.badCset (g : BGroup) : Bool :=
  let js := List.range 4
  js.any (fun j => g.inp j != 0 && decide (g.slots ≤ j))
    || js.any (fun j => g.inp j == 0 && (!(isZero pF (g.c j)) || bit j g.bc))
    || (g.denEn && g.inp (g.den % 4) == 0)
    || js.any (fun j => bit j g.bc && !(inUnit (g.a j))) || (bit 4 g.bc && !(inUnit g.ah))
    || g.prec != (g.k != 0) || (g.prec && g.denEn)
    || (g.prec && !(fLt pF 0 g.delta && fLt pF 0 g.tau && fGe fOne g.tau))
    || !(allFin ((List.range 20).map g.co))
    || g.bc / 32 != 0 || g.den / 4 % 32 != 0 || g.cfl / 8 != 0 || !(zeros g.cs 84 44)

/-- 0x13 CURVE. -/
def BGroup.badCurve (g : BGroup) : Bool :=
  decide (g.span < 1) || decide (16777216 < g.span) || !(allFin ((List.range 64).map (fun i => leAt g.curve (4 * i) 4)))

/-- 0x14 GROUP. -/
def BGroup.badGroup (g : BGroup) : Bool :=
  !(isFin pF g.lr) || fLt pF g.lr 0 || !(isFin pF g.clip) || fLt pF g.clip 0 || g.flags / 64 != 0 || bit 7 g.layout
    || !g.tailZero

/-- 0x15 SNAP. -/
def State.badSnap (s : State) (g : BGroup) : Bool :=
  g.snap && (g.snapBase % 256 != 0 || aDev g.snapBase != s.teth.self || aSpace g.snapBase != 0
    || decide (stackEnd < aOff g.snapBase + g.total * (if g.snapB then 2 else 4)))

/-- The first check of R339 that a group fails, or 0. -/
def State.groupCode (s : State) (g : BGroup) : Nat :=
  if s.badLayout g then 0x11 else if g.badCset then 0x12 else if g.badCurve then 0x13 else if g.badGroup then 0x14
  else if s.badSnap g then 0x15 else 0

/-- The first failure among n groups: its code and its group. -/
def State.tablesCode (s : State) (m : Memory) : Nat → Option (Nat × Nat)
  | 0 => none
  | n + 1 =>
    match s.tablesCode m n with
    | some e => some e
    | none =>
      let g := groupOf m n
      if g.valid && s.groupCode g != 0 then some (s.groupCode g, n) else none

/-! ### Per-group values (R338, R352) -/

/-- The schedule at step index n (R338). -/
def BGroup.sched (g : BGroup) (n : Nat) : Nat :=
  let v (i : Nat) : Nat := leAt g.curve (4 * i) 4
  let i := n / g.span
  if 63 ≤ i then v 63
  else if !g.interp then v i
  else aF (v i) (mF (sF (v (i + 1)) (v i)) (dF (fofInt pF (n % g.span)) (fofInt pF g.span)))

/-- Binary powering (R352). -/
def powi : Nat → Nat → Nat → Nat → Nat
  | 0, r, _, _ => r
  | fuel + 1, r, x, n => if n = 0 then r else powi fuel (if bit 0 n then mF r x else r) (mF x x) (n / 2)

/-- 1 ÷ (1 − x^t), or 1. -/
def biasFix (on : Bool) (x t : Nat) : Nat := if on then dF fOne (sF fOne (powi 32 fOne x t)) else fOne

/-- The values a group has in a step. -/
structure GVals where
  lrt : Nat
  bcf : List Nat
  bcfH : Nat
  us : Nat
  kappa : Nat

/-- The values of a group at its step count t. -/
def BGroup.vals (g : BGroup) (t lsPrev kappa : Nat) : GVals :=
  { lrt := mF g.lr (g.sched (t - 1)), bcf := (List.range 4).map (fun j => biasFix (bit j g.bc) (g.a j) t),
    bcfH := biasFix (bit 4 g.bc) g.ah t, us := fofDy pF 1 (-(lsPrev : Int)), kappa }

/-! ### One element (R353) -/

/-- What elem_num gives: the numerator, the slots and the gradient after clip and decay. -/
structure ElNum where
  num : Nat
  sl : List Nat
  g : Nat

/-- elem_num (R353): none when the element is skipped. -/
def BGroup.elemNum (g : BGroup) (v : GVals) (p : Nat) (sl : List Nat) (gr : Nat) : Option ElNum :=
  let x := mF (mF gr v.us) v.kappa
  if !(isFin pF x) || !(isFin pF p) then none
  else
    let x := if fLt pF 0 g.clip then fmin pF (fmax pF x (fneg pF g.clip)) g.clip else x
    let x := aF x (mF g.wdc p)
    let inp (j : Nat) : Nat := if g.inp j = 1 then x else if g.inp j = 2 then mF x x else fabs pF x
    let new := (List.range 4).map (fun j =>
      let o := sl.getD j 0
      if g.inp j = 0 then o else aF (mF (g.a j) o) (mF (g.b j) (inp j)))
    let src := if bit 0 g.cfl then sl else new
    let num := (List.range 4).foldl (fun n j =>
      if g.inp j = 0 then n else aF n (mF (g.c j) (mF (src.getD j 0) (v.bcf.getD j 0)))) (mF g.cg x)
    if isFin pF num && allFin new then some { num, sl := new, g := x } else none

/-- elem_apply (R353): the parameter and the slots as they are stored, BF16 slots rounded (R48); none when the element is
skipped (R355). -/
def BGroup.elemApply (g : BGroup) (v : GVals) (p : Nat) (sl : List Nat) (u : Nat) : Option (Nat × List Nat) :=
  let d := g.den % 4
  let u := if !g.prec && g.denEn then dF u (aF (fsqrt pF (mF (sl.getD d 0) (v.bcf.getD d 0))) g.eps) else u
  let u := if bit 1 g.cfl then (if fLt pF 0 u then fOne else if fLt pF u 0 then fneg pF fOne else 0) else u
  let pn := sF p (mF v.lrt (aF u (mF g.wdd p)))
  let st := (List.range g.slots).map (fun j => if g.slotB j then ofB (toB (sl.getD j 0)) else sl.getD j 0)
  if isFin pF pn && allFin st then some (pn, st) else none

/-! ### The block preconditioner (R356) -/

/-- Entry (i, j) of a matrix of rows. -/
def mEnt (m : List (List Nat)) (i j : Nat) : Nat := (m.getD i []).getD j 0

/-- The factor's columns, l[i][j] at place i of column j; none when a pivot lies below thr. -/
def cholCols (m : List (List Nat)) (k thr : Nat) : Nat → Option (List (List Nat))
  | 0 => some []
  | j + 1 =>
    match cholCols m k thr j with
    | none => none
    | some l =>
      let dj := (List.range j).foldl (fun x q => sF x (mF (mEnt l q j) (mEnt l q j))) (mEnt m j j)
      if !(fGe dj thr) then none
      else
        let ljj := fsqrt pF dj
        let col := (List.range k).map (fun i =>
          if i < j then 0 else if i = j then ljj
          else dF ((List.range j).foldl (fun x q => sF x (mF (mEnt l q i) (mEnt l q j))) (mEnt m j i)) ljj)
        some (l ++ [col])

/-- Forward substitution. -/
def fwdSub (l : List (List Nat)) (y : List Nat) (k : Nat) : List Nat :=
  (List.range k).foldl (fun z i =>
    z ++ [dF ((List.range i).foldl (fun x q => sF x (mF (mEnt l q i) (z.getD q 0))) (y.getD i 0)) (mEnt l i i)]) []

/-- Back substitution. -/
def backSub (l : List (List Nat)) (z : List Nat) (k : Nat) : List Nat :=
  (List.range k).reverse.foldl (fun u i =>
    dF ((List.range (k - 1 - i)).foldl (fun x q => sF x (mF (mEnt l i (i + 1 + q)) (u.getD q 0))) (z.getD i 0))
      (mEnt l i i) :: u) []

/-- chol_solve (R356). -/
def cholSolve (tau : Nat) (m : List (List Nat)) (y : List Nat) (k : Nat) : Option (List Nat) :=
  let tr := (List.range k).foldl (fun t i => aF t (mEnt m i i)) 0
  match cholCols m k (dF (mF tau tr) (fofInt pF k)) k with
  | none => none
  | some l =>
    let u := backSub l (fwdSub l y k) k
    if allFin u then some u else none

/-- The tries with rising damping (R356): the solution if there is one, the last damping and how often it was raised. -/
def dampTries (tau : Nat) (hb : List (List Nat)) (y : List Nat) (k : Nat) : Nat → Nat → Option (List Nat) × Nat × Nat
  | n, d =>
    let m := (List.range k).map (fun i => (List.range k).map (fun j => aF (mEnt hb i j) (if i = j then d else 0)))
    match cholSolve tau m y k with
    | some u => (some u, d, 0)
    | none =>
      match n with
      | 0 => (none, d, 0)
      | n + 1 =>
        let r := dampTries tau hb y k n (mF d fTen)
        (r.1, r.2.1, r.2.2 + 1)

/-- The upper triangle of a k × k matrix in row order, as rows. -/
def unpackH (k : Nat) (h : List Nat) : List (List Nat) :=
  (List.range k).map (fun i => (List.range k).map (fun j => if j < i then 0 else h.getD (i * k - i * (i - 1) / 2 + (j - i)) 0))

/-- The rows' upper triangle, in row order. -/
def packH (k : Nat) (m : List (List Nat)) : List Nat :=
  (List.range k).flatMap (fun i => (List.range (k - i)).map (fun j => mEnt m i (i + j)))

/-- What `block` gives: the new statistics, u, and how often damping was raised and the diagonal rule used. -/
structure BlockOut where
  h : List Nat
  u : List Nat
  raises : Nat
  singular : Nat

/-- The procedure block (R356): none when the block is skipped. -/
def BGroup.block (g : BGroup) (v : GVals) (h gs num : List Nat) : Option BlockOut :=
  let k := g.k
  let old := unpackH k h
  let new := (List.range k).map (fun i => (List.range k).map (fun j =>
    if j < i then 0 else aF (mF g.ah (mEnt old i j)) (mF g.bh (mF (gs.getD i 0) (gs.getD j 0)))))
  if !(allFin (packH k new)) then none
  else
    let hb := new.map (fun r => r.map (fun x => mF x v.bcfH))
    let r := dampTries g.tau hb num k 3 g.delta
    match r.1 with
    | some u => some { h := packH k new, u, raises := r.2.2, singular := 0 }
    | none =>
      some { h := packH k new, u := (List.range k).map (fun i => dF (num.getD i 0) (aF (mEnt hb i i) r.2.1)),
             raises := r.2.2, singular := 1 }

end Sys2Proof.Machine
end

