-- ==== Sys2Proof/Machine/TetherOps.lean ====
section
/-! DEFINITION. What a tether port sends (R394 to R405): the bytes of a block and its sealing, routes (R414), flows (R401), credits and the resend
window (R397, R399, R400), the requests of remote accesses (R407), bridle messages to other devices (R402),
and handshake payloads (R408). -/

namespace Sys2Proof.Machine

open Sys2Proof

/-! ### Ports -/

/-- Credits of a class at the link partner (R399). -/
def Port.cred (p : Port) : Nat → Nat
  | 0 => p.credBridle
  | 1 => p.credResp
  | _ => p.credReq
/-- Credits of a class changed. -/
def Port.setCred (p : Port) (cls n : Nat) : Port :=
  match cls with
  | 0 => { p with credBridle := n }
  | 1 => { p with credResp := n }
  | _ => { p with credReq := n }
/-- The buffers of a class that this port has freed, modulo 2^14. -/
def Port.ret (p : Port) : Nat → Nat
  | 0 => p.retBridle
  | 1 => p.retResp
  | _ => p.retReq
/-- A buffer of a class is freed: its credit goes back (R399). A LINK block needs none. -/
def Port.free (p : Port) (cls : Nat) : Port :=
  match cls with
  | 0 => { p with retBridle := (p.retBridle + 1) % 16384 }
  | 1 => { p with retResp := (p.retResp + 1) % 16384 }
  | 2 => { p with retReq := (p.retReq + 1) % 16384 }
  | _ => p
/-- The partner has been told the freed buffers of a class. -/
def Port.tell (p : Port) (cls n : Nat) : Port :=
  match cls with
  | 0 => { p with toldBridle := n }
  | 1 => { p with toldResp := n }
  | _ => { p with toldReq := n }
/-- What the partner has told of a class. -/
def Port.seen (p : Port) : Nat → Nat
  | 0 => p.seenBridle
  | 1 => p.seenResp
  | _ => p.seenReq
/-- What the partner has told of a class, changed. -/
def Port.setSeen (p : Port) (cls n : Nat) : Port :=
  match cls with
  | 0 => { p with seenBridle := n }
  | 1 => { p with seenResp := n }
  | _ => { p with seenReq := n }

/-! ### The bytes of a block (R394) and its sealing (R404, R405) -/

/-- The bytes of a block that the four fields of a hop and the CRC frame: bytes 4 to 21, with HOPS or without. -/
def blkHead (b : Block) (hops : Nat) : List Byte :=
  leBytes 1 (b.cls * 64 + b.kind) ++ leBytes 1 (b.pmask * 16 + flag 3 b.enc + flag 2 b.epoch + flag 0 b.fault)
    ++ leBytes 2 b.dst ++ leBytes 2 b.src ++ leBytes 2 (hops * 4096 + b.ctx) ++ leBytes 2 b.gen ++ leBytes 2 b.tag
    ++ leBytes 6 b.fseq

/-- Bytes 0 to 291 of a block on a link. -/
def wireBody (h : Hop) (b : Block) : List Byte :=
  leBytes 2 h.lseq ++ leBytes 2 h.lack ++ blkHead b b.hops ++ leBytes 2 (h.credCls * 16384 + h.cred) ++ b.payload ++ b.auth

/-- The 296 bytes of a block on a link, with its CRC (R394, R396). -/
def wireBytes (h : Hop) (b : Block) : List Byte := wireBody h b ++ leBytes 4 (crc32c (wireBody h b))

/-- The nonce of a block (R405): FSEQ, CLASS and CTX, SRC_DEV and DST_DEV. -/
def blkNonce (b : Block) : List Byte :=
  leBytes 6 b.fseq ++ leBytes 2 (b.cls * 16384 + b.ctx) ++ leBytes 2 b.src ++ leBytes 2 b.dst

/-- The additional data of a block (R405): bytes 4 to 21 with HOPS at 0. -/
def blkAad (b : Block) : List Byte := blkHead b 0

/-- A block encrypted and authenticated with a key (R404, R405). -/
def sealBlock (key : List Byte) (b : Block) : Block :=
  let r := gcmSeal key (blkNonce b) (blkAad b) b.payload
  { b with payload := r.1, auth := r.2.take 12 }

/-- A received block in the clear, when its AUTH is that of a key (R404, R405). -/
def openBlock (key : List Byte) (b : Block) : Option Block :=
  if !b.enc then none else (gcmOpen key (blkNonce b) (blkAad b) b.payload b.auth).map (fun pt => { b with payload := pt })

/-- A waiting block as it goes out; a link key is that of sending followed by that of receiving. -/
def TxBlock.out (x : TxBlock) (linkKey : List Byte) : Block :=
  match x.how with
  | .done => x.blk
  | .flow key => sealBlock key x.blk
  | .link => sealBlock (linkKey.take 32) x.blk

/-- The hop fields of the next block a port sends (R394, R396): the credits it returns are those of the first class, in the order of
R400, of which the partner has not been told all. DESIGN CHOICE, log entry 62. -/
def Port.hop (p : Port) : Hop :=
  let c := if p.retBridle ≠ p.toldBridle then 0 else if p.retResp ≠ p.toldResp then 1 else if p.retReq ≠ p.toldReq then 2 else 0
  { lseq := p.lseq, lack := (p.expect + 65535) % 65536, credCls := c, cred := p.ret c }

/-- One block goes out on a port's link and is held for resend (R397). -/
def Port.emit (p : Port) (b : Block) : Port :=
  let h := p.hop
  { p.tell h.credCls h.cred with sent := p.sent ++ [wireBytes h b], held := p.held ++ [b], lseq := (p.lseq + 1) % 65536 }

/-- The first waiting block of a class. -/
def Port.headOf (p : Port) (cls : Nat) : Option TxBlock := p.waiting.find? (fun x => x.blk.cls == cls)

/-- The first block of a class leaves the list of waiting blocks. -/
def dropCls (cls : Nat) : List TxBlock → List TxBlock
  | [] => []
  | x :: t => if x.blk.cls = cls then t else x :: dropCls cls t

/-- One waiting block is sent: the first class in the order of R400 that has a block, a credit and room in the
window of 512. -/
def Port.sendOne (p : Port) : Option Port :=
  if p.state ≠ .up ∨ !(Queue.tether.credit p.held.length) then none
  else
    match [0, 1, 2].find? (fun c => (p.headOf c).isSome && decide (0 < p.cred c)) with
    | none => none
    | some c =>
      match p.headOf c with
      | none => none
      | some x => some (({ p with waiting := dropCls c p.waiting } : Port).setCred c (p.cred c - 1) |>.emit (x.out p.linkKey))

/-- Waiting blocks are sent as far as credits and the window allow. -/
def Port.pump : Nat → Port → Port
  | 0, p => p
  | n + 1, p =>
    match p.sendOne with
    | none => p
    | some p' => Port.pump n p'

/-- A port sends what it can. -/
def Port.flush (p : Port) : Port := Port.pump p.waiting.length p

/-- A block is handed to port p. -/
def State.sendOn (s : State) (p : Nat) (b : Block) (how : Seal) : State :=
  s.updPort p (fun q => ({ q with waiting := q.waiting ++ [{ blk := b, how }] } : Port).flush)

/-- The payload of a LINK block: whether it is a NAK, the LSEQ expected next, and the buffers of each class freed.
DESIGN CHOICE, log entry 62. -/
def linkPayload (q : Port) : List Byte :=
  leBytes 1 (b2n q.naked) ++ leBytes 2 q.expect ++ leBytes 2 q.retBridle ++ leBytes 2 q.retResp ++ leBytes 2 q.retReq
    ++ List.replicate 247 0

/-- A LINK block (R395, R397, R399): it is numbered by its port, encrypted with the link key, and not held. -/
def State.sendLink (s : State) (p : Nat) : State :=
  let me := s.teth.self
  s.updPort p (fun q =>
    if q.linkKey.isEmpty then q
    else
      let b : Block := { cls := 3, kind := 0x3F, dst := q.peerDev, src := me, hops := 0, fseq := q.linkSeq, payload := linkPayload q }
      let h : Hop := { lseq := 0, lack := (q.expect + 65535) % 65536, credCls := 0, cred := q.retBridle }
      { q with sent := q.sent ++ [wireBytes h (sealBlock (q.linkKey.take 32) b)], linkSeq := q.linkSeq + 1,
               toldBridle := q.retBridle, toldResp := q.retResp, toldReq := q.retReq })

/-! ### Routes (R414) -/

/-- The ports that lead to a device, as bits. -/
def State.routePorts (s : State) (dst : Nat) : Nat :=
  let e := s.peer dst
  if bit 0 e.flags then
    let n := s.peer e.nextDev
    if n.state = .up ∧ !(bit 0 n.flags) then n.ports else 0
  else if e.state = .up then e.ports else 0

/-- The port a block takes, when there is one. -/
def State.route (s : State) (dst src ctx : Nat) : Option Nat :=
  let ps := setBits 12 (s.routePorts dst)
  if ps.isEmpty then none else some (ps.getD ((src ^^^ dst ^^^ ctx) % ps.length) 0)

/-- Whether a transfer context takes remote accesses that began in its generation `gen` (R423). -/
def State.ctxLive (s : State) (ctx gen : Nat) : Bool := (s.ctx ctx).state == .opened && (s.ctx ctx).gen == gen

/-- The checks of R593 on a remote access within a context: the code of the first that fails. -/
def State.remoteCheck (s : State) (ctx dev : Nat) : Option Nat :=
  let t := s.ctx ctx
  if ctx = 0xFFF then some 0x09
  else if t.state ≠ .opened then some 0x09
  else if dev < t.lo ∨ t.hi < dev then some 0x09
  else if (s.peer dev).state ≠ .up ∨ (s.route dev s.teth.self ctx).isNone then some 0x02
  else none

/-- Whether n bytes at an address are no whole number of aligned 8-byte units of a spool they reach (R109). -/
def spoolMis (a n : Nat) : Bool :=
  let e := a + n
  aSpace a == 2 && ((decide (0x300000 ≤ aOff a % 0x400000) && a % 8 != 0)
    || (decide (0x300000 ≤ aOff (e - 1) % 0x400000) && e % 8 != 0))

/-- Whether R34 refuses the space or offset of an address: a space that is not defined, or an offset beyond
the end of its space. -/
def badSpaceOff (a : Nat) : Bool :=
  match aSpace a with
  | 0 => decide (stackEnd ≤ aOff a)
  | 1 => decide (0x60000000 ≤ aOff a)
  | 2 => decide (0x60000000 ≤ aOff a)
  | 15 => decide (0x29000000 ≤ aOff a)
  | _ => true

/-! ### Flows (R401) -/

/-- A flow's next number, and the flows after it has been used. -/
def takeFseq (cls src dst ctx : Nat) : List Flow → Nat × List Flow
  | [] => (0, [{ cls, src, dst, ctx, next := 1 }])
  | f :: t =>
    if f.cls = cls ∧ f.src = src ∧ f.dst = dst ∧ f.ctx = ctx then (f.next, { f with next := f.next + 1 } :: t)
    else
      let r := takeFseq cls src dst ctx t
      (r.1, f :: r.2)

/-- The next number of a flow of this device is taken. -/
def State.nextFseq (s : State) (cls dst ctx : Nat) : Nat × State :=
  let r := takeFseq cls s.teth.self dst ctx s.teth.flows
  (r.1, { s with teth := { s.teth with flows := r.2 } })

/-! ### Handshakes (R408, R511) -/

/-- A handshake payload of this device (R408): `role` is its ROLE, `kind` the block's KIND. -/
def hsPayload (dev port role kind eph : Nat) (nonce pnonce : List Byte) : List Byte :=
  let body := leBytes 2 dev ++ leBytes 1 port ++ leBytes 1 role ++ leBytes 2 256 ++ leBytes 2 256
    ++ leBytes 1 32 ++ List.replicate 7 0 ++ idKey ++ leBytes 32 (x25519 eph 9) ++ nonce ++ pnonce
  body ++ edSign idSeed (leBytes 1 kind ++ body) ++ List.replicate 80 0

/-- A traffic key (R511). -/
def trafficKey (z : Nat) (salt : List Byte) (label : List Byte) (src dst : Nat) : List Byte :=
  hkdf32 salt (leBytes 32 z) (label ++ leBytes 2 src ++ leBytes 2 dst)

/-- The ports that lead to a device while its entry need not be UP (R409): the ports that are UP. -/
def State.hsPorts (s : State) (dst : Nat) : List Nat :=
  let e := s.peer dst
  let n := s.peer e.nextDev
  let ps := if bit 0 e.flags then (if n.state = .up ∧ !(bit 0 n.flags) then n.ports else 0) else e.ports
  (setBits 12 ps).filter (fun p => (s.port p).state == .up)

/-- A handshake block leaves for a device that is no link partner (R409). -/
def State.sendE2e (s : State) (dst kind : Nat) (eph : Nat) (nonce pnonce : List Byte) : State :=
  let ps := s.hsPorts dst
  if ps.isEmpty then s
  else
    let p := ps.getD ((s.teth.self ^^^ dst ^^^ 0xFFF) % ps.length) 0
    let n := s.nextFseq 0 dst 0xFFF
    n.2.sendOn p { cls := 0, kind, enc := false, dst, src := s.teth.self, fseq := n.1,
                   payload := hsPayload s.teth.self p 4 kind eph nonce pnonce } .done

/-- The end-to-end handshake with a device starts (R406, R409), when its route can be used. -/
def State.startE2e (s : State) (d : Nat) : State :=
  if (s.hsPorts d).isEmpty then s
  else
    let e := s.draw 32
    let n := e.1.draw 16
    let hs : Handshake := { initiator := true, peer := d, nonce := n.2, eph := ofLe e.2 }
    let s := n.1
    ({ s with teth := { s.teth with e2e := s.teth.e2e.filter (fun h => h.peer ≠ d) ++ [hs] } } : State).sendE2e
      d 0x3C hs.eph hs.nonce (List.replicate 16 0)

/-- The epoch of this device's flow key toward a device (R406). -/
def State.epochTo (s : State) (dev : Nat) : Bool :=
  match s.teth.keys.find? (fun k => k.dev == dev) with
  | some k => k.epochTx
  | none => false

/-- The flow key toward a device. -/
def State.keyTo (s : State) (dev : Nat) : List Byte :=
  match s.teth.keys.find? (fun k => k.dev == dev) with
  | some k => k.tx
  | none => []

/-- A unicast block of this device is numbered and sent (R401, R404, R414); number 2^47 of a flow starts the handshake
that renews its key (R406). A block without a port is lost. DEDUCED, log entry 64. -/
def State.sendFlow (s : State) (b : Block) : State :=
  let r := s.nextFseq b.cls b.dst b.ctx
  let s := if r.1 = 2 ^ 47 then r.2.startE2e b.dst else r.2
  let b := { b with src := s.teth.self, fseq := r.1, epoch := s.epochTo b.dst, hops := 15 }
  match s.route b.dst b.src b.ctx with
  | some p => s.sendOn p b (.flow (s.keyTo b.dst))
  | none => s

/-- A payload of 256 bytes. -/
def pay256 (bs : List Byte) : List Byte := bs.take 256 ++ List.replicate (256 - bs.length) 0

/-- A bridle message is placed into the last waiting BRIDLE block of this device for a destination that has room for it (R402);
none when no block has. -/
def placeBridle (me dst : Nat) (msg : List Byte) : List TxBlock → Option (List TxBlock)
  | [] => none
  | x :: t =>
    match placeBridle me dst msg t with
    | some t' => some (x :: t')
    | none =>
      if x.blk.src = me ∧ x.blk.dst = dst ∧ x.blk.cls = 0 ∧ x.blk.kind = 1 ∧ 0 < x.msgs ∧ x.msgs < 16 then
        some ({ x with blk := { x.blk with payload := putBytes x.blk.payload (16 * x.msgs) msg }, msgs := x.msgs + 1 } :: t)
      else none

/-- A bridle message to another device reaches port p (R402): it joins a block that waits there, or starts one with number n. -/
def Port.bridle (q : Port) (me dst : Nat) (msg : List Byte) (b : Block) (how : Seal) : Port :=
  match placeBridle me dst msg q.waiting with
  | some l => ({ q with waiting := l } : Port).flush
  | none => ({ q with waiting := q.waiting ++ [{ blk := b, how, msgs := 1 }] } : Port).flush

/-- A bridle message to another device (R402, R414). -/
def State.sendBridle (s : State) (dst : Nat) (msg : List Byte) : State :=
  let me := s.teth.self
  match s.route dst me 0xFFF with
  | none => s
  | some p =>
    if (placeBridle me dst msg (s.port p).waiting).isSome then s.updPort p (fun q => q.bridle me dst msg { kind := 1, dst } .done)
    else
      let n := s.nextFseq 0 dst 0xFFF
      let s := if n.1 = 2 ^ 47 then n.2.startE2e dst else n.2
      let b : Block := { cls := 0, kind := 1, dst, src := me, fseq := n.1, epoch := s.epochTo dst, payload := pay256 msg }
      s.updPort p (fun q => q.bridle me dst msg b (.flow (s.keyTo dst)))

/-- A broadcast BRIDLE block goes on, on every broadcast port but the one it came on (R415). -/
def State.broadcastOn (s : State) (b : Block) (but : Option Nat) : List Nat → State
  | [] => s
  | p :: t => (if but = some p then s else s.sendOn p b .link).broadcastOn b but t

/-- A bridle message is broadcast (R402, R415). -/
def State.sendBroadcast (s : State) (msg : List Byte) : State :=
  let me := s.teth.self
  let n := s.nextFseq 0 0xFFFF 0xFFF
  let b : Block := { cls := 0, kind := 1, dst := 0xFFFF, src := me, fseq := n.1, payload := pay256 msg }
  (setBits 12 s.teth.bcast).foldl (fun s p => s.updPort p (fun q => q.bridle me 0xFFFF msg b .link)) n.2

/-! ### Remote accesses (R407) -/

/-- The pieces of n bytes at address a, cut at boundaries of 256 bytes: each with its position. -/
def blkChunks : Nat → Nat → Nat → Nat → List (Nat × Nat × Nat)
  | 0, _, _, _ => []
  | fuel + 1, a, n, pos =>
    if n = 0 then [] else
      let m := Nat.min n (256 - a % 256)
      (a, m, pos) :: blkChunks fuel (a + m) (n - m) (pos + m)

/-- Lists of at most n elements. -/
def groups {α : Type} (n : Nat) : Nat → List α → List (List α)
  | 0, _ => []
  | fuel + 1, l => if l.isEmpty then [] else l.take n :: groups n fuel (l.drop n)

/-- Requests are recorded for pieces of an access: their tags follow `nextTag`. -/
def State.addReqs (s : State) (who : ReqWho) (write : Bool) (ctx : Nat) :
    List (Nat × Nat × Nat) → State × List (Nat × Nat × Nat)
  | [] => (s, [])
  | (a, m, pos) :: t =>
    let tag := s.teth.nextTag
    let q : Req := { tag, who, write, ctx, gen := (s.ctx ctx).gen, dev := aDev a, addr := a, len := m, pos }
    let s := { s with teth := { s.teth with reqs := s.teth.reqs ++ [q], nextTag := (tag + 1) % 65536 } }
    let r := s.addReqs who write ctx t
    (r.1, (tag, a, m) :: r.2)

/-- READ_REQ blocks of up to sixteen entries are sent. -/
def State.sendReadReqs (s : State) (ctx dev : Nat) : List (List (Nat × Nat × Nat)) → State
  | [] => s
  | g :: t =>
    let ent (e : Nat × Nat × Nat) : List Byte := leBytes 8 (e.2.1 / 256 * 256) ++ leBytes 2 e.1 ++ leBytes 6 0
    (s.sendFlow { cls := 2, kind := 2, dst := dev, ctx, gen := (s.ctx ctx).gen, tag := g.length,
                  payload := pay256 (g.flatMap ent) }).sendReadReqs ctx dev t

/-- A remote read of n bytes at address a; the tags of its requests. -/
def State.remoteRead (s : State) (who : ReqWho) (ctx a n : Nat) : State × List Nat :=
  let r := s.addReqs who false ctx (blkChunks (n / 256 + 2) a n 0)
  (r.1.sendReadReqs ctx (aDev a) (groups 16 (r.2.length + 1) r.2), r.2.map (·.1))

/-- The poison mask of a payload (R394, R403). -/
def pmaskOf (bs : List PByte) : Nat :=
  (List.range 4).foldl (fun m i => if ((bs.drop (64 * i)).take 64).any (·.2) then m + 2 ^ i else m) 0

/-- The WRITE_DATA blocks of entries are sent in order. -/
def State.sendWriteData (s : State) (ctx dev a0 : Nat) (bs : List PByte) : List (Nat × Nat × Nat) → State
  | [] => s
  | (_, a, m) :: t =>
    let d := (bs.drop (a - a0)).take m
    (s.sendFlow { cls := 2, kind := 4, dst := dev, ctx, gen := (s.ctx ctx).gen, pmask := pmaskOf d,
                  payload := pay256 (d.map (·.1)) }).sendWriteData ctx dev a0 bs t

/-- WRITE_HDR blocks of up to sixteen entries, each followed by its data, are sent. -/
def State.sendWrites (s : State) (ctx dev a0 : Nat) (bs : List PByte) : List (List (Nat × Nat × Nat)) → State
  | [] => s
  | g :: t =>
    let ent (e : Nat × Nat × Nat) : List Byte := leBytes 8 e.2.1 ++ leBytes 2 e.1 ++ leBytes 2 e.2.2 ++ leBytes 4 0
    let s := s.sendFlow { cls := 2, kind := 3, dst := dev, ctx, gen := (s.ctx ctx).gen, tag := g.length,
                          payload := pay256 (g.flatMap ent) }
    (s.sendWriteData ctx dev a0 bs g).sendWrites ctx dev a0 bs t

/-- Whether a piece of a remote write is a whole number of aligned 4-byte words, as a WRITE_HDR entry must be (R407). -/
def wholeWords (e : Nat × Nat × Nat) : Bool := e.1 % 4 == 0 && e.2.1 % 4 == 0

/-- A piece of a remote write that is no whole number of aligned words: the words around it are read first, and the write leaves
with the bytes merged into them. DESIGN CHOICE, log entry 100. -/
def State.mergeReq (s : State) (who : ReqWho) (ctx a0 : Nat) (bs : List PByte) (e : Nat × Nat × Nat) : State × List Nat :=
  let r := s.addReqs who false ctx [e]
  let put (q : Req) : Req :=
    if (r.2.map (·.1)).contains q.tag then { q with merge := (bs.drop (e.1 - a0)).take e.2.1 } else q
  let s : State := { r.1 with teth := { r.1.teth with reqs := r.1.teth.reqs.map put } }
  (s.sendReadReqs ctx (aDev e.1) [r.2], r.2.map (·.1))

/-- Pieces of a remote write that are no whole words. -/
def State.mergeReqs (s : State) (who : ReqWho) (ctx a0 : Nat) (bs : List PByte) : List (Nat × Nat × Nat) → State × List Nat
  | [] => (s, [])
  | e :: t =>
    let r := s.mergeReq who ctx a0 bs e
    let q := r.1.mergeReqs who ctx a0 bs t
    (q.1, r.2 ++ q.2)

/-- A remote write of bytes at address a; the tags of its requests. -/
def State.remoteWrite (s : State) (who : ReqWho) (ctx a : Nat) (bs : List PByte) : State × List Nat :=
  let l := blkChunks (bs.length / 256 + 2) a bs.length 0
  let r := s.addReqs who true ctx (l.filter wholeWords)
  let m := (r.1.sendWrites ctx (aDev a) a bs (groups 16 (r.2.length + 1) r.2)).mergeReqs who ctx a bs
    (l.filter (fun e => !(wholeWords e)))
  (m.1, r.2.map (·.1) ++ m.2)

/-- The words around a write have been read, as the block d: the write leaves with its bytes merged into them. -/
def State.mergeSend (s : State) (q : Req) (d : List PByte) : State :=
  let lo := q.addr / 4 * 4
  let n := (q.addr + q.len + 3) / 4 * 4 - lo
  let w := (d.drop (lo % 256)).take n
  let w := w.take (q.addr - lo) ++ q.merge ++ w.drop (q.addr - lo + q.merge.length)
  let s : State := { s with teth := { s.teth with reqs := s.teth.reqs.map (fun r =>
    if r.tag = q.tag then { r with write := true, merge := [] } else r) } }
  s.sendWrites q.ctx q.dev lo w [[(q.tag, lo, n)]]

/-- The requests with given tags that have been answered are forgotten. -/
def State.dropReqs (s : State) (tags : List Nat) : State :=
  { s with teth := { s.teth with reqs := s.teth.reqs.filter (fun q => !(tags.contains q.tag)) } }

/-- The requests with given tags. -/
def State.reqsOf (s : State) (tags : List Nat) : List Req := s.teth.reqs.filter (fun q => tags.contains q.tag)

end Sys2Proof.Machine
end

