-- ==== Sys2Proof/Machine/KnotOps.lean ====
section
/-! DEFINITION. Knots: homes and nodes (R367, R592), the checks of R378, sending an operation, applying it at
its home (R373 to R377), group trees (R380 to R382), aborts (R376) and notify records (R390). -/

namespace Sys2Proof.Machine

open Sys2Proof

/-! ### Nodes (R12, R367, R592) -/

/-- The home of a knot: its bridle node. -/
def homeOf (k : Nat) : Nat := (k / 65536) * 100 + k % 100
/-- The bridle node of a gondola core. -/
def gonNode (g : Nat) : Nat :=
  let d := g / 4
  d * 100 + 10 * (g % 4) + (if d % 2 = 0 then 39 else 30)
/-- The node of an operation pair's writer: gondola core g, or the owner at g = 16. -/
def pairNode (g : Nat) : Nat := if g = 16 then 94 else gonNode g
/-- The agent number of an operation pair's writer at its node (R377). -/
def pairAgent (g : Nat) : Nat := if g = 16 then 2 else 1
/-- The node of the keel domain. -/
def keelNode : Nat := 95

/-! ### Encodings (R371, R372, R390) -/

/-- The minor of an operation. -/
def KOp.minor : KOp → Nat
  | .arrive => 0
  | .wait => 1
  | .give => 2
  | .take => 3
  | .set => 4
  | .store => 5
  | .read => 6
  | .abort => 7

/-- The operation of a minor (R371). -/
def KOp.ofMinor (n : Nat) : Option KOp :=
  [KOp.arrive, .wait, .give, .take, .set, .store, .read, .abort].find? (fun o => o.minor == n)

/-- Whether an operation is defined for a kind: 0 barrier, 1 counter, 2 semaphore, 3 flag. -/
def KOp.okFor (op : KOp) (kind : Nat) : Bool :=
  match op with
  | .arrive => kind ≤ 1
  | .wait => kind ≠ 2
  | .give => kind == 2
  | .take => kind == 2
  | .set => kind == 3
  | .store => kind == 1
  | .read => true
  | .abort => true

/-- A knot's status word (R372). -/
def Knot.status (e : Knot) (kind : Nat) : Nat :=
  flag 63 e.aborted + flag 62 (if kind = 0 then e.lastErr else if kind = 1 then e.err else false)
    + (if kind = 0 then e.phase else e.value)

/-- Byte 11 of a knot's entry (R368). -/
def Knot.stateByte (e : Knot) : Nat :=
  flag 7 e.valid + flag 6 e.aborted + flag 5 e.err + flag 4 e.lastErr + flag 3 e.upSent

/-- Word w of a knot's entry (R368). DEDUCED, log entry 59. -/
def Knot.word (e : Knot) : Nat → Nat
  | 0 => e.value
  | 1 => e.limit
  | 2 => e.phase + e.childIn * 0x10000 + e.stateByte * 0x1000000
  | _ => e.tree

/-! ### Checks (R378) -/

/-- The first code of R378 that applies to an operation on a knot by a logical core, or by an agent that is
no compute core. DEDUCED, log entry 56. -/
def State.knotCheck (s : State) (op : KOp) (k : Nat) (core : Option Nat) : Option Nat :=
  match s.rangeOf k with
  | none => some 0x50
  | some r =>
    if r.scope = 0 ∧ core.isSome ∧ core ≠ some r.owner then some 0x51
    else if op.okFor r.kind then none else some 0x52

/-- Whether an operation is an arrive on a barrier whose error flag is bit 0 of the operand (R371). -/
def State.arriveErr (s : State) (op : KOp) (knot arg : Nat) : Bool :=
  op == .arrive && (match s.rangeOf knot with
    | some r => r.kind == 0
    | none => false) && bit 0 arg

/-! ### Messages -/

/-- The tree record of a group knot (R380, R481). -/
def State.treeOf (s : State) (e : Knot) : TreeRec := s.rig.live.trees.getD e.tree {}

/-- The generation a tree message of a knot carries (R382). -/
def State.rangeGen (s : State) (r : KRange) : Nat := (s.ctx r.ctx).gen

/-- A tree message sent to another device (R384). -/
def treeBytes (kind : TreeKind) (dst src k gen phase : Nat) (err : Bool) : List Byte :=
  let ty := match kind with
    | .arrive => 3
    | .done => 4
    | .abort => 5
  leBytes 1 ty ++ leBytes 1 (flag 7 err) ++ leBytes 2 dst ++ leBytes 2 src ++ leBytes 2 (0x400 + homeOf k)
    ++ leBytes 4 (homeOf k * 2 ^ 18 + k) ++ leBytes 4 (gen * 0x10000 + phase)

/-- A heartbeat message (R384, R385). -/
def heartbeatBytes (dst src : Nat) : List Byte :=
  leBytes 1 0x0A ++ leBytes 1 0 ++ leBytes 2 dst ++ leBytes 2 src ++ List.replicate 10 0

/-- The 16 bytes of an envelope message of device dev (R384, R454): a deal goes to the core's node, a report or a credit return to
the controller's. -/
def EnvMsg.bytes (dev : Nat) (m : EnvMsg) : List Byte :=
  let head (give : Bool) (node : Nat) : List Byte :=
    leBytes 1 6 ++ leBytes 1 (flag 0 give) ++ leBytes 2 dev ++ leBytes 2 dev ++ leBytes 2 node
  match m with
  | .deal c amount iseq point => head false c ++ leBytes 4 amount ++ leBytes 2 iseq ++ leBytes 1 point ++ leBytes 1 0
  | .report r => head false (0xC00 + keelNode) ++ leBytes 4 (r.core * 0x10000 + r.stall) ++ leBytes 2 r.spent ++ leBytes 2 r.short
  | .give c amount => head true (0xC00 + keelNode) ++ leBytes 4 amount ++ leBytes 2 c ++ leBytes 2 0

/-- The envelope message of 16 bytes (R454): its port tells a deal from what is for the controller. -/
def EnvMsg.ofBytes (m : List Byte) : EnvMsg :=
  let node := leAt m 6 2
  if fld 11 10 node = 0 then .deal (node % 1024) (leAt m 8 4) (leAt m 12 2) (leAt m 14 1 % 32)
  else if bit 0 (leAt m 1 1) then .give (leAt m 12 2) (leAt m 8 4)
  else .report { core := leAt m 10 2, stall := leAt m 8 2, spent := leAt m 12 2, short := leAt m 14 2 }

/-- A tree message leaves for a device. -/
def State.sendTree (s : State) (kind : TreeKind) (dst k phase : Nat) (err : Bool) : State :=
  match s.rangeOf k with
  | none => s
  | some r => s.sendBridle dst (treeBytes kind dst s.teth.self k (s.rangeGen r) phase err)

/-- A tree message leaves for each of some devices. -/
def State.sendTrees (s : State) (kind : TreeKind) (k phase : Nat) (err : Bool) : List Nat → State
  | [] => s
  | d :: t => (s.sendTree kind d k phase err).sendTrees kind k phase err t

/-- Whether a commit holds back new operations on a knot (R488). -/
def State.knotHeld (s : State) (k : Nat) : Bool :=
  let h := s.rig.holds
  let t := (s.kn k).tree
  h.knots || (match s.rangeOf k with
    | some r => r.scope == 2 && decide (h.treeLo ≤ t) && decide (t < h.treeHi)
    | none => false)

/-- A knot operation is sent to its home, or held back by a commit. -/
def State.sendKnot (s : State) (m : KMsg) : State :=
  if s.knotHeld m.knot then { s with knot := { s.knot with heldOps := s.knot.heldOps ++ [m] } }
  else { s with knot := { s.knot with ops := s.knot.ops ++ [m] } }

/-- Whether the sender of an operation receives its reply (R371, R389). -/
def KWho.replies (who : KWho) (op : KOp) : Bool :=
  match who with
  | .stream _ _ d _ stop => d ≠ 0 || stop
  | .reel _ => false
  | .verdict _ _ => true
  | .step _ _ _ => true
  | .pair _ _ => op == .wait || op == .take || op == .read
  | .host _ _ => true
  | .unit _ _ => false
  | .far _ _ => true

/-- A knot reply to bridle node `node` of another device (R372, R384). -/
def replyBytes (dst node src k : Nat) (op : KOp) (status : Nat) : List Byte :=
  leBytes 1 2 ++ leBytes 1 (flag 7 (bit 62 status) + flag 6 (bit 63 status)) ++ leBytes 2 dst ++ leBytes 2 src ++ leBytes 2 node
    ++ leBytes 4 (op.minor * 2 ^ 28 + homeOf k * 2 ^ 18 + k) ++ leBytes 4 (status % 2 ^ 32)

/-- A reply leaves the home of knot k: to another device it goes as a bridle message (R384). -/
def State.sendReply (s : State) (k : Nat) (who : KWho) (op : KOp) (status : Nat) : State :=
  match who with
  | .far dev node => s.sendBridle dev (replyBytes dev node s.teth.self k op status)
  | _ =>
  if who.replies op then { s with knot := { s.knot with replies := s.knot.replies ++ [{ knot := k, who, op, status }] } } else s

/-- Waiters receive a status. -/
def State.replyAll (s : State) (k status : Nat) : List Waiter → State
  | [] => s
  | w :: t => (s.sendReply k w.who (if w.take then .take else .wait) status).replyAll k status t

/-! ### At the home -/

/-- Whether a wait is satisfied (R373). -/
def Knot.holds (e : Knot) (kind arg : Nat) : Bool :=
  if kind = 0 then e.phase ≠ arg % 65536
  else if kind = 1 then arg % 2 ^ 32 ≤ e.value
  else e.value ≠ arg % 2 ^ 32

/-- The waiters of a knot are tested in order (R373, R375): those satisfied with their status, the entry, and
those that stay. `open'` says that no KN.TAKE before has been left waiting. -/
def Knot.test (e : Knot) (kind : Nat) : Bool → List Waiter → Knot × List (Waiter × Nat) × List Waiter
  | _, [] => (e, [], [])
  | open', w :: t =>
    if w.take then
      if open' && decide (w.arg % 2 ^ 32 ≤ e.value) then
        let e := { e with value := e.value - w.arg % 2 ^ 32 }
        let r := e.test kind open' t
        (r.1, (w, e.status kind) :: r.2.1, r.2.2)
      else
        let r := e.test kind false t
        (r.1, r.2.1, w :: r.2.2)
    else if e.holds kind w.arg then
      let r := e.test kind open' t
      (r.1, (w, e.status kind) :: r.2.1, r.2.2)
    else
      let r := e.test kind open' t
      (r.1, r.2.1, w :: r.2.2)

/-- Replies to satisfied waiters. -/
def State.replySat (s : State) (k : Nat) : List (Waiter × Nat) → State
  | [] => s
  | (w, st) :: t => (s.sendReply k w.who (if w.take then .take else .wait) st).replySat k t

/-- The waiters of knot k are tested against its entry. -/
def State.retest (s : State) (k kind : Nat) : State :=
  let e := s.kn k
  let r := e.test kind true e.waiters
  (s.setKn k { r.1 with waiters := r.2.2 }).replySat k r.2.1

/-- Notify records of a knot fire (R390). -/
def State.notifyAll (s : State) (k : Nat) : List (Nat × Notify) → State
  | [] => s
  | (n, r) :: t =>
    let s := if r.en ∧ r.knot = k then
        ({ s with knot := { s.knot with notify := sset {} s.knot.notify n { r with en := false } } } : State).event
          0x51 r.gon k
      else s
    s.notifyAll k t

/-- The notify records of a knot fire when its PHASE or VALUE has changed since `old`. -/
def State.notifyIf (s : State) (old : Knot) (k : Nat) : State :=
  let e := s.kn k
  if e.phase ≠ old.phase ∨ e.value ≠ old.value then s.notifyAll k s.knot.notify else s

/-- A barrier phase completes with an error flag (R374, R380). -/
def Knot.complete (e : Knot) (err : Bool) : Knot :=
  { e with lastErr := err, err := false, value := 0, phase := (e.phase + 1) % 65536, childIn := 0, upSent := false }

/-- A barrier's completion condition is looked at (R374, R380). DEDUCED, log entry 55. -/
def State.barrierStep (s : State) (k : Nat) (r : KRange) : State :=
  let e := s.kn k
  if r.scope = 2 then
    let tr := s.treeOf e
    if e.value = e.limit ∧ e.childIn = tr.children.length ∧ !e.upSent then
      if tr.parent = 0xFFFF then
        let e' := e.complete e.err
        (s.setKn k e').sendTrees .done k e'.phase e'.lastErr tr.children
      else (s.setKn k { e with upSent := true }).sendTree .arrive tr.parent k e.phase e.err
    else s
  else if e.limit ≠ 0 ∧ e.limit ≤ e.value then s.setKn k (e.complete e.err)
  else s

/-- Knot k is aborted (R376): its waiters are released, its notify records fire, and a group knot's tree is told, but for the
device whose TREE_ABORT told this one. DEDUCED, log entry 57. -/
def State.abortKnot (s : State) (k : Nat) (r : KRange) (told : Option Nat) : State :=
  let e := s.kn k
  let tr := s.treeOf e
  let e' := { e with aborted := true, waiters := [] }
  let s := { s with knot := { s.knot with aborts := cnt s.knot.aborts 1 } }
  let s := (s.setKn k e').replyAll k (e'.status r.kind) e.waiters
  let s := s.notifyAll k s.knot.notify
  if r.scope = 2 then
    s.sendTrees .abort k e.phase false
      ((tr.children ++ (if tr.parent = 0xFFFF then [] else [tr.parent])).filter (fun d => told ≠ some d))
  else s

/-- A knot operation is applied at its home (R371 to R378). -/
def State.knotApply (s : State) (m : KMsg) : State :=
  let e := s.kn m.knot
  if s.dieOut (m.knot / 65536) then s.sendReply m.knot m.who m.op (2 ^ 63)
  else
  match s.rangeOf m.knot with
  | none =>
    ({ s with knot := { s.knot with phaseDrops := cnt s.knot.phaseDrops 1 } } : State).sendReply m.knot m.who m.op (2 ^ 63)
  | some r =>
    let arg := m.arg % 2 ^ 32
    if m.op = .abort then
      let s := s.abortKnot m.knot r none
      s.sendReply m.knot m.who m.op ((s.kn m.knot).status r.kind)
    else if e.aborted ∨ m.op = .read then s.sendReply m.knot m.who m.op (e.status r.kind)
    else
      match m.op with
      | .arrive =>
        let s :=
          if r.kind = 0 then
            let s := s.setKn m.knot { e with value := Nat.min (e.value + 1) cntMax, err := e.err || m.err }
            (s.sendReply m.knot m.who m.op ((s.kn m.knot).status 0)).barrierStep m.knot r
          else
            let s := s.setKn m.knot { e with value := Nat.min (e.value + arg) cntMax, err := e.err || m.err }
            s.sendReply m.knot m.who m.op ((s.kn m.knot).status r.kind)
        (s.retest m.knot r.kind).notifyIf e m.knot
      | .give =>
        let clip := decide (e.limit < e.value + arg)
        let s := s.setKn m.knot { e with value := Nat.min (e.value + arg) e.limit }
        let s := if clip then
            { s with knot := { s.knot with semaOvf := true, semaOvfN := cnt s.knot.semaOvfN 1 } }
          else s
        let s := s.notifyIf e m.knot
        let e := s.kn m.knot
        let s := s.retest m.knot r.kind
        (s.sendReply m.knot m.who m.op ((s.kn m.knot).status r.kind)).notifyIf e m.knot
      | .set =>
        let s := (s.setKn m.knot { e with value := (e.value + 1) % 2 ^ 32 }).retest m.knot r.kind
        (s.sendReply m.knot m.who m.op ((s.kn m.knot).status r.kind)).notifyIf e m.knot
      | .store =>
        let s := (s.setKn m.knot { e with value := arg, err := false }).retest m.knot r.kind
        (s.sendReply m.knot m.who m.op ((s.kn m.knot).status r.kind)).notifyIf e m.knot
      | .wait =>
        (s.setKn m.knot { e with waiters := e.waiters ++ [{ who := m.who, take := false, arg := m.arg }] }).retest
          m.knot r.kind
      | .take =>
        ((s.setKn m.knot { e with waiters := e.waiters ++ [{ who := m.who, take := true, arg := m.arg }] }).retest
          m.knot r.kind).notifyIf e m.knot
      | _ => s

/-- Every knot of a range bound to a context is aborted (R382): the knots that hold anything other than a fresh
entry, and the rest of the range. -/
def State.abortRange (s : State) (r : KRange) : Nat → State
  | 0 => s
  | n + 1 => (s.abortRange r n).abortKnot (r.first + n) r none

/-- The knots of every range of a context are aborted. -/
def State.abortCtx (s : State) (c : Nat) : List KRange → State
  | [] => s
  | r :: t => (if r.ctx = c then s.abortRange r r.count else s).abortCtx c t

/-! ### Sending from a core (R105, R371) -/

/-- The array operations of a stream that have not drained, by number. -/
def ArrSt.tilesOf (a : ArrSt) (x : Stream) : List Nat :=
  ((a.tqA ++ a.tqB ++ a.granted ++ a.running.map (·.tile) ++ a.spills ++ (match a.spilling with
    | some (t, _) => [t]
    | none => [])).filter (fun t => t.x == x)).map (·.id)

/-- The remote stores of a stream that are not acknowledged. -/
def State.remoteStores (s : State) (c : Nat) (x : Stream) : List Nat :=
  (s.teth.reqs.filter (fun q => match q.who with
    | .store c' x' => c' == c && x' == x
    | .vec c' x' _ => q.write && c' == c && x' == x
    | _ => false)).map (·.tag)

/-- A message of core c, stream x, with release semantics (R105). -/
def State.releaseOf (s : State) (c : Nat) (x : Stream) (m : KMsg) : KMsg :=
  let k := s.core c
  { m with relTiles := k.arr.tilesOf x, relVecs := (k.vec.queue.filter (fun v => v.x == x)).map (·.id),
           relReqs := s.remoteStores c x }

/-- The core of a message, when a core sent it. -/
def KWho.core : KWho → Option Nat
  | .stream c _ _ _ _ => some c
  | .reel c => some c
  | .verdict c _ => some c
  | .step c _ _ => some c
  | _ => none

/-- Whether what a message must come after is done (R105). -/
def State.released (s : State) (m : KMsg) : Bool :=
  match m.who.core with
  | none => true
  | some c =>
    let k := s.core c
    let tiles := k.arr.tilesOf .a ++ k.arr.tilesOf .b
    m.relTiles.all (fun i => !tiles.contains i) && m.relVecs.all (fun i => !(k.vec.queue.any (fun v => v.id == i)))
      && m.relReqs.all (fun t => !(s.teth.reqs.any (fun q => q.tag == t)))

end Sys2Proof.Machine
end

