-- ==== Sys2Proof/Machine/Trans.lean ====
section
/-! DEFINITION. The transcendental functions of R247 on FP32, each evaluated in fixed point with 512 fraction
bits and rounded once. UNVERIFIED: that 512 bits always decide the rounding. -/

namespace Sys2Proof.Machine

/-- The number of fraction bits. -/
def tW : Nat := 512
/-- 1 in fixed point. -/
def tOne : Int := (2 : Int) ^ tW
/-- A fixed-point product. -/
def tMul (a b : Int) : Int := a * b / tOne
/-- A fixed-point quotient. -/
def tDiv (a b : Int) : Int := a * tOne / b

/-- atanh(1/q) or atan(1/q), as n terms from term k on of Σ (±1)^k ÷ ((2k + 1) q^(2k + 1)). -/
def tInvSeries (alt : Bool) (q : Int) : Nat → Nat → Int → Int
  | 0, _, _ => 0
  | n + 1, k, pw =>
    let t := pw / (2 * (k : Int) + 1)
    (if alt && k % 2 = 1 then -t else t) + tInvSeries alt q n (k + 1) (pw / (q * q))

/-- ln 2. -/
def tLn2 : Int := 2 * tInvSeries false 3 170 0 (tOne / 3)
/-- π (Machin). -/
def tPi : Int := 16 * tInvSeries true 5 120 0 (tOne / 5) - 4 * tInvSeries true 239 50 0 (tOne / 239)

/-- e^r for 0 ≤ r < 1: n terms from term k on, the last being t. -/
def tExpSeries (r : Int) : Nat → Nat → Int → Int
  | 0, _, _ => 0
  | n + 1, k, t => t + tExpSeries r n (k + 1) (tMul t r / ((k : Int) + 1))

/-- The mantissa and exponent of e^r for a fixed-point r: e^r = m × 2^k with m in fixed point. -/
def tExp (r : Int) : Int × Int :=
  let k := r / tLn2
  (tExpSeries (r - k * tLn2) 115 0 tOne, k)

/-- e^(−r) in fixed point, for r ≥ 0. -/
def tExpNeg (r : Int) : Int :=
  let p := tExp (-r)
  p.1 / (2 : Int) ^ (-p.2).toNat

/-- atanh z by n terms from term k on: pw is z^(2k + 1). -/
def tAtanh (z2 : Int) : Nat → Nat → Int → Int
  | 0, _, _ => 0
  | n + 1, k, pw => pw / (2 * (k : Int) + 1) + tAtanh z2 n (k + 1) (tMul pw z2)

/-- ln of m × 2^e, m > 0. -/
def tLn (m : Nat) (e : Int) : Int :=
  let l := m.log2
  let z := (((m : Int) - (2 : Int) ^ l) * tOne) / ((m : Int) + (2 : Int) ^ l)
  2 * tAtanh (tMul z z) 170 0 z + (e + (l : Int)) * tLn2

/-- sin y or cos y by n terms: t is the term of order k. -/
def tSinSeries (y2 : Int) : Nat → Nat → Int → Int
  | 0, _, _ => 0
  | n + 1, k, t => t - tSinSeries y2 n (k + 2) (tMul t y2 / (((k : Int) + 1) * ((k : Int) + 2)))

/-- erf x × √π ÷ 2 by n terms: t is x^(2k + 1) ÷ k!. -/
def tErfSeries (x2 : Int) : Nat → Nat → Int → Int
  | 0, _, _ => 0
  | n + 1, k, t => t / (2 * (k : Int) + 1) - tErfSeries x2 n (k + 1) (tMul t x2 / ((k : Int) + 1))

/-- A fixed-point result, rounded to FP32. UNVERIFIED that the bits suffice, log entry 17. -/
def tEnc (neg : Bool) (v : Int) : Nat := fencS pF neg v.natAbs (-(tW : Int)) true

/-- A dyadic in fixed point. -/
def tFix (m : Nat) (e : Int) : Int :=
  let s := e + (tW : Int)
  if 0 ≤ s then (m : Int) * (2 : Int) ^ s.toNat else (m : Int) / (2 : Int) ^ (-s).toNat

/-- Whether m × 2^e ≥ 2^k. -/
def tBig (m : Nat) (e : Int) (k : Int) : Bool := m ≠ 0 && decide (k ≤ e + (m.log2 : Int))

/-- A value and the flags it sets: INVALID and FOVF (R240). -/
structure TRes where
  v : Nat
  invalid : Bool := false
  fovf : Bool := false
deriving DecidableEq, Repr

/-- An infinite rounding of a finite value sets FOVF. -/
def tOvf (v : Nat) : TRes := { v, fovf := isInf pF v }

/-- NaN from an input without NaN. -/
def tInvalid : TRes := { v := qnan pF, invalid := true }

/-- e^r, or 2^a when r is a × ln 2, for a fixed-point r of moderate size. -/
def tExpRes (r : Int) : TRes :=
  let p := tExp r
  tOvf (fencS pF false p.1.natAbs (p.2 - (tW : Int)) true)

/-- VEXP2 (R247). -/
def fExp2 (a : Nat) : TRes :=
  match fdec pF a with
  | .nan => { v := qnan pF }
  | .inf neg => { v := if neg then 0 else finf pF false }
  | .fin neg m e =>
    if m = 0 then { v := fOne }
    else if tBig m e 8 then (if neg then { v := 0 } else { v := finf pF false, fovf := true })
    else
      let x := if neg then -(tFix m e) else tFix m e
      if x % tOne = 0 then tOvf (fenc pF false 1 (x / tOne)) else tExpRes (tMul x tLn2)

/-- VEXP (R247). -/
def fExp (a : Nat) : TRes :=
  match fdec pF a with
  | .nan => { v := qnan pF }
  | .inf neg => { v := if neg then 0 else finf pF false }
  | .fin neg m e =>
    if m = 0 then { v := fOne }
    else if tBig m e 8 then (if neg then { v := 0 } else { v := finf pF false, fovf := true })
    else tExpRes (if neg then -(tFix m e) else tFix m e)

/-- VLOG2 and VLN (R247). -/
def fLog (two : Bool) (a : Nat) : TRes :=
  match fdec pF a with
  | .nan => { v := qnan pF }
  | .inf neg => if neg then tInvalid else { v := finf pF false }
  | .fin neg m e =>
    if m = 0 then { v := finf pF true }
    else if neg then tInvalid
    else if m = 2 ^ m.log2 ∧ (two ∨ e + (m.log2 : Int) = 0) then { v := fofInt pF (e + (m.log2 : Int)) }
    else
      let l := tLn m e
      let l := if two then tDiv l tLn2 else l
      { v := tEnc (decide (l < 0)) l }

/-- VRCP (R247). -/
def fRcp (a : Nat) : TRes :=
  match fdec pF a with
  | .fin neg m _ => if m = 0 then { v := finf pF neg } else tOvf (fdiv pF fOne a)
  | _ => { v := fdiv pF fOne a }

/-- VSQRT (R247). -/
def fSqrtR (a : Nat) : TRes :=
  let v := fsqrt pF a
  { v, invalid := isNan pF v && !(isNan pF a) }

/-- VRSQRT (R247): √ of the exact reciprocal, with 64 bits more than the result needs. -/
def fRsqrt (a : Nat) : TRes :=
  match fdec pF a with
  | .nan => { v := qnan pF }
  | .inf neg => if neg then tInvalid else { v := 0 }
  | .fin neg m e =>
    if m = 0 then { v := finf pF neg }
    else if neg then tInvalid
    else
      let k := if e % 2 = 0 then 256 + 2 * m.log2 else 257 + 2 * m.log2
      let n := 2 ^ k / m
      let r := isqrt n
      { v := fencS pF false r ((-e - (k : Int)) / 2) (r * r * m ≠ 2 ^ k) }

/-- VDIV (R247). -/
def fDivR (a b : Nat) : TRes :=
  let v := fdiv pF a b
  { v, invalid := isNan pF v && !(isNan pF a) && !(isNan pF b),
    fovf := isInf pF v && isFin pF a && isFin pF b && !(isZero pF b) }

/-- VTANH (R247): (1 − q) ÷ (1 + q) with q = e^(−2|a|). -/
def fTanh (a : Nat) : TRes :=
  match fdec pF a with
  | .nan => { v := qnan pF }
  | .inf neg => { v := fOne + flag 31 neg }
  | .fin neg m e =>
    if m = 0 then { v := fzero pF neg }
    else if tBig m e 7 then { v := fOne + flag 31 neg }
    else if !(tBig m e (-60)) then { v := fencS pF neg (m * 2 ^ 32 - 1) (e - 32) true }
    else
      let q := tExpNeg (2 * tFix m e)
      { v := tEnc neg (tDiv (tOne - q) (tOne + q)) }

/-- VSIGM (R247): with q = e^(−|a|), 1 ÷ (1 + q) or q ÷ (1 + q). -/
def fSigm (a : Nat) : TRes :=
  match fdec pF a with
  | .nan => { v := qnan pF }
  | .inf neg => { v := if neg then 0 else fOne }
  | .fin neg m e =>
    if m = 0 then { v := 0x3F000000 }
    else if tBig m e 8 then { v := if neg then 0 else fOne }
    else
      let q := tExpNeg (tFix m e)
      { v := tEnc false (if neg then tDiv q (tOne + q) else tDiv tOne (tOne + q)) }

/-- √π in fixed point. -/
def tSqrtPi : Int := (isqrt (tPi * tOne).toNat : Nat)

/-- VERF (R247). -/
def fErf (a : Nat) : TRes :=
  match fdec pF a with
  | .nan => { v := qnan pF }
  | .inf neg => { v := fOne + flag 31 neg }
  | .fin neg m e =>
    if m = 0 then { v := fzero pF neg }
    else if tBig m e 3 then { v := fOne + flag 31 neg }
    else
      let x := tFix m e
      { v := tEnc neg (tDiv (2 * tErfSeries (tMul x x) 420 0 x) tSqrtPi) }

/-- |sin(π f)| or |cos(π f)| for a fixed-point f in 0 ≤ f ≤ 1/2. -/
def tSinPi (f : Int) : Int :=
  let y := tMul f tPi
  tSinSeries (tMul y y) 70 1 y

/-- The value of ± sin(π f) for f in 0 ≤ f ≤ 1/2: exact at 1/2. -/
def tSinRes (neg : Bool) (f : Int) : TRes :=
  if 2 * f = tOne then { v := fOne + flag 31 neg } else { v := tEnc neg (tSinPi f) }

/-- A fixed-point f in 0 ≤ f < 2, folded for the sine: the sign and the argument in 0 to 1/2. -/
def tFold (f : Int) : Bool × Int :=
  let neg := decide (tOne ≤ f)
  let g := if neg then f - tOne else f
  (neg, if tOne < 2 * g then tOne - g else g)

/-- The magnitude of a value modulo 2, in fixed point. -/
def tMod2 (m : Nat) (e : Int) : Int := if 1 ≤ e then 0 else tFix m e % (2 * tOne)

/-- VSINPI (R247). -/
def fSinPi (a : Nat) : TRes :=
  match fdec pF a with
  | .nan => { v := qnan pF }
  | .inf _ => tInvalid
  | .fin neg m e =>
    let p := tFold (tMod2 m e)
    if p.2 = 0 then { v := fzero pF neg } else tSinRes (xor neg p.1) p.2

/-- VCOSPI (R247): cos(π a) = sin(π (|a| + 1/2)). -/
def fCosPi (a : Nat) : TRes :=
  match fdec pF a with
  | .nan => { v := qnan pF }
  | .inf _ => tInvalid
  | .fin _ m e =>
    let p := tFold ((tMod2 m e + tOne / 2) % (2 * tOne))
    if p.2 = 0 then { v := 0 } else tSinRes p.1 p.2

end Sys2Proof.Machine
end

