-- ==== Sys2Proof/Machine/VecMath.lean ====
section
/-! DEFINITION. The arithmetic of the vector engine on raw elements (R228, R240, R243 to R254, R256). Types are the codes
of R228: 0 FP32, 1 BF16, 2 I32, 3 U32, 4 I16, 5 I8. -/

namespace Sys2Proof.Machine

/-! ### Types (R228) -/

/-- Bytes per element. -/
def esize (t : Nat) : Nat := [4, 2, 4, 4, 2, 1].getD t 1
/-- Bits per element. -/
def ebits (t : Nat) : Nat := 8 * esize t
/-- A floating-point type. -/
def eFloat (t : Nat) : Bool := t == 0 || t == 1
/-- The precision of a floating-point type. -/
def ePrec (t : Nat) : Nat := if t = 1 then pB else pF
/-- n elements of w bytes. -/
def unpack (w : Nat) : Nat → List Byte → List Nat
  | 0, _ => []
  | n + 1, b => leAt b 0 w :: unpack w n (b.drop w)
/-- The bytes of elements of w bytes. -/
def pack (w : Nat) (vs : List Nat) : List Byte := vs.flatMap (leBytes w)
/-- The integer that an element holds. -/
def eInt (t v : Nat) : Int := if t = 3 then ((v % 2 ^ 32 : Nat) : Int) else sx (ebits t) v
/-- The smallest and largest integers of a type. -/
def eLimits (t : Nat) : Int × Int :=
  if t = 3 then (0, (2 : Int) ^ 32 - 1) else (-(2 : Int) ^ (ebits t - 1), (2 : Int) ^ (ebits t - 1) - 1)
/-- The FP32 bits of a floating-point element (R249: BF16 is taken exactly). -/
def eF32 (t v : Nat) : Nat := if t = 1 then ofB v else v

/-! ### Flags (R240) -/

/-- EMPTY. -/
def fgEmpty : Nat := 1
/-- INF_ROW. -/
def fgInfRow : Nat := 2
/-- NAN_SEEN. -/
def fgNan : Nat := 4
/-- INVALID. -/
def fgInvalid : Nat := 8
/-- FOVF. -/
def fgFovf : Nat := 16
/-- ISAT. -/
def fgIsat : Nat := 32
/-- XFAULT. -/
def fgXfault : Nat := 64

/-- The flags of a result of precision p formed from inputs of that precision: INVALID, and FOVF unless the infinity is
exact. -/
def fpFlags (p r : Nat) (ins : List Nat) : Nat :=
  if isNan p r then (if ins.any (isNan p) then 0 else fgInvalid)
  else if isInf p r && ins.all (isFin p) then fgFovf else 0

/-- An element and the flags it sets. -/
abbrev EF := Nat × Nat

/-- An integer result, clamped when `sat`. -/
def intRes (t : Nat) (sat : Bool) (v : Int) : EF :=
  let l := eLimits t
  let c := clampI l.1 l.2 v
  if sat then (wrap (ebits t) c.1, if c.2 then fgIsat else 0) else (wrap (ebits t) v, 0)

/-! ### Elementwise (R243 to R248) -/

/-- VINT (R10, R243) on one element. -/
def vInt (op : VOp) (t : Nat) (sat : Bool) (a b : Nat) : EF :=
  let w := ebits t
  let x := eInt t a
  let y := eInt t b
  match op with
  | .add => intRes t sat (x + y)
  | .sub => intRes t sat (x - y)
  | .mul => intRes t sat (x * y)
  | .min => (if x ≤ y then a else b, 0)
  | .max => (if y ≤ x then a else b, 0)
  | .abs => intRes t sat x.natAbs
  | .and => (a &&& b, 0)
  | .or => (a ||| b, 0)
  | .xor => (a ^^^ b, 0)
  | .andn => (a &&& (2 ^ w - 1 - b), 0)
  | .shl => intRes t sat (x * (2 : Int) ^ Nat.min b (w + 1))
  | .shr => (a >>> Nat.min b w, 0)
  | .sra => (wrap w (sx w a / (2 : Int) ^ Nat.min b w), 0)
  | .popc => (popcount w a, 0)
  | _ => (a, 0)

/-- VFP but VCVT (R244, R245) on one element. -/
def vFp (op : VOp) (t a b d : Nat) : EF :=
  let p := ePrec t
  let go (r : Nat) : EF := (r, fpFlags p r [a, b])
  match op with
  | .fadd => go (fadd p a b)
  | .fsub => go (fsub p a b)
  | .fmul => go (fmul p a b)
  | .fma => let r := ffma p a b d; (r, fpFlags p r [a, b, d])
  | .fmin => (fmin p a b, 0)
  | .fmax => (fmax p a b, 0)
  | .fabs => (fabs p a, 0)
  | .fneg => (fneg p a, 0)
  | _ => (a, 0)

/-- VCVT (R246) from type ts to type t on one element. -/
def vCvt (ts t : Nat) (sat : Bool) (a : Nat) : EF :=
  if eFloat ts then
    let f := eF32 ts a
    if eFloat t then
      let r := encFv (ePrec t) (fdec pF f)
      (r, if isInf (ePrec t) r && isFin pF f then fgFovf else 0)
    else
      match fdec pF f with
      | .nan => (0, fgInvalid)
      | .inf neg => intRes t true (if neg then -(2 : Int) ^ 40 else (2 : Int) ^ 40)
      | .fin neg m e => intRes t true (fvInt (.fin neg m e))
  else if eFloat t then (fofInt (ePrec t) (eInt ts a), 0)
  else intRes t sat (eInt ts a)

/-- VTR on FP32 bits (R247). -/
def vTr32 (op : VOp) (a b : Nat) : TRes :=
  match op with
  | .exp2 => fExp2 a
  | .exp => fExp a
  | .log2 => fLog true a
  | .ln => fLog false a
  | .rcp => fRcp a
  | .sqrt => fSqrtR a
  | .rsqrt => fRsqrt a
  | .div => fDivR a b
  | .tanh => fTanh a
  | .sigm => fSigm a
  | .erf => fErf a
  | .sinpi => fSinPi a
  | _ => fCosPi a

/-- VTR on one element (R247, R248). -/
def vTr (op : VOp) (t a b : Nat) : EF :=
  let r := vTr32 op (eF32 t a) (eF32 t b)
  let v := if t = 1 then toB r.v else r.v
  (v, (if r.invalid then fgInvalid else 0)
    + (if r.fovf || (t == 1 && isFin pF r.v && isInf pB v) then fgFovf else 0))

/-! ### Reductions (R249 to R253) -/

/-- Two partial results combined. -/
def comb (op : Nat → Nat → Nat) : Option Nat → Option Nat → Option Nat
  | some a, some b => some (op a b)
  | some a, none => some a
  | none, b => b

/-- A group of elements is taken into the lanes. -/
def laneStep (op : Nat → Nat → Nat) : List (Option Nat) → List (Option Nat) → List (Option Nat)
  | p :: ps, x :: xs => comb op p x :: laneStep op ps xs
  | ps, _ => ps

/-- Every group of 256 elements is taken into the lanes. -/
def laneFold (op : Nat → Nat → Nat) : Nat → List (Option Nat) → List (Option Nat) → List (Option Nat)
  | 0, ps, _ => ps
  | fuel + 1, ps, xs => if xs.isEmpty then ps else laneFold op fuel (laneStep op ps (xs.take 256)) (xs.drop 256)

/-- One level of the tree: each lane with the next. -/
def pairUp (op : Nat → Nat → Nat) : List (Option Nat) → List (Option Nat)
  | a :: b :: t => comb op a b :: pairUp op t
  | l => l

/-- n levels of the tree. -/
def treeUp (op : Nat → Nat → Nat) : Nat → List (Option Nat) → List (Option Nat)
  | 0, l => l
  | n + 1, l => treeUp op n (pairUp op l)

/-- The tree of R250 over elements, none for an inactive one. -/
def tree (op : Nat → Nat → Nat) (xs : List (Option Nat)) : Option Nat :=
  (treeUp op 8 (laneFold op (xs.length / 256 + 1) (List.replicate 256 none) xs)).headD none

/-- Elements with the active ones kept. -/
def masked : List Bool → List Nat → List (Option Nat)
  | a :: as, x :: xs => (if a then some x else none) :: masked as xs
  | _, _ => []

/-- The best of elements with their indexes from i on, by `gt`: the lowest index wins among equals (R251). -/
def bestOf (gt : Nat → Nat → Bool) : Nat → Option (Nat × Nat) → List (Option Nat) → Option (Nat × Nat)
  | _, b, [] => b
  | i, b, none :: t => bestOf gt (i + 1) b t
  | i, none, some x :: t => bestOf gt (i + 1) (some (x, i)) t
  | i, some b, some x :: t => bestOf gt (i + 1) (some (if gt x b.1 then (x, i) else b)) t

/-- The index of the first active NaN. -/
def firstNan : Nat → List (Option Nat) → Option Nat
  | _, [] => none
  | i, some x :: t => if isNan pF x then some i else firstNan (i + 1) t
  | i, none :: t => firstNan (i + 1) t

/-- The seven reductions of R249. -/
inductive RedOp where
  | sum | prod | max | min | count | mean | sumsq
deriving DecidableEq, Repr

/-- A reduction's VALUE, POS and flags. -/
structure RedRes where
  value : Nat
  pos : Nat := 0
  flags : Nat := 0

/-- A reduction of floating-point elements, as FP32 (R249 to R251). -/
def redFloat (op : RedOp) (xs : List (Option Nat)) : RedRes :=
  let act := xs.filterMap id
  let none' := act.isEmpty
  let fl := (if none' then fgEmpty else 0) + (if act.any (isNan pF) then fgNan else 0)
  let arith (v : Option Nat) (e : Nat) : RedRes :=
    match v with
    | none => { value := e, flags := fl }
    | some v => { value := v, flags := fl + fpFlags pF v act }
  let best (gt : Nat → Nat → Bool) (e : Nat) : RedRes :=
    match firstNan 0 xs with
    | some i => { value := qnan pF, pos := i, flags := fl }
    | none =>
      match bestOf gt 0 none xs with
      | none => { value := e, pos := 0xFFFFFF, flags := fl }
      | some b => { value := b.1, pos := b.2, flags := fl }
  match op with
  | .sum => arith (tree (fadd pF) xs) 0
  | .prod => arith (tree (fmul pF) xs) fOne
  | .max => best (fun a b => fLt pF b a) (finf pF true)
  | .min => best (fun a b => fLt pF a b) (finf pF false)
  | .count => { value := (act.filter (fun v => !(isZero pF v))).length, flags := fl }
  | .mean => arith ((tree (fadd pF) xs).map (fun v => fdiv pF v (fofInt pF act.length))) (qnan pF)
  | .sumsq => arith (tree (fadd pF) (xs.map (fun x => x.map (fun v => fmul pF v v)))) 0

/-- A reduction of integer elements (R249, R251). -/
def redInt (op : RedOp) (t : Nat) (sat : Bool) (xs : List (Option Nat)) : RedRes :=
  let act := xs.filterMap id
  let fl := if act.isEmpty then fgEmpty else 0
  let best (gt : Nat → Nat → Bool) (e : Int) : RedRes :=
    match bestOf gt 0 none xs with
    | none => { value := wrap (ebits t) e, pos := 0xFFFFFF, flags := fl }
    | some b => { value := b.1, pos := b.2, flags := fl }
  match op with
  | .prod => { value := act.foldl (fun p v => wrap (ebits t) (eInt t p * eInt t v)) 1, flags := fl }
  | .max => best (fun a b => decide (eInt t b < eInt t a)) (eLimits t).1
  | .min => best (fun a b => decide (eInt t a < eInt t b)) (eLimits t).2
  | .count => { value := (act.filter (fun v => v % 2 ^ ebits t ≠ 0)).length, flags := fl }
  | _ => let r := intRes t sat (act.map (eInt t)).sum; { value := r.1, flags := fl + r.2 }

/-- A reduction of elements of type t (R249). -/
def red (op : RedOp) (t : Nat) (sat : Bool) (xs : List (Option Nat)) : RedRes :=
  if eFloat t then redFloat op (xs.map (fun x => x.map (eF32 t))) else redInt op t sat xs

/-- The word VRED writes (R252). -/
def RedRes.word (r : RedRes) : Nat :=
  flag 63 (bit 0 r.flags) + flag 62 (bit 2 r.flags) + r.pos * 2 ^ 32 + r.value

/-- VTRED (R253): the first n rows or columns of a 64 × 64 matrix. -/
def tred (op : RedOp) (t : Nat) (axis : Bool) (m : List Nat) (n : Nat) : List Nat × Nat :=
  let rs := (List.range n).map (fun i =>
    red op t false ((List.range 64).map (fun j => some (m.getD (if axis then 64 * j + i else 64 * i + j) 0))))
  (rs.map (·.value), rs.foldl (fun f r => f ||| r.flags) 0)

/-! ### Soft maximum (R254) -/

/-- The largest of active values, from −∞. -/
def smaxTop (xs : List (Option Nat)) : Nat :=
  xs.foldl (fun m x => match x with
    | some v => if fLt pF m v then v else m
    | none => m) (finf pF true)

/-- VSMAX on FP32 values (R254): the row and its flags. -/
def smax (xs : List (Option Nat)) : List Nat × Nat :=
  let act := xs.filterMap id
  let fill (v : Nat) : List Nat := xs.map (fun _ => v)
  let c := (act.filter (fun v => v == finf pF false)).length
  let m := smaxTop xs
  if act.any (isNan pF) then (fill (qnan pF), fgNan)
  else if act.isEmpty then (fill 0, fgEmpty)
  else if c ≠ 0 then
    let r := (fRcp (fofInt pF c)).v
    (xs.map (fun x => if x = some (finf pF false) then r else 0), fgInfRow)
  else if m = finf pF true then (fill 0, fgEmpty)
  else
    let e := xs.map (fun x => x.map (fun v => (fExp (fsub pF v m)).v))
    let r := (fRcp ((tree (fadd pF) e).getD 0)).v
    (e.map (fun x => match x with
      | some v => fmul pF v r
      | none => 0), 0)

/-! ### Compare (R256) -/

/-- The conditions of VCMPK. -/
def vCond (cond : Nat) (lt eq : Bool) (nan : Bool) : Bool :=
  match cond with
  | 0 => eq && !nan
  | 1 => !eq || nan
  | 2 => lt && !nan
  | 3 => (lt || eq) && !nan
  | 4 => !(lt || eq) && !nan
  | _ => !lt && !nan

/-- VCMPK on one element. -/
def vCmp (cond t a b : Nat) : Bool :=
  if eFloat t then
    let p := ePrec t
    vCond cond (fLt p a b) (fEq p a b) (isNan p a || isNan p b)
  else vCond cond (decide (eInt t a < eInt t b)) (eInt t a == eInt t b) false

end Sys2Proof.Machine
end

