-- ==== Sys2Proof/Machine/VecOps.lean ====
section
/-! DEFINITION. Vector instructions at issue (R227 to R237, R241, R242): fields, operands, checks, costs, and the runs of
device memory an instruction reaches. -/

namespace Sys2Proof.Machine

open Sys2Proof

/-! ### Fields (R235) -/

/-- The T field. -/
def vT (w : InsnW) : Nat := iw w 20 18
/-- The V field. -/
def vV (w : InsnW) : Nat := iw w 17 13
/-- The element count N (R231). -/
def vN (w : InsnW) : Nat := iw w 12 0 + 1
/-- The B field. -/
def vB (w : InsnW) : Nat := iw w 31 27
/-- The K field. -/
def vK (w : InsnW) : Nat := iw w 26 22
/-- MASK_EN. -/
def vMen (w : InsnW) : Bool := bit 21 w.low.toNat
/-- BCAST, where an instruction has it. -/
def vBc (w : InsnW) : Bool := bit 1 (vV w)

/-- The groups of operations that share a layout. -/
inductive VGrp where
  | int | fp | cvt | tr | red | tred | smax | topk | cmpk | quant | deq | ld | st | mov | fill | transp | spl | splexp | flags
deriving DecidableEq, Repr

/-- The group of an operation. -/
def VOp.grp : VOp → VGrp
  | .add | .sub | .mul | .min | .max | .abs | .and | .or | .xor | .andn | .shl | .shr | .sra | .popc => .int
  | .fadd | .fsub | .fmul | .fma | .fmin | .fmax | .fabs | .fneg => .fp
  | .cvt => .cvt
  | .exp2 | .exp | .log2 | .ln | .rcp | .sqrt | .rsqrt | .div | .tanh | .sigm | .erf | .sinpi | .cospi => .tr
  | .redSum | .redProd | .redMax | .redMin | .redCount | .redMean | .redSumsq => .red
  | .tredSum | .tredSumsq | .tredMax | .tredMin => .tred
  | .smax => .smax
  | .topk => .topk
  | .cmpk => .cmpk
  | .quant => .quant
  | .deq => .deq
  | .ld => .ld
  | .st => .st
  | .mov => .mov
  | .fill => .fill
  | .transp => .transp
  | .spl => .spl
  | .splexp => .splexp
  | .flags => .flags

/-- An operation with one source. -/
def VOp.unary : VOp → Bool
  | .abs | .popc | .fabs | .fneg => true
  | .exp2 | .exp | .log2 | .ln | .rcp | .sqrt | .rsqrt | .tanh | .sigm | .erf | .sinpi | .cospi => true
  | _ => false

/-- An integer operation that SAT applies to (R243). -/
def VOp.satOk : VOp → Bool
  | .add | .sub | .mul | .abs | .shl => true
  | _ => false

/-- Whether an instruction breaks R76, R235 or the rules of its own that give ILLEGAL_OP. -/
def vIll (op : VOp) (x : Stream) (w : InsnW) : Bool :=
  let v := vV w
  let plain := vB w != 0 || vBc w
  !(fmtI w) || (!(vMen w) && vK w != 0) ||
  (match op.grp with
  | .int => decide (3 < v) || (bit 0 v && !(op.satOk)) || (op.unary && plain)
  | .fp => v != 2 * b2n (vBc w) || (op.unary && plain)
  | .cvt => vBc w || vB w != 0
  | .tr => v != 2 * b2n (vBc w) || (op.unary && plain)
  | .red => decide (1 < v) || vB w != 0 || (v != 0 && op != .redSum)
  | .tred => decide (1 < v) || vB w != 0 || vMen w
  | .smax => decide (1 < v) || vB w != 0
  | .topk => false
  | .cmpk => bit 0 v || decide (5 < v / 4)
  | .quant => bit 4 (iD w) || (bit 4 v && x == .a)
  | .deq => v != 0 || bit 4 (iA w)
  | .ld => decide (1 < v) || vMen w || bit 4 (iA w) || (if v = 0 then vB w != 0 else vN w % 64 != 0)
  | .st => decide (1 < v) || vMen w || bit 4 (iA w) || (if v = 0 then vB w != 0 else vN w % 64 != 0)
  | .mov => v != 0 || vB w != 0
  | .fill => v != 0 || iA w != 0
  | .transp => v != 0 || vB w != 0 || vMen w || vN w != 4096
  | .spl => decide (2 < v)
  | .splexp => v != 0 || vB w != 0 || vMen w || vT w != 0 || vN w != 1
  | .flags => v != 0 || vB w != 0 || vMen w || vT w != 0 || vN w != 1 || iA w != 0)

/-- The types an instruction accepts (R243 to R261). -/
def vTypes (op : VOp) : List Nat :=
  match op.grp with
  | .int => [2, 3, 4, 5]
  | .fp => [0, 1]
  | .tr => [0, 1]
  | .red => if op = .redMean ∨ op = .redSumsq then [0, 1] else [0, 1, 2, 3, 4, 5]
  | .tred => if op = .tredSumsq then [0] else [0, 2]
  | .smax => [0, 1]
  | .quant => [0, 1]
  | .deq => [0, 1]
  | .transp => [0, 2, 3]
  | .spl => [0, 1]
  | _ => [0, 1, 2, 3, 4, 5]

/-- Whether a type field holds a code that R228 refuses. VTOPK has none. -/
def vBadT (op : VOp) (w : InsnW) : Bool :=
  op != .topk && (decide (5 < vT w) || (op == .cvt && decide (5 < vV w / 4)))

/-! ### Operands (R227, R229) -/

/-- An operand in a store: its role (0 D, 1 A, 2 B, 3 K), its code, its bytes, the size its start is a multiple of, and
whether it is written. -/
structure VOpnd where
  role : Nat
  code : Nat
  size : Nat
  al : Nat
  write : Bool := false

/-- The operands of an instruction. -/
def vOpnds (op : VOp) (w : InsnW) : List VOpnd :=
  let n := vN w
  let es := esize (vT w)
  let a : VOpnd := { role := 1, code := iA w, size := n * es, al := es }
  let d : VOpnd := { role := 0, code := iD w, size := n * es, al := es, write := true }
  let b : List VOpnd := if vBc w then [] else [{ role := 2, code := vB w, size := n * es, al := es }]
  let own : List VOpnd := match op.grp with
    | .int => if op.unary then [a, d] else [a, d] ++ b
    | .fp => if op.unary then [a, d] else [a, d] ++ b
    | .cvt => let s := esize (vV w / 4); [{ a with size := n * s, al := s }, d]
    | .tr => if op.unary then [a, d] else [a, d] ++ b
    | .red => [a]
    | .tred => [{ a with size := 16384, al := 4 }, { d with size := 4 * n, al := 4 }]
    | .smax => let s := if bit 0 (vV w) then 2 else 4; [{ a with size := n * s, al := s }, d]
    | .topk => let s := if bit 0 (vT w) then 2 else 4
               [{ a with size := n * s, al := s }, { d with size := 8 * (vB w + 1), al := 8 }]
    | .cmpk => [a, { d with size := cdiv n 8, al := 1 }] ++ b
    | .quant => [a]
    | .deq => [d]
    | .ld => [d]
    | .st => [{ d with write := false }]
    | .mov => [a, d]
    | .fill => [d]
    | .transp => [{ a with size := 16384, al := 4 }, { d with size := 16384, al := 4 }]
    | .spl => [d]
    | .splexp => []
    | .flags => []
  own ++ (if vMen w then [{ role := 3, code := vK w, size := cdiv n 8, al := 1 }] else [])

/-- The scalar registers an instruction reads. -/
def vSrcs (op : VOp) (w : InsnW) : List Nat :=
  ((vOpnds op w).filter (fun o => decide (16 ≤ o.code))).map (·.code) ++
  (match op.grp with
  | .int => if vBc w then [vB w] else []
  | .fp => if vBc w then [vB w] else []
  | .tr => if vBc w then [vB w] else []
  | .cmpk => if vBc w then [vB w] else []
  | .topk => [vV w]
  | .quant => [vB w]
  | .deq => [vB w]
  | .ld => if vV w = 0 then [] else [vB w]
  | .st => if vV w = 0 then [] else [vB w]
  | .fill => [vB w]
  | .spl => [iA w, vB w]
  | .splexp => [iA w]
  | _ => [])

/-- Where an operand starts: bytes 0 to 0x3_FFFF are the tile file, 0x4_0000 on the operand cache (R227, R229). -/
def StreamSt.vLoc (t : StreamSt) (o : VOpnd) : Option Nat :=
  if o.code < 16 then
    (if o.code * 16384 + o.size ≤ 262144 then some (o.code * 16384) else none)
  else
    let s := (t.getS o.code).toNat
    if s < 524288 ∧ s + o.size ≤ 524288 then some (262144 + s) else none

/-- The start of the operand of a role. -/
def StreamSt.vOff (t : StreamSt) (l : List VOpnd) (role : Nat) : Nat :=
  match l.find? (fun o => o.role == role) with
  | some o => (t.vLoc o).getD 0
  | none => 0

/-! ### Runs of device memory -/

/-- A run of bytes of device memory that an instruction reaches: an offset from a base address, its bytes, and its place
among the bytes of all its runs. -/
structure VRun where
  base : Nat
  off : Int
  len : Nat
  pos : Nat
deriving DecidableEq, Repr

/-- Whether a run leaves the offsets of its base's space (R83, R84). -/
def VRun.out (r : VRun) : Bool :=
  let o : Int := (aOff r.base : Int) + r.off
  decide (o < 0) || decide ((2 : Int) ^ 44 < o + (r.len : Int))

/-- The address of a run's first byte. -/
def VRun.addr (r : VRun) : Nat := r.base / 2 ^ 44 * 2 ^ 44 + ((aOff r.base : Int) + r.off).toNat

/-- The runs of a VLD or VST (R259). -/
def vldRuns (w : InsnW) (es : Nat) (aa sb : W64) : List VRun :=
  if vV w = 0 then [{ base := aa.toNat, off := 0, len := vN w * es, pos := 0 }]
  else (List.range (vN w / 64)).map (fun (r : Nat) =>
    ({ base := aa.toNat, off := (r : Int) * sgn sb, len := 64 * es, pos := r * 64 * es } : VRun))

/-- The runs of n elements from element e0 of a line of a quantised tensor: codes, scales, outlier words. -/
def qRuns (d : TDesc) (line e0 n : Nat) : List VRun :=
  let nb := cdiv n 32
  let j0 := e0 / 32
  let bb := blkBytes d.fmt
  let c : VRun := { base := d.codeBase, off := ((line * d.codeStride + j0 * bb : Nat) : Int), len := nb * bb, pos := 0 }
  let s : VRun := { base := d.scaleBase, off := ((line * d.scaleStride + j0 : Nat) : Int), len := nb, pos := nb * bb }
  let o : VRun := { base := d.outlBase, off := ((line * d.outlStride + 4 * j0 : Nat) : Int), len := 4 * nb,
                    pos := nb * bb + nb }
  [c] ++ (if fScaled d.fmt then [s] else []) ++ (if d.outl then [o] else [])

/-- The runs of an accepted instruction. -/
def VInsn.runs (i : VInsn) : List VRun :=
  let w : InsnW := { low := i.low }
  match i.op with
  | .ld => vldRuns w (esize (vT w)) i.aa i.sb
  | .st => vldRuns w (esize (vT w)) i.aa i.sb
  | .quant => qRuns (tdesc i.desc i.fall) (i.sb.toNat / 2 ^ 32) (i.sb.toNat % 2 ^ 32) (vN w)
  | .deq => qRuns (tdesc i.desc i.fall) (i.sb.toNat / 2 ^ 32) (i.sb.toNat % 2 ^ 32) (vN w)
  | _ => []

/-- The bytes of device memory of an accepted instruction: those it reads, or those it writes. A VSPL reads the spool rows from the
one at `aa` on (R261). -/
def VInsn.memSpans (i : VInsn) (write : Bool) : List (Nat × Nat) :=
  let w : InsnW := { low := i.low }
  if i.op == .spl then (if write then [] else [(i.aa.toNat, cdiv (vN w) 128 * 1024)])
  else if (i.op == .st || i.op == .quant) == write then i.runs.map (fun r => (r.addr, r.len)) else []

/-- Whether two lists of spans of bytes meet. -/
def spansMeet (a b : List (Nat × Nat)) : Bool := a.any (fun x => b.any (fun y => runsMeet x.1 x.2 y.1 y.2))

/-- Whether an address on this device is refused at issue (R34, R85, R108): one of stack memory that lies in no region, or one on a
die in reset, fails after issue (R242). -/
def State.refusedNow (s : State) (a : Nat) : Bool :=
  aSpace a != 0 && (match s.phys (aOff a / 0x400000) with
    | some c => !(s.dieOut (dieOfCore c)) && (s.core c).fenced
    | none => true)

/-- The code of R593 for runs within the context of stream x: `al` is the size their addresses are multiples of, or 0 for
the runs of a quantised tensor. -/
def State.runsFault (s : State) (c : Nat) (x : Stream) (al : Nat) (l : List VRun) : Option Nat :=
  let far (r : VRun) : Bool := aDev r.base != s.teth.self
  let refused (r : VRun) : Bool :=
    let a := r.addr
    aDev a == 0xFFFF || aSpace a == 15 || badSpaceOff a || badSpaceOff (a + r.len - 1)
      || (!(far r) && (blkCuts a r.len).any (fun p => s.refusedNow p.1))
  if l.any VRun.out then some 0x02
  else if al ≠ 0 ∧ l.any (fun r => r.addr % al != 0) then some 0x03
  else if l.any refused then some 0x02
  else if al ≠ 0 ∧ l.any (fun r => spoolMis r.addr r.len) then some 0x03
  else (l.filter far).findSome? (fun r => s.remoteCheck ((s.core c).ctx x) (aDev r.base))

/-! ### Checks (R241) -/

/-- Whether a quantise or dequantise range breaks R257. -/
def badQShape (d : TDesc) (line e0 n : Nat) : Bool :=
  e0 % 32 != 0 || decide (d.lines ≤ line) || decide (d.lineLen < e0 + n) || (n % 32 != 0 && e0 + n != d.lineLen)

/-- The formats VQUANT and VDEQ accept (R257, R258). -/
def qFmtOk (op : VOp) (f : Nat) : Bool := fScaled f || (op == .deq && f == 3)

/-- The descriptor that VQUANT or VDEQ names, when it names one that passes. -/
def State.vDesc (s : State) (c : Nat) (x : Stream) (op : VOp) (w : InsnW) : Except Nat (List Byte × Bool) :=
  let t := (s.core c).st x
  match op with
  | .quant => s.descReg c (t.getA (iD w))
  | .deq => s.descReg c (t.getA (iA w))
  | _ => .ok ([], false)

/-- The exceptions of R88 that a vector instruction raises, after ILLEGAL_OP. DEDUCED, log entry 44. -/
def State.vPre (s : State) (c : Nat) (x : Stream) (op : VOp) (w : InsnW) (d : List Byte × Bool) : Option Nat :=
  let t := (s.core c).st x
  let sb := t.getS (vB w)
  let es := if vBadT op w then 1 else esize (vT w)
  match op with
  | .ld => s.runsFault c x es (vldRuns w es (t.getA (iA w)) sb)
  | .st => s.runsFault c x es (vldRuns w es (t.getA (iA w)) sb)
  | .spl => if goodScale (sb.toNat % 2 ^ 32) then none else some 0x04
  | _ =>
    let td := tdesc d.1 d.2
    let line := sb.toNat / 2 ^ 32
    let e0 := sb.toNat % 2 ^ 32
    if (op = .quant ∨ op = .deq) ∧ qFmtOk op td.fmt ∧ !(badQShape td line e0 (vN w)) then
      s.runsFault c x 0 (qRuns td line e0 (vN w))
    else none

/-- The causes of VEC_RANGE that are not operands. -/
def StreamSt.vRange (t : StreamSt) (op : VOp) (w : InsnW) : Bool :=
  let sa := (t.getS (iA w)).toNat
  match op.grp with
  | .tred => decide (64 < vN w)
  | .topk => decide (0xFFFFFE < (t.getS (vV w)).toNat % 2 ^ 24 + (vN w - 1))
  | .spl => decide (1023 < sa + (vN w - 1) / 128)
  | .splexp => decide (1023 < sa)
  | _ => false

/-- The exceptions of R241, in order. -/
def StreamSt.vTable (t : StreamSt) (op : VOp) (w : InsnW) (d : List Byte × Bool) : Option Nat :=
  let l := vOpnds op w
  let td := tdesc d.1 d.2
  let sb := (t.getS (vB w)).toNat
  let q := op == .quant || op == .deq
  if vBadT op w then some 0x41
  else if t.vRange op w || l.any (fun o => (t.vLoc o).isNone) then some 0x40
  else if (op != .topk && !((vTypes op).contains (vT w))) || (q && !(qFmtOk op td.fmt)) then some 0x41
  else if l.any (fun o => (t.vLoc o).getD 0 % o.al != 0) then some 0x42
  else if (op.grp == .tred && decide (16 ≤ iA w)) || (op == .transp && (decide (16 ≤ iA w) || decide (16 ≤ iD w))) then
    some 0x43
  else if q && badQShape td (sb / 2 ^ 32) (sb % 2 ^ 32) (vN w) then some 0x44
  else none

/-! ### Costs (R236, R238) -/

/-- The class, the count and the unit of an instruction's cost, when it has one. -/
def vCost (op : VOp) (w : InsnW) : Option (Nat × Nat × Nat) :=
  let n := vN w
  let fl := eFloat (vT w)
  let bytes := n * esize (vT w)
  match op.grp with
  | .int => some (7, n, 256)
  | .fp => some (8, n, 256)
  | .cvt => some (8, n, 256)
  | .tr => some (9, n, 256)
  | .red => some (if fl then 8 else 7, n, 256)
  | .tred => some (if fl then 8 else 7, 64 * n, 256)
  | .smax => some (9, n, 256)
  | .topk => some (7, n, 256)
  | .cmpk => some (7, n, 256)
  | .quant => some (10, n, 256)
  | .deq => some (10, n, 256)
  | .splexp => none
  | .flags => none
  | _ => some (11, bytes, 1024)

/-- The ac that an instruction occupies the engine (R238). -/
def vOcc (op : VOp) (w : InsnW) : Nat :=
  let n := vN w
  let g := cdiv n 256
  let bytes := n * esize (vT w)
  match op.grp with
  | .tr => cdiv n 64
  | .tred => cdiv (64 * n) 256
  | .smax => 2 * g + cdiv n 64
  | .topk => g + vB w + 1
  | .ld => cdiv bytes 256
  | .st => cdiv bytes 256
  | .mov => cdiv bytes 1024
  | .fill => cdiv bytes 1024
  | .transp => cdiv bytes 1024
  | .spl => cdiv n 128
  | .splexp => 1
  | .flags => 1
  | _ => g

/-! ### Issue -/

/-- The vector engine of core c changed. -/
def State.updVec (s : State) (c : Nat) (f : VecSt → VecSt) : State := s.updCore c (fun k => { k with vec := f k.vec })

/-- Whether a scalar register takes an instruction's result (R235). -/
def VOp.toScalar (op : VOp) : Bool := op.grp == .red || op == .splexp || op == .flags

/-- An instruction as the engine accepts it; `spool` is the address of its core's spool. -/
def vAccept (t : StreamSt) (x : Stream) (id ctx gen spool : Nat) (op : VOp) (w : InsnW) (d : List Byte × Bool) : VInsn :=
  let l := vOpnds op w
  let aa := if op = .spl then BitVec.ofNat 64 (spool + 1024 * (t.getS (iA w)).toNat) else t.getA (iA w)
  { id, x, op, low := w.low, sa := t.getS (iA w), sb := t.getS (vB w), sv := t.getS (vV w), aa, ctx, gen,
    dOff := t.vOff l 0, aOff := t.vOff l 1, bOff := t.vOff l 2, kOff := t.vOff l 3, desc := d.1, fall := d.2 }

/-- VQUANT and VDEQ read their descriptor. -/
def State.vTouch (s : State) (c : Nat) (t : StreamSt) (op : VOp) (w : InsnW) : State :=
  match op with
  | .quant => s.touchDesc c (t.getA (iD w))
  | .deq => s.touchDesc c (t.getA (iA w))
  | _ => s

/-- A vector instruction (R234 to R237, R241): after its checks it takes its place in the engine's queue. -/
def State.vecIssue (s : State) (c : Nat) (x : Stream) (op : VOp) (w : InsnW) : State :=
  s.coreAccess c (fun s => s.issue c x w (!(vIll op x w)) (vSrcs op w) (fun s =>
    let t := (s.core c).st x
    let s := s.vTouch c t op w
    match s.vDesc c x op w with
    | .error e => s.raise c x e
    | .ok d =>
      match (s.vPre c x op w d).or (t.vTable op w d) with
      | some e => s.raise c x e
      | none =>
        let k := s.core c
        let n := match vCost op w with
          | some q => k.cost' q.1 q.2.1 q.2.2
          | none => 0
        if k.cap < n then s.raise c x 0x06
        else if k.vec.clearing || decide (8 ≤ (k.vec.queue.filter (fun i => !i.started)).length) then
          s.waitFor c x .tileQueue
        else s.pay c x n (fun s =>
          let r := s.ticket c
          let i := vAccept t x r.1 (k.ctx x) (s.ctx (k.ctx x)).gen (s.loftAddr c 0x300000) op w d
          let s := r.2.updVec c (fun v => { v with queue := v.queue ++ [i] })
          let s := if op.toScalar then s.updSt c x (fun t => t.await (iD w) r.1) else s
          s.retire c x)))

end Sys2Proof.Machine
end

