-- ==== Sys2Proof/Machine/Ldst.lean ====
section
/-! DEFINITION. The LDST instructions (R84, R85, R109, R323, R593) and the return of a scalar load (R78). -/

namespace Sys2Proof.Machine

open Sys2Proof

/-- The value a load of n bytes writes (R84). -/
def ldVal (n : Nat) (signed : Bool) (bs : List Byte) : W64 :=
  if signed then w64 (sx (8 * n) (ofLe bs)) else BitVec.ofNat 64 (ofLe bs)

/-- What the error code of a word of a core's store that was read found (R541): a double-bit error is a fault of that core. The
flag tells whether data comes. The codewords of stacks have the code of R307. -/
def State.eccAt (s : State) (l : Loc) (e : Ecc) : State × Bool :=
  let sram (c : Nat) : State × Bool := match e with
    | .ok => (s, true)
    | .corrected => ({ s with rip := { s.rip with corrected := cnt s.rip.corrected 1 } }, true)
    | .double => (s.coreFault c 0x1004, false)
  match l with
  | .scratch c _ => sram c
  | .loft c _ => sram c
  | .spool c _ => sram c
  | _ => (s, true)

/-- The physical core that holds a byte, when it is in a core's store. -/
def Loc.core : Loc → Option Nat
  | .scratch c _ => some c
  | .loft c _ => some c
  | .spool c _ => some c
  | _ => none

/-- Whether a byte is in a spool. -/
def Loc.isSpool : Loc → Bool
  | .spool _ _ => true
  | _ => false

/-- The exception of a scalar access of n bytes at the sum of a and i, before the transfer context is looked at
(R34, R84, R85, R109, R593). The order carry, ALIGN, ADDR_FAULT is the model's: DESIGN CHOICE, log entry 106. -/
def State.scalarFault (s : State) (a : W64) (i : Int) (n : Nat) : Option Nat :=
  let g := (offAdd a i).toNat
  if offOut (offSum a i) then some 0x02
  else if g % n ≠ 0 then some 0x03
  else if aDev g = 0xFFFF ∨ aSpace g = 15 ∨ badSpaceOff g then some 0x02
  else
    match s.locate g with
    | .bad => some 0x02
    | .ctrl _ => some 0x02
    | _ => if spoolMis g n then some 0x03 else none

/-- Whether n bytes at g are still to be read or written by an earlier vector instruction of stream x of core c, so that an access
to them waits (R103): a load for the writes, a store for both. -/
def State.vecAhead (s : State) (c : Nat) (x : Stream) (store : Bool) (g n : Nat) : Bool :=
  (s.core c).vec.queue.any (fun i => i.x == x
    && (spansMeet (i.memSpans true) [(g, n)] || (store && spansMeet (i.memSpans false) [(g, n)])))

/-- A scalar access to another device leaves, when its context and directory entry let it; its stream waits for the answer
(R86, R593). DESIGN CHOICE, log entry 11. -/
def State.farAccess (s : State) (c : Nat) (x : Stream) (g : Nat) (send : State → State) : State :=
  match s.remoteCheck ((s.core c).ctx x) (aDev g) with
  | some code => s.raise c x code
  | none => (send s).waitFor c x .far

/-- A scalar load of n bytes (R84). A load of the core's own stores delivers at once; one from another core or
from stack memory has its data read now and delivered by its return; one from another device sends a request. -/
def State.load (s : State) (c : Nat) (x : Stream) (w : InsnW) (e : Ecc) (n : Nat) (signed : Bool) : State :=
  s.issue c x w (fmtM w) [] (fun s =>
    let a := ((s.core c).st x).getA (iA w)
    let g := (offAdd a (iImm w)).toNat
    match s.scalarFault a (iImm w) n with
    | some code => s.raise c x code
    | none =>
      if s.vecAhead c x false g n then s
      else if aDev g ≠ s.teth.self then
        s.farAccess c x g (fun s => (s.remoteRead (.load c x (iD w) n signed) ((s.core c).ctx x) g n).1)
      else
        let l := s.locate g
        let ec := s.eccAt l e
        if l.core = some c then
          if ec.2 then
            let rd := ec.1.readBytes g n
            rd.1.retS c x (iD w) (ldVal n signed rd.2)
          else ec.1
        else
          let r := ec.1.ticket c
          let rd := r.2.readBytes g n
          let s := rd.1.updCore c (fun k => if ec.2 then
            { k with loads := k.loads ++ [{ x, d := iD w, ticket := r.1, v := ldVal n signed rd.2 }] } else k)
          (s.updSt c x (fun t => t.await (iD w) r.1)).retire c x)

/-- A scalar store of n bytes (R84). A store on the package is visible at once. -/
def State.store (s : State) (c : Nat) (x : Stream) (w : InsnW) (n : Nat) : State :=
  s.issue c x w (fmtM w) [iD w] (fun s =>
    let t := (s.core c).st x
    let a := t.getA (iA w)
    let g := (offAdd a (iImm w)).toNat
    let bs : List PByte := (leBytes n (t.getS (iD w)).toNat).map (fun b => (b, false))
    match s.scalarFault a (iImm w) n with
    | some code => s.raise c x code
    | none =>
      if s.vecAhead c x true g n then s
      else if aDev g ≠ s.teth.self then
        s.farAccess c x g (fun s => (s.remoteWrite (.store c x) ((s.core c).ctx x) g bs).1)
      else
        let r := s.writeMem {} g bs
        if r.2 then r.1.retire c x else s.raise c x 0x02)

/-- LD8U (R84). -/
def execLd8u (c : Nat) (x : Stream) (w : InsnW) (e : Ecc) (s : State) : Host.Outcome State Fault Refusal :=
  .next (s.coreAccess c (fun s => s.load c x w e 1 false))
/-- LD16U (R84). -/
def execLd16u (c : Nat) (x : Stream) (w : InsnW) (e : Ecc) (s : State) : Host.Outcome State Fault Refusal :=
  .next (s.coreAccess c (fun s => s.load c x w e 2 false))
/-- LD32U (R84). -/
def execLd32u (c : Nat) (x : Stream) (w : InsnW) (e : Ecc) (s : State) : Host.Outcome State Fault Refusal :=
  .next (s.coreAccess c (fun s => s.load c x w e 4 false))
/-- LD64 (R84). -/
def execLd64 (c : Nat) (x : Stream) (w : InsnW) (e : Ecc) (s : State) : Host.Outcome State Fault Refusal :=
  .next (s.coreAccess c (fun s => s.load c x w e 8 false))
/-- LD8S (R84). -/
def execLd8s (c : Nat) (x : Stream) (w : InsnW) (e : Ecc) (s : State) : Host.Outcome State Fault Refusal :=
  .next (s.coreAccess c (fun s => s.load c x w e 1 true))
/-- LD16S (R84). -/
def execLd16s (c : Nat) (x : Stream) (w : InsnW) (e : Ecc) (s : State) : Host.Outcome State Fault Refusal :=
  .next (s.coreAccess c (fun s => s.load c x w e 2 true))
/-- LD32S (R84). -/
def execLd32s (c : Nat) (x : Stream) (w : InsnW) (e : Ecc) (s : State) : Host.Outcome State Fault Refusal :=
  .next (s.coreAccess c (fun s => s.load c x w e 4 true))
/-- ST8 (R84). -/
def execSt8 (c : Nat) (x : Stream) (w : InsnW) (s : State) : Host.Outcome State Fault Refusal :=
  .next (s.coreAccess c (fun s => s.store c x w 1))
/-- ST16 (R84). -/
def execSt16 (c : Nat) (x : Stream) (w : InsnW) (s : State) : Host.Outcome State Fault Refusal :=
  .next (s.coreAccess c (fun s => s.store c x w 2))
/-- ST32 (R84). -/
def execSt32 (c : Nat) (x : Stream) (w : InsnW) (s : State) : Host.Outcome State Fault Refusal :=
  .next (s.coreAccess c (fun s => s.store c x w 4))
/-- ST64 (R84). -/
def execSt64 (c : Nat) (x : Stream) (w : InsnW) (s : State) : Host.Outcome State Fault Refusal :=
  .next (s.coreAccess c (fun s => s.store c x w 8))

/-- SCALAR_LOAD_RETURN (R78): load k of core c delivers its data. -/
def execScalarLoadReturn (c k : Nat) (s : State) : Host.Outcome State Fault Refusal :=
  .next (match (s.core c).loads[k]? with
    | none => s
    | some l =>
      (s.updCore c (fun q => { q with loads := q.loads.eraseIdx k })).updSt c l.x
        (fun t => t.deliver l.d l.ticket l.v))

end Sys2Proof.Machine
end

