-- ==== Sys2Proof/Machine/Seq.lean ====
section
/-! DEFINITION. The sequencer's window registers (R111 to R116). -/

namespace Sys2Proof.Machine

open Sys2Proof

/-- What a write of v to SEQ_CTRL does to the stream whose START is bit i and whose STOP is bit i + 2; a
commit may hold the start back (R488). -/
def StreamSt.ctrl (hold : Bool) (t : StreamSt) (i v : Nat) : StreamSt :=
  if bit (i + 2) v then { t.stop with startReq := false }
  else if bit i v then
    (if hold then { t with startReq := t.startReq || t.state == .halted || t.state == .exception } else t.start)
  else t

/-- A write to SEQ_CTRL (R111). -/
def Core.seqCtrl (k : Core) (v : Nat) : Core :=
  { k with haltBoth := bit 7 v, sa := k.sa.ctrl k.startHold 0 v, sb := k.sb.ctrl k.startHold 1 v }

/-- A write to SEQ_PC_x (R113, R114). -/
def Core.seqPc (k : Core) (x : Stream) (v : Nat) : Core :=
  match (k.st x).state with
  | .running => { k with wrIgn := true }
  | .waiting => { k with wrIgn := true }
  | _ => k.setSt x { k.st x with pc := fld 21 3 v * 8 }

/-- A write to SEQ_CTX (R114). -/
def Core.seqCtx (k : Core) (v : Nat) : Core := { k with ctxA := fld 11 0 v, ctxB := fld 27 16 v }

/-- A write to SEQ_ARB (R102, R114): a weight of 0 stores 1. -/
def Core.seqArb (k : Core) (v : Nat) : Core :=
  { k with arbFirst := bit 8 v, wb := Nat.max 1 (fld 7 4 v), wa := Nat.max 1 (fld 3 0 v) }

/-- A write to SEQ_CREDIT_CAP (R115). -/
def Core.seqCap (k : Core) (v : Nat) : Core :=
  if v < k.credit then { k with cap := v, credit := v, lost := cnt k.lost (k.credit - v) } else { k with cap := v }

/-- A write to SEQ_COST_k (R115). -/
def Core.seqCost (k : Core) (i v : Nat) : Core := { k with cost := sset 0 k.cost i (BitVec.ofNat 32 v) }

/-- A write to SEQ_REELr_RING (R113, R116). HEAD and TAIL stay as they are: DESIGN CHOICE, log entry 106. -/
def Core.seqRing (k : Core) (r v : Nat) : Core :=
  let q := k.reel r
  if q.pending ≠ 0 then { k with wrIgn := true }
  else k.setReel r { q with sizeM1 := fld 31 24 v, base := fld 21 6 v }

/-- A write to SEQ_REELr_RESUME (R96, R116): FLUSH before SKIP. FLUSH keeps ERR_IDX, SKIP clears it, and SKIP has no effect while
STOPPED is 0: DESIGN CHOICE, log entry 106. -/
def Core.seqResume (k : Core) (r v : Nat) : Core :=
  let q := k.reel r
  if bit 1 v then
    k.setReel r { q with head := q.tail, pending := 0, err := 0, stopped := false, prog := [],
                         owners := [], waitCost := 0, gone := q.gone + q.pending }
  else if bit 0 v ∧ q.stopped then
    k.setReel r { q with head := (q.head + 1) % (q.sizeM1 + 1), pending := q.pending - 1, err := 0, errIdx := 0,
                         stopped := false, owners := q.owners.drop 1, gone := q.gone + 1 }
  else k

/-- The guards of the descriptors in progress on a reel (R319). -/
def Reel.guards (q : Reel) : List Nat := q.prog.filterMap (·.guard)

/-- The guards of descriptors whose copy will not complete end. -/
def State.endProgGuards (s : State) (c r : Nat) : State := s.endGuards c ((s.core c).reel r).guards

/-- START_A (R111). -/
def execStartA (c : Nat) (v : W32) (s : State) : Host.Outcome State Fault Refusal :=
  .next (if bit 0 v.toNat then s.coreWrite c (fun k => k.seqCtrl v.toNat) else s)
/-- START_B (R111). -/
def execStartB (c : Nat) (v : W32) (s : State) : Host.Outcome State Fault Refusal :=
  .next (if bit 1 v.toNat then s.coreWrite c (fun k => k.seqCtrl v.toNat) else s)
/-- STOP_A (R111). -/
def execStopA (c : Nat) (v : W32) (s : State) : Host.Outcome State Fault Refusal :=
  .next (if bit 2 v.toNat then s.coreWrite c (fun k => k.seqCtrl v.toNat) else s)
/-- STOP_B (R111). -/
def execStopB (c : Nat) (v : W32) (s : State) : Host.Outcome State Fault Refusal :=
  .next (if bit 3 v.toNat then s.coreWrite c (fun k => k.seqCtrl v.toNat) else s)
/-- SEQ_PC_WRITE (R113, R114). -/
def execSeqPcWrite (c : Nat) (x : Stream) (v : W32) (s : State) : Host.Outcome State Fault Refusal :=
  .next (s.coreWrite c (fun k => k.seqPc x v.toNat))
/-- SEQ_REEL_RING_WRITE (R113, R116). -/
def execSeqReelRingWrite (c r : Nat) (v : W32) (s : State) : Host.Outcome State Fault Refusal :=
  .next (if r < 2 then s.coreWrite c (fun k => k.seqRing r v.toNat) else s)
/-- SEQ_CREDIT_CAP_WRITE (R115). -/
def execSeqCreditCapWrite (c : Nat) (v : W32) (s : State) : Host.Outcome State Fault Refusal :=
  .next (s.coreWrite c (fun k => k.seqCap v.toNat))
/-- SEQ_ARB_WRITE (R102, R114). -/
def execSeqArbWrite (c : Nat) (v : W32) (s : State) : Host.Outcome State Fault Refusal :=
  .next (s.coreWrite c (fun k => k.seqArb v.toNat))
/-- A write to SEQ_REELr_RESUME, with the guards of discarded copies. -/
def State.reelResume (s : State) (c r v : Nat) : State :=
  if s.coreWin c ∧ r < 2 then
    (if bit 1 v then s.endProgGuards c r else s).coreWrite c (fun k => k.seqResume r v)
  else s
/-- REEL_RESUME_FLUSH (R116). -/
def execReelResumeFlush (c r : Nat) (v : W32) (s : State) : Host.Outcome State Fault Refusal :=
  .next (if bit 1 v.toNat then s.reelResume c r v.toNat else s)
/-- REEL_RESUME_SKIP (R96, R116). -/
def execReelResumeSkip (c r : Nat) (v : W32) (s : State) : Host.Outcome State Fault Refusal :=
  .next (if bit 0 v.toNat then s.reelResume c r v.toNat else s)

end Sys2Proof.Machine
end

