-- ==== Sys2Proof/Machine/Reel.lean ====
section
/-! DEFINITION. The reels (R93 to R96, R98, R116, R593) and guarded prefetch (R319 to R324). -/

namespace Sys2Proof.Machine

open Sys2Proof

/-! ### REEL instructions (R94) -/

/-- REEL.GO (R94, R116). BAD_DESC comes before REEL_FULL when both apply: DESIGN CHOICE, log entry 106. -/
def execReelGo (c : Nat) (x : Stream) (w : InsnW) (s : State) : Host.Outcome State Fault Refusal :=
  let n := iw w 8 0
  .next (s.issue c x w (fmtJ w && iw w 31 17 == 0 && iw w 15 9 == 0 && decide (1 ≤ n) && decide (n ≤ 256)) []
    (fun s =>
      let r := iw w 16 16
      let k := s.core c
      let q := k.reel r
      let size := q.sizeM1 + 1
      if q.base * 64 + 64 * size > 0x400000 then s.raise c x 0x05
      else if q.pending + n > size then s.raise c x 0x07
      else
        (s.updCore c (fun k => k.setReel r { q with tail := (q.tail + n) % size, pending := q.pending + n,
                                                    owners := q.owners ++ List.replicate n x })).retire c x))

/-- SEQ_REELr_HEAD (R116). -/
def Reel.headWord (q : Reel) : Nat := q.pending * 0x10000 + q.tail * 0x100 + q.head
/-- SEQ_REELr_STAT (R116). -/
def Reel.statWord (q : Reel) : Nat := q.err * 0x1000000 + q.errIdx * 0x10000 + b2n q.stopped
/-- SEQ_REELr_RING (R116). -/
def Reel.ringWord (q : Reel) : Nat := q.sizeM1 * 0x1000000 + q.base * 64

/-- REEL.STAT (R94). -/
def execReelStat (c : Nat) (x : Stream) (w : InsnW) (s : State) : Host.Outcome State Fault Refusal :=
  .next (s.issue c x w (fmtI w && iA w == 0 && iw w 31 17 == 0 && iw w 15 0 == 0) []
    (fun s => s.retS c x (iD w) (BitVec.ofNat 64 ((s.core c).reel (iw w 16 16)).headWord)))

/-! ### The descriptor (R93) -/

/-- A reel descriptor's fields (R93). -/
structure RDesc where
  src : Nat
  dst : Nat
  len : Nat
  rows : Nat
  ss : Nat
  ds : Nat
  knotEn : Bool
  knot : Nat
  ctx : Nat
  op : Nat
  ev : Bool

/-- The fields that 64 bytes give. -/
def rdesc (b : List Byte) : RDesc :=
  let kw := leAt b 32 4
  { src := leAt b 0 8, dst := leAt b 8 8, len := leAt b 16 4, rows := leAt b 20 4, ss := leAt b 24 4,
    ds := leAt b 28 4, knotEn := bit 31 kw, knot := kw % 2 ^ 18, ctx := leAt b 36 2 % 4096, op := leAt b 38 1,
    ev := bit 0 (leAt b 39 1) }

/-- Whether a descriptor breaks R93 or R343. -/
def rdescBad (b : List Byte) : Bool :=
  let d := rdesc b
  decide (3 < d.op) || leAt b 39 1 / 2 != 0 || fld 30 18 (leAt b 32 4) != 0 || leAt b 36 2 / 4096 != 0
    || !(zeros b 40 24) || decide (d.len < 4) || d.len % 4 != 0 || d.rows == 0 || decide (16777216 < d.rows)
    || d.ss % 4 != 0 || d.ds % 4 != 0 || d.dst % 4 != 0
    || (if d.op = 2 then d.src / 2 ^ 32 != 0 else d.src % 4 != 0) || (d.op == 3 && d.len != 64)

/-- The address i bytes after a, when its offset stays in 44 bits (R34). -/
def addr44 (a i : Nat) : Option Nat := if 2 ^ 44 ≤ aOff a + i then none else some (a + i)

/-- The check of one end of a descriptor at its start (R593). -/
def State.endCheck (s : State) (a ctx : Nat) : Option Nat :=
  if aDev a = 0xFFFF ∨ badSpaceOff a then some 0x02
  else if aDev a ≠ s.teth.self then s.remoteCheck ctx (aDev a)
  else
    match s.locate a with
    | .bad => some 0x02
    | .ctrl _ => some 0x02
    | _ => none

/-- The first check that a descriptor fails at its start (R93, R343, R378, R593), before its charge. -/
def State.rdescCheck (s : State) (c : Nat) (b : List Byte) : Option Nat :=
  let d := rdesc b
  if rdescBad b then some 0x05
  else
    let ends : Option Nat :=
      if d.op = 3 then
        if aDev d.dst ≠ s.teth.self ∨ aSpace d.dst ≠ 0 then some 0x02
        else (s.endCheck d.src d.ctx).or (s.endCheck d.dst d.ctx)
      else (if d.op = 2 then none else s.endCheck d.src d.ctx).or (s.endCheck d.dst d.ctx)
    match ends with
    | some code => some code
    | none => if d.knotEn then s.knotCheck .arrive d.knot (some (s.logNum c)) else none

/-- Whether a descriptor has an end on another device. -/
def State.rdescRemote (s : State) (d : RDesc) : Bool :=
  (d.op ≠ 2 && aDev d.src ≠ s.teth.self) || aDev d.dst ≠ s.teth.self

/-- The cost of a descriptor (R98). -/
def State.rdescCost (s : State) (c : Nat) (d : RDesc) : Nat :=
  if d.op = 3 then (s.core c).cost' 14 d.rows 1
  else (s.core c).cost' (if s.rdescRemote d then 13 else 12) (d.len * d.rows) 4096

/-! ### Guards (R319 to R321) -/

/-- The blocks that a guarded prefetch reads get watch ranges (R320, R321). -/
def State.watchBlocks (s : State) (c g : Nat) : List Nat → State
  | [] => s
  | a :: t =>
    let s := match s.locate a with
      | .stack st l => s.watchBlock st c g (l / 256)
      | _ => s
    s.watchBlocks c g t

/-- The addresses of the blocks that n rows of a descriptor read. -/
def srcBlocks (d : RDesc) : Nat → List Nat
  | 0 => []
  | n + 1 => srcBlocks d n ++ ((blkChunks (d.len / 256 + 2) (d.src + n * d.ss) d.len 0).map (·.1))

/-- The first guard number that is free. -/
def freeGuard (k : Core) : Nat := ((List.range 32).find? (fun i => !(k.guards.any (fun p => p.1 == i)))).getD 0

/-- A guard is allocated for a descriptor (R319), and its reads are watched. -/
def State.addGuard (s : State) (c r idx : Nat) (b : List Byte) : State × Nat :=
  let d := rdesc b
  let s := match (s.core c).guards with
    | (g, _) :: _ => if 32 ≤ (s.core c).guards.length then s.endGuard c g else s
    | [] => s
  let g := freeGuard (s.core c)
  let q : Guard := { uid := (s.core c).nextGuard, base := d.dst, last := d.dst + (d.rows - 1) * d.ds + d.len - 1, reel := r, ringIdx := idx, desc := b }
  let s := s.updCore c (fun k => { k with guards := k.guards ++ [(g, q)], nextGuard := k.nextGuard + 1 })
  (s.watchBlocks c g (srcBlocks d d.rows), g)

/-! ### Start (R95, R96, R98) -/

/-- Whether R34 refuses a row of n bytes at a row address, or R109 does: its code, or 0. -/
def rowCode (a : Option Nat) (n : Nat) : Nat :=
  match a with
  | none => 0x02
  | some a =>
    if 2 ^ 44 < aOff a + n ∨ badSpaceOff a ∨ badSpaceOff (a + n - 1) ∨ aSpace a = 15 then 0x02
    else if spoolMis a n then 0x03 else 0

/-- The rows of a descriptor before the first whose remote source address is refused (R34, R109). -/
def goodRows (d : RDesc) : Nat → Nat → Nat
  | 0, i => i
  | n + 1, i => if rowCode (addr44 d.src (i * d.ss)) d.len = 0 then goodRows d n (i + 1) else i

/-- The requests of n rows that are read from another device. -/
def State.rowReads (s : State) (c r : Nat) (d : RDesc) : Nat → State × List Nat
  | 0 => (s, [])
  | n + 1 =>
    let p := s.rowReads c r d n
    let q := p.1.remoteRead (.reel c r) d.ctx (d.src + n * d.ss) d.len
    (q.1, p.2 ++ q.2)

/-- A reel of core c changed. -/
def State.updReel (s : State) (c r : Nat) (f : Reel → Reel) : State :=
  s.updCore c (fun k => k.setReel r (f (k.reel r)))

/-- Whether reel r of core c can start a descriptor (R95, R96). -/
def State.reelCanStart (s : State) (c r : Nat) : Bool :=
  let q := (s.core c).reel r
  decide (r < 2) && s.coreRuns c && !q.stopped && decide (q.prog.length < 4) && decide (q.prog.length < q.pending)
    && q.prog.all (fun p => p.code == 0)

/-- REEL_DESC_START (R95, R96, R98, R319): a descriptor that fails a check is recorded with its code. -/
def execReelDescStart (c r : Nat) (s : State) : Host.Outcome State Fault Refusal :=
  .next (s.coreAccess c (fun s =>
    if !s.reelCanStart c r then s
    else
      let k := s.core c
      let q := k.reel r
      let idx := (q.head + q.prog.length) % (q.sizeM1 + 1)
      let s := s.scrRead c (q.base * 64 + 64 * idx) 64
      let b := k.scr (q.base * 64 + 64 * idx) 64
      let d := rdesc b
      let owner := q.owners.getD q.prog.length .a
      let add (s : State) (p : ReelProg) : State :=
        s.updReel c r (fun q => { q with prog := q.prog ++ [{ p with gen := (s.ctx d.ctx).gen }], waitCost := 0 })
      match s.rdescCheck c b with
      | some code => add s { idx, owner, desc := b, code }
      | none =>
        let n := s.rdescCost c d
        if k.cap < n then add s { idx, owner, desc := b, code := 0x06 }
        else if k.credit < n then s.updReel c r (fun q => { q with waitCost := n })
        else
          let s := s.updCore c (fun k => k.charge n)
          if d.op = 1 then
            if aDev d.src = s.teth.self ∧ aSpace d.src = 0 then
              let g := s.addGuard c r idx b
              add g.1 { idx, owner, desc := b, guard := some g.2 }
            else
              let s := s.event 0x21 (s.logNum c) (r * 0x10000 + idx)
              if aDev d.src ≠ s.teth.self then
                let p := s.rowReads c r d (goodRows d d.rows 0)
                add p.1 { idx, owner, desc := b, reqs := p.2 }
              else add s { idx, owner, desc := b }
          else if (d.op = 0 ∨ d.op = 3) ∧ aDev d.src ≠ s.teth.self then
            let p := s.rowReads c r d (goodRows d d.rows 0)
            add p.1 { idx, owner, desc := b, reqs := p.2 }
          else add s { idx, owner, desc := b }))

/-! ### Moving the data -/

/-- Row data for one row: the bytes, or the code of the failure. -/
def State.rowRead (s : State) (d : RDesc) (far : List PByte) (i : Nat) : State × Except Nat (List PByte) :=
  if d.op = 2 then (s, .ok ((List.range d.len).map (fun j => (BitVec.ofNat 8 (d.src >>> (8 * (j % 4))), false))))
  else
    let a := addr44 d.src (i * d.ss)
    let f := rowCode a d.len
    if f ≠ 0 then (s, .error f)
    else if aDev d.src ≠ s.teth.self then (s, .ok ((far.drop (i * d.len)).take d.len))
    else
      let r := s.readMem (a.getD 0) d.len
      (r.1, if r.2.2 then .error 0x02 else .ok r.2.1)

/-- Rows i on are moved, n of them: the code of the failure or 0, and the requests of remote writes. A remote write within a context
that has closed or begun to since generation `gen` fails with CTX_FAULT (R423). -/
def State.rowsMove (s : State) (c r gen : Nat) (d : RDesc) (w : Acc) (far : List PByte) :
    Nat → Nat → State × Nat × List Nat
  | _, 0 => (s, 0, [])
  | i, n + 1 =>
    let rd := s.rowRead d far i
    match rd.2 with
    | .error code => (rd.1, code, [])
    | .ok bs =>
      let a := addr44 d.dst (i * d.ds)
      let f := rowCode a d.len
      if f ≠ 0 then (rd.1, f, [])
      else if aDev d.dst ≠ s.teth.self then
        if !(s.ctxLive d.ctx gen) then (rd.1, 0x09, [])
        else
          let q := rd.1.remoteWrite (.reel c r) d.ctx (a.getD 0) bs
          let t := q.1.rowsMove c r gen d w far (i + 1) n
          (t.1, t.2.1, q.2 ++ t.2.2)
      else
        let q := rd.1.writeMem w (a.getD 0) bs
        if q.2 then q.1.rowsMove c r gen d w far (i + 1) n else (q.1, 0x02, [])

/-! ### Completion and failure (R95, R96) -/

/-- The completion arrive of a descriptor (R95, R96): an arrive on a counter adds 1. -/
def State.reelArrive (s : State) (c : Nat) (d : RDesc) (err : Bool) : State :=
  if d.knotEn then
    s.sendKnot { who := .reel c, op := .arrive, knot := d.knot, arg := 1, err, node := c, agent := 0 }
  else s

/-- The first descriptor in progress completes (R95). -/
def State.reelFinish (s : State) (c r : Nat) (p : ReelProg) : State :=
  let d := rdesc p.desc
  let s := s.updReel c r (fun q => { q with head := (q.head + 1) % (q.sizeM1 + 1), pending := q.pending - 1,
                                            prog := q.prog.drop 1, owners := q.owners.drop 1, gone := q.gone + 1 })
  let done (g : Nat × Guard) : Nat × Guard :=
    if p.guard = some g.1 then (g.1, { g.2 with first := false, copying := g.2.copying || g.2.stale }) else g
  let s := s.updCore c (fun k => { k with stallTicks := 0, idleTicks := 0, guards := k.guards.map done })
  let s := s.reelArrive c d false
  if d.ev then s.event 0x03 (s.logNum c) (r * 0x10000 + p.idx) else s

/-- The first descriptor in progress is marked with a code (R96). -/
def State.reelMark (s : State) (c r code : Nat) : State :=
  s.updReel c r (fun q => match q.prog with
    | p :: t => { q with prog := { p with code } :: t }
    | [] => q)

/-- The bytes that the requests of a descriptor brought, in order. -/
def farBytes (l : List Req) : List PByte := l.flatMap (fun q => q.data.zip q.poison)

/-- The code that answered requests give: ADDR_FAULT for a refusal, CTX_FAULT for a closed context (R407,
R423). -/
def reqFault (l : List Req) : Nat := ((l.find? (fun q => q.fault ≠ 0)).map (·.fault)).getD 0

/-- REEL_DESC_COMPLETE (R95): the first descriptor in progress moves its data, or completes once every remote
write is acknowledged or every segment applied. `e` is what the error code of its first source word found. -/
def execReelDescComplete (c r : Nat) (e : Ecc) (s : State) : Host.Outcome State Fault Refusal :=
  .next (s.coreAccess c (fun s =>
    if !(decide (r < 2) && s.coreRuns c) then s
    else
      match ((s.core c).reel r).prog with
      | [] => s
      | p :: _ =>
        let d := rdesc p.desc
        let rq := s.reqsOf p.reqs
        if p.code ≠ 0 ∨ rq.any (fun q => !q.done) then s
        else if d.op = 3 then
          if p.segs = d.rows ∧ p.segIds = [] then (s.dropReqs p.reqs).reelFinish c r p else s
        else if reqFault rq ≠ 0 then (s.dropReqs p.reqs).reelMark c r (reqFault rq)
        else if p.moved then (s.dropReqs p.reqs).reelFinish c r p
        else
          let ec := if d.op = 2 then (s, true) else s.eccAt (s.locate d.src) e
          if !ec.2 then ec.1
          else
            let s := ec.1.dropReqs p.reqs
            let w : Acc := { copy := p.guard.map (fun g => (c, g)) }
            let m := s.rowsMove c r p.gen d w (farBytes rq) 0 d.rows
            if m.2.1 ≠ 0 then m.1.reelMark c r m.2.1
            else if m.2.2.isEmpty then m.1.reelFinish c r p
            else m.1.updReel c r (fun q => { q with prog := { p with moved := true, reqs := m.2.2 } :: q.prog.drop 1 })))

/-- REEL_DESC_FAIL (R96): the first descriptor in progress has failed, so the reel stops, and the descriptors
after it stay pending. -/
def execReelDescFail (c r : Nat) (s : State) : Host.Outcome State Fault Refusal :=
  .next (
    match ((s.core c).reel r).prog with
    | [] => s
    | p :: _ =>
      if !(decide (r < 2) && s.coreRuns c) || p.code == 0 then s
      else
        let d := rdesc p.desc
        let s := s.endProgGuards c r
        let s := s.updReel c r (fun q => { q with err := p.code, errIdx := p.idx, stopped := true, prog := [], waitCost := 0 })
        let s := s.event 0x04 (s.logNum c) (r * 0x10000 + p.code * 0x100 + p.idx)
        if (s.knotCheck .arrive d.knot (some (s.logNum c))).isNone then s.reelArrive c d true else s)

/-! ### Notices and re-copies (R322, R323) -/

/-- STALE_NOTICE (R322): notice k reaches its core. A notice for a guard that has ended, or is UNWATCHED, is
ignored. -/
def execStaleNotice (k : Nat) (s : State) : Host.Outcome State Fault Refusal :=
  .next (match s.stale[k]? with
    | none => s
    | some n => ({ s with stale := s.stale.eraseIdx k } : State).tellStale [n])

/-- One guard of a core changed. -/
def State.updGuard (s : State) (c g : Nat) (f : Guard → Guard) : State :=
  s.updCore c (fun k => { k with guards := k.guards.map (fun p => if p.1 = g then (p.1, f p.2) else p) })

/-- The re-copy of guard q, number g, of core c is made (R323): without a notice since it began the guard is clean, otherwise
it runs again, at most 8 times in succession. -/
def State.recopied (s : State) (c g : Nat) (q : Guard) : State :=
  let d := rdesc q.desc
  let s := s.watchBlocks c g (srcBlocks d d.rows)
  let s := (s.rowsMove c q.reel (s.ctx d.ctx).gen d { copy := some (c, g) } [] 0 d.rows).1
  if !q.again then s.updGuard c g (fun q => { q with stale := false, copying := false, recopies := 0 })
  else if 7 ≤ q.recopies then (s.endGuard c g).event 0x21 (s.logNum c) (q.reel * 0x10000 + q.ringIdx)
  else s.updGuard c g (fun q => { q with again := false, recopies := q.recopies + 1 })

/-- GUARD_RECOPY_DONE (R323): a re-copy completes. -/
def execGuardRecopyDone (c guard : Nat) (s : State) : Host.Outcome State Fault Refusal :=
  .next (s.coreAccess c (fun s => match (s.core c).guards.find? (fun p => p.1 == guard) with
    | none => s
    | some (g, q) => if !q.copying || q.first || !s.coreRuns c then s else s.recopied c g q))

end Sys2Proof.Machine
end

