-- ==== Sys2Proof/Machine/Bal.lean ====
section
/-! DEFINITION. The ballast engine's commands: LOAD (R339, R340), the segments (R342 to R351), the update of a piece of a
chunk record (R352 to R356), snapshots (R357 to R360) and the registers (R364, R365). -/

namespace Sys2Proof.Machine

open Sys2Proof

/-! ### Registers (R364 to R366) -/

/-- Whether a segment is queued or in progress at the engine. -/
def BalSt.hasSegs (b : BalSt) : Bool := !(b.input.isEmpty) || !(b.prog.isEmpty)
/-- BAL_STATUS.STATE. -/
def BalSt.stateNum (b : BalSt) : Nat := match b.state with
  | .idle => 0
  | .apply => 1
  | .skip => 2
/-- BAL_STATUS (R364). -/
def BalSt.statusWord (b : BalSt) : Nat :=
  flag 8 b.wrIgn + flag 7 b.strictHit + flag 6 b.poison + flag 5 b.nonfinite + flag 4 b.segErr + flag 3 b.loadErr
    + flag 2 b.loaded + b.stateNum
/-- A write to BAL_STATUS: when SEG_ERR and LOAD_ERR are both cleared, BAL_ERR_LOG holds no failure (R364). -/
def BalSt.statusClear (b : BalSt) (v : Nat) : BalSt :=
  let b := { b with wrIgn := b.wrIgn && !(bit 8 v), strictHit := b.strictHit && !(bit 7 v), poison := b.poison && !(bit 6 v),
                    nonfinite := b.nonfinite && !(bit 5 v), segErr := b.segErr && !(bit 4 v),
                    loadErr := b.loadErr && !(bit 3 v) }
  if b.segErr || b.loadErr then b else { b with errCode := 0, errGroup := 0 }
/-- BAL_ERR_LOG (R364). -/
def BalSt.logWord (b : BalSt) : Nat := b.errCode * 0x1000000 + b.errGroup * 0x1000
/-- Whether a snapshot map at a BASE lies wholly below 48 GiB of the stack, which BAL_SNAP_MAP.VALID says of the BASE
written last (R365; log entry 98). -/
def mapFits (base : Nat) : Bool := decide (base * 65536 + 25165824 ≤ stackLocalEnd)
/-- BAL_SNAP_MAP. -/
def BalSt.mapWord (b : BalSt) : Nat := flag 31 b.mapOk + b.mapBase
/-- BAL_SNAP_STATUS. -/
def BalSt.snapWord (b : BalSt) : Nat := flag 3 b.parity + flag 2 b.done + flag 1 b.active + flag 0 b.armed
/-- The first failure is recorded (R364). -/
def BalSt.logErr (b : BalSt) (code group : Nat) : BalSt :=
  if b.segErr || b.loadErr then b else { b with errCode := code, errGroup := group }

/-- BAL_STEP_WRITE (R365). -/
def execBalStepWrite (st : Nat) (v : W32) (s : State) : Host.Outcome State Fault Refusal :=
  .next (
    if !(s.stkWin st) then s
    else s.updBal st (fun b =>
      if b.state ≠ .idle ∨ b.hasSegs ∨ b.armed ∨ b.active then { b with wrIgn := true } else { b with step := v.toNat }))

/-- BAL_SNAP_MAP_WRITE (R357, R365). -/
def execBalSnapMapWrite (st : Nat) (v : W32) (s : State) : Host.Outcome State Fault Refusal :=
  .next (
    if !(s.stkWin st) then s
    else s.updBal st (fun b =>
      if b.state ≠ .idle ∨ b.hasSegs ∨ b.armed ∨ b.active then { b with wrIgn := true }
      else { b with mapBase := v.toNat % 2 ^ 20, mapOk := mapFits (v.toNat % 2 ^ 20), parity := false }))

/-- ARM (R358). -/
def execArm (st : Nat) (v : W32) (s : State) : Host.Outcome State Fault Refusal :=
  .next (
    if !(s.stkWin st) || !(bit 0 v.toNat) then s
    else s.updBal st (fun b =>
      if !b.mapOk || b.armed || b.active || b.hasSegs then { b with wrIgn := true } else { b with armed := true }))

/-! ### LOAD (R339, R340) -/

/-- LOAD (R340). -/
def execLoad (st : Nat) (v : W32) (s : State) : Host.Outcome State Fault Refusal :=
  .next (
    if !(s.stkWin st) || !(bit 0 v.toNat) then s
    else s.updBal st (fun b =>
      if b.hasSegs || b.armed || b.active then { b with wrIgn := true } else { b with loading := true, loadAt := b.table }))

/-- Whether every byte from lo to hi of space 0x0 lies in a region of the interleave frame in force, crossing at most n
regions. -/
def State.inRegions (s : State) (hi : Nat) : Nat → Nat → Bool
  | 0, _ => false
  | n + 1, lo =>
    match s.regionOf lo with
    | none => false
    | some r => if hi ≤ r.base + r.size then true else s.inRegions hi n (r.base + r.size)

/-- Whether n bytes at a global address lie in space 0x0 of this device, in the regions in force. -/
def State.ownSpan (s : State) (a n : Nat) : Bool :=
  aDev a == s.teth.self && aSpace a == 0 && decide (aOff a + n ≤ stackEnd)
    && s.inRegions (aOff a + n) (s.regions.length + 1) (aOff a)

/-- BAL_LOAD_DONE (R339): the tables at the address that BAL_TABLE named at the LOAD are read and checked. -/
def execBalLoadDone (st : Nat) (s : State) : Host.Outcome State Fault Refusal :=
  .next (s.access (.ballast st) none (fun s =>
    let b := (s.stk st).bal
    if !(decide (st < 16)) || !b.loading then s
    else
      let bad (code g : Nat) (s : State) : State :=
        s.updBal st (fun b => { b.logErr code g with loadErr := true, loading := false })
      if !(s.ownSpan b.loadAt balBytes) then bad 0x10 0 s
      else
        let r := s.readBytes b.loadAt balBytes
        let m := mwrite [] 0 r.2
        match r.1.tablesCode m 4096 with
        | some (code, g) => bad code g r.1
        | none => r.1.updBal st (fun b => { b with copy := m, loaded := true, loading := false, state := .idle })))

/-! ### Segments: layout and checks (R342, R344) -/

/-- NR. -/
def segNr (b : List Byte) : Nat := leAt b 12 4
/-- GROUP. -/
def segGroup (b : List Byte) : Nat := leAt b 2 2
/-- C0. -/
def segC0 (b : List Byte) : Nat := leAt b 4 4
/-- NC. -/
def segNc (b : List Byte) : Nat := leAt b 8 4
/-- Bytes of a gradient word. -/
def segGs (b : List Byte) : Nat := if bit 0 (leAt b 1 1) then 2 else 4
/-- Row entry j. -/
def segRow (b : List Byte) (j : Nat) : Nat := if leAt b 0 1 = 2 then leAt b 28 4 + j else leAt b (32 + 4 * j) 4
/-- The address of the gradient of row entry j and the segment's first column. -/
def segGrad (b : List Byte) (j : Nat) : Nat := leAt b 16 8 + j * leAt b 24 4

/-- A reserved field that is nonzero, or an unknown kind: 0x02. -/
def segBadKind (b : List Byte) : Bool :=
  let nr := segNr b
  match leAt b 0 1 with
  | 1 => !(zeros b 1 3) || !(zeros b 8 56)
  | 2 => decide (1 < leAt b 1 1) || decide (4096 ≤ segGroup b) || !(zeros b 32 32)
  | 3 => decide (1 < leAt b 1 1) || decide (4096 ≤ segGroup b) || !(zeros b 28 4)
      || !(zeros b (32 + 4 * Nat.min nr 8) (32 - 4 * Nat.min nr 8))
  | _ => true

/-- A row at or beyond ROWS among the segment's: the rows of a RUN rise, so its last row tells. -/
def segBadRow (b : List Byte) (rows : Nat) : Bool :=
  if leAt b 0 1 = 2 then decide (rows < leAt b 28 4 + segNr b)
  else (List.range (segNr b)).any (fun j => decide (rows ≤ segRow b j))

/-- Whether the gradient bytes of the first n row entries lie in space 0x0 of this device. -/
def State.gradOk (s : State) (b : List Byte) : Nat → Bool
  | 0 => true
  | n + 1 => s.gradOk b n && s.ownSpan (segGrad b n) (segNc b * segGs b)

/-- The code of the first check of R344 that a segment fails at engine st, with its group; or 0.
DEDUCED, log entry 51. -/
def State.segCheck (s : State) (st : Nat) (b : List Byte) : Nat × Nat :=
  let e := (s.stk st).bal
  let g := groupOf e.copy (segGroup b)
  let kind := leAt b 0 1
  let gid := if kind = 1 then 0 else segGroup b % 4096
  let code :=
    if !e.loaded then 0x09
    else if segBadKind b then 0x02
    else if kind = 1 then
      let kp := leAt b 4 4
      if !(isFin pF kp) || !(fLt pF 0 kp) then 0x08
      else if e.watch % 1024 ≠ 0 || !(s.ownSpan e.watch 1024) then 0x0A
      else 0
    else if e.state = .idle then 0x01
    else if !g.valid then 0x03
    else if segNc b < 1 ∨ g.rowLen < segC0 b + segNc b ∨ segNr b < 1 ∨ (kind = 3 ∧ 8 < segNr b) ∨ segBadRow b g.rows then 0x04
    else if (g.k ≠ 0 ∧ (segC0 b % g.k ≠ 0 ∨ segNc b % g.k ≠ 0)) ∨ leAt b 16 8 % segGs b ≠ 0 ∨ leAt b 24 4 % segGs b ≠ 0
      then 0x05
    else if !(s.gradOk b (segNr b)) then 0x06
    else 0
  (code, gid)

/-! ### Snapshot copies (R357, R359) -/

/-- The stack-local address of the map byte for a record at stack-local address a. -/
def BalSt.mapByte (b : BalSt) (a : Nat) : Nat := b.mapBase * 65536 + a / 2048

/-- Whether a record has been copied for the current snapshot. -/
def State.mapped (s : State) (st a : Nat) : State × Bool :=
  let b := (s.stk st).bal
  let r := s.readStk st (b.mapByte a) 1
  (r.1, bit (a / 256 % 8) (ofLe (r.2.map (·.1))) == b.parity)

/-- The bytes of a snapshot array's elements for FP32 parameters. -/
def snapBytes (bf : Bool) : List PByte → List PByte
  | b0 :: b1 :: b2 :: b3 :: t =>
    if bf then
      let q := b0.2 || b1.2 || b2.2 || b3.2
      (leBytes 2 (toB (ofLe [b0.1, b1.1, b2.1, b3.1]))).map (fun b => (b, q)) ++ snapBytes bf t
    else b0 :: b1 :: b2 :: b3 :: snapBytes bf t
  | _ => []

/-- Chunk h of a group, a record at stack-local address a of stack st, is copied to its snapshot array (R359). -/
def State.snapCopy (s : State) (st : Nat) (g : BGroup) (h a : Nat) : State :=
  let r := s.readMem (g.pbase + h * g.recsz) (4 * g.inChunk h)
  let s := (r.1.writeMem {} (g.snapBase + 64 * h * (if g.snapB then 2 else 4)) (snapBytes g.snapB r.2.1)).1
  let b := (s.stk st).bal
  let m := s.readStk st (b.mapByte a) 1
  let v := ofLe (m.2.map (·.1))
  let i := a / 256 % 8
  let v := if bit i v = b.parity then v else v ^^^ 2 ^ i
  (m.1.writeStk st (b.mapByte a) [(BitVec.ofNat 8 v, false)]).updBal st (fun b => { b with snapCopies := cnt b.snapCopies 1 })

/-- Before a write to a record: it is copied when a snapshot still wants it (R359). -/
def State.snapFirst (s : State) (st : Nat) (g : BGroup) (h a : Nat) : State :=
  if (s.stk st).bal.active && g.snap then
    let r := s.mapped st a
    if r.2 then r.1 else r.1.snapCopy st g h a
  else s

/-! ### The update of one piece of a record (R353 to R356) -/

/-- A chunk record: its parameters, its slots and its statistics. -/
structure Rec where
  p : List Byte
  sl : List (List Byte)
  h : List Byte

/-- What an update of a piece counts. -/
structure BCount where
  upd : Nat := 0
  nonf : Nat := 0
  raises : Nat := 0
  sing : Nat := 0

/-- The counts of two pieces together. -/
def BCount.plus (a b : BCount) : BCount :=
  { upd := a.upd + b.upd, nonf := a.nonf + b.nonf, raises := a.raises + b.raises, sing := a.sing + b.sing }

/-- The parameter of element e. -/
def Rec.par (q : Rec) (e : Nat) : Nat := leAt q.p (4 * e) 4
/-- The slots of element e, widened; slots the group has not are 0. -/
def Rec.slots (q : Rec) (g : BGroup) (e : Nat) : List Nat :=
  (List.range 4).map (fun j =>
    if g.slots ≤ j then 0
    else let w := g.slotW j; let v := leAt (q.sl.getD j []) (w * e) w; if g.slotB j then ofB v else v)
/-- Element e is stored. -/
def Rec.store (q : Rec) (g : BGroup) (e p : Nat) (sl : List Nat) : Rec :=
  { q with p := putBytes q.p (4 * e) (leBytes 4 p),
           sl := (List.range g.slots).map (fun j =>
             let v := sl.getD j 0
             putBytes (q.sl.getD j []) (g.slotW j * e) (leBytes (g.slotW j) (if g.slotB j then toB v else v))) }

/-- One element without preconditioner. -/
def BGroup.element (g : BGroup) (v : GVals) (q : Rec) (e gr : Nat) : Rec × BCount :=
  let p := q.par e
  match g.elemNum v p (q.slots g e) gr with
  | none => (q, { nonf := 1 })
  | some n =>
    match g.elemApply v p n.sl n.num with
    | none => (q, { nonf := 1 })
    | some (pn, st) => (q.store g e pn st, { upd := 1 })

/-- Elements e on, one for each gradient word. -/
def BGroup.elements (g : BGroup) (v : GVals) : Rec → Nat → List Nat → Rec × BCount
  | q, _, [] => (q, {})
  | q, e, gr :: t =>
    let r := g.element v q e gr
    let r' := g.elements v r.1 (e + 1) t
    (r'.1, r.2.plus r'.2)

/-- The elements of a block are stored with their updates. -/
def Rec.storeAll (q : Rec) (g : BGroup) (e : Nat) : List (Nat × List Nat) → Rec
  | [] => q
  | (p, sl) :: t => (q.store g e p sl).storeAll g (e + 1) t

/-- All the values of a list of options. -/
def allSome {α : Type} : List (Option α) → Option (List α)
  | [] => some []
  | none :: _ => none
  | some a :: t => (allSome t).map (fun l => a :: l)

/-- One block of the preconditioner, its elements from position e on (R356). -/
def BGroup.blockAt (g : BGroup) (v : GVals) (q : Rec) (e : Nat) (gr : List Nat) : Rec × BCount :=
  let k := g.k
  let nums := (List.range k).map (fun i => g.elemNum v (q.par (e + i)) (q.slots g (e + i)) (gr.getD i 0))
  match allSome nums with
  | none => (q, { nonf := k })
  | some ns =>
    let off := e / k * hBytes k
    let h := (List.range (k * (k + 1) / 2)).map (fun i => leAt q.h (off + 4 * i) 4)
    match g.block v h (ns.map (·.g)) (ns.map (·.num)) with
    | none => (q, { nonf := k })
    | some o =>
      let c : BCount := { raises := o.raises, sing := o.singular }
      let ups := (List.range k).map (fun i =>
        (ns[i]?).bind (fun n => g.elemApply v (q.par (e + i)) n.sl (o.u.getD i 0)))
      match allSome ups with
      | none => (q, { c with nonf := k })
      | some us =>
        let q := q.storeAll g e us
        ({ q with h := putBytes q.h off (o.h.flatMap (leBytes 4)) }, { c with upd := k })

/-- Blocks from position e on, n of them. -/
def BGroup.blocks (g : BGroup) (v : GVals) : Rec → Nat → List Nat → Nat → Rec × BCount
  | q, _, _, 0 => (q, {})
  | q, e, gr, n + 1 =>
    let r := g.blockAt v q e (gr.take g.k)
    let r' := g.blocks v r.1 (e + g.k) (gr.drop g.k) n
    (r'.1, r.2.plus r'.2)

/-- A part of a record is read: its bytes, and whether poison came. -/
def State.recPart (s : State) (a n : Nat) : State × List Byte × Bool :=
  let r := s.readPieces 0xFF (blkCuts a n)
  (r.1, r.2.1.map (·.1), r.2.1.any (·.2) || r.2.2)

/-- The slots of a record are read, j on. -/
def State.recSlots (s : State) (g : BGroup) (a nv : Nat) : Nat → State × List (List Byte) × Bool
  | 0 => (s, [], false)
  | j + 1 =>
    let r := s.recSlots g a nv j
    let q := r.1.recPart (a + g.slotOff j) (g.slotW j * nv)
    (q.1, r.2.1 ++ [q.2.1], r.2.2 || q.2.2)

/-- Slots 0 to j − 1 of the elements e0 to e0 + n − 1 are written. -/
def State.putSlots (s : State) (g : BGroup) (a e0 n : Nat) (q : Rec) : Nat → State
  | 0 => s
  | j + 1 =>
    let w := g.slotW j
    ((s.putSlots g a e0 n q j).writeBytes {} (a + g.slotOff j + w * e0) (slice (q.sl.getD j []) (w * e0) (w * n))).1

/-- A gradient word's FP32 value. -/
def gradWord (gs : Nat) (bs : List PByte) : Nat :=
  if bs.any (·.2) then qnan pF else let v := ofLe (bs.map (·.1)); if gs = 2 then ofB v else v

/-- Gradient words are read: a word that comes poisoned, or cannot be read, is a NaN (R355). DEDUCED, log entry 53. -/
def State.grads (s : State) (a gs n : Nat) : State × List Nat :=
  let r := s.readPieces 0xFF (blkCuts a (n * gs))
  (r.1, (groups gs n r.2.1).map (gradWord gs))

/-- The counts of a piece. -/
def BalSt.count (b : BalSt) (c : BCount) : BalSt :=
  let m := b.elemsRem + c.upd
  { b with elemsK := cnt b.elemsK (m / 1024), elemsRem := m % 1024, nonfiniteN := cnt b.nonfiniteN c.nonf,
           nonfinite := b.nonfinite || decide (0 < c.nonf), dampRaises := cnt b.dampRaises c.raises,
           singular := cnt b.singular c.sing }

/-- Elements e0 to e0 + n − 1 of chunk h are updated in the record's own stack; `ga` is the address of the first gradient
word. The flag says that the chunk was skipped for poison. -/
def State.balPiece (s : State) (st : Nat) (g : BGroup) (v : GVals) (gs ga h e0 n : Nat) : State × Bool :=
  let a := g.pbase + h * g.recsz
  match s.locate a with
  | .stack st' l =>
    if st' ≠ st then (s, false)
    else
      let nv := g.inChunk h
      let rp := s.recPart a (4 * nv)
      let rs := rp.1.recSlots g a nv g.slots
      let rh := if g.k = 0 then (rs.1, [], false) else rs.1.recPart (a + g.hOff) (nv / g.k * hBytes g.k)
      let gr := rh.1.grads ga gs n
      if rp.2.2 || rs.2.2 || rh.2.2 then (gr.1, true)
      else
        let q : Rec := { p := rp.2.1, sl := rs.2.1, h := rh.2.1 }
        let u := if g.k = 0 then g.elements v q e0 gr.2 else g.blocks v q e0 gr.2 (n / g.k)
        let s := gr.1.updBal st (fun b => b.count u.2)
        if u.2.upd = 0 then (s, false)
        else
          let s := s.snapFirst st g h l
          let s := (s.writeBytes {} (a + 4 * e0) (slice u.1.p (4 * e0) (4 * n))).1
          let s := s.putSlots g a e0 n u.1 g.slots
          if g.k = 0 then (s, false)
          else
            let o := e0 / g.k * hBytes g.k
            ((s.writeBytes {} (a + g.hOff + o) (slice u.1.h o (n / g.k * hBytes g.k))).1, false)
  | _ => (s, false)

/-- The n elements from index i on, cut at chunk boundaries. -/
def elPieces : Nat → Nat → Nat → List (Nat × Nat × Nat)
  | 0, _, _ => []
  | fuel + 1, i, n =>
    if n = 0 then []
    else
      let m := Nat.min n (64 - i % 64)
      (i / 64, i % 64, m) :: elPieces fuel (i + m) (n - m)

/-- The pieces of one row entry, and whether one was skipped for poison. -/
def State.balPieces (s : State) (st : Nat) (g : BGroup) (v : GVals) (gs : Nat) : Nat → List (Nat × Nat × Nat) → State × Bool
  | _, [] => (s, false)
  | ga, (h, e0, n) :: t =>
    let r := s.balPiece st g v gs ga h e0 n
    let q := r.1.balPieces st g v gs (ga + n * gs) t
    (q.1, r.2 || q.2)

/-- The first n row entries of a segment are applied in order. -/
def State.balRows (s : State) (st : Nat) (g : BGroup) (v : GVals) (b : List Byte) : Nat → State
  | 0 => s
  | n + 1 =>
    let s := s.balRows st g v b n
    let r := s.balPieces st g v (segGs b) (segGrad b n) (elPieces (segNc b / 64 + 2) (segRow b n * g.rowLen + segC0 b) (segNc b))
    if r.2 then r.1.updBal st (fun e => { e with poisonSkips := cnt e.poisonSkips 1, poison := true }) else r.1

/-! ### Segments at an engine (R345 to R348, R354, R542) -/

/-- An OPEN takes effect at engine st (R347, R358). -/
def BalSt.openStep (e : BalSt) (q : Seg) : BalSt :=
  let e := if e.armed then { e with armed := false, done := false, active := true, parity := !e.parity, sweepGroup := 0,
                                    sweepChunk := 0 } else e
  if bit 0 q.hflags then { e with state := .skip }
  else { e with state := .apply, step := (e.step + 1) % 2 ^ 32, lsPrev := q.lsPrev, kappa := leAt q.bytes 4 4 }

/-- A RUN or LIST is applied at engine st: a residue mismatch (R542) leaves it unapplied, so that it never completes, and the
stack in FAULT. -/
def State.balApply (s : State) (st : Nat) (residue : Bool) (q : Seg) : State :=
  let s := s.updBal st (fun e => { e with prog := e.prog ++ [q] })
  if residue then
    ((s.updBal st (fun e => { e with halted := true })).report (stackCode st 0x2004)).stackFault st
  else
    let e := (s.stk st).bal
    let g := groupOf e.copy (segGroup q.bytes)
    let s := s.updBal st (fun e => { e with segments := cnt e.segments 1 })
    if e.state = .apply ∧ g.valid ∧ g.t0 < e.step then
      s.balRows st g (g.vals (e.step - g.t0) e.lsPrev e.kappa) q.bytes (segNr q.bytes)
    else s

/-- Whether engine st can take a segment into its input queue (R24, R542). DEDUCED, log entry 52. -/
def BalSt.takes (e : BalSt) : Bool := !e.halted && Queue.ballast.credit e.input.length

/-- A segment joins the input queues of some engines. -/
def State.balForward (s : State) (q : Seg) : List Nat → State
  | [] => s
  | st :: t => (s.updBal st (fun e => { e with input := e.input ++ [q] })).balForward q t

/-- The front of engine st's input queue, which has been accepted, takes effect: an OPEN once everything before it is complete,
a RUN or LIST while fewer than four are in progress (R347, R351). -/
def State.balTake (s : State) (st : Nat) (residue : Bool) : State :=
  let e := (s.stk st).bal
  match e.input with
  | [] => s
  | q :: t =>
    if q.reel.isSome || e.loading || e.halted then s
    else if leAt q.bytes 0 1 = 1 then
      if e.prog.isEmpty then s.updBal st (fun e => { e.openStep q with input := t }) else s
    else if 4 ≤ e.prog.length then s
    else (s.updBal st (fun e => { e with input := t })).balApply st residue q

/-! ### Accepting (R344 to R348, R354) -/

/-- The descriptor of a reel that waits for the judgement on segment `id` changed. -/
def State.judged (s : State) (cr : Nat × Nat) (id : Nat) (f : ReelProg → ReelProg) : State :=
  s.updReel cr.1 cr.2 (fun q => { q with prog := q.prog.map (fun p =>
    if p.sent = some id then { f p with sent := none } else p) })

/-- The engines that hold a segment (R345): an OPEN goes to all sixteen. -/
def State.segHolders (s : State) (st : Nat) (b : List Byte) : List Nat :=
  if leAt b 0 1 = 1 then List.range 16
  else
    match s.groupRegion (groupOf (s.stk st).bal.copy (segGroup b)) with
    | some r => setBits 16 r.set
    | none => []

/-- A segment that engine st discards leaves its input queue complete (R348, R354). -/
def State.segDiscard (s : State) (st : Nat) (cr : Nat × Nat) (id : Nat) (f : BalSt → BalSt) : State :=
  (s.updBal st (fun e => { f e with input := e.input.drop 1 })).judged cr id (fun p => { p with segs := p.segs + 1 })

/-- The front of engine st's input queue, a segment that a reel has sent, is checked, and is refused, discarded or accepted, and
forwarded (R344 to R348, R354). It waits while an engine that is to hold it has no room. -/
def State.balJudge (s : State) (st : Nat) : State :=
  let e := (s.stk st).bal
  match e.input with
  | [] => s
  | q :: t =>
    match q.reel with
    | none => s
    | some cr =>
      let b := q.bytes
      let g := groupOf e.copy (segGroup b)
      let ck := s.segCheck st b
      if e.loading || e.halted then s
      else if ck.1 ≠ 0 then
        (s.updBal st (fun e => { e.logErr ck.1 ck.2 with segErr := true, input := t })).judged cr q.id (fun p =>
          { p with code := 0x05 })
      else if leAt b 0 1 ≠ 1 ∧ e.state = .skip then
        s.segDiscard st cr q.id (fun e => { e with ovfSkips := cnt e.ovfSkips 1 })
      else if leAt b 0 1 ≠ 1 ∧ (g.freeze ∨ e.step ≤ g.t0) then
        let s := s.segDiscard st cr q.id (fun e =>
          { e with frozenSkips := cnt e.frozenSkips (segNr b), strictHit := e.strictHit || g.strict })
        if g.strict then s.event 0x22 (segGroup b) (segRow b 0) else s
      else
        let hs := s.segHolders st b
        if hs.any (fun h => h ≠ st && !((s.stk h).bal.takes)) then s
        else
          let hd := if leAt b 0 1 = 1 then s.readBytes e.watch 11 else (s, [])
          let q' : Seg := { id := q.id, bytes := b, lsPrev := leAt hd.2 3 1, hflags := leAt hd.2 10 1 }
          let s := hd.1.judged cr q.id (fun p => { p with segs := p.segs + 1, segIds := p.segIds ++ [q.id] })
          let s := s.updBal st (fun e => { e with input := if hs.contains st then q' :: t else t })
          s.balForward q' (hs.filter (fun h => h ≠ st))

/-- Whether the front of the input queue is an OPEN that a reel has sent. -/
def BalSt.opens (e : BalSt) : Bool := match e.input with
  | [] => false
  | q :: _ => q.reel.isSome && leAt q.bytes 0 1 == 1

/-- The other engines whose queues an OPEN has just reached alone take it. -/
def State.balOpened (s : State) (st : Nat) : State :=
  ((List.range 16).filter (fun h => h ≠ st)).foldl (fun s h => match (s.stk h).bal.input with
    | [q] => if leAt q.bytes 0 1 = 1 then s.balTake h false else s
    | _ => s) s

/-- Engine st turns to the front of its input queue: it judges a segment that a reel has sent, and applies one that has been
accepted. -/
def State.balNext (s : State) (st : Nat) (residue : Bool) : State :=
  (if (s.stk st).bal.opens then (s.balJudge st).balOpened st else s.balJudge st).balTake st residue

/-! ### Sending (R95, R343) -/

/-- The place, among a reel's descriptors in progress, of the one whose segment is next, when it has not failed. -/
def ballastNext : List ReelProg → Option (Nat × ReelProg)
  | [] => none
  | p :: t =>
    let d := rdesc p.desc
    if p.code ≠ 0 then none
    else if d.op = 3 ∧ p.segs < d.rows then some (0, p)
    else (ballastNext t).map (fun q => (q.1 + 1, q.2))

/-- Descriptor i in progress of a reel changed. -/
def State.updProg (s : State) (c r i : Nat) (f : ReelProg → ReelProg) : State :=
  s.updReel c r (fun q => { q with prog := (q.prog.take i) ++ (q.prog.drop i).head?.toList.map f ++ q.prog.drop (i + 1) })

/-- The 64 bytes of a descriptor's next segment, or the code of the failure. -/
def State.segBytes (s : State) (p : ReelProg) : State × Except Nat (List Byte) :=
  let d := rdesc p.desc
  let r := s.rowRead d (farBytes (s.reqsOf p.reqs)) p.segs
  (r.1, r.2.map (fun l => l.map (·.1)))

/-- Reel r of core c sends its next segment, when it is of kind `kind` (every kind but OPEN and LIST counts as a RUN), to the
input queue of the receiving engine, once the segment before it has been accepted (R24, R95). The state, and the engine. -/
def State.sendSegment (s : State) (c r kind : Nat) : State × Option Nat :=
  if !(decide (r < 2) && s.coreRuns c) then (s, none)
  else
    match ballastNext ((s.core c).reel r).prog with
    | none => (s, none)
    | some (i, p) =>
      let d := rdesc p.desc
      if (s.reqsOf p.reqs).any (fun q => !q.done) || p.sent.isSome then (s, none)
      else
        let fail (s : State) (code : Nat) : State := s.updProg c r i (fun p => { p with code })
        let b := s.segBytes p
        match b.2 with
        | .error code => (fail b.1 code, none)
        | .ok bs =>
          let k := leAt bs 0 1
          let k := if k = 1 ∨ k = 3 then k else 2
          if k ≠ kind then (s, none)
          else
            match s.locate d.dst with
            | .stack st _ =>
              if !((s.stk st).bal.takes) then (s, none)
              else
                let q : Seg := { id := s.nextSeg, bytes := bs, reel := some (c, r) }
                (({ b.1 with nextSeg := s.nextSeg + 1 } : State).updBal st (fun e => { e with input := e.input ++ [q] })
                  |>.updProg c r i (fun p => { p with sent := some q.id }), some st)
            | _ => (fail b.1 0x02, none)

/-- A segment is sent, and the receiving engine turns to it when it has nothing before it. -/
def State.segment (s : State) (c r kind : Nat) (residue : Bool) : State :=
  let t := s.coreAccess c (fun s => (s.sendSegment c r kind).1)
  match (({ s with acc := { src := .core (s.logNum c), core := some c } } : State).sendSegment c r kind).2 with
  | none => t
  | some st =>
    if t.nextSeg ≠ s.nextSeg ∧ (t.stk st).bal.input.length = 1 then t.access (.ballast st) none (fun s => s.balNext st residue) else t

/-- OPEN_SEGMENT (R347): the next segment of a reel, an OPEN, is checked and goes to all sixteen engines. -/
def execOpenSegment (c r : Nat) (s : State) : Host.Outcome State Fault Refusal := .next (s.segment c r 1 false)
/-- RUN_SEGMENT (R342 to R345): the next segment of a reel, a RUN, is checked, forwarded and applied. -/
def execRunSegment (c r : Nat) (residue : Bool) (s : State) : Host.Outcome State Fault Refusal :=
  .next (s.segment c r 2 residue)
/-- LIST_SEGMENT (R342 to R345): the next segment of a reel, a LIST, is checked, forwarded and applied. -/
def execListSegment (c r : Nat) (residue : Bool) (s : State) : Host.Outcome State Fault Refusal :=
  .next (s.segment c r 3 residue)

/-- BAL_SEGMENT_FORWARDED (R345, R347, R351): engine st takes the segment at the front of its input queue. -/
def execBalSegmentForwarded (st : Nat) (residue : Bool) (s : State) : Host.Outcome State Fault Refusal :=
  .next (if st < 16 then s.access (.ballast st) none (fun s => s.balNext st residue) else s)

/-- Whether an engine holds segment id and has not applied it. -/
def State.segWaits (s : State) (id : Nat) : Bool :=
  s.stks.any (fun p => (p.2.bal.input ++ if p.2.bal.halted then p.2.bal.prog else []).any (fun q => q.id == id))

/-- A reel's descriptors without a segment that has completed. -/
def Reel.segDone (q : Reel) (id : Nat) : Reel :=
  { q with prog := q.prog.map (fun p => { p with segIds := p.segIds.filter (fun i => i ≠ id) }) }

/-- BAL_SEGMENT_COMPLETE (R346): every engine that holds segment `id` has applied it, so it completes. Every stale notice of its
writes was accepted before they were visible. -/
def execBalSegmentComplete (id : Nat) (s : State) : Host.Outcome State Fault Refusal :=
  .next (
    if s.segWaits id then s
    else
      let done (e : BalSt) : BalSt := { e with prog := e.prog.filter (fun q => q.id ≠ id) }
      let stks := smap {} (fun t => { t with bal := done t.bal }) s.stks
      let cores := smap {} (fun k => { k with reel0 := k.reel0.segDone id, reel1 := k.reel1.segDone id }) s.cores
      { s with stks, cores })

/-! ### The sweep (R360) -/

/-- The first of n chunks of a group from chunk h on that lies in stack st and is still to be copied: its stack-local
address. -/
def State.sweepChunks (s : State) (st : Nat) (g : BGroup) : Nat → Nat → State × Option (Nat × Nat)
  | 0, _ => (s, none)
  | n + 1, h =>
    match s.locate (g.pbase + h * g.recsz) with
    | .stack st' a =>
      if st' ≠ st then s.sweepChunks st g n (h + 1)
      else
        let r := s.mapped st a
        if r.2 then r.1.sweepChunks st g n (h + 1) else (r.1, some (h, a))
    | _ => s.sweepChunks st g n (h + 1)

/-- The first chunk still to be copied among n groups from group gi, whose search starts at chunk h. -/
def State.sweepGroups (s : State) (st : Nat) : Nat → Nat → Nat → State × Option (Nat × Nat × Nat)
  | 0, _, _ => (s, none)
  | n + 1, gi, h =>
    let g := groupOf (s.stk st).bal.copy gi
    if g.valid && g.snap then
      let r := s.sweepChunks st g (g.chunks - h) h
      match r.2 with
      | some (h, a) => (r.1, some (gi, h, a))
      | none => r.1.sweepGroups st n (gi + 1) 0
    else s.sweepGroups st n (gi + 1) 0

/-- Engine st copies the next chunk of its snapshot, or finds that it has passed every chunk. -/
def State.sweepStep (s : State) (st : Nat) : State :=
  let e := (s.stk st).bal
  let r := s.sweepGroups st (4096 - e.sweepGroup) e.sweepGroup e.sweepChunk
  match r.2 with
  | none => (r.1.updBal st (fun e => { e with active := false, done := true })).event 0x23 st 0
  | some (gi, h, a) =>
    (r.1.snapCopy st (groupOf e.copy gi) h a).updBal st (fun e => { e with sweepGroup := gi, sweepChunk := h + 1 })

/-- SNAP_SWEEP (R360). -/
def execSnapSweep (st : Nat) (s : State) : Host.Outcome State Fault Refusal :=
  .next (s.access (.ballast st) none (fun s =>
    if !(decide (st < 16)) || !(s.stk st).bal.active then s else s.sweepStep st))

end Sys2Proof.Machine
end

