-- ==== Sys2Proof/Machine/Deriv.lean ====
section
/-! DEFINITION. The fused derivative functions of the tail (R287, R288), every FP32 operation rounded to
nearest even. -/

namespace Sys2Proof.Machine

/-- FP32 0.5. -/
def fHalf : Nat := 0x3F000000
/-- 1 ÷ √2. -/
def fC1 : Nat := 0x3F3504F3
/-- 1 ÷ √(2π). -/
def fC2 : Nat := 0x3ECC422A

/-- FP32 multiplication. -/
def mulF (a b : Nat) : Nat := fmul pF a b
/-- FP32 addition. -/
def addF (a b : Nat) : Nat := fadd pF a b
/-- FP32 subtraction. -/
def subF (a b : Nat) : Nat := fsub pF a b

/-- The derivative of silu. -/
def siluD (p : Nat) : Nat := let t := (fSigm p).v; mulF t (addF fOne (mulF p (subF fOne t)))
/-- 0.5 × (1 + erf(p ÷ √2)). -/
def geluC (p : Nat) : Nat := mulF fHalf (addF fOne (fErf (mulF p fC1)).v)
/-- gelu. -/
def gelu (p : Nat) : Nat := mulF p (geluC p)
/-- The derivative of gelu. -/
def geluD (p : Nat) : Nat :=
  addF (geluC p) (mulF p (mulF (fExp (mulF (fneg pF fHalf) (mulF p p))).v fC2))

/-- A result of the fused derivative: the output, the aux output and the line term. -/
structure DerivOut where
  out : Nat
  aux : Nat := 0
  lt : Nat := 0
deriving DecidableEq, Repr

/-- Whether a function reads Q. -/
def usesQ (f : Nat) : Bool := f == 7 || f == 8 || f == 10

/-- The fused derivative (R288). -/
def deriv (f d p q s alpha : Nat) : DerivOut :=
  if isNan pF p || (usesQ f && isNan pF q) then { out := qnan pF, aux := qnan pF, lt := qnan pF }
  else
    match f with
    | 1 => { out := if fLt pF 0 p then d else 0 }
    | 2 => { out := if fLt pF 0 p then d else mulF d alpha }
    | 3 => { out := mulF d (geluD p) }
    | 4 => { out := mulF d (siluD p) }
    | 5 => let t := (fTanh p).v; { out := mulF d (subF fOne (mulF t t)) }
    | 6 => let t := (fSigm p).v; { out := mulF d (mulF t (subF fOne t)) }
    | 7 => { out := mulF (mulF d q) (siluD p), aux := mulF d (mulF p (fSigm p).v) }
    | 8 => { out := mulF (mulF d q) (geluD p), aux := mulF d (gelu p) }
    | 9 => { out := mulF p (subF d s) }
    | _ => let g := mulF d q; { out := mulF g s, lt := mulF g p }

end Sys2Proof.Machine
end

