-- ==== Sys2Proof/Machine/ArrMath.lean ====
section
/-! DEFINITION. The arithmetic of a pass (R132, R162 to R172, R189 to R193): frames, tile exponents, distance and
comparison results, outlier terms, and the fault an armed injection makes (R160). -/

namespace Sys2Proof.Machine

open Sys2Proof

/-- A frame: its value, marks, the check residue beside it (R139) and the largest magnitude it has reached (R166, R172). -/
structure Frame where
  v : Int := 0
  sat : Bool := false
  nan : Bool := false
  ck : Nat := 0
  peak : Nat := 0
deriving DecidableEq, Repr

/-- The upper limit of a frame of 32 bits or of a 16-bit lane (R166). -/
def frameHi (pair : Bool) : Int := if pair then 32767 else 2147483647

/-- A term is added to a frame (R166). -/
def Frame.add (f : Frame) (pair : Bool) (t : Int) : Frame :=
  let r := clampI (-(frameHi pair) - 1) (frameHi pair) (f.v + t)
  { f with v := r.1, sat := f.sat || r.2, peak := Nat.max f.peak r.1.natAbs }

/-- An integer with bit i of its 32-bit code flipped (R160). -/
def flipBit (i : Nat) (p : Int) : Int := sx 32 (wrap 32 p ^^^ 2 ^ i)

/-- The product of a cell, with the flip of an injected fault at reduction index k (R160). -/
def cellProd (flip : Option (Nat × Nat)) (k : Nat) (p : Int) : Int :=
  match flip with
  | some (k', i) => if k = k' then flipBit i p else p
  | none => p

/-- A residue modulo 2^24 grows by an integer (R139). -/
def ckAdd (k : Nat) (p : Int) : Nat := wrap 24 ((k : Int) + p)

/-- A product p of two blocks whose exponents add up to b goes into a sum in a frame of exponent e (R139, R165, R166); `bad` says that
one of the blocks counts as scale 0xFF. -/
def Frame.term (f : Frame) (pair : Bool) (e : Int) (bad : Bool) (p b : Int) : Frame :=
  let f := { f with ck := ckAdd f.ck p }
  if bad then { f with nan := true } else f.add pair (shiftRne p (b - e))

/-- One element's part of a sum in a frame of exponent e. -/
def Frame.cell (f : Frame) (pair : Bool) (e : Int) (flip : Option (Nat × Nat)) (k : Nat) (x w : El) : Frame :=
  f.term pair e (x.bad || w.bad) (cellProd flip k (x.img * w.img)) (x.b + w.b)

/-- A sum along the reduction index, from index k on. DEDUCED, log entry 36. -/
def Frame.dot (pair : Bool) (e : Int) (flip : Option (Nat × Nat)) : Nat → Frame → List El → List El → Frame
  | k, f, x :: xs, w :: ws => Frame.dot pair e flip (k + 1) (f.cell pair e flip k x w) xs ws
  | _, f, _, _ => f

/-- The sums that leave the cells of one line in turn, from index k on (R120, R123). -/
def Frame.flow (pair : Bool) (e : Int) (flip : Option (Nat × Nat)) : Nat → Frame → List El → List El → List Frame
  | k, f, x :: xs, w :: ws =>
    let f := f.cell pair e flip k x w
    f :: Frame.flow pair e flip (k + 1) f xs ws
  | _, _, _, _ => []

/-- The exponent of the product of a cell (R165): that of its two blocks, free where the tile does not use the cell. -/
def flipExp (f : Flip) (l n : Nat) (xs ws : List (List El)) : Int :=
  match (xs[f.i]?).bind (fun x => x[f.k]?), (ws[f.j]?).bind (fun w => w[f.k]?) with
  | some x, some w => x.b + w.b
  | _, _ => (Config.freeExp l n).toInt

/-- The sum of the products of the images of two lines (R139). -/
def ckDot : List El → List Int → Int
  | x :: xs, w :: ws => x.img * w + ckDot xs ws
  | _, _ => 0

/-- The values that a function gives below n, those that are 0 left out. -/
def tabulate (n : Nat) (f : Nat → Nat) : Sparse Nat :=
  (List.range n).filterMap (fun i => if f i = 0 then none else some (i, f i))

/-- The checksum column of loaded cells (R138). -/
def ckCols (w : Sparse WtCell) : Sparse Nat :=
  tabulate 512 (fun l => wrap 24 ((w.filter (fun p => p.1 / 256 == l)).map (fun p => p.2.img)).sum)
/-- The checksum row of loaded cells (R138). -/
def ckRows (w : Sparse WtCell) : Sparse Nat :=
  tabulate 256 (fun n => wrap 24 ((w.filter (fun p => p.1 % 256 == n)).map (fun p => p.2.img)).sum)

/-! ### The tile exponent (R162 to R164) -/

/-- The larger of two optional exponents. -/
def optMax : Option Int → Option Int → Option Int
  | some a, some b => some (max a b)
  | some a, none => some a
  | none, b => b

/-- For each reduction index, the largest block exponent of some lines, blocks of scale 0xFF left out. -/
def lineMax : List (List El) → List (Option Int)
  | [] => []
  | [l] => l.map (fun x => if x.bad then none else some x.b)
  | l :: t => List.zipWith optMax (l.map (fun x => if x.bad then none else some x.b)) (lineMax t)

/-- B_max of a pass (R163), before the allowance φ. -/
def bMax (xs ws : List (List El)) : Option Int :=
  (List.zipWith (fun a b => match a, b with
    | some a, some b => some (a + b)
    | _, _ => none) (lineMax xs) (lineMax ws)).foldl optMax none

/-- E_tile (R162, R163, R164): `n8` operands are INT8. -/
def eTile (pair : Bool) (n8 : Nat) (xs ws : List (List El)) : Int :=
  (match bMax xs ws with
    | some b => b + 4 * (n8 : Int)
    | none => 0) - (if pair then 4 else 20)

/-! ### Distance and comparison (R132, R133) -/

/-- The result of one cell. -/
def distOp (op : Nat) (a b : Int) : Int :=
  match op with
  | 1 => ((a - b).natAbs : Int)
  | 2 => if a = b then 0 else 1
  | 3 => a + b
  | 4 => a + b
  | _ => if a < b then 1 else 0

/-- How results combine. -/
def distCombine (op : Nat) (s v : Int) : Int :=
  match op with
  | 3 => max s v
  | 4 => min s v
  | _ => s + v

/-- A distance or comparison along the reduction index: the sum so far, none before the first element. -/
def distDot (op : Nat) (flip : Option (Nat × Nat)) : Nat → Option Int → Bool → List El → List El → Option Int × Bool
  | k, f, nan, x :: xs, w :: ws =>
    let v := cellProd flip k (distOp op x.img w.img)
    distDot op flip (k + 1) (some (match f with
      | some s => distCombine op s v
      | none => v)) (nan || x.lost || w.lost) xs ws
  | _, f, nan, _, _ => (f, nan)

/-! ### Outlier terms (R189, R192) -/

/-- The sum of the outlier terms of two lines in increasing reduction index, and their number; none without a
term. -/
def termSum : Option Nat → Nat → List El → List El → Option Nat × Nat
  | f, n, x :: xs, w :: ws =>
    if x.outl || w.outl then termSum (some (fadd pF (f.getD 0) (fmul pF x.u w.u))) (n + 1) xs ws
    else termSum f n xs ws
  | f, n, _, _ => (f, n)

/-- The number of carried outliers at reduction index k of some lines. -/
def outlAt (l : List (List El)) (k : Nat) : Nat := (l.filter (fun r => (r.getD k {}).outl)).length

/-- The number of terms of vector k of a weight-gradient tile. -/
def wgTerms (xs ws : List (List El)) (k : Nat) : Nat :=
  outlAt xs k * ws.length + outlAt ws k * xs.length - outlAt xs k * outlAt ws k

/-! ### Rows (R118, R134) -/

/-- The logical row that a physical row holds: 512 is the checksum row; none for a retired or idle row. -/
def logicalRow (retired : List Nat) (p : Nat) : Option Nat :=
  if 521 ≤ p ∨ retired.contains p then none
  else
    let l := p - (retired.filter (· < p)).length
    if l ≤ 512 then some l else none

/-- The physical row of a logical row. -/
def physRow (retired : List Nat) (l : Nat) : Nat :=
  (((List.range 521).filter (fun p => !(retired.contains p))).getD l 520)

end Sys2Proof.Machine
end

