-- ==== Sys2Proof/Machine/Topk.lean ====
section
/-! DEFINITION. Records of the k best values (R182, R183, R255). -/

namespace Sys2Proof.Machine

/-- An entry of a record: FP32 bits and a position. -/
structure TopEnt where
  v : Nat
  pos : Nat
deriving DecidableEq, Repr

/-- An empty entry (R183). -/
def topEmpty (small : Bool) : TopEnt := { v := finf pF (!small), pos := 0xFFFFFF }

/-- Whether a is better than b (R182): larger, or smaller with DIR = 1; between equal values the lower position. -/
def TopEnt.better (small : Bool) (a b : TopEnt) : Bool :=
  if fEq pF a.v b.v then decide (a.pos < b.pos) else if small then fLt pF a.v b.v else fLt pF b.v a.v

/-- A value put in its place among ordered entries. -/
def topPut (small : Bool) (x : TopEnt) : List TopEnt → List TopEnt
  | [] => [x]
  | y :: t => if x.better small y then x :: y :: t else y :: topPut small x t

/-- A record: its entries, best first, and NAN_SEEN. -/
structure TopRec where
  ents : List TopEnt
  nan : Bool := false
deriving DecidableEq, Repr

/-- A record of k empty entries. -/
def topNew (small : Bool) (k : Nat) : TopRec := { ents := List.replicate k (topEmpty small) }

/-- A value is offered to a record of k entries. -/
def TopRec.offer (r : TopRec) (small : Bool) (k v pos : Nat) : TopRec :=
  if isNan pF v then { r with nan := true } else { r with ents := (topPut small { v, pos } r.ents).take k }

/-- The bytes of a record. -/
def TopRec.bytes (r : TopRec) : List Byte :=
  match r.ents with
  | [] => []
  | e :: t =>
    leBytes 4 e.v ++ leBytes 3 e.pos ++ leBytes 1 (b2n r.nan)
      ++ t.flatMap (fun e => leBytes 4 e.v ++ leBytes 3 e.pos ++ leBytes 1 0)

/-- The entries of a record of k entries read from bytes. -/
def topEnts : Nat → List Byte → List TopEnt
  | 0, _ => []
  | k + 1, b => { v := leAt b 0 4, pos := leAt b 4 3 } :: topEnts k (b.drop 8)

/-- A record of k entries read from bytes. -/
def topRead (k : Nat) (b : List Byte) : TopRec := { ents := topEnts k b, nan := bit 0 (leAt b 7 1) }

end Sys2Proof.Machine
end

