-- ==== Sys2Proof/Machine/Tile.lean ====
section
/-! DEFINITION. The grant of tiles and spills (R97, R98, R101, R145, R146, R196, R281) and the start of a tile
(R127 to R129, R157, R160, R162 to R172, R185, R189 to R195, R595). -/

namespace Sys2Proof.Machine

open Sys2Proof

/-! ### Grants (R101) -/

/-- Lines in scratch: the first byte, the bytes between lines, the bytes of one, and their number. -/
structure Lines where
  base : Nat
  stride : Nat
  len : Nat
  n : Nat

/-- The lines of scratch that a COR operation writes: Z or the correction accumulator (R200). -/
def CorOp.dest (o : CorOp) : Lines :=
  let m := leAt o.desc 20 4
  if o.expand then { base := leAt o.desc 40 4, stride := leAt o.desc 44 4, len := 4 * leAt o.desc 24 4, n := m }
  else { base := leAt o.desc 32 4, stride := leAt o.desc 36 4, len := 4 * [0, 8, 16, 32, 64].getD (leAt o.desc 28 1 % 8) 0, n := m }

/-- Whether a line of some lines shares a byte with a line of others. -/
def Lines.meet (a b : Lines) : Bool :=
  (List.range a.n).any (fun i => (List.range b.n).any (fun j =>
    runsMeet (a.base + i * a.stride) a.len (b.base + j * b.stride) b.len))

/-- Whether a COR operation that issued before a tile still holds the tile's accumulator lines (R196). -/
def Core.corHolds (k : Core) (t : Tile) : Bool :=
  if t.corr.isEmpty then false
  else
    let j := corrJob t.corr
    let d := outDims t.kind (adesc t.desc)
    k.lane.queue.any (fun o => decide (o.id < t.id)
      && o.dest.meet { base := j.cbase, stride := j.cstride, len := 4 * d.2, n := d.1 })

/-- Whether the entries a tile names let it go (R281). -/
def Core.loftReady (k : Core) (t : Tile) : Bool :=
  t.loftEntries.all (fun i => k.entState i == 2 || (t.kind == .fwd && k.entState i == 6))

/-- The cost of an array operation now (R98, R153). -/
def Core.tileCost (k : Core) (t : Tile) : Nat := k.cost' t.cls t.vectors 64

/-- Whether the balance covers an array operation (R97): a cost above the cap is covered by a full balance. -/
def Core.covers (k : Core) (t : Tile) : Bool :=
  decide (k.tileCost t ≤ k.credit) || (decide (k.cap < k.tileCost t) && k.credit == k.cap)

/-- Whether nothing but credit holds back an array operation. -/
def Core.unheld (k : Core) (t : Tile) : Bool := !(k.corHolds t) && k.loftReady t

/-- The head of a stream's queue when it is eligible (R101). -/
def Core.elig (k : Core) (x : Stream) : Option Tile :=
  match k.arr.tq x with
  | [] => none
  | t :: _ => if k.unheld t && k.covers t then some t else none

/-- The weight of a stream (R101). -/
def Core.weight (k : Core) : Stream → Nat
  | .a => k.wa
  | .b => k.wb

/-- The array's marks when an operation is granted (R145, R146), and the operation as it runs. -/
def ArrSt.grantMarks (a : ArrSt) (t : Tile) : ArrSt × Tile :=
  match t.kind with
  | .wg =>
    if t.start || !a.dirty then
      ({ a with accDiscard := a.accDiscard || (t.start && a.dirty), accPaired := t.pair, dirty := true,
                unchecked := true }, t)
    else if t.pair != a.accPaired then
      ({ a with accDiscard := true, accPaired := t.pair, unchecked := true }, { t with start := true })
    else ({ a with unchecked := true }, t)
  | .spill =>
    if t.checkOnly then (a, t)
    else if a.dirty && t.pair != a.accPaired then ({ a with spillMismatch := true }, { t with checkOnly := true })
    else ({ a with dirty := false }, t)
  | _ => (a, t)

/-- An operation is granted: it is charged and moves toward the array (R97, R98, R130). -/
def Core.grant (k : Core) (x : Stream) (t : Tile) : Core :=
  let k := k.charge (Nat.min (k.tileCost t) k.credit)
  let m := k.arr.grantMarks t
  let a : ArrSt := m.1.setTq x ((m.1.tq x).drop 1)
  let t : Tile := { m.2 with gid := a.grantSeq }
  let a := { a with grantSeq := a.grantSeq + 1 }
  { k with stallTicks := 0,
           arr := if t.kind = .spill then { a with spills := a.spills ++ [t] } else { a with granted := a.granted ++ [t] } }

/-- One pass of the arbiter (R101). -/
def Core.arbitrate (k : Core) : Core :=
  let go (k : Core) (x : Stream) (t : Tile) : Core :=
    let k := k.grant x t
    if k.g ≤ 1 then { k with turn := sOther x, g := k.weight (sOther x) } else { k with g := k.g - 1 }
  match k.elig k.turn with
  | some t => go k k.turn t
  | none =>
    let o := sOther k.turn
    match k.elig o with
    | none => k
    | some t => go { k with turn := o, g := k.weight o } o t

/-- Whether a tile streams (R130, R156). -/
def ArrSt.streams (a : ArrSt) : Bool := a.running.any (fun r => r.left ≠ 0)

/-- No tile streams any more. -/
def ArrSt.streamed (a : ArrSt) : ArrSt := { a with running := a.running.map (fun r => { r with left := 0 }) }

/-- ARB_GRANT (R101, R130): an acceptance point, the last ac of the tile that streams or an ac in which none does. A tile granted
and not yet started holds the place of the next. -/
def execArbGrant (c : Nat) (s : State) : Host.Outcome State Fault Refusal :=
  .next (
    let k := s.core c
    if !(s.coreRuns c) || k.grantHold || k.arr.halted || !(k.arr.granted.isEmpty) || (k.arr.paused && k.arr.streams) then s
    else s.updCore c (fun k => { k with arr := k.arr.streamed }.arbitrate))

/-- The tile that the array prepares (R131): the one granted; or, once that has started, the head of the stream that holds the turn,
or of the other when that is empty. Its preparation takes no time in this model. DESIGN CHOICE, log entry 38. -/
def Core.prepared (k : Core) : Option Tile :=
  match k.arr.granted with
  | t :: _ => some t
  | [] =>
    match k.arr.tq k.turn ++ k.arr.tq (sOther k.turn) with
    | t :: _ => if t.kind = .spill then none else some t
    | [] => none

/-! ### Operands (R122, R127, R150) -/

/-- Outlier words alone of n elements of a line (R127): elements whose codes are 0, with their outliers. -/
def State.owRead (s : State) (d : TDesc) (line e0 n : Nat) : State × ElRead :=
  let b0 := e0 / 32
  let nb := cdiv n 32
  let o := s.feed d.outlBase (line * d.outlStride + 4 * b0) (4 * nb)
  let e := blocksEls d (List.replicate (nb * blkBytes d.fmt) (0, false)) (List.replicate nb (127, false)) o.2.1 b0 nb
  (o.1, { els := e.1.take n, ign := e.2, failed := o.2.2 })

/-- Outlier words of nl lines. -/
def State.owLines (s : State) (d : TDesc) (e0 n : Nat) : Nat → Nat → State × LineRead
  | _, 0 => (s, { rows := [] })
  | line, nl + 1 =>
    let r := s.owRead d line e0 n
    let t := r.1.owLines d e0 n (line + 1) nl
    (t.1, { rows := r.2.els :: t.2.rows, ign := r.2.ign + t.2.ign, failed := r.2.failed || t.2.failed })

/-- The stationary element that cell (l, n) holds (R120); an unused cell's block scale is free. -/
def ArrSt.cell (a : ArrSt) (fmt l n : Nat) : El :=
  let w := sget {} a.wt (l * 256 + n)
  if w.loaded then
    { img := w.img, b := w.b, bad := w.bad, lost := w.lost,
      u := if w.uNan then qnan pF else fofDy pF w.img (w.b - (fp4n fmt : Int)) }
  else
    let e := (Config.freeScale l n).toNat
    let b : Int := if fScaled fmt then (e : Int) - 127 else 0
    { b, bad := fScaled fmt && e == 255, u := if fScaled fmt && e == 255 then qnan pF else 0 }

/-- An element held in a cell, with the outlier word that its tile's own descriptor gives it. -/
def El.withOw (x o : El) : El :=
  if o.bad then { x with bad := true, u := qnan pF }
  else if o.outl && !(isNan pF x.u) then { x with outl := true, u := o.u }
  else x

/-- The cells that a tile loads (R127, R138): those of rows and columns in use. -/
def loadCells (rows cols : Nat) (f : Nat → Nat → El) : Sparse WtCell :=
  (List.range rows).flatMap (fun l => (List.range cols).map (fun n =>
    let x := f l n
    (l * 256 + n, { loaded := true, img := x.img, b := x.b, bad := x.bad, lost := x.lost,
                      uNan := !x.outl && isNan pF x.u })))

/-- Element j of line i. -/
def elAt (m : List (List El)) (i j : Nat) : El := (m.getD i []).getD j {}

/-- The operands of a tile as its feeders read them: the streamed lines, the lines they meet, and what failed. -/
structure Operands where
  xs : List (List El)
  ws : List (List El)
  ignS : Nat := 0
  ignW : Nat := 0
  failed : Bool := false
  wt : Option (Sparse WtCell) := none

/-- The lines and elements of a tile's two operands (R150): counts of streamed lines, of other lines, and of elements
of each. -/
def opDims (kind : TileKind) (a : ADesc) : Nat × Nat × Nat :=
  match kind with
  | .ig => (a.vectors, a.rows, a.cols)
  | .wg => (a.rows, a.cols, a.vectors)
  | _ => (a.vectors, a.cols, a.rows)

/-- The operands of tile t are read. -/
def State.operands (s : State) (c : Nat) (t : Tile) : State × Operands :=
  let a := adesc t.desc
  let sd := tdesc t.sdesc t.sFall
  let wd := tdesc t.wdesc t.wFall
  let ow := t.kind != .dist
  let d := opDims t.kind a
  let x := s.tReadLines sd ow a.sElem d.2.2 a.sLine d.1
  if t.kind = .wg || t.loadw then
    let w := x.1.tReadLines wd ow a.wElem d.2.2 a.wLine d.2.1
    let cells := if t.kind = .wg then none
      else if t.kind = .ig then some (loadCells a.rows a.cols (fun l n => elAt w.2.rows l n))
      else some (loadCells a.rows a.cols (fun l n => elAt w.2.rows n l))
    (w.1, { xs := x.2.rows, ws := w.2.rows, ignS := x.2.ign, ignW := w.2.ign, failed := x.2.failed || w.2.failed,
            wt := cells })
  else
    let arr := (s.core c).arr
    let held := (List.range d.2.1).map (fun i => (List.range d.2.2).map (fun j =>
      if t.kind = .ig then arr.cell wd.fmt i j else arr.cell wd.fmt j i))
    let o := if wd.outl && ow then x.1.owLines wd a.wElem d.2.2 a.wLine d.2.1 else (x.1, { rows := [] })
    let ws := if wd.outl && ow then List.zipWith (List.zipWith El.withOw) held o.2.rows else held
    (o.1, { xs := x.2.rows, ws, ignS := x.2.ign, ignW := o.2.ign, failed := x.2.failed || o.2.failed })

/-- The spans of the outlier words of nl lines. -/
def owSpans (d : TDesc) (e0 n : Nat) : Nat → Nat → List (Nat × Nat)
  | _, 0 => []
  | line, nl + 1 =>
    (d.outlBase + line * d.outlStride + 4 * (e0 / 32), 4 * cdiv n 32) :: owSpans d e0 n (line + 1) nl

/-- The spans of device memory that a tile's feeders read. -/
def Tile.spans (t : Tile) : List (Nat × Nat) :=
  let a := adesc t.desc
  let sd := tdesc t.sdesc t.sFall
  let wd := tdesc t.wdesc t.wFall
  let ow := t.kind != .dist
  let d := opDims t.kind a
  tSpans sd ow a.sElem d.2.2 a.sLine d.1
    ++ (if t.kind = .wg || t.loadw then tSpans wd ow a.wElem d.2.2 a.wLine d.2.1
        else if wd.outl && ow then owSpans wd a.wElem d.2.2 a.wLine d.2.1 else [])

/-! ### Injection (R160, R161) -/

/-- Whether the armed fault is applied in a tile, and where its data changes. A data cell makes a product in every multiply tile, of
images that are 0 where the tile does not use the cell. DEDUCED, log entry 40. -/
def Core.injects (k : Core) (t : Tile) : Bool × Option Flip :=
  let r := k.arr
  let a := adesc t.desc
  if !r.armed || 129 ≤ r.armCol then (false, none)
  else
    match logicalRow k.retired r.armRow with
    | none => (false, none)
    | some l =>
      let n := if t.pair then 2 * r.armCol + r.armBit / 16 else r.armCol
      let b := if t.pair then r.armBit % 16 else r.armBit
      let data := decide (l < 512) && decide (r.armCol < 128)
      match t.kind with
      | .dist =>
        if r.armCol = 128 then (decide (l < a.rows), none)
        else if l < a.rows ∧ r.armCol < a.vectors then
          (true, if n < a.cols then some { i := r.armCol, j := n, k := l, bit' := b } else none)
        else (false, none)
      | .fwd => (true, if data then some { i := 0, j := n, k := l, bit' := b } else none)
      | .ig => (true, if data then some { i := 0, j := l, k := n, bit' := b } else none)
      | _ => (true, if data then some { i := l, j := n, k := 0, bit' := b } else none)

/-- The flip of one sum. -/
def flipAt (f : Option Flip) (i j : Nat) : Option (Nat × Nat) :=
  match f with
  | some f => if f.i = i ∧ f.j = j then some (f.k, f.bit') else none
  | none => none

/-! ### The pass -/

/-- One value that leaves the array: vector m, position q (a column, or a logical row for IG), the integer frame value, its marks
(R166) and its check residue (R139). -/
structure OutCell where
  m : Nat
  q : Nat
  v : Int
  sat : Bool := false
  nan : Bool := false
  ck : Nat := 0
deriving DecidableEq, Repr

/-- Lines with their indexes. -/
def indexed {α : Type} : Nat → List α → List (Nat × α)
  | _, [] => []
  | i, a :: t => (i, a) :: indexed (i + 1) t

/-- The products of a sum beyond the elements in use are 0, but for the flip of an injected fault (R138, R160). -/
def Frame.spare (r : Frame) (t : Tile) (e : Int) (f : Option Flip) (i j : Nat) (xs ws : List (List El)) : Frame :=
  match f with
  | some f =>
    if f.i = i ∧ f.j = j ∧ (xs.getD i []).length ≤ f.k then
      r.term t.pair e false (flipBit f.bit' 0) (if t.kind = .ig then flipExp f j f.k xs ws else flipExp f f.k j xs ws)
    else r
  | none => r

/-- The values that a tile with flowing sums forms (R132, R165, R166): for each streamed line, one for each other line. -/
def flowOuts (t : Tile) (e : Int) (f : Option Flip) (xs ws : List (List El)) : List OutCell :=
  (indexed 0 xs).flatMap (fun x => (indexed 0 ws).map (fun w =>
    if t.kind = .dist then
      let r := distDot t.op (flipAt f x.1 w.1) 0 none false x.2 w.2
      { m := x.1, q := w.1, v := r.1.getD 0, nan := r.2 }
    else
      let r := (Frame.dot t.pair e (flipAt f x.1 w.1) 0 {} x.2 w.2).spare t e f x.1 w.1 xs ws
      { m := x.1, q := w.1, v := r.v, sat := r.sat, nan := r.nan, ck := r.ck }))

/-- The values that the running tile's sums have as they leave. -/
def RunTile.outs (rt : RunTile) : List OutCell := flowOuts rt.tile rt.etile rt.flip rt.xs rt.ws

/-- The key of the cell that element k of a sum of other line j lies in. -/
def flowKey (kind : TileKind) (j k : Nat) : Nat := if kind = .ig then j * 256 + k else k * 256 + j

/-- SS or ES as the last vector of a tile leaves it (R120). -/
def RunTile.sums (rt : RunTile) : Sparse AccCell :=
  let t := rt.tile
  let i := rt.xs.length - 1
  let x := rt.xs.getD i []
  (indexed 0 rt.ws).foldl (fun m w =>
    let fl := flipAt rt.flip i w.1
    let cells : List AccCell := if t.kind = .dist then
        (List.range (Nat.min x.length w.2.length)).map (fun k =>
          let r := distDot t.op fl 0 none false (x.take (k + 1)) (w.2.take (k + 1))
          { v := r.1.getD 0, nan := r.2 })
      else (Frame.flow t.pair rt.etile fl 0 {} x w.2).map (fun f => { v := f.v, sat := f.sat, nan := f.nan, ck := f.ck })
    (indexed 0 cells).foldl (fun m p => sset {} m (flowKey t.kind w.1 p.1) p.2) m) []

/-- One accumulator after a weight-gradient tile in a frame of exponent e (R140, R165, R166), and the peak. -/
def AccCell.run (a : AccCell) (pair : Bool) (e : Int) (f : Option (Nat × Nat)) (x w : List El) : AccCell × Nat :=
  let r := Frame.dot pair e f 0 { v := a.v, sat := a.sat, nan := a.nan, ck := a.ck } x w
  ({ v := r.v, sat := r.sat, nan := r.nan, ck := r.ck }, r.peak)

/-- The accumulators of one row after a weight-gradient tile. -/
def accRow (t : Tile) (e : Int) (f : Option Flip) (l : Nat) (x : List El) :
    List (Nat × List El) → Sparse AccCell × Nat → Sparse AccCell × Nat
  | [], p => p
  | w :: rest, p =>
    let key := l * 256 + w.1
    let r := (sget {} p.1 key).run t.pair e (flipAt f l w.1) x w.2
    accRow t e f l x rest (sset {} p.1 key r.1, Nat.max p.2 r.2)

/-- The accumulators after a weight-gradient tile: rows that a mask leaves out stay as they are (R291). -/
def accRows (t : Tile) (e : Int) (f : Option Flip) (ws : List (Nat × List El)) :
    List (Nat × List El) → Sparse AccCell × Nat → Sparse AccCell × Nat
  | [], p => p
  | x :: rest, p => accRows t e f ws rest (if maskOn t.job x.1 then accRow t e f x.1 x.2 ws p else p)

/-- The flip of an injected fault in the product, 0, of a cell that the tile does not use or whose row a mask leaves out (R160, R291). -/
def accSpare (t : Tile) (e : Int) (f : Option Flip) (xs ws : List (List El)) (p : Sparse AccCell × Nat) : Sparse AccCell × Nat :=
  match f with
  | none => p
  | some f =>
    if f.i < xs.length ∧ f.j < ws.length ∧ maskOn t.job f.i then p
    else
      let a := sget {} p.1 (f.i * 256 + f.j)
      let r := ({ v := a.v, sat := a.sat, nan := a.nan, ck := a.ck } : Frame).term t.pair e false (flipBit f.bit' 0)
        (flipExp f f.i f.j xs ws)
      (sset {} p.1 (f.i * 256 + f.j) { v := r.v, sat := r.sat, nan := r.nan, ck := r.ck }, Nat.max p.2 r.peak)

/-- The accumulators shifted right by d places (R170), marks kept. -/
def realign (d : Nat) (acc : Sparse AccCell) : Sparse AccCell :=
  (acc.map (fun p => (p.1, { p.2 with v := shiftRne p.2.v (-(d : Int)) }))).filter (fun p => p.2 ≠ {})

/-- The position of the highest bit of a magnitude (R172). -/
def peakBit (n : Nat) : Nat := n.log2

/-- The streamed lines as the west feeder drives them: rows that a mask leaves out have image 0 (R291). -/
def maskRows (t : Tile) (xs : List (List El)) : List (List El) :=
  (indexed 0 xs).map (fun x => if maskOn t.job x.1 then x.2 else x.2.map (fun e => { e with img := 0 }))

/-- The sum of the images at reduction index k of some lines. -/
def imgSum (l : List (List El)) (k : Nat) : Int := (l.map (fun r => (r.getD k {}).img)).sum

/-- The residues of the checksum cells' accumulators grow with a tile (R140): column 128 meets the sums of the column operands, the
checksum row those of the streamed ones. -/
def ArrSt.ckRun (a : ArrSt) (t : Tile) (xs ws : List (List El)) : ArrSt :=
  let n := t.vectors
  let xs := maskRows t xs
  let dy := (List.range n).map (imgSum ws)
  let x := (List.range n).map (imgSum xs)
  let col := (indexed 0 xs).foldl (fun m r => sset 0 m r.1 (ckAdd (sget 0 m r.1) (ckDot r.2 dy))) a.ckCol
  let row := (indexed 0 ws).foldl (fun m r =>
    let n := if t.pair then r.1 / 2 else r.1
    sset 0 m n (ckAdd (sget 0 m n) (ckDot r.2 x))) a.ckRow
  { a with ckCol := col, ckRow := row, ckCorner := ckAdd a.ckCorner ((List.zipWith (· * ·) x dy).sum) }

/-- The array after the products of a weight-gradient tile of exponent e (R140, R145, R170 to R172); its last column operands stay in
DL. -/
def ArrSt.runWg (a : ArrSt) (t : Tile) (e : Int) (f : Option Flip) (xs ws : List (List El)) : ArrSt :=
  let a := if t.start then { a with acc := [], ckCol := [], ckRow := [], ckCorner := 0, peak := 0, eRes := e }
    else if a.eResFresh then { a with eRes := e }
    else if e ≤ a.eRes then a
    else { a with acc := realign (e - a.eRes).toNat a.acc, eRes := e }
  let r := accSpare t a.eRes f xs ws (accRows t a.eRes f (indexed 0 ws) (indexed 0 xs) (a.acc, 0))
  ({ a with acc := r.1, peak := Nat.max a.peak (peakBit r.2), eResFresh := false,
            dl := (indexed 0 ws).foldl (fun m w => sset 0 m w.1 (w.2.getD (t.vectors - 1) {}).img) a.dl } : ArrSt).ckRun t xs ws

/-! ### Check residues of a pass (R138, R139) -/

/-- For each vector, the residue that leaves the checksum column, or the checksum row for an input-gradient tile. -/
def Tile.preds (t : Tile) (cCol cRow : Sparse Nat) (xs : List (List El)) : List Nat :=
  let c : List Int := (List.range 512).map (fun i => ((sget 0 (if t.kind = .ig then cRow else cCol) i : Nat) : Int))
  if t.kind = .fwd ∨ t.kind = .ig then xs.map (fun x => wrap 24 (ckDot x c)) else []

/-- For each vector, the residue of the sums of loaded columns, or rows, that the tile does not use. -/
def Tile.rests (t : Tile) (wt : Sparse WtCell) (xs : List (List El)) : List Nat :=
  let a := adesc t.desc
  let cells : List (Nat × Int) := wt.filterMap (fun p =>
    let l := p.1 / 256
    let n := p.1 % 256
    if t.kind = .ig then (if a.rows ≤ l then some (n, p.2.img) else none)
    else if a.cols ≤ n then some (l, p.2.img) else none)
  if t.kind = .fwd ∨ t.kind = .ig then
    xs.map (fun x => wrap 24 (cells.map (fun p => (x.getD p.1 {}).img * p.2)).sum)
  else []

/-- A bit of a check value, or of a result that is itself compared, is upset. -/
def OutCell.upset (o : OutCell) (fail : Option ChkFail) : OutCell :=
  match fail with
  | some (.sum m q b) => if o.m = m ∧ o.q = q then { o with ck := o.ck ^^^ 2 ^ b, v := flipBit b o.v } else o
  | _ => o

/-- The sum of the residues of the outputs of vector m. -/
def ckOf (outs : List OutCell) (m : Nat) : Nat := ((outs.filter (fun o => o.m == m)).map (·.ck)).sum

/-- The comparisons of a drain (R139, R142): the column that the first one to fail names, 0xFF when it names none. -/
def RunTile.mismatch (rt : RunTile) (fail : Option ChkFail) : Option Nat :=
  let outs := rt.outs.map (fun o => o.upset fail)
  let m := (List.range rt.xs.length).find? (fun m =>
    if rt.tile.kind = .dist then
      outs.any (fun o => o.m == m && o.q == m % 128
        && o.v != (distDot rt.tile.op none 0 none false (rt.xs.getD m []) (rt.ws.getD o.q [])).1.getD 0)
    else (ckOf outs m + rt.rest.getD m 0) % 2 ^ 24 ≠ rt.pred.getD m 0)
  if rt.tile.kind = .wg then none
  else if rt.inj then some rt.injCol
  else m.map (fun m => if rt.tile.kind = .dist then m % 128 else 0xFF)

/-! ### Outlier terms (R189 to R195) -/

/-- The product of two tensor scales, rounded once (R178). -/
def scaleProd (sd wd : TDesc) : Nat := fmul pF sd.scale wd.scale

/-- One line of the correction accumulator: the sums of terms go in (R192). The total of terms comes with it. -/
def State.termLine (s : State) (c cb sc : Nat) (x : List El) : Nat → List (List El) → State × Nat
  | _, [] => (s, 0)
  | j, w :: t =>
    let r := termSum none 0 x w
    let s := match r.1 with
      | none => s
      | some v =>
        let o := cb + 4 * j
        let s := s.scrRead c o 4
        s.scrWrite c o (leBytes 4 (fadd pF (ofLe ((s.core c).scr o 4)) (fmul pF v sc)))
    let q := s.termLine c cb sc x (j + 1) t
    (q.1, r.2 + q.2)

/-- The lines of the correction accumulator: the terms of each line. -/
def State.termLines (s : State) (c sc : Nat) (job : CorrJob) (on : Nat → Bool) (ws : List (List El)) :
    List (Nat × List El) → State × List Nat
  | [] => (s, [])
  | x :: t =>
    let r := if on x.1 then s.termLine c (job.cbase + x.1 * job.cstride) sc x.2 0 ws else (s, 0)
    let q := r.1.termLines c sc job on ws t
    (q.1, r.2 :: q.2)

/-- Whether a running tile has outlier terms (R189, R225). -/
def RunTile.hasTerms (rt : RunTile) : Bool :=
  let t := rt.tile
  !(t.corr.isEmpty) && t.kind != .dist
    && ((indexed 0 rt.xs).any (fun x => (t.kind != .wg || maskOn t.job x.1) && x.2.any (·.outl))
      || rt.ws.any (fun w => w.any (·.outl)))

/-- The outlier terms of a tile go into its accumulator, and the lane's counts grow (R192, R195, R225). A lane whose datapaths have
disagreed writes nothing further (R199). -/
def State.laneTerms (s : State) (c : Nat) (rt : RunTile) : State :=
  let t := rt.tile
  let sd := tdesc t.sdesc t.sFall
  let wd := tdesc t.wdesc t.wFall
  if t.corr.isEmpty || t.kind == .dist || !(sd.outl || wd.outl) || (s.core c).lane.chkFail then s
  else
    let on (l : Nat) : Bool := t.kind != .wg || maskOn t.job l
    let r := s.termLines c (scaleProd sd wd) (corrJob t.corr) on rt.ws (indexed 0 rt.xs)
    let act := ((indexed 0 rt.xs).filter (fun x => on x.1)).map (·.2)
    let busy := if t.kind = .wg then
        ((List.range t.vectors).map (fun k => cdiv (wgTerms act rt.ws k) 512)).sum
      else (r.2.map (fun n => cdiv n 512)).sum
    r.1.updCore c (fun k => { k with lane := { k.lane with terms := cnt k.lane.terms r.2.sum,
                                                           busy := cnt k.lane.busy busy } })

/-! ### The top-k configuration (R185) -/

/-- Records of k empty entries are written from a scratch offset on. -/
def State.topkClear (s : State) (c o : Nat) (bs : List Byte) : Nat → State
  | 0 => s
  | n + 1 => (s.topkClear c o bs n).scrWrite c (o + 128 * n) bs

/-- The records of every pair that an ARM with CLEAR has named are emptied. -/
def State.topkClears (s : State) (c : Nat) : List (Nat × Nat) → State
  | [] => s
  | (cfg, base) :: t =>
    (s.topkClear c (fld 21 7 base * 128) (topNew (bit 1 cfg) (fld 27 24 cfg + 1)).bytes (fld 23 11 cfg)).topkClears c t

/-- The pair that an ARM applied takes effect at the start of the next tile (R185). -/
def State.topkApply (s : State) (c : Nat) : State :=
  let a := (s.core c).arr
  match a.tkNextCfg with
  | none => s
  | some (cfg, base) =>
    (s.updArr c (fun a => { a with tkCfgOn := cfg, tkBaseOn := base, tkLine0 := none, tkNextCfg := none,
                                   tkClears := [] })).topkClears c a.tkClears

/-! ### The start -/

/-- The number of the next array operation (R157). -/
def ArrSt.bump (a : ArrSt) : ArrSt := { a with tileSeq := (a.tileSeq + 1) % 2 ^ 32 }

/-- The ac that one vector of a tile takes (R125, R184, R193). -/
def Tile.spacing (t : Tile) (tap : Bool) : Nat :=
  let sd := tdesc t.sdesc t.sFall
  let a := adesc t.desc
  let l := (b2n sd.outl + b2n (tdesc t.wdesc t.wFall).outl) * cdiv a.rows 32 * cdiv a.cols 32 * 32
  let w := Nat.max (fWidth sd.fmt) (cdiv l 512)
  if tap then Nat.max w 4 else w

/-- A tile's operands have been read, the shadow registers and the checksum cells filled: it starts streaming (R127 to R129, R138,
R157). -/
def State.runTile (s : State) (c : Nat) (t : Tile) (o : Operands) : State :=
  let k := s.core c
  let sd := tdesc t.sdesc t.sFall
  let wd := tdesc t.wdesc t.wFall
  let a := adesc t.desc
  let inj := k.injects t
  let on := if t.kind = .wg then ((indexed 0 o.xs).filter (fun x => maskOn t.job x.1)).map (·.2) else o.xs
  let e := if t.kind = .dist then 0
    else eTile t.pair ((if sd.fmt = 4 then 1 else 0) + (if wd.fmt = 4 then 1 else 0)) on o.ws
  let seq := k.arr.tileSeq
  let tap := bit 0 k.arr.tkCfgOn && decide (a.drain = 3) && t.kind != .wg
  let line0 := k.arr.tkLine0.getD a.oLine
  let r : ArrSt := match o.wt with
    | some w => { k.arr with swt := w, wt := w, cCol := ckCols w, cRow := ckRows w }
    | none => k.arr
  let rt : RunTile :=
    { tile := t, seq, etile := e, xs := o.xs, ws := o.ws, inj := inj.1, flip := inj.2,
      injCol := if t.kind = .dist then k.arr.armCol else 0xFF, pred := t.preds r.cCol r.cRow o.xs,
      rest := t.rests r.wt o.xs, left := a.vectors * t.spacing tap, xfault := o.failed,
      tkCfg := if tap then k.arr.tkCfgOn else 0, tkBase := k.arr.tkBaseOn, tkLine0 := line0 }
  let s := s.updArr c (fun _ =>
    { r.bump with granted := r.granted.drop 1, running := r.streamed.running ++ [rt], eLast := e,
                  xfault := r.xfault || o.failed, armed := r.armed && !inj.1,
                  tkLine0 := if tap then some line0 else r.tkLine0 })
  let s := if o.failed then s.event 0x06 (s.logNum c) (seq % 4096) else s
  let s := (s.countSat c sd.watch o.ignS).countSat c wd.watch o.ignW
  if o.ignS + o.ignW = 0 then s else s.updCore c (fun k => { k with lane := { k.lane with outlIgn := true } })

/-- Whether a spill granted before a weight-gradient tile has still to complete (R147). -/
def ArrSt.spillBefore (a : ArrSt) (t : Tile) : Bool :=
  (a.spills ++ (match a.spilling with
    | some (p, _) => [p]
    | none => [])).any (fun p => decide (p.gid < t.gid))

/-- A granted tile starts: the staged top-k pair takes effect, its operands are read, and it streams (R127 to R129, R185). -/
def State.tileBegin (s : State) (c : Nat) (t : Tile) : State :=
  let r := (s.topkApply c).operands c t
  r.1.runTile c t r.2

/-- TILE_START (R129): the granted tile starts, once the tile before it has streamed. `e` is what the error code of its first operand
word found. DESIGN CHOICE, log entry 35. -/
def execTileStart (c : Nat) (e : Ecc) (s : State) : Host.Outcome State Fault Refusal :=
  .next (s.coreAccess c (fun s =>
    let k := (s.core c).arr
    match k.granted with
    | [] => s
    | t :: _ =>
      if !(s.coreRuns c) || (t.kind == .wg && k.spillBefore t) || (k.paused && k.streams) then s
      else
        let sd := tdesc t.sdesc t.sFall
        let ec := s.eccAt (s.locate (sd.codeBase + (adesc t.desc).sLine * sd.codeStride)) e
        if !ec.2 then ec.1 else ec.1.tileBegin c t))

end Sys2Proof.Machine
end

