-- ==== Sys2Proof/Machine/Tail.lean ====
section
/-! DEFINITION. The tail: drains (R174 to R186, R194, R208, R209, R276, R282, R285 to R289), spills (R146, R169 to
R176), the checks that fail (R144, R158, R160) and accesses that fail after issue (R595). -/

namespace Sys2Proof.Machine

open Sys2Proof

/-! ### The spool (R173 to R176) -/

/-- The NaN sentinel (R173). -/
def spoolNan : Nat := 2 ^ 63

/-- Slot `slot` of a spool row. -/
def Core.spoolAt (k : Core) (row slot : Nat) : Nat := ofLe (mread k.spool (row * 1024 + 8 * slot) 8)

/-- E_row of a spool row. -/
def ArrSt.eRowAt (a : ArrSt) (row : Nat) : Int := sget 0 a.eRow row

/-- A slot is written (R175). -/
def Core.spoolPut (k : Core) (row slot : Nat) (v : Int) (nan : Bool) : Core :=
  { k with spool := mwrite k.spool (row * 1024 + 8 * slot) (leBytes 8 (if nan then spoolNan else wrap 64 v)) }

/-- A value of frame exponent e is added into a slot (R176). -/
def Core.spoolAdd (k : Core) (row slot : Nat) (v e : Int) (nan : Bool) : Core :=
  let old := k.spoolAt row slot
  if nan || old == spoolNan then k.spoolPut row slot 0 true
  else
    let m : Int := (2 : Int) ^ 63 - 1
    let r := clampI (-m) m (sx 64 old + shiftRne v (e - k.arr.eRowAt row))
    let k := if r.2 then { k with arr := { k.arr with spoolSat := cnt k.arr.spoolSat 1 } } else k
    k.spoolPut row slot r.1 false

/-- n rows from row r on are cleared and take a row exponent (R175). -/
def Core.spoolClear (k : Core) (r n : Nat) (e : Int) : Core :=
  { k with spool := k.spool.filter (fun p => !(decide (r * 1024 ≤ p.1) && decide (p.1 < (r + n) * 1024))),
           arr := { k.arr with eRow := (List.range n).foldl (fun m i => sset 0 m (r + i) e) k.arr.eRow } }

/-- The guards of core c that a run of its loft or spool touches end (R324). -/
def State.endLoftGuards (s : State) (c o n : Nat) : State :=
  s.endGuards c ((s.core c).guardsHit none (s.ownAddr 2 ((s.logNum c) * 0x400000 + o)) n)

/-- Bytes written to the core's own loft by its tail. -/
def State.loftWrite (s : State) (c o : Nat) (bs : List Byte) : State :=
  (s.endLoftGuards c o bs.length).updCore c (fun k => { k with loft := mwrite k.loft o bs })

/-! ### Failed checks (R144, R158) -/

/-- A comparison has failed (R144): the log keeps the first (R158), the array halts, and the ripcord logic is told. -/
def State.arrayFail (s : State) (c kind prow col seq : Nat) : State :=
  (s.updArr c (fun a =>
    let a := { a with chkFail := true, halted := true }
    if a.logSet then a
    else { a with logSet := true, logKind := kind, logRow := prow, logCol := col, logTile := seq % 4096 })).coreFault c 0x1001

/-- The lane's datapaths have disagreed (R199): the array halts, and the ripcord logic is told. -/
def State.laneFail (s : State) (c : Nat) : State :=
  (s.updCore c (fun k => { k with lane := { k.lane with chkFail := true }, arr := { k.arr with halted := true } })).coreFault
    c 0x1002

/-- The checks of a drain (R139 to R142): a cell whose residue or parity fails, or a comparison. -/
def State.drainFail (s : State) (c : Nat) (rt : RunTile) (fail : Option ChkFail) : State :=
  match fail with
  | some (.cell r n) => s.arrayFail c 3 r n rt.seq
  | _ =>
    match rt.mismatch fail with
    | some n => s.arrayFail c 0 0x3FF n rt.seq
    | none => s

/-! ### Values of a drain -/

/-- The spool row and slot of an output (R174). -/
def outSlot (kind : TileKind) (pair : Bool) (sp : Nat) (o : OutCell) : Nat × Nat :=
  (sp + rowsPer kind pair * o.m + o.q / 128, o.q % 128)

/-- The FP32 value of a frame or row total of exponent e (R178, R179). -/
def tailVal (v e : Int) (nan : Bool) (k4 sc : Nat) : Nat := if nan then qnan pF else scaleInt v (e - (k4 : Int)) sc

/-- One output goes through the spool (R175, R176) or straight on: the core after it, and the value formed at the tail
(0 when the drain forms none). -/
def Core.drainCell (k : Core) (rt : RunTile) (a : ADesc) (k4 sc : Nat) (o : OutCell) : Core × Nat :=
  let p := outSlot rt.tile.kind rt.tile.pair a.spRow o
  let k := if o.sat && !o.nan then
      (if rt.tile.pair then { k with arr := { k.arr with pairSat := cnt k.arr.pairSat 1 } }
       else { k with arr := { k.arr with frameSat := cnt k.arr.frameSat 1 } })
    else k
  match a.drain with
  | 0 => (k.spoolPut p.1 p.2 o.v o.nan, 0)
  | 1 => (k.spoolAdd p.1 p.2 o.v rt.etile o.nan, 0)
  | 2 =>
    let k := k.spoolAdd p.1 p.2 o.v rt.etile o.nan
    let t := k.spoolAt p.1 p.2
    (k, tailVal (sx 64 t) (k.arr.eRowAt p.1) (t == spoolNan) k4 sc)
  | _ =>
    if rt.tile.kind = .dist then (k, if o.nan then qnan pF else fofInt pF o.v)
    else (k, tailVal o.v rt.etile o.nan k4 sc)

/-- Every output of a drain, in order. -/
def Core.drainCells (k : Core) (rt : RunTile) (a : ADesc) (k4 sc : Nat) : List OutCell → Core × List (OutCell × Nat)
  | [] => (k, [])
  | o :: t =>
    let r := k.drainCell rt a k4 sc o
    let q := r.1.drainCells rt a k4 sc t
    (q.1, (o, r.2) :: q.2)

/-! ### Correction and derivative (R194, R286 to R289) -/

/-- The tail of core c reads n bytes of scratch (R323). -/
def State.tailScr (s : State) (c o n : Nat) : State × List Byte := (s.scrRead c o n, (s.core c).scr o n)

/-- The tail of core c reads an FP32 or BF16 value of scratch or of a loft entry (R323). -/
def State.jobVal (s : State) (c : Nat) (pscr : Bool) (entry off : Nat) (bf : Bool) : State × Nat :=
  let n := if bf then 2 else 4
  let lo := (s.core c).entLoc entry * 4096 + off
  let b := if pscr then s.tailScr c off n else (s.guardRead c (s.loftAddr c lo) n, mread (s.core c).loft lo n)
  (b.1, if bf then ofB (ofLe b.2) else ofLe b.2)

/-- The fused derivative of one output (R285, R288), and the aux output's write. -/
def State.derivOut (s : State) (c : Nat) (j : StepJob) (l e d : Nat) : State × DerivOut :=
  let pscr := bit 0 j.flags
  let bf := bit 2 j.flags
  let w := if bf then 2 else 4
  let dl := l - j.line0
  let de := e - j.elem0
  let f := j.b1
  let p := s.jobVal c pscr j.entry (j.w12 + dl * j.w16 + de * w) bf
  let q := if usesQ f then p.1.jobVal c pscr j.entry (j.qoff + dl * j.qstride + de * w) bf else (p.1, 0)
  let sc := if f = 9 ∨ f = 10 then q.1.tailScr c (j.sbase + 4 * dl) 4 else (q.1, [])
  let r := deriv f d p.2 q.2 (ofLe sc.2) j.alpha
  if f = 7 ∨ f = 8 then
    let aw := if bit 3 j.flags then 2 else 4
    let v := if aw = 2 then toB r.aux else r.aux
    (sc.1.scrWrite c (j.abase + dl * j.astride + de * aw) (leBytes aw v), r)
  else (sc.1, r)

/-- Correction and derivative for the outputs of one vector, in order: their values and the line terms (R180). A lane whose datapaths
have disagreed gives the tail nothing (R199). DEDUCED, log entry 41. -/
def State.lineVals (s : State) (c : Nat) (rt : RunTile) (a : ADesc) : List (OutCell × Nat) → State × List Nat × List Nat
  | [] => (s, [], [])
  | (o, d) :: t =>
    let cj := corrJob rt.tile.corr
    let d := if !(rt.tile.corr.isEmpty) && cj.apply && !(s.core c).lane.chkFail then
        let v := s.tailScr c (cj.cbase + o.m * cj.cstride + 4 * o.q) 4
        (v.1, fadd pF d (ofLe v.2))
      else (s, d)
    let s := d.1
    let d := d.2
    let r := if rt.tile.kind = .ig ∧ !(rt.tile.job.isEmpty) then
        let q := s.derivOut c (stepJob rt.tile.job) (a.oLine + o.m) (a.oElem + o.q) d
        (q.1, q.2.out, q.2.lt)
      else (s, d, 0)
    let q := r.1.lineVals c rt a t
    (q.1, r.2.1 :: q.2.1, r.2.2 :: q.2.2)

/-- The line accumulator of a NORM job grows by a line's terms (R289). -/
def State.lineAcc (s : State) (c : Nat) (rt : RunTile) (l : Nat) (lts : List Nat) : State :=
  let j := stepJob rt.tile.job
  if rt.tile.kind = .ig ∧ !(rt.tile.job.isEmpty) ∧ j.b1 = 10 then
    let o := j.lbase + 4 * (l - j.line0)
    let v := s.tailScr c o 4
    v.1.scrWrite c o (leBytes 4 (fadd pF (ofLe v.2) (lts.foldl (fadd pF) 0)))
  else s

/-- A forward tile's outputs of one vector are stashed in a loft entry (R276). -/
def State.stashLine (s : State) (c : Nat) (rt : RunTile) (a : ADesc) (m : Nat) (ds : List Nat) : State :=
  let j := stepJob rt.tile.job
  if rt.tile.kind = .fwd ∧ !(rt.tile.job.isEmpty) ∧ (s.core c).entState j.entry = 2 then
    let bf := bit 0 j.b1
    let w := if bf then 2 else 4
    let o := j.w12 + (a.oLine + m - j.line0) * j.w16 + (a.oElem - j.elem0) * w
    s.loftWrite c ((s.core c).entLoc j.entry * 4096 + o) (ds.flatMap (fun d => leBytes w (if bf then toB d else d)))
  else s

/-- The values of one vector are offered to the record of their line (R181, R182). -/
def State.topkLine (s : State) (c : Nat) (rt : RunTile) (a : ADesc) (m : Nat) (ds : List Nat) : State :=
  let l := a.oLine + m
  if rt.tkCfg = 0 ∨ l < rt.tkLine0 ∨ rt.tkLine0 + fld 23 11 rt.tkCfg ≤ l then s
  else
    let k := fld 27 24 rt.tkCfg + 1
    let small := bit 1 rt.tkCfg
    let o := fld 21 7 rt.tkBase * 128 + (l - rt.tkLine0) * 128
    let v := s.tailScr c o (8 * k)
    let r := (indexed a.oElem ds).foldl (fun r d => r.offer small k d.2 (d.1 % 2 ^ 24)) (topRead k v.2)
    v.1.scrWrite c o r.bytes

/-- One output vector of a DIRECT or SPOOL_FINAL drain is finished and written (R180): whether a write was discarded,
whether a value written was not finite, and the values before rounding. -/
def State.tailLine (s : State) (c : Nat) (rt : RunTile) (a : ADesc) (od : TDesc) (m : Nat) (l : List (OutCell × Nat)) :
    State × Bool × Bool × List Nat :=
  let v := s.lineVals c rt a l
  let ds := v.2.1
  let s := (v.1.lineAcc c rt (a.oLine + m) v.2.2).stashLine c rt a m ds
  let s := s.topkLine c rt a m ds
  let bf := od.fmt == 8
  let w := if bf then 2 else 4
  let nf := ds.any (fun d => if bf then !(isFin pB (toB d)) else !(isFin pF d))
  let p := s.put rt.wfail od.codeBase ((a.oLine + m) * od.codeStride + a.oElem * w)
    (ds.flatMap (fun d => leBytes w (if bf then toB d else d)))
  (p.1, p.2, nf, ds)

/-- The output vectors of a drain, each of n outputs. -/
def State.tailLines (s : State) (c : Nat) (rt : RunTile) (a : ADesc) (od : TDesc) (n : Nat) :
    Nat → Nat → List (OutCell × Nat) → State × Bool × Bool × List Nat
  | 0, _, _ => (s, false, false, [])
  | fuel + 1, m, l =>
    let r := s.tailLine c rt a od m (l.take n)
    let q := r.1.tailLines c rt a od n fuel (m + 1) (l.drop n)
    (q.1, r.2.1 || q.2.1, r.2.2.1 || q.2.2.1, r.2.2.2 ++ q.2.2.2)

/-- The sum of squares of the finite values of a drain, in order (R209). -/
def normSum (ds : List Nat) : Nat := (ds.filter (isFin pF)).foldl (fun x d => fadd pF x (fmul pF d d)) 0

/-- XFAULT of the array (R595): one event for each operation. -/
def State.arrXfault (s : State) (c seq : Nat) : State :=
  (s.updArr c (fun a => { a with xfault := true })).event 0x06 (s.logNum c) (seq % 4096)

/-- The tail of core c reads rows of its spool to add to them (R323). -/
def State.spoolRead (s : State) (c row n : Nat) : State :=
  s.guardRead c (s.loftAddr c (0x300000 + row * 1024)) (n * 1024)

/-- A tile's outputs are drained (R174 to R180, R208). -/
def State.drain (s : State) (c : Nat) (rt : RunTile) : State :=
  let t := rt.tile
  let a := adesc t.desc
  let sd := tdesc t.sdesc t.sFall
  let wd := tdesc t.wdesc t.wFall
  let od := tdesc t.odesc false
  let n := (outDims t.kind a).2
  let rows := rowsPer t.kind t.pair * a.vectors
  let outs := rt.outs
  let s := if a.drain = 1 ∨ a.drain = 2 then s.spoolRead c a.spRow rows else s
  let s := if a.drain < 3 then s.endLoftGuards c (0x300000 + a.spRow * 1024) (rows * 1024) else s
  let k := s.core c
  let k := if a.drain = 0 then k.spoolClear a.spRow rows rt.etile else k
  let r := k.drainCells rt a (fp4n sd.fmt + fp4n wd.fmt) (scaleProd sd wd) outs
  let s := s.setCore c r.1
  let s := s.countSat c od.watch ((outs.filter (fun o => o.sat && !o.nan)).length)
  if a.drain < 2 then s
  else
    let q := s.tailLines c rt a od n a.vectors 0 r.2
    let s := q.1
    let s := if q.2.1 && !rt.xfault then s.arrXfault c rt.seq else s
    let s := if q.2.2.1 then s.countNonfinite c od.watch else s
    if t.kind = .dist then s else s.countNorm c od.watch (t.kind == .ig) (normSum q.2.2.2)

/-- An entry named by a released derivative job is freed, and its successor recalled (R282). -/
def State.releaseJob (s : State) (c : Nat) (t : Tile) : State :=
  let j := stepJob t.job
  if t.kind = .ig ∧ !(t.job.isEmpty) ∧ !(bit 0 j.flags) ∧ bit 1 j.flags then
    let nx := (s.core c).entNext j.entry
    let s := s.freeEnt c j.entry
    if bit 15 nx then s.askRecall c (nx % 256) else s
  else s

/-! ### Order of drains and spills (R147) -/

/-- The spool bytes a drain or spill writes. -/
def Tile.spoolRun (t : Tile) : Option (Nat × Nat) :=
  match t.kind with
  | .spill => if t.checkOnly then none else some (t.addr, if t.pair then 0x100000 else 0x80000)
  | .wg => none
  | _ =>
    let a := adesc t.desc
    if a.drain < 3 then some (a.spRow * 1024, rowsPer t.kind t.pair * a.vectors * 1024) else none

/-- Whether an operation must come after another in the spool. -/
def Tile.after (t p : Tile) : Bool :=
  match t.spoolRun, p.spoolRun with
  | some x, some y => decide (p.gid < t.gid) && runsMeet x.1 x.2 y.1 y.2
  | _, _ => false

/-- The spills of a core that have not completed. -/
def ArrSt.openSpills (a : ArrSt) : List Tile :=
  a.spills ++ (match a.spilling with
    | some (p, _) => [p]
    | none => [])

/-- The sums of a tile that drains, as its last vector leaves them in the cells (R120). -/
def ArrSt.flowed (a : ArrSt) (rt : RunTile) : ArrSt :=
  if rt.tile.kind = .ig then { a with es := rt.sums } else { a with ss := rt.sums }

/-- A tile has made its products: its outlier terms are summed, its sums are drained or stand in the accumulators, the entry its job
releases is freed, and what the array's checks find is acted on (R139 to R142, R154, R160, R170, R192, R282). -/
def State.tileDone (s : State) (c : Nat) (rt : RunTile) (fail : Option ChkFail) : State :=
  let s := if fail = some .lane then s.laneFail c else s
  let s := s.laneTerms c rt
  let s := if rt.tile.kind = .wg then s.updArr c (fun a =>
      { (a.runWg rt.tile rt.etile rt.flip rt.xs rt.ws) with
        accSlot := (tdesc rt.tile.sdesc rt.tile.sFall).watch,
        accInj := if rt.inj then some a.armRow else if rt.tile.start then none else a.accInj })
    else (s.drain c rt).updArr c (fun a => a.flowed rt)
  let s := s.updArr c (fun a => { a with running := a.running.drop 1 })
  (s.releaseJob c rt.tile).drainFail c rt fail

/-- TILE_COMPLETE (R154): the tile that started first has made its products: its sums are drained, or stand in the accumulators. `fail`
is a fault that the array's checks meet, `residue` a mismatch in the tail (R542). DESIGN CHOICE, log entry 35. -/
def execTileComplete (c : Nat) (fail : Option ChkFail) (residue : Bool) (s : State) : Host.Outcome State Fault Refusal :=
  .next (s.coreAccess c (fun s =>
    match (s.core c).arr.running with
    | [] => s
    | rt :: _ =>
      let a := (s.core c).arr
      if !(s.coreRuns c) || (a.paused && rt.tile.kind == .wg && rt.left ≠ 0) || a.openSpills.any rt.tile.after then s
      else if residue then s.coreFault c 0x1003
      else s.tileDone c rt fail))

/-! ### Spills (R146, R169 to R176) -/

/-- SPILL_START (R143, R146, R147): the spill granted first begins once the weight-gradient tiles granted before it have made
their products. For a forced check-only spill, one that streams is paused, and ARR_FORCED_CHECKS counts it here rather than at its
end: DESIGN CHOICE, log entry 106. -/
def execSpillStart (c : Nat) (s : State) : Host.Outcome State Fault Refusal :=
  .next (
    let a := (s.core c).arr
    match a.spills with
    | [] => s
    | t :: rest =>
      let before (p : Tile) : Bool := p.kind == .wg && decide (p.gid < t.gid)
      if !(s.coreRuns c) || a.spilling.isSome || (!t.forced && a.granted.any before)
          || a.running.any (fun r => before r.tile && !(t.forced && r.left ≠ 0)) then s
      else s.updArr c (fun a => { a.bump with
        spills := rest, spilling := some (t, a.tileSeq),
        paused := t.forced && a.running.any (fun r => r.tile.kind == .wg && r.left ≠ 0),
        forcedChecks := if t.forced then cnt a.forcedChecks 1 else a.forcedChecks }))

/-- One accumulator goes into its slot (R174 to R176). -/
def Core.spillCell (k : Core) (t : Tile) (key : Nat) (a : AccCell) : Core :=
  let l := key / 256
  let n := key % 256
  let row := t.addr / 1024 + (if t.pair then 2 * l + n / 128 else l)
  let k := if a.sat && !a.nan then
      (if t.pair then { k with arr := { k.arr with pairSat := cnt k.arr.pairSat 1 } }
       else { k with arr := { k.arr with frameSat := cnt k.arr.frameSat 1 } })
    else k
  if t.add then k.spoolAdd row (n % 128) a.v k.arr.eRes a.nan else k.spoolPut row (n % 128) a.v a.nan

/-- Every accumulator that holds something goes into its slot. -/
def Core.spillCells (k : Core) (t : Tile) : Sparse AccCell → Core
  | [] => k
  | (key, a) :: rest => (k.spillCell t key a).spillCells t rest

/-- The accumulators move to the spool, and are cleared (R146, R171, R172). -/
def State.spillOut (s : State) (c : Nat) (t : Tile) : State :=
  let rows := if t.pair then 1024 else 512
  let s := if t.add then s.spoolRead c (t.addr / 1024) rows else s
  let s := s.endLoftGuards c (0x300000 + t.addr) (rows * 1024)
  let k := s.core c
  let acc := k.arr.acc
  let k := if t.add then k else k.spoolClear (t.addr / 1024) rows k.arr.eRes
  let k := k.spillCells t acc
  let s := s.setCore c { k with arr := { k.arr with acc := [], ckCol := [], ckRow := [], ckCorner := 0, peakLast := k.arr.peak,
                                                    peak := 0, eResFresh := true } }
  s.countSat c k.arr.accSlot ((acc.filter (fun p => p.2.sat && !p.2.nan)).length)

/-- The accumulators' residues with a bit of one of them upset. -/
def ArrSt.accUpset (a : ArrSt) (fail : Option ChkFail) : ArrSt :=
  match fail with
  | some (.sum l n b) =>
    let x : AccCell := sget {} a.acc (l * 256 + n)
    { a with acc := sset {} a.acc (l * 256 + n) { x with ck := x.ck ^^^ 2 ^ b } }
  | _ => a

/-- The sum of the residues of the data cells that a test on row and physical column picks. -/
def ArrSt.ckSum (a : ArrSt) (on : Nat → Nat → Bool) : Nat :=
  ((a.acc.filter (fun p => on (p.1 / 256) (if a.accPaired then p.1 % 256 / 2 else p.1 % 256))).map (·.2.ck)).sum

/-- The comparisons of a spill or check-only spill (R140), the checksum row first and then row by row from the bottom: the logical row
and the column that the first one to fail names. -/
def ArrSt.accMismatch (a : ArrSt) : Option (Option Nat × Nat) :=
  if (a.ckRow.map (·.2)).sum % 2 ^ 24 ≠ a.ckCorner then some (some 512, 0xFF)
  else
    match (List.range 512).reverse.find? (fun l => a.ckSum (fun l' _ => l' == l) % 2 ^ 24 ≠ sget 0 a.ckCol l) with
    | some l => some (some l, 0xFF)
    | none =>
      ((List.range 128).find? (fun n => a.ckSum (fun _ n' => n' == n) % 2 ^ 24 ≠ sget 0 a.ckRow n)).map (fun n => (none, n))

/-- The checks of a spill (R140, R141, R160). -/
def State.spillFail (s : State) (c kind seq : Nat) (a : ArrSt) (fail : Option ChkFail) : State :=
  match fail with
  | some (.cell r n) => s.arrayFail c 3 r n seq
  | _ =>
    match a.accInj with
    | some row => s.arrayFail c kind row 0xFF seq
    | none =>
      match (a.accUpset fail).accMismatch with
      | some (some l, n) => s.arrayFail c kind (physRow (s.core c).retired l) n seq
      | some (none, n) => s.arrayFail c kind 0x3FF n seq
      | none => s

/-- A spill t in progress, number seq, is done: its values have moved, and its checks are acted on (R140, R143, R146). -/
def State.spillDone (s : State) (c : Nat) (t : Tile) (seq : Nat) (fail : Option ChkFail) : State :=
  let a := (s.core c).arr
  let s := if t.checkOnly then s else s.spillOut c t
  let later := (a.granted ++ a.running.map (·.tile)).any (fun p => p.kind == .wg && (a.paused || decide (t.gid < p.gid)))
  let s := s.updArr c (fun a => { a with spilling := none, unchecked := later, chkTimer := 0, paused := false,
                                         accInj := none })
  s.spillFail c (if t.checkOnly then 2 else 1) seq a fail

/-- SPILL_COMPLETE (R143, R146): the values that a paused weight-gradient tile goes on to form are unchecked again. -/
def execSpillComplete (c : Nat) (fail : Option ChkFail) (residue : Bool) (s : State) : Host.Outcome State Fault Refusal :=
  .next (s.coreAccess c (fun s =>
    let a := (s.core c).arr
    match a.spilling with
    | none => s
    | some (t, seq) =>
      if !(s.coreRuns c) || (a.granted ++ a.running.map (·.tile)).any t.after then s
      else if residue then s.coreFault c 0x1003
      else s.spillDone c t seq fail))

/-! ### Accesses that fail after issue (R595) -/

/-- Whether an address meets an access that fails: no region holds it, or its die is in reset. -/
def State.failsAt (s : State) (a : Nat) : Bool :=
  match s.locate a with
  | .bad => true
  | .remote _ => true
  | .ctrl _ => true
  | _ => false

/-- Element e of a line after the read of a 256-byte block has failed (R133, R188, R595). `mul` says that the tile multiplies, `code`
and `ow` whether it reads the line's codes and scales, and its outlier words. -/
def TDesc.failEl (d : TDesc) (mul code ow : Bool) (blk line e : Nat) (x : El) : El :=
  let at0 := d.codeBase + line * d.codeStride + e / 32 * blkBytes d.fmt
  let own := code && meets256 blk (at0 + codeByte d.fmt (e % 32)) 1
  let side := (code && fScaled d.fmt && meets256 blk (d.scaleBase + line * d.scaleStride + e / 32) 1)
    || (ow && d.outl && meets256 blk (d.outlBase + line * d.outlStride + 4 * (e / 32)) 4)
  let x := { x with lost := x.lost || own }
  if mul && (side || (code && meets256 blk at0 (blkBytes d.fmt))) then
    if own || side then { x with bad := true, outl := false, u := qnan pF } else { x with bad := true }
  else x

/-- Lines of elements, from a line and an element on, after the read of a block has failed. -/
def TDesc.failLines (d : TDesc) (mul code ow : Bool) (blk line e : Nat) (l : List (List El)) : List (List El) :=
  (indexed line l).map (fun r => (indexed e r.2).map (fun x => d.failEl mul code ow blk r.1 x.1 x.2))

/-- The operands of a running tile after the read of a block has failed. -/
def RunTile.readFail (rt : RunTile) (blk : Nat) : RunTile :=
  let t := rt.tile
  let a := adesc t.desc
  let mul := t.kind != .dist
  { rt with xfault := true,
            xs := (tdesc t.sdesc t.sFall).failLines mul true mul blk a.sLine a.sElem rt.xs,
            ws := (tdesc t.wdesc t.wFall).failLines mul (t.kind = .wg || t.loadw) mul blk a.wLine a.wElem rt.ws }

/-- A cell's stationary code after the read of a block by the tile that loaded it has failed. -/
def WtCell.fail (w : WtCell) (t : Tile) (blk l n : Nat) : WtCell :=
  let a := adesc t.desc
  let d := tdesc t.wdesc t.wFall
  let x := { img := w.img, b := w.b, bad := w.bad, lost := w.lost : El }
  let x := if t.kind = .ig then d.failEl true true true blk (a.wLine + l) (a.wElem + n) x
    else d.failEl true true (t.kind != .dist) blk (a.wLine + n) (a.wElem + l) x
  { w with bad := x.bad, lost := x.lost, uNan := w.uNan || isNan pF x.u }

/-- The operands of a tile that runs on codes which another tile loaded, after that tile's read of a block has failed. -/
def RunTile.wtFail (rt : RunTile) (t : Tile) (blk : Nat) : RunTile :=
  let f (l n : Nat) (x : El) : El :=
    let w := ({ loaded := true, bad := x.bad, lost := x.lost } : WtCell).fail t blk l n
    { x with bad := w.bad, lost := w.lost, u := if w.uNan then qnan pF else x.u, outl := x.outl && !w.uNan }
  { rt with ws := (indexed 0 rt.ws).map (fun r => (indexed 0 r.2).map (fun x =>
      if rt.tile.kind = .ig then f r.1 x.1 x.2 else f x.1 r.1 x.2)) }

/-- The tiles that run after the one numbered seq, up to the next that loads weights. -/
def ArrSt.users (a : ArrSt) (seq : Nat) : List Nat :=
  (((a.running.dropWhile (fun r => r.seq ≠ seq)).drop 1).takeWhile (fun r => !r.tile.loadw)).filterMap (fun r =>
    if r.tile.kind = .wg then none else some r.seq)

/-- The array after a feeder read of the running tile numbered seq has failed (R595). -/
def ArrSt.readFail (a : ArrSt) (rt : RunTile) (blk : Nat) : ArrSt :=
  let t := rt.tile
  let us := if t.loadw then a.users rt.seq else []
  let last := !(((a.running.dropWhile (fun r => r.seq ≠ rt.seq)).drop 1).any (fun r => r.tile.loadw))
  { a with
    running := a.running.map (fun r =>
      if r.seq = rt.seq then r.readFail blk else if us.contains r.seq then r.wtFail t blk else r),
    wt := if t.loadw && last then a.wt.map (fun p => (p.1, p.2.fail t blk (p.1 / 256) (p.1 % 256))) else a.wt }

/-- Whether a tile's outputs meet the 256-byte block of an address. -/
def Tile.outMeets (t : Tile) (blk : Nat) : Bool :=
  let a := adesc t.desc
  let od := tdesc t.odesc false
  let w := if od.fmt = 8 then 2 else 4
  t.kind != .wg && decide (2 ≤ a.drain) && (List.range a.vectors).any (fun m =>
    meets256 blk (od.codeBase + (a.oLine + m) * od.codeStride + a.oElem * w) ((outDims t.kind a).2 * w))

/-- ARRAY_ACCESS_FAIL (R595): an access of the running tile numbered seq, at an address that fails, fails. -/
def execArrayAccessFail (c seq : Nat) (write : Bool) (addr : W64) (s : State) : Host.Outcome State Fault Refusal :=
  .next (
    match (s.core c).arr.running.find? (fun r => r.seq == seq) with
    | none => s
    | some rt =>
      let b := addr.toNat
      let set (f : RunTile → RunTile) (s : State) : State :=
        s.updArr c (fun a => { a with running := a.running.map (fun r => if r.seq = seq then f r else r) })
      if !(s.failsAt b) then s
      else if write then
        if rt.tile.outMeets b ∧ !(rt.wfail.contains b) then
          (set (fun r => { r with wfail := b :: r.wfail, xfault := true }) s).arrXfault c seq
        else s
      else if rt.tile.spans.any (fun p => meets256 b p.1 p.2) then
        (s.updArr c (fun a => a.readFail rt b)).arrXfault c seq
      else s)

end Sys2Proof.Machine
end

