-- ==== Sys2Proof/Machine/Cor.lean ====
section
/-! DEFINITION. The correction lane's own instructions (R196, R199 to R203, R594). -/

namespace Sys2Proof.Machine

open Sys2Proof

/-- A lane descriptor (R200, R201): `rank` is r. -/
structure LDesc where
  adesc : Nat
  fdesc : Nat
  aLine : Nat
  aElem : Nat
  fLine : Nat
  m : Nat
  len : Nat
  rank : Nat
  acc : Bool
  zbase : Nat
  zstride : Nat
  cbase : Nat
  cstride : Nat

/-- The fields of a lane descriptor. -/
def ldesc (b : List Byte) : LDesc :=
  { adesc := leAt b 0 4, fdesc := leAt b 4 4, aLine := leAt b 8 4, aElem := leAt b 12 4, fLine := leAt b 16 4,
    m := leAt b 20 4, len := leAt b 24 4, rank := [0, 8, 16, 32, 64].getD (leAt b 28 1 % 8) 0, acc := bit 0 (leAt b 29 1),
    zbase := leAt b 32 4, zstride := leAt b 36 4, cbase := leAt b 40 4, cstride := leAt b 44 4 }

/-- Lines of 4n bytes each, m of them, that do not lie in scratch as step 2 of R594 asks. -/
def linesBad (base stride m n : Nat) : Bool :=
  base % 4 != 0 || stride % 4 != 0 || decide (stride < 4 * n) || decide (0x400000 < base + (m - 1) * stride + 4 * n)

/-- Step 2 of R594. -/
def ldescBad (expand : Bool) (b : List Byte) : Bool :=
  let l := ldesc b
  leAt b 28 1 / 8 != 0 || leAt b 29 1 / 2 != 0 || !(zeros b 30 2) || !(zeros b 48 16) || (expand && l.adesc != 0)
    || decide (4 < leAt b 28 1 % 8) || l.m == 0 || decide (16777216 < l.m) || l.len == 0 || decide (16777216 < l.len)
    || (l.rank != 0 && linesBad l.zbase l.zstride l.m l.rank)
    || (expand && linesBad l.cbase l.cstride l.m l.len)

/-- Steps 3 and 4 of R594: the input's and the factor's descriptors as read. -/
def Core.corDescs (k : Core) (expand : Bool) (l : LDesc) : Except Nat ((List Byte × Bool) × (List Byte × Bool)) :=
  if l.rank = 0 then .ok (([], false), ([], false))
  else
    match (if expand then .ok ([], false) else k.descAt l.adesc : Except Nat (List Byte × Bool)) with
    | .error e => .error e
    | .ok a =>
      match k.descAt l.fdesc with
      | .error e => .error e
      | .ok f =>
        let ad := tdesc a.1 a.2
        let fd := tdesc f.1 f.2
        if fd.fmt != 8 || decide (fd.lineLen < l.rank) || decide (fd.lines < l.fLine + l.len)
            || (!expand && (ad.fmt == 2 || ad.fmt == 3 || !(ad.fits l.aLine l.m l.aElem l.len))) then .error 0x30
        else .ok (a, f)

/-- The checks of R594 but the last, and the operation they let through. -/
def State.corCheck (s : State) (c : Nat) (x : Stream) (expand : Bool) (a : W64) (out : Bool) : Except Nat CorOp :=
  let k := s.core c
  match (if out then none else s.ownScr c a.toNat) with
  | none => .error 0x30
  | some o =>
    let b := k.scr o 64
    if o % 64 ≠ 0 || ldescBad expand b then .error 0x30
    else
      match k.corDescs expand (ldesc b) with
      | .error e => .error e
      | .ok (ad, fd) => .ok { x, expand, id := 0, desc := b, adesc := ad.1, fdesc := fd.1, aFall := ad.2 }

/-- The scratch offsets of the descriptors that a lane instruction reads at its issue (R200, R323). -/
def State.corReads (s : State) (c : Nat) (expand : Bool) (a : W64) : List Nat :=
  match s.ownScr c a.toNat with
  | none => []
  | some o =>
    let l := ldesc ((s.core c).scr o 64)
    [o] ++ (if l.rank = 0 then [] else (if expand then [] else [l.adesc]) ++ [l.fdesc])

/-- COR.PROJ or COR.EXPAND (R195, R200, R203, R594): after its checks it takes its place in the lane's queue of four. -/
def State.corIssue (s : State) (c : Nat) (x : Stream) (expand : Bool) (w : InsnW) : State :=
  s.coreAccess c (fun s => s.issue c x w (fmtM w && iD w == 0) [] (fun s =>
    let t := (s.core c).st x
    let s := s.touchAll c (s.corReads c expand (offAdd (t.getA (iA w)) (iImm w)))
    match s.corCheck c x expand (offAdd (t.getA (iA w)) (iImm w)) (offOut (offSum (t.getA (iA w)) (iImm w))) with
    | .error code => s.raise c x code
    | .ok q =>
      let n := (s.core c).cost' 6 (ldesc q.desc).m 64
      if (s.core c).cap < n then s.raise c x 0x06
      else if 4 ≤ (s.core c).lane.queue.length then s.waitFor c x .tileQueue
      else s.pay c x n (fun s =>
        let r := s.ticket c
        (r.2.updCore c (fun k => { k with lane := { k.lane with queue := k.lane.queue ++ [{ q with id := r.1 }] } })).retire
          c x)))

/-- COR.PROJ (R200 to R203). -/
def execCorProj (c : Nat) (x : Stream) (w : InsnW) (s : State) : Host.Outcome State Fault Refusal :=
  .next (s.corIssue c x false w)
/-- COR.EXPAND (R200 to R203). -/
def execCorExpand (c : Nat) (x : Stream) (w : InsnW) (s : State) : Host.Outcome State Fault Refusal :=
  .next (s.corIssue c x true w)

/-! ### What the lane computes (R202) -/

/-- The sum of products of two lines of FP32 values, in order, from +0. -/
def dotF : Nat → List Nat → List Nat → Nat
  | s, x :: xs, y :: ys => dotF (fadd pF s (fmul pF x y)) xs ys
  | s, _, _ => s

/-- Values written to scratch as FP32, added to what is there when `acc`. -/
def State.lanePut (s : State) (c o : Nat) (acc : Bool) (vs : List Nat) : State :=
  let s := if acc then s.scrRead c o (4 * vs.length) else s
  let old := (s.core c).scr o (4 * vs.length)
  let out := (indexed 0 vs).flatMap (fun v => leBytes 4 (if acc then fadd pF (leAt old (4 * v.1) 4) v.2 else v.2))
  s.scrWrite c o out

/-- The column j of a factor. -/
def facCol (fac : List (List El)) (j : Nat) : List Nat := fac.map (fun r => (r.getD j {}).u)

/-- Lines m on of Z (R202): the state, and the outlier words ignored. -/
def State.projLines (s : State) (c : Nat) (l : LDesc) (ad : TDesc) (fac : List (List El)) : Nat → Nat → State × Nat
  | _, 0 => (s, 0)
  | m, n + 1 =>
    let r := s.tRead ad true (l.aLine + m) l.aElem l.len
    let a := r.2.els.map (fun e => if ad.fmt = 9 then ofB (toB e.u) else e.u)
    let z := (List.range l.rank).map (fun j => fmul pF (dotF 0 a (facCol fac j)) ad.scale)
    let q := (r.1.lanePut c (l.zbase + m * l.zstride) l.acc z).projLines c l ad fac (m + 1) n
    (q.1, r.2.ign + q.2)

/-- Lines m on of the correction accumulator (R202). -/
def State.expandLines (s : State) (c : Nat) (l : LDesc) (fac : List (List El)) : Nat → Nat → State
  | _, 0 => s
  | m, n + 1 =>
    let s := s.scrRead c (l.zbase + m * l.zstride) (4 * l.rank)
    let zb := (s.core c).scr (l.zbase + m * l.zstride) (4 * l.rank)
    let z := (List.range l.rank).map (fun j => ofB (toB (leAt zb (4 * j) 4)))
    let v := if l.rank = 0 then List.replicate l.len 0 else fac.map (fun r => dotF 0 z (r.map (·.u)))
    (s.lanePut c (l.cbase + m * l.cstride) l.acc v).expandLines c l fac (m + 1) n

/-- The ac of lane cycles an operation takes (R203). -/
def CorOp.cycles (o : CorOp) : Nat :=
  let l := ldesc o.desc
  cdiv (l.m * l.len * (if l.rank = 0 && o.expand then 1 else l.rank)) 512

/-- The first word an operation reads, for its error code. -/
def State.corLoc (s : State) (c : Nat) (o : CorOp) : Loc :=
  let l := ldesc o.desc
  if l.rank = 0 then .bad
  else if o.expand then .scratch c l.zbase
  else
    let ad := tdesc o.adesc o.aFall
    s.locate (ad.codeBase + l.aLine * ad.codeStride)

/-- An operation's whole effect on scratch. DEDUCED, log entry 41. -/
def State.corRun (s : State) (c : Nat) (o : CorOp) : State :=
  let l := ldesc o.desc
  let f := if l.rank = 0 then (s, ({ rows := [] } : LineRead))
    else s.tReadLines (tdesc o.fdesc false) false 0 l.rank l.fLine l.len
  if o.expand then f.1.expandLines c l f.2.rows 0 l.m
  else if l.rank = 0 then s
  else
    let ad := tdesc o.adesc o.aFall
    let r := f.1.projLines c l ad f.2.rows 0 l.m
    let s := r.1.countSat c ad.watch r.2
    if r.2 = 0 then s else s.updCore c (fun k => { k with lane := { k.lane with outlIgn := true } })

/-- COR_OP_COMPLETE (R195, R199, R202, R203): the operation at the head of the lane's queue completes. With a mismatch
the lane writes nothing more. -/
def execCorOpComplete (c : Nat) (e : Ecc) (mismatch : Bool) (s : State) : Host.Outcome State Fault Refusal :=
  .next (s.coreAccess c (fun s =>
    let k := s.core c
    match k.lane.queue with
    | [] => s
    | o :: rest =>
      if !(s.coreRuns c) || k.lane.chkFail then s
      else if mismatch then s.laneFail c
      else
        let ec := s.eccAt (s.corLoc c o) e
        if !ec.2 then ec.1
        else
          (ec.1.corRun c o).updCore c (fun k =>
            { k with stallTicks := 0, lane := { k.lane with queue := rest, busy := cnt k.lane.busy o.cycles } })))

end Sys2Proof.Machine
end

