-- ==== Sys2Proof/Machine/Cred.lean ====
section
/-! DEFINITION. The CRED instructions (R99, R100) and the balance (R97, R115). -/

namespace Sys2Proof.Machine

open Sys2Proof

/-- CRD.GET (R100). -/
def execCrdGet (c : Nat) (x : Stream) (w : InsnW) (s : State) : Host.Outcome State Fault Refusal :=
  .next (s.issue c x w (fmtI w && iA w == 0 && iImmU w == 0) []
    (fun s => s.retS c x (iD w) (BitVec.ofNat 64 (s.core c).credit)))

/-- CRD.WAIT (R100). A nonzero D or B is ILLEGAL_OP: DESIGN CHOICE, log entry 106. -/
def execCrdWait (c : Nat) (x : Stream) (w : InsnW) (s : State) : Host.Outcome State Fault Refusal :=
  .next (s.issue c x w (fmtR w && iD w == 0 && iB w == 0) [iA w] (fun s =>
    let k := s.core c
    let v := ((k.st x).getS (iA w)).toNat
    if k.cap < v then s.raise c x 0x06
    else if v ≤ k.credit then s.retire c x
    else s.waitFor c x .crdWait))

/-- CRD.GIVE (R99, R100, R454): one credit return leaves for the envelope controller. A nonzero D or B is ILLEGAL_OP: DESIGN CHOICE,
log entry 106. -/
def execCrdGive (c : Nat) (x : Stream) (w : InsnW) (s : State) : Host.Outcome State Fault Refusal :=
  .next (s.issue c x w (fmtR w && iD w == 0 && iB w == 0) [iA w] (fun s =>
    let k := s.core c
    let n := Nat.min ((k.st x).getS (iA w)).toNat k.credit
    let s := s.updCore c (fun k => { k with credit := k.credit - n })
    ({ s with env := { s.env with msgs := s.env.msgs ++ [.give (s.logNum c) n] } } : State).retire c x))

/-- The balance of a core after a deal (R97, R99). -/
def Core.addCredit (k : Core) (n : Nat) : Core :=
  let b := k.credit + n
  if k.cap < b then { k with credit := k.cap, lost := cnt k.lost (b - k.cap) } else { k with credit := b }

/-- Whether an envelope message is a deal to core c. -/
def EnvMsg.dealTo (c : Nat) : EnvMsg → Bool
  | .deal c' _ _ _ => c' == c
  | _ => false

/-- CREDIT_DEAL (R454): message k of the bridle's envelope messages, a deal, reaches its core; deals to one core come in the order
they were sent (R386).
DEDUCED, log entry 61. -/
def execCreditDeal (k : Nat) (s : State) : Host.Outcome State Fault Refusal :=
  .next (match s.env.msgs[k]? with
    | some (.deal c n _ _) =>
      if (s.env.msgs.take k).any (fun m => m.dealTo c) then s else
      let s := { s with env := { s.env with msgs := s.env.msgs.eraseIdx k } }
      if (s.core c).fenced || s.dieOut (dieOfCore c) then s
      else s.updCore c (fun q => (q.addCredit n).poke)
    | _ => s)

end Sys2Proof.Machine
end

