-- ==== Sys2Proof/Machine/Ctrl.lean ====
section
/-! DEFINITION. The CTRL instructions (R73, R81, R104). -/

namespace Sys2Proof.Machine

open Sys2Proof

/-- The stream goes on at pc, when that is an instruction in scratch; else FETCH_FAULT (R72, R81). -/
def State.jump (s : State) (c : Nat) (x : Stream) (pc : Int) (before : State → State) : State :=
  if pc < 0 ∨ 0x400000 ≤ pc ∨ pc % 8 ≠ 0 then s.raise c x 0x08
  else (before s).goto c x pc.toNat

/-- The target of a J-format branch: PC + 8 × IMM (R81). -/
def State.target (s : State) (c : Nat) (x : Stream) (w : InsnW) : Int :=
  (((s.core c).st x).pc : Int) + 8 * iImm w

/-- NOP (R81). -/
def execNop (c : Nat) (x : Stream) (w : InsnW) (s : State) : Host.Outcome State Fault Refusal :=
  .next (s.issue c x w (fmtJ w && iImmU w == 0) [] (fun s => s.retire c x))

/-- HALT (R81). -/
def execHalt (c : Nat) (x : Stream) (w : InsnW) (s : State) : Host.Outcome State Fault Refusal :=
  .next (s.issue c x w (fmtJ w && iImmU w == 0) []
    (fun s => (s.retire c x).updSt c x (fun t => { t with state := .halted })))

/-- BR (R79, R81). -/
def execBr (c : Nat) (x : Stream) (w : InsnW) (s : State) : Host.Outcome State Fault Refusal :=
  .next (s.issue c x w (fmtJ w) [] (fun s => s.jump c x (s.target c x w) id))

/-- CALL (R81): s31 takes PC + 8. -/
def execCall (c : Nat) (x : Stream) (w : InsnW) (s : State) : Host.Outcome State Fault Refusal :=
  .next (s.issue c x w (fmtJ w) [] (fun s => s.jump c x (s.target c x w)
    (fun s => s.updSt c x (fun t => t.setS 31 (BitVec.ofNat 64 (t.pc + 8))))))

/-- JR (R81): the unsigned value of sA is the target. A nonzero D or B is ILLEGAL_OP: DESIGN CHOICE, log entry 106. -/
def execJr (c : Nat) (x : Stream) (w : InsnW) (s : State) : Host.Outcome State Fault Refusal :=
  .next (s.issue c x w (fmtR w && iD w == 0 && iB w == 0) [iA w]
    (fun s => s.jump c x (((s.core c).st x).getS (iA w)).toNat id))

/-- The tiles of stream x in flight: those placed in its queue and not yet drained completely (R81). -/
def ArrSt.inFlight (a : ArrSt) (x : Stream) : Nat :=
  let mine (l : List Tile) : Nat := (l.filter (fun t => t.x == x)).length
  mine a.tqA + mine a.tqB + mine a.granted + mine (a.running.map (·.tile)) + mine a.spills
    + mine (match a.spilling with
      | some (t, _) => [t]
      | none => [])

/-- TWAIT (R81). -/
def execTwait (c : Nat) (x : Stream) (w : InsnW) (s : State) : Host.Outcome State Fault Refusal :=
  .next (s.issue c x w (fmtJ w && decide (iImmU w ≤ 7)) []
    (fun s => if (s.core c).arr.inFlight x ≤ iImmU w then s.retire c x else s.waitFor c x .twait))

/-- RWAIT (R81). A nonzero unused bit of IMM is ILLEGAL_OP: DESIGN CHOICE, log entry 106. -/
def execRwait (c : Nat) (x : Stream) (w : InsnW) (s : State) : Host.Outcome State Fault Refusal :=
  .next (s.issue c x w (fmtJ w && iw w 31 17 == 0 && iw w 15 9 == 0) []
    (fun s => if ((s.core c).reel (iw w 16 16)).pending ≤ iw w 8 0 then s.retire c x
              else s.waitFor c x .rwait))

/-- The remote scalar accesses, and, when `writes`, the remote writes, of a stream that are not yet answered. -/
def State.farReqs (s : State) (c : Nat) (x : Stream) (writes : Bool) : Bool :=
  s.teth.reqs.any (fun q => match q.who with
    | .load c' x' _ _ _ => c' == c && x' == x && !writes
    | .store c' x' => c' == c && x' == x
    | _ => false)

/-- Whether an accepted vector instruction writes to another device than `self`. -/
def VInsn.farWrite (i : VInsn) (self : Nat) : Bool := (i.memSpans true).any (fun p => aDev p.1 != self)

/-- Whether a pending descriptor of a reel, made pending by stream x, writes to another device than `self` (R93). -/
def Core.reelFar (k : Core) (q : Reel) (x : Stream) (self : Nat) : Bool :=
  (List.range q.pending).any (fun j =>
    let b := match q.prog[j]? with
      | some p => p.desc
      | none => k.scr (q.base * 64 + 64 * ((q.head + j) % (q.sizeM1 + 1))) 64
    q.owners.getD j .a == x && leAt b 38 1 != 3 && aDev (leAt b 8 8) != self)

/-- Whether a remote write of stream x of core c is not yet acknowledged, or one of an earlier vector instruction or descriptor has
not left. -/
def State.farWrites (s : State) (c : Nat) (x : Stream) : Bool :=
  let k := s.core c
  s.farReqs c x true || k.vec.queue.any (fun i => i.x == x && i.farWrite s.teth.self)
    || k.reelFar k.reel0 x s.teth.self || k.reelFar k.reel1 x s.teth.self

/-- Whether the operations of class b of R104 of stream x of core c are complete and visible. DEDUCED, log entry 8. -/
def State.fenceOk (s : State) (c : Nat) (x : Stream) (b : Nat) : Bool :=
  let k := s.core c
  match b with
  | 0 => !(k.loads.any (fun l => l.x == x)) && !(s.farReqs c x false)
  | 1 => !(k.vec.queue.any (fun v => v.x == x))
  | 2 => k.arr.inFlight x == 0 && !(k.lane.queue.any (fun o => o.x == x))
  | 3 => !(k.reel0.owners.contains x) && !(k.reel1.owners.contains x)
  | 4 => !(s.farWrites c x)
  | _ => true

/-- FENCE (R104). A stream that waits at a FENCE for another device is WAITING for remote data. A nonzero unused bit of IMM is
ILLEGAL_OP: DESIGN CHOICE, log entry 106. -/
def execFence (c : Nat) (x : Stream) (w : InsnW) (s : State) : Host.Outcome State Fault Refusal :=
  .next (s.issue c x w (fmtJ w && iw w 31 5 == 0) []
    (fun s =>
      let open' := (setBits 5 (iImmU w)).filter (fun b => !(s.fenceOk c x b))
      if open'.isEmpty then s.retire c x
      else if (open'.contains 0 && s.farReqs c x false) || open'.contains 4 then s.waitFor c x .remote
      else s))

/-- SYNCI (R73): the command that follows is a word fetched after it. -/
def execSynci (c : Nat) (x : Stream) (w : InsnW) (s : State) : Host.Outcome State Fault Refusal :=
  .next (s.issue c x w (fmtJ w && iImmU w == 0) [] (fun s => s.retire c x))

/-- EVENT (R81, R563). A nonzero unused bit of IMM is ILLEGAL_OP: DESIGN CHOICE, log entry 106. -/
def execEvent (c : Nat) (x : Stream) (w : InsnW) (s : State) : Host.Outcome State Fault Refusal :=
  .next (s.issue c x w (fmtJ w && iw w 31 16 == 0) []
    (fun s => (s.event 0x01 (s.logNum c) (sNum x * 0x10000 + iw w 15 0)).retire c x))

end Sys2Proof.Machine
end

