-- ==== Sys2Proof/Machine/PortOps.lean ====
section
/-! DEFINITION. Tether ports and the peer directory: the resend window (R397), loss of a partner (R398, R410), handshakes
(R408, R409, R511) and the checks of a received block (R396 to R407, R414). -/

namespace Sys2Proof.Machine

open Sys2Proof

/-! ### The directory (R410, R412) -/

/-- A directory entry takes a state; SEEN follows a change (R411). -/
def State.peerTo (s : State) (d : Nat) (st : PeerState) : State :=
  let e := s.peer d
  if e.state = st then s else s.setPeer d { e with state := st, seen := s.env.ticks % 2 ^ 32 }

/-- The keys of a device are erased, and with them its flows and what waits to be encrypted with them (R512). -/
def State.eraseKeys (s : State) (d : Nat) : State :=
  let keep (x : TxBlock) : Bool := x.blk.dst != d || (match x.how with
    | .flow _ => false
    | _ => true)
  let cut (q : Port) : Port := { q with waiting := q.waiting.filter keep }
  let ports := smap {} cut s.teth.ports
  { s with teth := { s.teth with keys := s.teth.keys.filter (fun k => k.dev ≠ d),
                                 flows := s.teth.flows.filter (fun f => f.src ≠ d && f.dst ≠ d), ports } }

/-- Entries leave UP for LOST with their next hop (R410). -/
def State.loseRouted (s : State) : List Nat → State
  | [] => s
  | d :: t => ((s.peerTo d .lost).eraseKeys d).loseRouted t

/-- The ROUTED entries that are UP through a device. -/
def State.routedVia (s : State) (d : Nat) : List Nat :=
  (s.teth.peers.filter (fun p => p.1 ≠ d && p.2.state == .up && bit 0 p.2.flags && p.2.nextDev == d)).map (·.1)

/-- The entry of device d leaves UP (R410). -/
def State.leaveUp (s : State) (d : Nat) (st : PeerState) : State :=
  let rs := s.routedVia d
  (((s.peerTo d st).eraseKeys d).loseRouted rs).event 0x31 d rs.length

/-- Several entries leave UP for LOST. -/
def State.loseAll (s : State) : List Nat → State
  | [] => s
  | d :: t => (if (s.peer d).state = .up then s.leaveUp d .lost else s).loseAll t

/-- Port p's bit is cleared from every entry (R410). -/
def State.clearPort (s : State) (p : Nat) : State :=
  let off (n : Nat) : Nat := if bit p n then n - 2 ^ p else n
  let lost := (s.teth.peers.filter (fun q => q.2.state == .up && bit p q.2.ports && off q.2.ports == 0)).map (·.1)
  let peers := smap {} (fun e => { e with ports := off e.ports }) s.teth.peers
  ({ s with teth := { s.teth with peers } } : State).loseAll lost

/-- The numbering of both directions of a link begins again (R397, R398). DEDUCED, log entry 63. -/
def Port.renumber (p : Port) : Port := { p with held := [], lseq := 0, expect := 0, fails := 0, naked := false, hs := none }

/-- Port p loses its partner, its link key and the traffic held for resend (R410, R512). DEDUCED, log entry 63. -/
def State.losePartner (s : State) (p : Nat) : State :=
  if (s.port p).peerRole = 0 then s
  else
    (s.updPort p (fun q => { q.renumber with
      lost := true, peerDev := 0xFFFF, peerPort := 0, peerRole := 0, linkKey := [], rxFlows := [] })).clearPort p

/-- A port retrains (R398). -/
def Port.retrain (p : Port) : Port := { p.renumber with state := .retraining, retrains := cnt p.retrains 1 }

/-- Port p is held untrained (R438, R542). -/
def State.holdPort (s : State) (p : Nat) : State :=
  (s.updPort p (fun q => { q.renumber with down := true, state := .off })).losePartner p

/-- End-to-end handshakes start with the devices that have become reachable and have higher IDs (R409). -/
def State.meetPeers (s : State) : List Nat → State
  | [] => s
  | d :: t =>
    let e := s.peer d
    let go := decide (s.teth.self < d) && (e.state == .expected || e.state == .lost) && !(s.teth.e2e.any (fun h => h.peer == d))
    (if go then s.startE2e d else s).meetPeers t

/-- The devices that the directory names. -/
def State.peerIds (s : State) : List Nat := s.teth.peers.map (·.1)

/-- The entry of device d becomes UP (R410), and routes through it become usable. -/
def State.becomeUp (s : State) (d : Nat) : State :=
  let e := s.peer d
  let s := ((s.setPeer d { e with appears := (e.appears + 1) % 65536, heard := s.env.ticks }).peerTo d .up).event 0x30 d e.ports
  s.meetPeers s.peerIds

/-! ### Sending again (R397) -/

/-- The number of a port's oldest held block. -/
def Port.oldest (p : Port) : Nat := (p.lseq + 65536 - p.held.length) % 65536

/-- What a received LACK covers is released (R397). -/
def Port.acked (p : Port) (lack : Nat) : Port :=
  let n := (lack + 1 + 65536 - p.oldest) % 65536
  if n ≤ p.held.length then { p with held := p.held.drop n } else p

/-- The credits of a class that have come back: n is what the partner has freed of it since the handshake (R399). DESIGN CHOICE, log entry 62. -/
def Port.credited (p : Port) (cls n : Nat) : Port :=
  if 2 < cls then p else (p.setCred cls (p.cred cls + (n + 16384 - p.seen cls) % 16384)).setSeen cls (n % 16384)

/-- Held blocks go out again, from number n on. -/
def Port.resendList (p : Port) : Nat → List Block → Port
  | _, [] => p
  | n, b :: t =>
    ({ p with sent := p.sent ++ [wireBytes { p.hop with lseq := n } b], resends := cnt p.resends 1 } : Port).resendList
      ((n + 1) % 65536) t

/-- The held blocks from number n on go out again. -/
def Port.resendFrom (p : Port) (n : Nat) : Port :=
  let i := (n + 65536 - p.oldest) % 65536
  if i < p.held.length then p.resendList n (p.held.drop i) else p

/-- A NAK leaves for the block expected (R397). -/
def State.nak (s : State) (p : Nat) : State := (s.updPort p (fun q => { q with naked := true })).sendLink p

/-- A NAK leaves, once for each block that fails to come (R397). -/
def State.nakOn (s : State) (p : Nat) : State := if (s.port p).naked then s else s.nak p

/-! ### Handshakes (R408, R409) -/

/-- The fields of a handshake payload. -/
def hsDev (b : List Byte) : Nat := leAt b 0 2
/-- IDKEY. -/
def hsIdKey (b : List Byte) : List Byte := slice b 16 32
/-- EPHKEY. -/
def hsEph (b : List Byte) : Nat := ofLe (slice b 48 32)
/-- NONCE. -/
def hsNonce (b : List Byte) : List Byte := slice b 80 16
/-- PNONCE. -/
def hsPnonce (b : List Byte) : List Byte := slice b 96 16
/-- Whether the signature verifies (R408). -/
def hsSigned (kind : Nat) (b : List Byte) : Bool := edVerify (hsIdKey b) (leBytes 1 kind ++ b.take 112) (slice b 112 64)

/-- Whether a directory entry takes the partner's key, or learns it (R409). -/
def State.fpOk (s : State) (d : Nat) (fp : List Byte) : Bool :=
  let e := s.peer d
  (e.state == .absent && s.teth.admitNew) || e.fp == fp

/-- Whether a handshake block is accepted (R409, R511); `own` is the nonce its PNONCE must repeat, `z` the shared secret, and
`port` the port of a link handshake. -/
def State.hsOk (s : State) (port : Option Nat) (kind : Nat) (b : List Byte) (own : Option (List Byte)) (z : Nat) : Bool :=
  let fp := fingerprint (hsIdKey b)
  let toSwitch : Bool := (match port with
    | some p => (s.port p).role == .switch
    | none => false)
  hsSigned kind b && (match own with
    | some n => hsPnonce b == n
    | none => true) && z != 0 &&
  (if toSwitch then
    let want := sget [] s.teth.switchFp (port.getD 0)
    hsDev b == 0xFFFF && leAt b 3 1 == 3 && (want.all (· == 0) || want == fp)
  else hsDev b != s.teth.self && hsDev b != 0xFFFF && s.fpOk (hsDev b) fp)

/-- A handshake block is refused (R409). -/
def State.hsRefuse (s : State) (p : Nat) (d : Nat) : State :=
  let s := s.updPort p (fun q => { q with hsRefused := cnt q.hsRefused 1, refused := true })
  let s :=
    if d = s.teth.self ∨ d = 0xFFFF then s
    else if (s.peer d).state = .up then s.leaveUp d .refused
    else s.peerTo d .refused
  s.event 0x32 d p

/-- An ABSENT entry learns the partner's fingerprint (R409). -/
def State.learnFp (s : State) (d : Nat) (fp : List Byte) : State :=
  let e := s.peer d
  if e.state = .absent then s.setPeer d { e with fp } else s

/-- The ROLE a port announces (R408). -/
def Port.roleByte (p : Port) : Nat := match p.role with
  | .switch => 2
  | _ => 1

/-- A link handshake block leaves on port p; it needs no credit. DESIGN CHOICE, log entry 62. -/
def State.sendHs (s : State) (p kind eph : Nat) (nonce pnonce : List Byte) : State :=
  let n := s.nextFseq 0 0xFFFF 0xFFF
  n.2.updPort p (fun q =>
    let payload := hsPayload s.teth.self p q.roleByte kind eph nonce pnonce
    q.emit { cls := 0, kind, enc := false, dst := 0xFFFF, src := s.teth.self, fseq := n.1, payload })

/-- Port p begins its link handshake with a HELLO (R409). -/
def State.startLink (s : State) (p : Nat) : State :=
  let e := s.draw 32
  let n := e.1.draw 16
  let hs : Handshake := { initiator := true, nonce := n.2, eph := ofLe e.2 }
  (n.1.updPort p (fun q => { q with state := .handshake, hs := some hs })).sendHs p 0x3C hs.eph hs.nonce (List.replicate 16 0)

/-- A port that has heard nothing for 1 ms loses its partner and begins again with its handshake (R388, R410). -/
def State.portSilent (s : State) (p : Nat) : State :=
  let q := s.port p
  if !(s.portWin p) || q.state != .up || decide (s.env.ticks < q.heard + 50000) then s else (s.losePartner p).startLink p

/-- The flow keys with a device after a handshake (R406, R511): of an entry that is UP they begin a new epoch. -/
def State.takeKeys (s : State) (d z : Nat) (salt : List Byte) : State :=
  let me := s.teth.self
  let flow := leBytes 4 0x574F4C46
  let tx := trafficKey z salt flow me d
  let rx := trafficKey z salt flow d me
  match s.teth.keys.find? (fun k => k.dev == d) with
  | some k =>
    let k' : PeerKey := { k with tx, rx, oldRx := k.rx, epochTx := !k.epochTx }
    { s with teth := { s.teth with keys := s.teth.keys.map (fun q => if q.dev = d then k' else q),
                                   flows := s.teth.flows.map (fun f => if f.src = me ∧ f.dst = d then { f with next := 0 } else f) } }
  | none =>
    { s with teth := { s.teth with keys := s.teth.keys ++ [{ dev := d, tx, rx }],
                                   flows := s.teth.flows.filter (fun f => f.src ≠ d && f.dst ≠ d) } }

/-- A link handshake completes on port p (R399, R408 to R410, R511): `b` is the partner's payload. -/
def State.linkUp (s : State) (p z : Nat) (salt : List Byte) (b : List Byte) : State :=
  let d := hsDev b
  let me := s.teth.self
  let lk := leBytes 4 0x4B4E494C
  let key := trafficKey z salt lk me d ++ trafficKey z salt lk d me
  let s := s.updPort p (fun q => { q with
    state := .up, hs := none, linkKey := key, peerDev := d, peerPort := leAt b 2 1 % 16, peerRole := leAt b 3 1,
    credReq := leAt b 4 2, credResp := leAt b 6 2, credBridle := leAt b 8 1, retReq := 0, retResp := 0, retBridle := 0,
    toldReq := 0, toldResp := 0, toldBridle := 0, seenReq := 0, seenResp := 0, seenBridle := 0, linkSeq := 0, rxFlows := [],
    heard := s.env.ticks })
  let s :=
    if d = 0xFFFF then s
    else
      let e := s.peer d
      let s := (s.learnFp d (fingerprint (hsIdKey b)))
      let s := s.setPeer d { s.peer d with ports := if bit p e.ports then e.ports else e.ports + 2 ^ p }
      if e.state = .up then s else (s.takeKeys d z salt).becomeUp d
  (s.meetPeers s.peerIds).updPort p Port.flush

/-- An end-to-end handshake with device d completes (R406, R410, R511). -/
def State.e2eUp (s : State) (d z : Nat) (salt : List Byte) (fp : List Byte) : State :=
  let s := { s with teth := { s.teth with e2e := s.teth.e2e.filter (fun h => h.peer ≠ d) } }
  let up := (s.peer d).state == .up
  let s := (s.learnFp d fp).takeKeys d z salt
  if up then s else s.becomeUp d

/-! ### The checks of a received block (R396 to R407) -/

/-- The receiving flow of a block, if any. -/
def rxFlow (b : Block) (l : List Flow) : Option Flow :=
  l.find? (fun f => f.cls == b.cls && f.src == b.src && f.dst == b.dst && f.ctx == b.ctx)

/-- A received number is recorded for its flow. -/
def noteFseq (b : Block) : List Flow → List Flow
  | [] => [{ cls := b.cls, src := b.src, dst := b.dst, ctx := b.ctx, last := some b.fseq }]
  | f :: t =>
    if f.cls = b.cls ∧ f.src = b.src ∧ f.dst = b.dst ∧ f.ctx = b.ctx then { f with last := some b.fseq } :: t
    else f :: noteFseq b t

/-- Whether a block is one of the link key of its hop (R404). -/
def blkOfLink (b : Block) : Bool := b.dst == 0xFFFF || b.cls == 3

/-- A received block in the clear, when it authenticates under the key it uses (R404, R406, R407): a block of the source's epoch in
force under the key of that epoch, one of the other epoch under the key of a handshake since. -/
def State.openRx (s : State) (p : Nat) (b : Block) : Option Block :=
  if blkOfLink b then (if (s.port p).linkKey.isEmpty then none else openBlock ((s.port p).linkKey.drop 32) b)
  else
    match s.teth.keys.find? (fun k => k.dev == b.src) with
    | none => none
    | some k =>
      if b.epoch = k.epochRx then openBlock (if k.oldRx.isEmpty then k.rx else k.oldRx) b
      else if k.oldRx.isEmpty then none
      else openBlock k.rx b

/-- The first block of a new epoch has been authenticated: the old key goes, and the source's flows start again (R406). -/
def State.newEpoch (s : State) (b : Block) : State :=
  if blkOfLink b then s
  else
    { s with teth := { s.teth with
      keys := s.teth.keys.map (fun k => if k.dev = b.src ∧ k.epochRx ≠ b.epoch then { k with epochRx := b.epoch, oldRx := [] } else k),
      flows := if s.teth.keys.any (fun k => k.dev == b.src && k.epochRx != b.epoch) then
          s.teth.flows.map (fun f => if f.src = b.src ∧ f.dst = s.teth.self then { f with last := none } else f)
        else s.teth.flows } }

/-- Check 1 of R407 fails. -/
def Port.authBad (q : Port) : Port := { q with authFail := cnt q.authFail 1, auth := true }

/-- Whether the number of a block does not exceed the last one accepted for its flow. -/
def isReplay (b : Block) (l : List Flow) : Bool := ((rxFlow b l).bind (·.last)).any (fun n => decide (b.fseq ≤ n))

/-- Checks 2 and 3 of R407 on an authenticated block: the state after them, and the block when it goes on. The flows of a link key
are those of its port. DEDUCED, log entry 64. -/
def State.rxClear (s : State) (p : Nat) (b : Block) : State × Option Block :=
  let s := s.newEpoch b
  let l := if blkOfLink b then (s.port p).rxFlows else s.teth.flows
  if isReplay b l then (s.updPort p (fun q => { q with replay := cnt q.replay 1 }), none)
  else
    let s : State := if blkOfLink b then s.updPort p (fun q => { q with rxFlows := noteFseq b q.rxFlows })
      else { s with teth := { s.teth with flows := noteFseq b s.teth.flows } }
    let t := s.ctx b.ctx
    if (b.cls = 1 ∨ b.cls = 2) ∧ (b.ctx = 0xFFF ∨ t.state = .closed ∨ t.gen ≠ b.gen ∨ b.src < t.lo ∨ t.hi < b.src) then
      (s.updCtx b.ctx (fun t => { t with drops := cnt t.drops 1 }), none)
    else (s, some b)

/-- Checks 1 to 3 of R407 on a block for this device: the state after them, and the block in the clear when it goes on. -/
def State.rxCheck (s : State) (p : Nat) (b : Block) : State × Option Block :=
  match s.openRx p b with
  | none => (s.updPort p Port.authBad, none)
  | some b => s.rxClear p b

/-- A block for another device is forwarded (R414). -/
def State.forward (s : State) (p : Nat) (b : Block) : State :=
  if b.hops = 0 then s.updPort p (fun q => { q with hopDrops := cnt q.hopDrops 1 })
  else
    match s.route b.dst b.src b.ctx with
    | none => s.updPort p (fun q => { q with noRoute := cnt q.noRoute 1 })
    | some o => (s.updPort p (fun q => { q with fwdBlocks := cnt q.fwdBlocks 1 })).sendOn o { b with hops := b.hops - 1 } .done

/-- The hop fields of an accepted block are taken in (R397, R399). -/
def Port.takeHop (p : Port) (h : Hop) (now : Nat) : Port :=
  { ((p.acked h.lack).credited h.credCls h.cred).flush with heard := now }

/-- Whether a KIND belongs to a CLASS (R395). -/
def kindOk (cls kind : Nat) : Bool :=
  match cls with
  | 0 => [1, 0x3C, 0x3D, 0x3E].contains kind
  | 1 => [5, 6].contains kind
  | 2 => [2, 3, 4, 7, 8].contains kind
  | _ => kind == 0x3F

/-- Whether a block is one of a link handshake (R395, R409). -/
def isLinkHs (b : Block) : Bool := b.cls == 0 && b.dst == 0xFFFF && decide (0x3C ≤ b.kind)

/-- A block that fails its CRC (R397, R398): the eighth failure in succession of the block expected makes the port retrain. A LINK
block is discarded without a NAK. -/
def State.rxBad (s : State) (p : Nat) (h : Hop) (b : Block) : State :=
  let s := s.updPort p (fun q => { q with crcErr := cnt q.crcErr 1 })
  if b.cls = 3 then s
  else if h.lseq ≠ (s.port p).expect then s.nakOn p
  else
    let s := s.updPort p (fun q => { q with fails := q.fails + 1 })
    if 8 ≤ (s.port p).fails then s.updPort p Port.retrain else s.nak p

/-- Whether a block with a good CRC is the one expected next. -/
def State.rxNext (s : State) (p : Nat) (h : Hop) : Bool := h.lseq == (s.port p).expect

/-- The block expected is accepted, and its buffer freed (R397, R399). The blocks of a link handshake take no credit. -/
def State.rxAccept (s : State) (p : Nat) (h : Hop) (b : Block) : State :=
  s.updPort p (fun q =>
    let q := q.takeHop h s.env.ticks
    let q := { q with expect := (q.expect + 1) % 65536, fails := 0, naked := false }
    if isLinkHs b then q else q.free b.cls)

/-- A block with CRC `crc` has come in on port p (R395 to R397, R399, R414): one that is expected is acknowledged, and what is
not for another device goes on to `body`. Only BRIDLE blocks and link handshakes are for 0xFFFF (R33). Before the handshake has
ended the port carries nothing else. -/
def State.rxBlock (s : State) (p : Nat) (h : Hop) (b : Block) (crc : Nat) (body : State → State) : State :=
  let st := (s.port p).state
  if !(s.portWin p) || (st != .up && st != .handshake) then s
  else if crc32c (wireBody h b) ≠ crc then s.rxBad p h b
  else if !(s.rxNext p h) then s.nakOn p
  else if !(kindOk b.cls b.kind) then (s.rxAccept p h b).updPort p (fun q => { q with crcErr := cnt q.crcErr 1 })
  else if st = .handshake ∧ !(isLinkHs b) then s
  else
    let s := s.rxAccept p h b
    if b.dst = s.teth.self ∨ (b.dst = 0xFFFF ∧ b.cls = 0) then body s else s.forward p b

/-- A block has come in on port p: `body` gets it in the clear when it is for this device and passes R407. -/
def State.rxIn (s : State) (p : Nat) (h : Hop) (b : Block) (crc : Nat) (body : State → Block → State) : State :=
  s.rxBlock p h b crc (fun s =>
    let r := s.rxCheck p b
    match r.2 with
    | some b => body r.1 b
    | none => r.1)

/-- A received data or bridle block, whose class and kind are those the command names. What it reads and writes of memory goes through
the port's requests (R314). -/
def State.rx (s : State) (p : Nat) (h : Hop) (b : Block) (crc cls kind : Nat) (body : State → Block → State) : State :=
  if b.cls ≠ cls ∨ b.kind ≠ kind then s else s.access (.tether p) none (fun s => s.rxIn p h b crc body)

end Sys2Proof.Machine
end

