-- ==== Sys2Proof/Machine/RedOps.lean ====
section
/-! DEFINITION. The reduction unit (R425 to R436): records, puts, parts, results and the arrives it makes. -/

namespace Sys2Proof.Machine

open Sys2Proof

/-! ### Records (R426 to R428) -/

/-- R: the ranks. -/
def Armed.ranks (a : Armed) : Nat := leAt a.group 0 2
/-- RANK. -/
def Armed.rank (a : Armed) : Nat := leAt a.group 2 2
/-- COVER. -/
def Armed.cover (a : Armed) : Nat := leAt a.group 4 2
/-- Whether this device is a primary of the group. -/
def Armed.primary (a : Armed) : Bool := a.cover == 0xFFFF
/-- NCOVER. -/
def Armed.ncover (a : Armed) : Nat := leAt a.group 6 2
/-- MAP. -/
def Armed.map (a : Armed) : Nat := leAt a.group 8 8
/-- CMAP. -/
def Armed.cmap (a : Armed) : Nat := leAt a.group 16 8
/-- CTX. -/
def Armed.ctx (a : Armed) : Nat := leAt a.group 24 2 % 4096
/-- BASE. -/
def Armed.base (a : Armed) : Nat := leAt a.record 0 8
/-- STAGE. -/
def Armed.stage (a : Armed) : Nat := leAt a.record 8 8
/-- RESULT. -/
def Armed.result (a : Armed) : Nat := leAt a.record 16 8
/-- SIZE. -/
def Armed.size (a : Armed) : Nat := 2 ^ leAt a.record 24 1
/-- Whether the elements are BF16. -/
def Armed.bf (a : Armed) : Bool := leAt a.record 25 1 == 1
/-- Whether MODE is REDUCE_SCATTER. -/
def Armed.scatter (a : Armed) : Bool := leAt a.record 27 1 == 1
/-- Parts per segment. -/
def Armed.parts (a : Armed) : Nat := 2 ^ leAt a.record 30 1
/-- A knot of the record: 0 FILL, 2 READY, 3 PDONE, 4 DONE. -/
def Armed.knotAt (a : Armed) (i : Nat) : Nat := leAt a.record (32 + 4 * i) 4 % 2 ^ 18
/-- FILL_TARGET. -/
def Armed.target (a : Armed) : Nat := leAt a.record 36 4
/-- SEQ. -/
def Armed.seq (a : Armed) : Nat := leAt a.record 52 4
/-- OWNER[p]. -/
def Armed.owner (a : Armed) (p : Nat) : Nat := leAt a.record (56 + 2 * p) 2
/-- SEG (R428). -/
def Armed.seg (a : Armed) : Nat := let q := 256 * a.parts; cdiv (cdiv a.size a.ranks) q * q
/-- Bytes of segment g. -/
def Armed.segLen (a : Armed) (g : Nat) : Nat := Nat.min a.seg (a.size - g * a.seg)
/-- Bytes of a full part. -/
def Armed.partSize (a : Armed) : Nat := a.seg / a.parts
/-- Bytes of part p of segment g. -/
def Armed.partLen (a : Armed) (g p : Nat) : Nat := Nat.min a.partSize (a.segLen g - p * a.partSize)
/-- The address of part p in staging slot k. -/
def Armed.stageAt (a : Armed) (k p : Nat) : Nat := a.stage + k * a.seg + p * a.partSize
/-- The address of part p of segment g in the result area. -/
def Armed.resultAt (a : Armed) (g p : Nat) : Nat := a.result + (if a.scatter then 0 else g * a.seg) + p * a.partSize
/-- The segments that are not empty. -/
def Armed.segs (a : Armed) : List Nat := (List.range a.ranks).filter (fun g => decide (0 < a.segLen g))

/-- An armed bucket, by its index. -/
def State.armedOf (s : State) (b : Nat) : Option Armed := s.teth.armed.find? (fun a => a.bucket == b)
/-- Armed bucket b changed. -/
def State.updArmed (s : State) (b : Nat) (f : Armed → Armed) : State :=
  { s with teth := { s.teth with armed := s.teth.armed.map (fun a => if a.bucket = b then f a else a) } }

/-- Half-words of memory. -/
def State.words16 (s : State) (a n : Nat) : State × List Nat :=
  let r := s.readBytes a (2 * n)
  (r.1, (List.range n).map (fun i => leAt r.2 (2 * i) 2))

/-- The cover entries of a group: covered rank and device. -/
def State.covers (s : State) (a : Armed) : State × List (Nat × Nat) :=
  let r := s.words16 a.cmap (2 * a.ncover)
  (r.1, (List.range a.ncover).map (fun i => (r.2.getD (2 * i) 0, r.2.getD (2 * i + 1) 0)))

/-- The rank whose copy a staging slot holds. -/
def slotRank (ranks : Nat) (cv : List (Nat × Nat)) (k : Nat) : Nat :=
  if k < ranks then k else (cv.getD (k - ranks) (0xFFFF, 0)).1

/-- The unit arrives on a knot of bucket b. DEDUCED, log entry 67. -/
def State.redArrive (s : State) (b knot : Nat) (done : Bool) : State :=
  s.sendKnot { who := .unit b done, op := .arrive, knot, arg := 1, node := keelNode, agent := 3 }

/-! ### Sending (R431, R436) -/

/-- REDUCE_DATA blocks for the bytes of a part. -/
def State.sendReduceData (s : State) (ctx dev : Nat) (bs : List PByte) : Nat → State
  | 0 => s
  | n + 1 =>
    (s.sendFlow { cls := 2, kind := 8, dst := dev, ctx, gen := (s.ctx ctx).gen, pmask := pmaskOf (bs.take 256),
                  payload := pay256 ((bs.take 256).map (·.1)) }).sendReduceData ctx dev (bs.drop 256) n

/-- The payload of a REDUCE_HDR (R431). -/
def reduceHdr (bucket slot seg part blocks seq : Nat) : List Byte :=
  leBytes 2 bucket ++ leBytes 2 slot ++ leBytes 2 seg ++ leBytes 1 part ++ leBytes 1 0 ++ leBytes 4 blocks ++ leBytes 4 seq

/-- One part leaves for a device: its header and its data. None leaves within a context that has closed, or begun to, since the
bucket was armed (R423). -/
def State.sendPart (s : State) (a : Armed) (dev slot seg part addr : Nat) : State :=
  if !(s.ctxLive a.ctx a.gen) then s else
  let n := a.partLen seg part
  let r := s.readMem addr n
  let s := r.1.sendFlow { cls := 2, kind := 7, dst := dev, ctx := a.ctx, gen := (r.1.ctx a.ctx).gen,
                          payload := pay256 (reduceHdr a.bucket slot seg part (n / 256) a.seq) }
  s.sendReduceData a.ctx dev r.2.1 (n / 256)

/-- The parts of a segment leave for a device; `at'` gives the address of each. -/
def State.sendParts (s : State) (a : Armed) (dev slot seg : Nat) (at' : Nat → Nat) : Nat → State
  | 0 => s
  | n + 1 => (s.sendParts a dev slot seg at' n).sendPart a dev slot seg n (at' n)

/-- The own segment's result leaves for some devices. -/
def State.sendResults (s : State) (a : Armed) : List Nat → State
  | [] => s
  | d :: t => (s.sendParts a d 0xFFFF a.rank (a.resultAt a.rank) a.parts).sendResults a t

/-! ### Receiving parts (R432) -/

/-- Part p in staging slot k of bucket b is complete. -/
def State.partIn (s : State) (b k p : Nat) : State :=
  match s.armedOf b with
  | none => s
  | some a =>
    if a.present.contains (k, p) then s
    else
      let cv := s.covers a
      let s := cv.1
      let rk := slotRank a.ranks cv.2
      let other := a.present.find? (fun q => q.2 == p && rk q.1 == rk k)
      let s := s.updArmed b (fun a => { a with present := a.present ++ [(k, p)] })
      match other with
      | some (k', _) =>
        let s := { s with teth := { s.teth with redLate := cnt s.teth.redLate 1 } }
        if a.combined.contains p then s
        else
          let n := a.partLen a.rank p
          let x := s.readMem (a.stageAt k' p) n
          let y := x.1.readMem (a.stageAt k p) n
          if x.2.1 = y.2.1 then y.1
          else
            let t := y.1.teth
            ({ y.1 with teth := { t with redMismatch := cnt t.redMismatch 1 } } : State).event 0x35 b (a.rank * 0x10000 + p)
      | none =>
        let here := a.present ++ [(k, p)]
        if (List.range a.ranks).all (fun r => here.any (fun q => q.2 == p && rk q.1 == r)) then
          (s.updArmed b (fun a => { a with ready := a.ready ++ [p] })).redArrive b (a.knotAt 2) false
        else s

/-- The parts of the own segment are copied into a staging slot of this device. -/
def State.copyParts (s : State) (a : Armed) (slot seg : Nat) : Nat → State
  | 0 => s
  | n + 1 =>
    let s := s.copyParts a slot seg n
    let r := s.readMem (a.base + seg * a.seg + n * a.partSize) (a.partLen seg n)
    (r.1.writeMem {} (a.stageAt slot n) r.2.1).1.partIn a.bucket slot n

/-- The put of some segments (R431); `devs` are the owners by rank. -/
def State.putSegs (s : State) (a : Armed) (devs : List Nat) : List Nat → State
  | [] => s
  | g :: t =>
    let slot := if a.primary then a.rank else a.ranks + a.cover
    let d := devs.getD g 0xFFFF
    let s := if d = s.teth.self then s.copyParts a slot g a.parts
      else s.sendParts a d slot g (fun p => a.base + g * a.seg + p * a.partSize) a.parts
    s.putSegs a devs t

/-- The put of bucket b starts (R429, R431). DEDUCED, log entry 68. -/
def State.redPut (s : State) (a : Armed) : State :=
  let r := (s.updArmed a.bucket (fun a => { a with put := true })).words16 a.map a.ranks
  r.1.putSegs a r.2 a.segs

/-! ### Completion (R436) -/

/-- The arrive on DONE_KNOT, once all that the bucket waits for is in its RESULT. -/
def State.redDone (s : State) (b : Nat) : State :=
  match s.armedOf b with
  | none => s
  | some a =>
    let whole := if a.scatter then a.sentResult
      else a.segs.all (fun g => (List.range a.parts).all (fun p => a.results.contains (g, p)))
    if whole && !a.done then (s.updArmed b (fun a => { a with done := true })).redArrive b (a.knotAt 4) true else s

/-- PDONE_KNOT has counted every part of the own segment (R436). -/
def State.redOwn (s : State) (a : Armed) : State :=
  let mine := (List.range a.parts).map (fun p => (a.rank, p))
  let s := s.updArmed a.bucket (fun a => { a with sentResult := true, results := a.results ++ mine })
  let s :=
    if a.scatter then s
    else
      let r := s.words16 a.map a.ranks
      let c := r.1.covers a
      c.1.sendResults a (((List.range a.ranks).filter (fun g => g ≠ a.rank)).map (fun g => r.2.getD g 0xFFFF) ++ c.2.map (·.2))
  s.redDone a.bucket

/-- What the unit does for one bucket when the VALUE of knot k has gone from `old` to `new`. -/
def State.redSee (s : State) (k old new : Nat) (a : Armed) : State :=
  let s := if k = a.knotAt 0 ∧ old < a.target ∧ a.target ≤ new ∧ !a.put then s.redPut a else s
  if k = a.knotAt 3 ∧ old < a.parts ∧ a.parts ≤ new ∧ !a.sentResult ∧ a.primary then
    match s.armedOf a.bucket with
    | some a => s.redOwn a
    | none => s
  else s

/-- Each armed bucket sees a change of knot k. -/
def State.redSeeAll (s : State) (k old new : Nat) : List Armed → State
  | [] => s
  | a :: t => (s.redSee k old new a).redSeeAll k old new t

/-- The reduction unit sees that the VALUE of knot k has changed since `old`. -/
def State.redAfter (s : State) (old : Knot) (k : Nat) : State :=
  let new := (s.kn k).value
  if old.value < new then s.redSeeAll k old.value new s.teth.armed else s

/-- An arrive has been applied at a knot: one on PDONE_KNOT by a core counts for the first ready part that core owns (R434),
and one of the unit on DONE_KNOT disarms its bucket (R429). -/
def State.redArrived (s : State) (m : KMsg) : State :=
  match m.who with
  | .unit b true => { s with teth := { s.teth with armed := s.teth.armed.filter (fun a => a.bucket ≠ b) } }
  | _ =>
    match m.who.core with
    | none => s
    | some c =>
      let own (a : Armed) (p : Nat) : Bool := s.phys (a.owner p) == some c
      { s with teth := { s.teth with armed := s.teth.armed.map (fun a =>
          if a.knotAt 3 = m.knot ∧ m.op = .arrive then
            match a.ready.find? (fun p => own a p && !(a.combined.contains p) && !(a.taken.contains p)) with
            | some p => { a with combined := a.combined ++ [p] }
            | none => a
          else a) } }

end Sys2Proof.Machine
end

