-- ==== Sys2Proof/Machine/Red.lean ====
section
/-! DEFINITION. The reduction unit's commands: ARM (R429, R430) and the tether-port adders (R433, R435, R542). -/

namespace Sys2Proof.Machine

open Sys2Proof

/-! ### ARM (R429, R430) -/

/-- Whether an OWNER names a core that is not bound. -/
def State.ownersBad (s : State) (a : Armed) : Bool := (List.range a.parts).any (fun p => (s.phys (a.owner p)).isNone)

/-- 0x02 RED_SHAPE. -/
def State.redShape (s : State) (a : Armed) : Bool :=
  let lg := leAt a.record 24 1
  decide (lg < 20) || decide (26 < lg) || decide (1 < leAt a.record 25 1) || decide (1 < leAt a.record 26 1)
    || decide (1 < leAt a.record 27 1) || decide (63 < leAt a.record 28 2) || decide (4 < leAt a.record 30 1)
    || a.ranks == 0 || decide (a.ranks ≤ a.rank) || (!a.primary && decide (a.ncover ≤ a.cover)) || decide (64 < a.ncover)
    || aOff a.base % a.size != 0 || !(s.ownSpan a.base a.size)
    || !(s.ownSpan a.stage ((a.ranks + a.ncover) * a.seg)) || !(s.ownSpan a.result (if a.scatter then a.seg else a.size))
    || s.ownersBad a

/-- The first code of R430 that an ARM of bucket b fails with, or 0. -/
def State.redCheck (s : State) (a : Armed) : Nat :=
  let covered := leAt a.record 26 1 == 1
  if !(s.ownSpan s.teth.redBase 135168) || s.teth.redBase % 4096 != 0 then 0x01
  else if s.redShape a then 0x02
  else if (covered && a.scatter) || (!covered && a.ncover != 0) then 0x03
  else if 16 ≤ s.teth.armed.length || (s.armedOf a.bucket).isSome then 0x04
  else if (s.ctx a.ctx).state ≠ .opened then 0x05
  else 0

/-- A failed ARM is recorded, the first since TTH_RED_STATUS.ERR was clear (R430). -/
def State.redFail (s : State) (code b : Nat) : State :=
  { s with teth := if s.teth.redErr then s.teth else { s.teth with redErr := true, redCode := code, redBucket := b } }

/-- The lowest armed slot that is free. -/
def State.freeArm (s : State) : Nat := ((List.range 16).find? (fun i => !(s.teth.armed.any (fun a => a.slot == i)))).getD 0

/-- Bucket b as its record and its group's record in memory describe it: the state after they have been read, and the bucket. -/
def State.redRecord (s : State) (b : Nat) : State × Armed :=
  let r := s.readBytes (s.teth.redBase + 0x1000 + 128 * b) 128
  let g := r.1.readBytes (s.teth.redBase + 64 * (leAt r.2 28 2 % 64)) 64
  (g.1, { slot := s.freeArm, bucket := b, group := g.2, record := r.2 })

/-- Bucket b is armed, with its sequence number one higher, or the first check it fails is recorded (R429, R430). -/
def State.redArm (s : State) (b : Nat) : State :=
  let r := s.redRecord b
  let a := r.2
  let code := s.redCheck a
  if code = 0x01 then s.redFail code b
  else if code ≠ 0 then r.1.redFail code b
  else
    let seq := leBytes 4 ((a.seq + 1) % 2 ^ 32)
    let s := (r.1.writeBytes {} (s.teth.redBase + 0x1000 + 128 * b + 52) seq).1
    { s with teth := { s.teth with armed := s.teth.armed ++ [{ a with gen := (s.ctx a.ctx).gen, record := putBytes a.record 52 seq }] } }

/-- TTH_RED_ARM (R429, R430). -/
def execTthRedArm (v : W32) (s : State) : Host.Outcome State Fault Refusal :=
  .next (if !s.diesUp then s else s.access (.gondola 0) none (fun s => s.redArm (v.toNat % 1024)))

/-! ### Port adders (R433, R435) -/

/-- One level of the additions of R433: neighbours are added in pairs. -/
def pairSum : List Nat → List Nat
  | a :: b :: t => fadd pF a b :: pairSum t
  | l => l

/-- The sum of R433 of the copies of one element, in rank order. -/
def redSum : Nat → List Nat → Nat
  | 0, l => l.headD 0
  | n + 1, l => if l.length ≤ 1 then l.headD 0 else redSum n (pairSum l)

/-- One element of a copy, as FP32. -/
def redEl (bf : Bool) (bs : List Byte) (i : Nat) : Nat := if bf then ofB (leAt bs (2 * i) 2) else leAt bs (4 * i) 4

/-- The copies of part p, one for each of the first n ranks: that of the slot that completed first. -/
def State.redCopies (s : State) (a : Armed) (cv : List (Nat × Nat)) (p : Nat) : Nat → State × List (List Byte)
  | 0 => (s, [])
  | r + 1 =>
    let q := s.redCopies a cv p r
    let k := ((a.present.find? (fun x => x.2 == p && slotRank a.ranks cv x.1 == r)).getD (r, p)).1
    let d := q.1.readMem (a.stageAt k p) (a.partLen a.rank p)
    (d.1, q.2 ++ [d.2.1.map (·.1)])

/-- The port whose adder takes part p, counted from port `from'` on among n ports. -/
def State.adderPort (s : State) : Nat → Nat → Option Nat
  | 0, _ => none
  | n + 1, from' =>
    let p := from' % 12
    if (s.port p).role ≠ .off then some p else s.adderPort n (from' + 1)

/-- Whether the owner of a part is fenced, or neither of its streams runs or waits (R435). -/
def State.ownerGone (s : State) (l : Nat) : Bool :=
  match s.phys l with
  | none => true
  | some c =>
    let k := s.core c
    let idle (t : StreamSt) : Bool := t.state == .halted || t.state == .exception
    k.fenced || (idle k.sa && idle k.sb)

/-- PORT_ADDER_TAKE (R435). -/
def execPortAdderTake (bucket part : Nat) (s : State) : Host.Outcome State Fault Refusal :=
  .next (
    match s.armedOf bucket with
    | none => s
    | some a =>
      if !(a.ready.contains part) || a.taken.contains part || a.combined.contains part || !(s.ownerGone (a.owner part)) then s
      else
        match s.adderPort 12 (bucket + part) with
        | none => s
        | some p =>
          (s.updArmed bucket (fun a => { a with taken := a.taken ++ [part], working := a.working ++ [(part, p)] })).event
            0x34 bucket part)

/-- The adder of port p has combined a part of an armed bucket (R433, R435). -/
def State.adderDone (s : State) (a : Armed) (bucket part p : Nat) : State :=
  let cv := s.covers a
  let cs := cv.1.redCopies a cv.2 part a.ranks
  let n := a.partLen a.rank part
  let w := if a.bf then 2 else 4
  let out := (List.range (n / w)).flatMap (fun i =>
    let v := redSum 17 (cs.2.map (fun c => redEl a.bf c i))
    leBytes w (if a.bf then toB v else v))
  let s := (cs.1.writeBytes {} (a.resultAt a.rank part) out).1
  let s := s.updPort p (fun q => { q with adds := cnt q.adds (n / 256 * (a.ranks - 1)) })
  let s := { s with teth := { s.teth with redTaken := cnt s.teth.redTaken 1 } }
  (s.updArmed bucket (fun a => { a with combined := a.combined ++ [part],
                                        working := a.working.filter (fun q => q.1 ≠ part) })).redArrive bucket (a.knotAt 3) false

/-- PORT_ADDER_DONE (R435, R542): the port adder that works on a part finishes. On a residue mismatch the part is not
written, the port is held, and the next port takes the part. -/
def execPortAdderDone (bucket part : Nat) (residue : Bool) (s : State) : Host.Outcome State Fault Refusal :=
  .next (
    match s.armedOf bucket with
    | none => s
    | some a =>
      match a.working.find? (fun q => q.1 == part) with
      | none => s
      | some (_, p) =>
        if residue then
          let s := (s.report (portCode p 0x3002)).holdPort p
          let next := (s.adderPort 12 (p + 1)).getD p
          s.updArmed bucket (fun a => { a with working := a.working.map (fun q => if q.1 = part then (part, next) else q) })
        else s.access (.tether p) none (fun s => s.adderDone a bucket part p))

end Sys2Proof.Machine
end

