-- ==== Sys2Proof/Machine/Teth.lean ====
section
/-! DEFINITION. The tether commands: received blocks (R395 to R409, R431, R432), the link's timers and training (R397, R398,
R409), loss of peers (R410, R417) and the port and directory registers (R413, R438). -/

namespace Sys2Proof.Machine

open Sys2Proof

/-! ### BRIDLE blocks (R384, R385, R395, R402, R415) -/

/-- A tree message of 16 bytes. -/
def treeOfBytes (kind : TreeKind) (m : List Byte) : TreeMsg :=
  { kind, knot := leAt m 8 4 % 2 ^ 18, src := leAt m 4 2, dst := leAt m 2 2, gen := leAt m 14 2, phase := leAt m 12 2,
    err := bit 7 (leAt m 1 1) }

/-- A slack or resume notice of 16 bytes (R467). -/
def paceOfBytes (resume : Bool) (m : List Byte) : PaceMsg :=
  { resume, src := leAt m 4 2, group := leAt m 8 2, seq := leAt m 10 1 / 16, reason := leAt m 10 1 % 16,
    rate := leAt m 11 1 % 32, duration := leAt m 12 4 }

/-- A knot operation of 16 bytes from another device (R384): an operation that R378 would refuse its sender changes nothing.
DESIGN CHOICE, log entry 102. -/
def State.farOp (s : State) (m : List Byte) : State :=
  let kop := leAt m 8 4
  let k := kop % 2 ^ 18
  match KOp.ofMinor (kop / 2 ^ 28) with
  | none => s
  | some op =>
    match s.knotCheck op k none with
    | some _ => s
    | none =>
      s.sendKnot { who := .far (leAt m 4 2) (fld 27 18 kop), op, knot := k, arg := leAt m 12 4,
                   err := s.arriveErr op k (leAt m 12 4), node := 0x400 + leAt m 4 2, agent := 3 }

/-- A bridle message from another device is delivered (R384, R385, R454, R561): a knot reply has no waiter here, and a heartbeat has
been heard with its block. -/
def State.takeMsg (s : State) (m : List Byte) : State :=
  let tree (k : TreeKind) : State := { s with knot := { s.knot with tree := s.knot.tree ++ [treeOfBytes k m] } }
  if zeros m 0 16 then s
  else
    match leAt m 0 1 with
    | 1 => s.farOp m
    | 2 => s
    | 3 => tree .arrive
    | 4 => tree .done
    | 5 => tree .abort
    | 6 => { s with env := { s.env with msgs := s.env.msgs ++ [EnvMsg.ofBytes m] } }
    | 7 => { s with pace := s.pace ++ [paceOfBytes false m] }
    | 8 => { s with pace := s.pace ++ [paceOfBytes true m] }
    | 9 => { s with knot := { s.knot with events := s.knot.events ++ [{ code := leAt m 8 2, source := leAt m 10 2, arg := leAt m 12 4 }] } }
    | 10 => s
    | _ => { s with knot := { s.knot with bridleErr := cnt s.knot.bridleErr 1 } }

/-- The messages of a BRIDLE block are delivered. -/
def State.takeMsgs (s : State) : List (List Byte) → State
  | [] => s
  | m :: t => (s.takeMsg m).takeMsgs t

/-- BRIDLE (R395, R402, R415). -/
def execBridle (p : Nat) (h : Hop) (b : Block) (crc : Nat) (s : State) : Host.Outcome State Fault Refusal :=
  .next (s.rx p h b crc 0 1 (fun s b =>
    let e := s.peer b.src
    let s := if e.state = .up then s.setPeer b.src { e with heard := s.env.ticks } else s
    let s := s.takeMsgs (groups 16 16 b.payload)
    if b.dst = 0xFFFF ∧ b.hops ≠ 0 then s.broadcastOn { b with hops := b.hops - 1 } (some p) (setBits 12 s.teth.bcast) else s))

/-! ### Handshakes (R408, R409) -/

/-- A link handshake of port p is refused, and stays so until the port begins again (R409). -/
def State.linkRefuse (s : State) (p d : Nat) : State :=
  (s.hsRefuse p d).updPort p (fun q => { q with hs := q.hs.map (fun h => { h with refused := true }) })

/-- The handshake with device d that this device takes part in, if any. -/
def State.e2eOf (s : State) (d : Nat) : Option Handshake := s.teth.e2e.find? (fun h => h.peer == d)

/-- An end-to-end handshake with device d is refused. -/
def State.e2eRefuse (s : State) (p d : Nat) : State :=
  let s := s.hsRefuse p d
  { s with teth := { s.teth with e2e := s.teth.e2e.filter (fun h => h.peer ≠ d) } }

/-- The secret and the nonce of a handshake are drawn (R408). -/
def State.drawHs (s : State) : State × Nat × List Byte :=
  let e := s.draw 32
  let n := e.1.draw 16
  (n.1, ofLe e.2, n.2)

/-- Whether port p is in its link handshake (R409). -/
def State.inLinkHs (s : State) (p : Nat) : Bool := (s.port p).state == .handshake

/-- A HELLO of a link handshake: only the side with the lower ID initiates (R409). -/
def State.helloLink (s : State) (p : Nat) (pl : List Byte) : State :=
  let d := hsDev pl
  if !(s.inLinkHs p) || decide (s.teth.self < d) then s
  else
    let r := s.drawHs
    if r.1.hsOk (some p) 0x3C pl none (x25519 r.2.1 (hsEph pl)) then
      let hs : Handshake := { initiator := false, peer := d, nonce := r.2.2, eph := r.2.1, got := pl, stage := 1 }
      (r.1.updPort p (fun q => { q with hs := some hs })).sendHs p 0x3D hs.eph hs.nonce (hsNonce pl)
    else r.1.linkRefuse p d

/-- A HELLO of an end-to-end handshake, which came on port p (R409). -/
def State.helloE2e (s : State) (p : Nat) (pl : List Byte) : State :=
  let d := hsDev pl
  let r := s.drawHs
  if r.1.hsOk none 0x3C pl none (x25519 r.2.1 (hsEph pl)) then
    let hs : Handshake := { initiator := false, peer := d, nonce := r.2.2, eph := r.2.1, got := pl, stage := 1 }
    let s := { r.1 with teth := { r.1.teth with e2e := r.1.teth.e2e.filter (fun q : Handshake => q.peer ≠ d) ++ [hs] } }
    (s.learnFp d (fingerprint (hsIdKey pl))).sendE2e d 0x3D hs.eph hs.nonce (hsNonce pl)
  else r.1.e2eRefuse p d

/-- HELLO (R409). -/
def execHello (p : Nat) (h : Hop) (b : RxBlock) (s : State) : Host.Outcome State Fault Refusal :=
  .next (
    let c := b.blk
    if c.cls ≠ 0 ∨ c.kind ≠ 0x3C then s
    else s.rxBlock p h c b.crc (fun s => if c.dst = 0xFFFF then s.helloLink p c.payload else s.helloE2e p c.payload))

/-- A HELLO_REPLY of a link handshake: the initiator confirms, and its side is complete (R409). -/
def State.replyLink (s : State) (p : Nat) (pl : List Byte) : State :=
  match (s.port p).hs with
  | none => s
  | some q =>
    let z := x25519 q.eph (hsEph pl)
    if !(s.inLinkHs p) || !q.initiator then s
    else if s.hsOk (some p) 0x3D pl (some q.nonce) z then
      (s.sendHs p 0x3E q.eph q.nonce (hsNonce pl)).linkUp p z (q.nonce ++ hsNonce pl) pl
    else s.linkRefuse p (hsDev pl)

/-- A HELLO_REPLY of an end-to-end handshake (R409). -/
def State.replyE2e (s : State) (p : Nat) (pl : List Byte) : State :=
  let d := hsDev pl
  match s.e2eOf d with
  | none => s
  | some q =>
    let z := x25519 q.eph (hsEph pl)
    if !q.initiator then s
    else if s.hsOk none 0x3D pl (some q.nonce) z then
      (s.sendE2e d 0x3E q.eph q.nonce (hsNonce pl)).e2eUp d z (q.nonce ++ hsNonce pl) (fingerprint (hsIdKey pl))
    else s.e2eRefuse p d

/-- HELLO_REPLY (R409). -/
def execHelloReply (p : Nat) (h : Hop) (b : RxBlock) (s : State) : Host.Outcome State Fault Refusal :=
  .next (
    let c := b.blk
    if c.cls ≠ 0 ∨ c.kind ≠ 0x3D then s
    else s.rxBlock p h c b.crc (fun s => if c.dst = 0xFFFF then s.replyLink p c.payload else s.replyE2e p c.payload))

/-- A CONFIRM of a link handshake: the responder's side is complete (R409). -/
def State.confirmLink (s : State) (p : Nat) (pl : List Byte) : State :=
  match (s.port p).hs with
  | none => s
  | some q =>
    let z := x25519 q.eph (hsEph q.got)
    if !(s.inLinkHs p) || q.initiator || q.stage != 1 then s
    else if s.hsOk (some p) 0x3E pl (some q.nonce) z && hsDev pl == hsDev q.got then s.linkUp p z (hsNonce q.got ++ q.nonce) q.got
    else s.linkRefuse p (hsDev pl)

/-- A CONFIRM of an end-to-end handshake (R409). -/
def State.confirmE2e (s : State) (p : Nat) (pl : List Byte) : State :=
  let d := hsDev pl
  match s.e2eOf d with
  | none => s
  | some q =>
    let z := x25519 q.eph (hsEph q.got)
    if q.initiator || q.stage != 1 then s
    else if s.hsOk none 0x3E pl (some q.nonce) z then s.e2eUp d z (hsNonce q.got ++ q.nonce) (fingerprint (hsIdKey pl))
    else s.e2eRefuse p d

/-- CONFIRM (R409). -/
def execConfirm (p : Nat) (h : Hop) (b : RxBlock) (s : State) : Host.Outcome State Fault Refusal :=
  .next (
    let c := b.blk
    if c.cls ≠ 0 ∨ c.kind ≠ 0x3E then s
    else s.rxBlock p h c b.crc (fun s => if c.dst = 0xFFFF then s.confirmLink p c.payload else s.confirmE2e p c.payload))

/-! ### Requests (R407) -/

/-- A response leaves for the source of a request. -/
def State.answer (s : State) (b : Block) (kind tag pmask : Nat) (fault : Bool) (pl : List Byte) : State :=
  s.sendFlow { cls := 1, kind, dst := b.src, ctx := b.ctx, gen := (s.ctx b.ctx).gen, tag, pmask, fault, payload := pay256 pl }

/-- The status of a request at a global address before it is performed: 0x02 for control space, 0x01 for an address of
another device. -/
def State.reqStatus (s : State) (p a : Nat) : State × Nat :=
  if aDev a ≠ s.teth.self then (s, 1)
  else if aSpace a = 15 then (s.updPort p (fun q => { q with ctrlRefused := cnt q.ctrlRefused 1 }), 2)
  else (s, 0)

/-- One READ_REQ entry is performed (R407). -/
def State.readEntry (s : State) (p : Nat) (b : Block) (a tag : Nat) : State :=
  let c := s.reqStatus p a
  if c.2 ≠ 0 then c.1.answer b 5 tag 0 true (leBytes 1 c.2)
  else
    let r := c.1.readMem (a / 256 * 256) 256
    if r.2.2 then r.1.answer b 5 tag 0 true (leBytes 1 1)
    else r.1.answer b 5 tag (pmaskOf r.2.1) false (r.2.1.map (·.1))

/-- READ_REQ entries are performed in order. -/
def State.readEntries (s : State) (p : Nat) (b : Block) : List (List Byte) → State
  | [] => s
  | e :: t => (s.readEntry p b (leAt e 0 8) (leAt e 8 2)).readEntries p b t

/-- A READ_REQ block's entries are performed. -/
def State.readReqIn (p : Nat) (s : State) (b : Block) : State := s.readEntries p b (groups 16 (Nat.min b.tag 16) b.payload)

/-- READ_REQ (R407). -/
def execReadReq (p : Nat) (h : Hop) (b : Block) (crc : Nat) (s : State) : Host.Outcome State Fault Refusal :=
  .next (s.rx p h b crc 2 2 (State.readReqIn p))

/-- WRITE_HDR (R407): its entries wait for their data. -/
def execWriteHdr (p : Nat) (h : Hop) (b : Block) (crc : Nat) (s : State) : Host.Outcome State Fault Refusal :=
  .next (s.rx p h b crc 2 3 (fun s b =>
    let es := (groups 16 (Nat.min b.tag 16) b.payload).map (fun e => (leAt e 0 8, leAt e 8 2, leAt e 10 2))
    let key := (b.src, b.ctx, b.cls)
    { s with teth := { s.teth with rxWrites := s.teth.rxWrites.filter (fun q => q.flow ≠ key) ++ [{ flow := key, entries := es }] } }))

/-- The bytes of a payload with the poison its PMASK gives (R403). -/
def maskedBytes (b : Block) : List PByte :=
  (List.range b.payload.length).map (fun i =>
    let m := bit (i / 64) b.pmask
    (if m then 0xFF else b.payload.getD i 0, m))

/-- One write entry is performed with its data (R407). -/
def State.writeEntry (s : State) (p : Nat) (b : Block) (a tag len : Nat) : State :=
  let c := s.reqStatus p a
  let bad := len < 4 ∨ 256 < len ∨ len % 4 ≠ 0 ∨ a % 4 ≠ 0 ∨ 256 < a % 256 + len
  let r := if c.2 ≠ 0 then c else if bad then (c.1, 1)
    else let w := c.1.writeMem {} a ((maskedBytes b).take len); (w.1, if w.2 then 0 else 1)
  r.1.answer b 6 1 0 false (leBytes 2 tag ++ leBytes 1 r.2 ++ leBytes 1 0)

/-- The first entry of a flow that waits for a WRITE_DATA block is performed with it. -/
def State.writeDataIn (p : Nat) (s : State) (b : Block) : State :=
  let key := (b.src, b.ctx, b.cls)
  match s.teth.rxWrites.find? (fun q => q.flow == key) with
  | none => s
  | some q =>
    match q.entries with
    | [] => s
    | (a, tag, len) :: t =>
      let ws := s.teth.rxWrites.map (fun w => if w.flow = key then { w with entries := t } else w)
      let s := { s with teth := { s.teth with rxWrites := ws.filter (fun w => !(w.entries.isEmpty)) } }
      s.writeEntry p b a tag len

/-- WRITE_DATA (R407). -/
def execWriteData (p : Nat) (h : Hop) (b : Block) (crc : Nat) (s : State) : Host.Outcome State Fault Refusal :=
  .next (s.rx p h b crc 2 4 (State.writeDataIn p))

/-! ### Responses (R85, R242, R407) -/

/-- A scalar access to another device is answered: the stream that waits for it raises the exception of a failure, or goes on with
what `done` makes of it, or halts when it has been stopped meanwhile (R86, R111). -/
def State.farAnswer (s : State) (c : Nat) (x : Stream) (code : Nat) (done : StreamSt → StreamSt) : State :=
  let t := (s.core c).st x
  if t.state ≠ .waiting ∨ t.wait ≠ .far then s
  else if code ≠ 0 then (s.raise c x code).updSt c x (fun t => { t with stopReq := false })
  else
    ((s.updSt c x done).retire c x).updSt c x (fun t =>
      if t.stopReq then { t with state := .halted, stopReq := false } else t)

/-- A request ends with a fault code, or with its data. DESIGN CHOICE, log entry 11. -/
def State.endReq (s : State) (q : Req) (code : Nat) (d : List PByte) : State :=
  let drop (s : State) : State := s.dropReqs [q.tag]
  let keep (s : State) : State :=
    { s with teth := { s.teth with reqs := s.teth.reqs.map (fun r =>
        if r.tag = q.tag then { r with done := true, fault := code, data := d.map (·.1), poison := d.map (·.2) } else r) } }
  match q.who with
  | .load c x r size signed => (drop s).farAnswer c x code (fun t => t.setS r (ldVal size signed (d.map (·.1))))
  | .store c x => (drop s).farAnswer c x code id
  | _ => keep s

/-- The outstanding request that a response answers. -/
def State.reqFor (s : State) (b : Block) (tag : Nat) (write : Bool) : Option Req :=
  s.teth.reqs.find? (fun q => q.tag == tag && q.dev == b.src && q.ctx == b.ctx && q.write == write && !q.done)

/-- READ_DATA (R407). -/
def execReadData (p : Nat) (h : Hop) (b : Block) (crc : Nat) (s : State) : Host.Outcome State Fault Refusal :=
  .next (s.rx p h b crc 1 5 (fun s b =>
    match s.reqFor b b.tag false with
    | none => s
    | some q =>
      if b.fault then s.endReq q 0x02 []
      else if q.merge ≠ [] then s.mergeSend q (maskedBytes b)
      else s.endReq q 0 (((maskedBytes b).drop (q.addr % 256)).take q.len)))

/-- Acknowledged writes end in order. DEDUCED, log entry 66. -/
def State.ackWrites (s : State) (b : Block) : List (List Byte) → State
  | [] => s
  | e :: t =>
    let s := match s.reqFor b (leAt e 0 2) true with
      | none => s
      | some q => s.endReq q (if leAt e 2 1 = 0 then 0 else 0x02) []
    s.ackWrites b t

/-- WRITE_ACK (R407). -/
def execWriteAck (p : Nat) (h : Hop) (b : Block) (crc : Nat) (s : State) : Host.Outcome State Fault Refusal :=
  .next (s.rx p h b crc 1 6 (fun s b => s.ackWrites b (groups 4 (Nat.min b.tag 64) b.payload)))

/-! ### Reduction blocks (R431, R432, R436) -/

/-- All the data of a received part has come. -/
def State.redGot (s : State) (q : RxReduce) : State :=
  if q.drop then s
  else if q.slot = 0xFFFF then
    (s.updArmed q.bucket (fun a => { a with results := a.results ++ [(q.seg, q.part)] })).redDone q.bucket
  else s.partIn q.bucket q.slot q.part

/-- Whether a part that a header announces is taken: for the sequence in force, of a slot or segment the bucket has, and not
yet there. -/
def State.redTakes (s : State) (bucket slot seg part blocks seq : Nat) : Option Armed :=
  match s.armedOf bucket with
  | none => none
  | some a =>
    if a.seq ≠ seq ∨ a.parts ≤ part ∨ a.partLen seg part < blocks * 256 then none
    else if slot = 0xFFFF then (if a.ranks ≤ seg ∨ a.scatter ∨ a.results.contains (seg, part) then none else some a)
    else if !a.primary || seg != a.rank || decide (a.ranks + a.ncover ≤ slot) || a.present.contains (slot, part)
      || a.combined.contains part then none
    else some a

/-- REDUCE_HDR (R431, R432): the parts it announces, unless they come too late. -/
def execReduceHdr (p : Nat) (h : Hop) (b : Block) (crc : Nat) (s : State) : Host.Outcome State Fault Refusal :=
  .next (s.rx p h b crc 2 7 (fun s b =>
    let pl := b.payload
    let bucket := leAt pl 0 2
    let slot := leAt pl 2 2
    let seg := leAt pl 4 2
    let part := leAt pl 6 1
    let blocks := leAt pl 8 4
    let key := (b.src, b.ctx, b.cls)
    let a := s.redTakes bucket slot seg part blocks (leAt pl 12 4)
    let at' := match a with
      | some a => if slot = 0xFFFF then a.resultAt seg part else a.stageAt slot part
      | none => 0
    let q : RxReduce := { flow := key, bucket, slot, seg, part, left := blocks, at', drop := a.isNone }
    let s := if q.drop then { s with teth := { s.teth with redLate := cnt s.teth.redLate 1 } } else s
    let rest := s.teth.rxReduces.filter (fun r => r.flow ≠ key)
    if blocks = 0 then ({ s with teth := { s.teth with rxReduces := rest } } : State).redGot q
    else { s with teth := { s.teth with rxReduces := rest ++ [q] } }))

/-- A REDUCE_DATA block of a flow is written where it belongs. -/
def State.reduceDataIn (s : State) (b : Block) : State :=
  let key := (b.src, b.ctx, b.cls)
  match s.teth.rxReduces.find? (fun q => q.flow == key) with
  | none => s
  | some q =>
    let s := if q.drop then s else (s.writeMem {} q.at' (maskedBytes b)).1
    let rest := s.teth.rxReduces.filter (fun r => r.flow ≠ key)
    if q.left ≤ 1 then ({ s with teth := { s.teth with rxReduces := rest } } : State).redGot q
    else { s with teth := { s.teth with rxReduces := rest ++ [{ q with left := q.left - 1, at' := q.at' + 256 }] } }

/-- REDUCE_DATA (R432). -/
def execReduceData (p : Nat) (h : Hop) (b : Block) (crc : Nat) (s : State) : Host.Outcome State Fault Refusal :=
  .next (s.rx p h b crc 2 8 State.reduceDataIn)

/-! ### The link layer (R397 to R399) -/

/-- What a LINK block carries is taken in (R397, R399): LACK, the credits of each class, and a NAK. -/
def Port.takeLink (q : Port) (lack : Nat) (pl : List Byte) (now : Nat) : Port :=
  let q := { q.acked lack with heard := now }
  let q := ((q.credited 0 (leAt pl 3 2)).credited 1 (leAt pl 5 2)).credited 2 (leAt pl 7 2)
  let q := if bit 0 (leAt pl 0 1) then q.resendFrom (leAt pl 1 2) else q
  q.flush

/-- LINK (R397, R399, R404): the rest of the block, and its payload. -/
def execLink (p : Nat) (h : Hop) (b : Block) (payload : List Byte) (crc : Nat) (s : State) : Host.Outcome State Fault Refusal :=
  .next (
    let b := { b with payload }
    if b.cls ≠ 3 ∨ b.kind ≠ 0x3F ∨ !(s.portWin p) ∨ (s.port p).state ≠ .up then s
    else if crc32c (wireBody h b) ≠ crc then s.rxBad p h b
    else
      match s.openRx p b with
      | none => s.updPort p Port.authBad
      | some b =>
        if isReplay b (s.port p).rxFlows then s.updPort p (fun q => { q with replay := cnt q.replay 1 })
        else s.updPort p (fun q => ({ q with rxFlows := noteFseq b q.rxFlows } : Port).takeLink h.lack b.payload s.env.ticks))

/-- TETHER_BAD_BLOCK (R395, R397, R398): a block with a bad CRC, an unexpected LSEQ, or a KIND foreign to its CLASS; any other block
has a command of its own. -/
def execTetherBadBlock (p : Nat) (h : Hop) (b : Block) (payload : List Byte) (crc : Nat) (s : State) :
    Host.Outcome State Fault Refusal :=
  .next (
    let b := { b with payload }
    if b.cls = 3 then
      if !(s.portWin p) || (s.port p).state != .up then s
      else if crc32c (wireBody h b) ≠ crc then s.rxBad p h b
      else if b.kind ≠ 0x3F then s.updPort p (fun q => { q with crcErr := cnt q.crcErr 1 })
      else s
    else if crc32c (wireBody h b) = crc ∧ s.rxNext p h ∧ kindOk b.cls b.kind then s
    else s.rxBlock p h b crc id)

/-- TETHER_RESEND_TIMEOUT (R397): the oldest held block has waited 4 µs. -/
def execTetherResendTimeout (p : Nat) (s : State) : Host.Outcome State Fault Refusal :=
  .next (
    if (s.port p).state = .up ∨ s.inLinkHs p then s.updPort p (fun q => q.resendFrom q.oldest) else s)

/-- LINK_BLOCK_TIMER (R397): with blocks of the partner unacknowledged and nothing else to send, a LINK block leaves. -/
def execLinkBlockTimer (p : Nat) (s : State) : Host.Outcome State Fault Refusal :=
  .next (if (s.port p).state = .up then s.sendLink p else s)

/-! ### Training (R398, R409, R410) -/

/-- TETHER_TRAINED (R409). -/
def execTetherTrained (p : Nat) (s : State) : Host.Outcome State Fault Refusal :=
  .next (if s.portWin p && (s.port p).state == .training then s.startLink p else s)

/-- PMA_LOCK_LOST (R398, R410). -/
def execPmaLockLost (p : Nat) (s : State) : Host.Outcome State Fault Refusal :=
  .next (
    let q := s.port p
    if s.portWin p && (q.state == .up || q.state == .handshake) then (s.updPort p Port.retrain).losePartner p else s)

/-- TETHER_RETRAIN_DONE (R398, R410): `long` says that the retrain lasted 1 ms or more. -/
def execTetherRetrainDone (p : Nat) (ok long : Bool) (s : State) : Host.Outcome State Fault Refusal :=
  .next (
    if !(s.portWin p) || (s.port p).state != .retraining then s
    else
      let s := if long || !ok then s.losePartner p else s
      if ok then s.startLink p
      else (s.updPort p (fun q => { q with state := .training })).report (portCode p 0x3001))

/-- PEER_PORT_SILENCE (R410). -/
def execPeerPortSilence (p : Nat) (s : State) : Host.Outcome State Fault Refusal := .next (s.portSilent p)

/-- PEER_WATCH_TIMEOUT (R410). -/
def execPeerWatchTimeout (dev : Nat) (s : State) : Host.Outcome State Fault Refusal :=
  .next (
    let e := s.peer dev
    if e.state = .up ∧ bit 1 e.flags ∧ e.heard + 500000 ≤ s.env.ticks then s.leaveUp dev .lost else s)

/-- A heartbeat leaves for each of some devices. -/
def State.beatPeers (s : State) : List Nat → State
  | [] => s
  | d :: t =>
    (s.sendBridle d (heartbeatBytes d s.teth.self)).beatPeers t

/-- PEER_HEARTBEAT_TIMER (R417). -/
def execPeerHeartbeatTimer (s : State) : Host.Outcome State Fault Refusal :=
  .next (
    if s.diesUp then s.beatPeers ((s.teth.peers.filter (fun q => q.2.state == .up && bit 1 q.2.flags)).map (·.1))
    else s)

/-- End-to-end handshakes with some devices begin again. -/
def State.retryE2e (s : State) (p : Nat) : List Nat → State
  | [] => s
  | d :: t =>
    let again := (s.hsPorts d).contains p && ((s.e2eOf d).isSome || (s.peer d).state == .refused)
    (if again then s.startE2e d else s).retryE2e p t

/-- HANDSHAKE_RETRY (R409): what was refused or unanswered on port p, or with a device behind it, begins again. -/
def execHandshakeRetry (p : Nat) (s : State) : Host.Outcome State Fault Refusal :=
  .next (
    if !(s.portWin p) then s
    else if (s.port p).state = .handshake then s.startLink p
    else if (s.port p).state = .up then s.retryE2e p s.peerIds
    else s)

/-! ### Registers (R413, R438) -/

/-- TTH_STATUS (R438). -/
def Port.statusWord (p : Port) : Nat :=
  flag 15 p.lost + flag 14 p.refused + flag 13 p.auth
    + (match p.role with
      | .off => 0
      | .direct => 1
      | .switch => 2) * 256
    + (match p.state with
      | .off => 0
      | .training => 1
      | .handshake => 2
      | .up => 3
      | .retraining => 4)
/-- TTH_PEER (R438). -/
def Port.peerWord (p : Port) : Nat := p.peerPort * 0x1000000 + p.peerRole * 0x10000 + p.peerDev

/-- A write of v to TTH_CTRL of port p (R438). -/
def State.tthCtrl (s : State) (p v : Nat) : State :=
  if bit 1 v then s.holdPort p
  else
    let s := s.updPort p (fun q => { q with
      down := false, state := if q.state = .off ∧ q.role ≠ .off then .training else q.state })
    let st := (s.port p).state
    if bit 0 v ∧ (st = .up ∨ st = .handshake) then s.updPort p Port.retrain else s

/-- TTH_RETRAIN (R398, R438). -/
def execTthRetrain (p : Nat) (v : W32) (s : State) : Host.Outcome State Fault Refusal :=
  .next (if s.portWin p then s.tthCtrl p v.toNat else s)

/-- TTH_DOWN_WRITE (R438). -/
def execTthDownWrite (p : Nat) (v : W32) (s : State) : Host.Outcome State Fault Refusal :=
  .next (if s.portWin p then s.tthCtrl p v.toNat else s)

/-- The staged bytes 0 to 27 of a directory entry. -/
def State.stagedPeer (s : State) (dev : Nat) : List Byte :=
  let b := sget [] s.teth.peerStage dev
  b ++ List.replicate (28 - b.length) 0

/-- A write of v to word `word` of a directory entry's first 28 bytes (R413). -/
def State.peerStageWrite (s : State) (dev word v : Nat) : State :=
  if 7 ≤ word then s
  else { s with teth := { s.teth with
    peerStage := sset [] s.teth.peerStage dev (putBytes (s.stagedPeer dev) (4 * word) (leBytes 4 v)),
    peerOpen := sset 0 s.teth.peerOpen dev (sget 0 s.teth.peerOpen dev ||| 2 ^ word) } }

/-- PEER_ENTRY_STAGE (R413). -/
def execPeerEntryStage (dev word : Nat) (v : W32) (s : State) : Host.Outcome State Fault Refusal :=
  .next (if s.diesUp ∧ dev < 65535 then s.peerStageWrite dev word v.toNat else s)

/-- A write of v to bytes 28 to 31 of a directory entry (R413): STATE, FLAGS, PORTS, NEXT_DEV and FP are replaced, APPEARS
and SEEN stay the hardware's. DEDUCED, log entry 65. -/
def State.peerReplace (s : State) (dev v : Nat) : State :=
  let e := s.peer dev
  let b := s.stagedPeer dev
  let st := leAt b 0 1 % 8
  let s : State := { s with teth := { s.teth with peerOpen := sset 0 s.teth.peerOpen dev 0 } }
  if e.state = .up ∨ e.state = .self ∨ dev = s.teth.self ∨ 1 < st then
    { s with teth := { s.teth with peerWrIgn := true } }
  else
    let e' := { e with flags := leAt b 1 1 % 8, ports := leAt b 2 2 % 4096, nextDev := leAt b 4 2,
                       fp := slice b 16 12 ++ leBytes 4 v }
    ((s.setPeer dev e').peerTo dev (if st = 1 then .expected else .absent)).meetPeers [dev]

/-- PEER_ENTRY_REPLACE (R413). -/
def execPeerEntryReplace (dev : Nat) (v : W32) (s : State) : Host.Outcome State Fault Refusal :=
  .next (if s.diesUp ∧ dev < 65535 then s.peerReplace dev v.toNat else s)

end Sys2Proof.Machine
end

