-- ==== Sys2Proof/Machine/Ctx.lean ====
section
/-! DEFINITION. The transfer contexts (R420 to R424, R440). -/

namespace Sys2Proof.Machine

open Sys2Proof

/-- A command is ignored in a context's state (R422). -/
def State.ctxBad (s : State) : State := { s with teth := { s.teth with ctxBadState := true } }

/-- A write of v to CTX_CMD (R422, R423, R440). -/
def State.ctxCmd (s : State) (v : Nat) : State :=
  let c := v % 4096
  let op := fld 31 30 v
  if c = 0xFFF ∨ op = 0 ∨ op = 3 then s
  else
    match (s.ctx c).state, op with
    | .closed, 1 => s.updCtx c (fun t => { t with state := .opened })
    | .closed, _ => s
    | .opened, 2 => s.updCtx c (fun t => { t with state := .draining, since := s.env.ticks })
    | _, _ => s.ctxBad

/-- CTX_OPEN (R422). -/
def execCtxOpen (v : W32) (s : State) : Host.Outcome State Fault Refusal :=
  .next (if s.diesUp then s.ctxCmd v.toNat else s)

/-- CTX_CLOSE (R422, R423). -/
def execCtxClose (v : W32) (s : State) : Host.Outcome State Fault Refusal :=
  .next (if s.diesUp then s.ctxCmd v.toNat else s)

/-- The requests of a context that have not been answered (R423). -/
def State.outstanding (s : State) (c : Nat) : List Req := s.teth.reqs.filter (fun q => q.ctx == c && !q.done)

/-- A context's generation reaches the stacks (R325, R326). -/
def State.publishGen (s : State) (c gen : Nat) : List Nat → State
  | [] => s
  | st :: t => (s.updStk st (fun k => { k with gens := sset 0 k.gens c gen })).publishGen c gen t

/-- Outstanding requests fail at their sources with CTX_FAULT (R423). -/
def State.failReqs (s : State) : List Req → State
  | [] => s
  | q :: t => (s.endReq q 0x09 []).failReqs t

/-- CTX_DRAIN_END (R423): the traffic of a context that drains is done, or its timeout has passed.
DESIGN CHOICE, log entry 69. -/
def execCtxDrainEnd (ctx : Nat) (s : State) : Host.Outcome State Fault Refusal :=
  .next (
    let t := s.ctx ctx
    let out := s.outstanding ctx
    if t.state ≠ .draining ∨ (!(out.isEmpty) ∧ s.env.ticks < t.since + t.drain * 50) then s
    else
      let gen := (t.gen + 1) % 65536
      let s := (s.updCtx ctx (fun t => { t with gen })).publishGen ctx gen (List.range 16)
      let s := (s.abortCtx ctx s.rig.live.ranges).failReqs out
      (s.updCtx ctx (fun t => { t with state := .closed })).event 0x33 ctx (b2n out.isEmpty))

/-- CTX_RANGE_WRITE (R440). -/
def execCtxRangeWrite (ctx : Nat) (v : W32) (s : State) : Host.Outcome State Fault Refusal :=
  .next (
    if !s.diesUp || decide (0xFFF < ctx) then s
    else if (s.ctx ctx).state ≠ .closed then s.ctxBad
    else s.updCtx ctx (fun t => { t with lo := v.toNat % 65536, hi := v.toNat / 65536 }))

/-- CTX_GEN_WRITE (R424, R440). -/
def execCtxGenWrite (ctx : Nat) (v : W32) (s : State) : Host.Outcome State Fault Refusal :=
  .next (
    if !s.diesUp || decide (0xFFF < ctx) || (s.ctx ctx).state != .closed then s
    else (s.updCtx ctx (fun t => { t with gen := v.toNat % 65536 })).publishGen ctx (v.toNat % 65536) (List.range 16))

/-- A write to CTX_CFG (R440). -/
def State.ctxCfg (s : State) (ctx v : Nat) : State := s.updCtx ctx (fun t => { t with drain := Nat.max 1 (v % 65536) })

/-- CTX_STATE (R440). -/
def Ctx.stateWord (t : Ctx) : Nat :=
  (match t.state with
    | .closed => 0
    | .opened => 1
    | .draining => 2) * 65536 + t.gen

end Sys2Proof.Machine
end

