-- ==== Sys2Proof/Machine/EnvOps.lean ====
section
/-! DEFINITION. The envelope controller (R443 to R469): the budget, the limits, the operating point and its changes,
throttle records, notices, and the dealing of credits. -/

namespace Sys2Proof.Machine

open Sys2Proof

/-! ### Points, set points and costs (R447 to R449) -/

/-- Whether a power tables frame is in force (R448). -/
def State.tables (s : State) : Bool := !s.rig.live.power.isEmpty
/-- The entry of point p in the power tables (R448). -/
def State.powerAt (s : State) (p : Nat) : PowerPoint := s.rig.live.power.getD p {}

/-- The costs of point p, as SEQ_COST_k holds them (R448). -/
def State.costsAt (s : State) (p : Nat) : List W32 := sread (0 : W32) s.rig.live.costs (15 * p) 15

/-- The costs of point p, classes 0 to 14, are written into every active core (R449). -/
def State.writeCosts (s : State) (p : Nat) : State :=
  let cs := s.costsAt p
  let put (s : State) (l : Nat) : State :=
    match s.phys l with
    | some c => if (s.core c).fenced then s else s.updCore c (fun k => { k with cost := swrite 0 k.cost 0 cs })
    | none => s
  (List.range 384).foldl put { s with env := { s.env with costPt := p } }

/-- A set point is requested from the board (R575). -/
def State.requestMv (s : State) (mv : Nat) : State :=
  ({ s with env := { s.env with setReq := mv } } : State).sendRc 0x83 mv 0

/-- The set point of a point is requested from the board (R449). -/
def State.requestPt (s : State) (p : Nat) : State := s.requestMv (s.powerAt p).vset

/-- The phase of the change of point. -/
def State.setPhase (s : State) (p : PointPhase) : State := { s with env := { s.env with phase := p } }

/-- The change of point toward the target begins, from rest (R449). -/
def State.moveIdle (s : State) : State :=
  let e := s.env
  if e.target < e.cur then s.setPhase (.stepping e.target)
  else if e.cur < e.target ∧ s.tables ∧ e.raiseBarred ≤ e.ticks then
    let s : State := { s with env := { e with setWas := e.setReq } }
    ((s.writeCosts e.target).requestPt e.target).setPhase (.waitSet e.target)
  else s

/-- A raise is given up: the set point is the one before it, and the costs are those of the point in force again (R449).
DEDUCED, log entry 73. -/
def State.abandonRaise (s : State) : State :=
  let s := if s.tables then s.writeCosts s.env.cur else s
  (s.requestMv s.env.setWas).setPhase .idle

/-- The burners follow the target (R445, R449, R455). -/
def State.moveBurners (s : State) : State :=
  match s.env.phase with
  | .idle => s.moveIdle
  | .waitSet g => if g ≤ s.env.target then s else s.abandonRaise.moveIdle
  | .stepping g => if s.env.target < g then s.setPhase (.stepping s.env.target) else s

/-! ### Rails and sensors (R458 to R462, R471, R574) -/

/-- The set point of monitored rail r, in mV (R574). -/
def EnvSt.setPoint (e : EnvSt) (r : Nat) : Nat :=
  match r with
  | 0 => e.setReq
  | 1 => 700
  | 2 => 750
  | 3 => 1050
  | 4 => 400
  | 5 => 750
  | 6 => 1200
  | _ => 1800

/-- Whether rail r, once measured, is below a percentage of its set point. -/
def EnvSt.below (e : EnvSt) (pct r : Nat) : Bool :=
  (sget none e.rails r).any (fun v => decide (v * 100 < pct * e.setPoint r))

/-- The rails are measured from MOORED up (R576). -/
def State.railsOn (s : State) : Bool :=
  match s.keel.state with
  | .off => false
  | .keel => false
  | _ => true

/-- The ripcord code of a thermal trip: junction sensor n, 16 to a die, or the logic die of stack n (R459, R559). -/
def tripCode (logic : Bool) (n : Nat) : Nat :=
  if logic then ripCode (0x10 + n / 4) (0x70 + n % 4) 0x0201 else ripCode (0x10 + n / 16) (0x60 + n % 16) 0x0201

/-- The hottest of n sensors from i on. -/
def hottest (m : Sparse Nat) (i n : Nat) : Nat := (sread 0 m i n).foldl Nat.max 0

/-- The codes of every sensor at 105 °C or more. -/
def EnvSt.trips (e : EnvSt) : List Nat :=
  ((List.range 64).filter (fun i => decide (105 ≤ sget 0 e.junction i))).map (tripCode false)
    ++ ((List.range 16).filter (fun i => decide (105 ≤ sget 0 e.stackTemp i))).map (tripCode true)

/-- The DRAM temperature of each stack as sampled (R327, R330). -/
def State.dramTemps (s : State) : Nat → List Nat → State
  | _, [] => s
  | i, t :: l =>
    (s.updStk i (fun k => { k with tempNow := t, tempPeak := Nat.max k.tempPeak t, hot := decide (85 < t) })).dramTemps (i + 1) l

/-- The sensors are sampled (R443, R458, R471). Readings are held as 8-bit degrees and 16-bit mV. -/
def State.sample (s : State) (x : EnvSample) : State :=
  let e := s.env
  let junction := swrite 0 e.junction 0 ((x.junction.take 64).map (Nat.min 255))
  let peak (d : Nat) : Nat := Nat.max (sget 0 e.tempPeak d) (hottest junction (16 * d) 16)
  let s := { s with env := { e with
    junction := junction, stackTemp := swrite 0 e.stackTemp 0 ((x.logic.take 16).map (Nat.min 255)),
    tempPeak := swrite 0 [] 0 ((List.range 4).map peak),
    rails := if s.railsOn then swrite none e.rails 0 ((x.rails.take 8).map (fun v => some (Nat.min 65535 v))) else e.rails } }
  match s.keel.state with
  | .rigged => s.dramTemps 0 ((x.dram.take 16).map (Nat.min 255))
  | .aloft => s.dramTemps 0 ((x.dram.take 16).map (Nat.min 255))
  | _ => s

/-! ### The budget (R451) -/

/-- The least of the budgets given. -/
def EnvSt.asked (e : EnvSt) : Nat :=
  [e.budgetRail, e.hostBudget].foldl (fun m b => if b = 0 then m else Nat.min m b) e.pmax

/-- The budget in force is sampled. -/
def State.sampleBudget (s : State) : State :=
  let b := s.env.asked
  let e := { s.env with inForce := Nat.min (Nat.max b 250) 1100 }
  if b < 250 then ({ s with env := { e with budgetLow := true } } : State).event 0x40 0 b else { s with env := e }

/-! ### Limits and reasons (R455, R457, R463) -/

/-- The unthrottled ceiling. -/
def EnvSt.uc (e : EnvSt) : Nat := if e.fixed then e.fixedPt else 26

/-- The highest point whose P_FULL is at most the budget in force. DEDUCED, log entry 72. -/
def State.budgetPt (s : State) : Nat :=
  (((List.range 30).filter (fun p => decide ((s.powerAt p).full ≤ s.env.inForce))).getLast?).getD 0

/-- The held notice with the lowest rate. -/
def EnvSt.lowest (e : EnvSt) : Option HeldNotice :=
  e.held.foldl (fun m h => match m with
    | none => some h
    | some b => if h.rate < b.rate then some h else m) none

/-- Whether a reason of R463 is active, and its limit. -/
def State.reasonAt (s : State) (code : Nat) : Bool × Nat :=
  let e := s.env
  let uc := e.uc
  match code with
  | 1 =>
    if !s.tables then (false, 0)
    else if e.fixed then (decide (e.inForce < (s.powerAt e.fixedPt).full), e.fixedPt)
    else (decide (s.budgetPt < uc), s.budgetPt)
  | 2 => (decide (e.thermPt < uc), e.thermPt)
  | 3 => (decide (e.iccPt < uc), e.iccPt)
  | 4 => (e.sagHold, e.sagPoint)
  | 5 =>
    match e.lowest with
    | some h => (e.paceMatch && !e.fixed && decide (h.rate < uc), h.rate)
    | none => (false, 0)
  | 6 => (decide (e.hostCeil < uc), e.hostCeil)
  | 7 => if e.fixed then (e.stalled, e.fixedPt) else (decide (e.govPt < uc), e.govPt)
  | _ => (false, 0)

/-- The active reasons among some codes whose limit equals the target. -/
def State.binding (s : State) (codes : List Nat) : List Nat :=
  codes.filter (fun c => (s.reasonAt c).1 && (s.reasonAt c).2 == s.env.target)

/-- ENV_POINT.REASON: the binding reason (R463). -/
def State.bindingReason (s : State) : Nat := (s.binding [1, 2, 3, 4, 5, 6, 7]).headD 0

/-- The limits of the governor, the sensors and the board move (R455, R458, R460, R461). -/
def State.moveLimits (s : State) (ePkg : Nat) (hi lo : Bool) : State :=
  let e := s.env
  let down (x : Nat) : Nat := Nat.min x e.target - 1
  let up (x : Nat) : Nat := Nat.min (x + 1) 29
  let hot := Nat.max (hottest e.junction 0 64) (hottest e.stackTemp 0 16)
  let gov :=
    if e.fixed then e.govPt
    else if hi then down e.govPt
    else if lo && decide (100 * ePkg ≤ 95 * (e.inForce * 10)) then up e.govPt
    else e.govPt
  let therm := if 95 ≤ hot then down e.thermPt else if hot ≤ 92 then up e.thermPt else e.thermPt
  let icc := if e.alerts % 256 ≠ 0 then down e.iccPt else up e.iccPt
  let low := (List.range 8).any (e.below 96)
  let clean := if low || e.sagDirty then 0 else e.sagClean + 1
  { s with env := { e with govPt := gov, thermPt := therm, iccPt := icc, stalled := hi, sagDirty := false,
                           sagClean := if e.sagHold then clean else 0,
                           sagHold := e.sagHold && decide (clean < e.sagHoldN) } }

/-- Whether boost is allowed (R457): the junction sensors are those of R458, one of them on each stack logic die. -/
def EnvSt.boostOk (e : EnvSt) (ePkg : Nat) : Bool :=
  !e.fixed && e.boostEn && e.openRecs.isEmpty && e.held.isEmpty && decide (hottest e.junction 0 64 ≤ 85)
    && decide (hottest e.stackTemp 0 16 ≤ 85)
    && decide (ePkg + e.boostMargin * 100 ≤ e.inForce * 10)

/-- The target point (R455). DEDUCED, log entry 71. -/
def State.choose (s : State) (ePkg : Nat) : Nat :=
  let e := s.env
  let ceil := if e.fixed then e.fixedPt else if e.boostOk ePkg then 29 else 26
  let ceil := Nat.min ceil e.hostCeil
  let ceil := match e.lowest with
    | some h => if !e.fixed && e.paceMatch then Nat.min ceil h.rate else ceil
    | none => ceil
  let lim := if e.fixed then ceil else Nat.min ceil (Nat.min s.budgetPt e.govPt)
  let lim := Nat.min lim (Nat.min e.thermPt e.iccPt)
  let lim := if e.sagHold then Nat.min lim e.sagPoint else lim
  if lim < e.target then lim else Nat.min lim (e.target + 1)

/-! ### Throttle records (R464, R465) -/

/-- A record opens at tick t; an open record whose entry of the ring it takes is there no longer. -/
def State.openRec (s : State) (t code limit : Nat) : State :=
  let e := s.env
  let gone (p : Nat × Option Nat) : Nat × Option Nat := if p.2 = some e.thrNext then (p.1, none) else p
  let (peer, rate) := match code, e.lowest with
    | 5, some h => (h.src, h.rate)
    | _, _ => (s.teth.self % 65536, limit)
  let r : ThrRec := { start := t, duration := cntMax, opened := true, reason := code, low := e.cur, peer, rate }
  ({ s with env := { e with ring := sset {} e.ring e.thrNext r, thrNext := (e.thrNext + 1) % 256,
                            thrTotal := (e.thrTotal + 1) % 65536,
                            openRecs := e.openRecs.map gone ++ [(code, some e.thrNext)] } } : State).event 0x42 0 code

/-- The open records change. -/
def State.mapOpen (s : State) (f : ThrRec → ThrRec) : List (Nat × Option Nat) → State
  | [] => s
  | (_, none) :: t => s.mapOpen f t
  | (_, some i) :: t =>
    ({ s with env := { s.env with ring := sset {} s.env.ring i (f (sget {} s.env.ring i)) } } : State).mapOpen f t

/-- The shortfall of an interval, in 1/16 credit, added to a record. -/
def ThrRec.addShort (n : Nat) (r : ThrRec) : ThrRec :=
  let x := r.deficitRem + n
  { r with deficit := cnt r.deficit (x / 16), deficitRem := x % 16 }

/-- The record of reason 0x5 names the peer with the lowest rate. -/
def ThrRec.lowestPeer (m : Option HeldNotice) (r : ThrRec) : ThrRec :=
  match m with
  | some h => if r.reason = 5 ∧ h.rate < r.rate then { r with peer := h.src, rate := h.rate } else r
  | none => r

/-- The records of some reasons open and close at tick t. -/
def State.records (s : State) (t : Nat) : List Nat → State
  | [] => s
  | code :: rest =>
    let a := s.reasonAt code
    let s :=
      match s.env.openRecs.find? (fun p => p.1 == code) with
      | some p =>
        if a.1 then s
        else
          let s := s.closeRec t p.2
          { s with env := { s.env with openRecs := s.env.openRecs.filter (fun q => q.1 ≠ code) } }
      | none => if a.1 then s.openRec t code a.2 else s
    s.records t rest

/-! ### Notices (R466 to R468) -/

/-- A slack or resume notice leaves for every device. -/
def State.sendPace (s : State) (type seq reason rate duration : Nat) : State :=
  s.sendBroadcast (leBytes 1 type ++ leBytes 1 0 ++ leBytes 2 0xFFFF ++ leBytes 2 s.teth.self ++ leBytes 2 (0xC00 + 95)
    ++ leBytes 2 s.env.paceGroup ++ leBytes 1 (seq * 16 + reason) ++ leBytes 1 rate ++ leBytes 4 duration)

/-- The reasons that cause a notice. -/
def noticeReasons : List Nat := [1, 2, 3, 4, 6]

/-- The expected duration a notice gives, in kt (R467). -/
def EnvSt.noticeDur (e : EnvSt) (reason : Nat) : Nat :=
  let ms (n : Nat) : Nat := Nat.max 1 (Nat.min (n * 50000) cntMax)
  match reason with
  | 1 => if e.budgetMs ≠ 0 ∧ e.budgetRail ≠ 0 ∧ e.asked = e.budgetRail then ms e.budgetMs else ms e.durBudget
  | 2 => ms e.durThermal
  | 3 => ms e.durCurrent
  | 4 => Nat.max 1 (e.sagHoldN * 500)
  | _ => ms e.durHost

/-- At tick t a slack or resume notice goes out when R466 asks for one. DEDUCED, log entry 74. -/
def State.notify (s : State) (t : Nat) : State :=
  let e := s.env
  let act := noticeReasons.filter (fun c => (s.reasonAt c).1)
  let free := match e.lastSend with
    | none => true
    | some l => decide (l + 5000 ≤ t)
  if !(e.paceSend && e.paceGroup ≠ 0 && free) then s
  else
    match act, e.own with
    | [], some o =>
      ({ s with env := { e with own := none, lastSend := some t } } : State).sendPace 8 o.seq 0 0 0
    | [], none => s
    | a :: _, own =>
      let due := match own with
        | none => true
        | some o => o.rate ≠ e.target || decide (7 * o.duration ≤ 8 * (t - o.start))
      if due && decide (e.target < e.uc) then
        let reason := (s.binding noticeReasons).headD a
        let dur := e.noticeDur reason
        let o : OwnNotice := { seq := e.ownSeq, rate := e.target, start := t, duration := dur }
        ({ s with env := { e with own := some o, ownSeq := (e.ownSeq + 1) % 16, lastSend := some t } } : State).sendPace
          7 o.seq reason e.target dur
      else s

/-! ### Reports and deals (R452 to R454) -/

/-- SHORT of a core (R454), in 1/16 credit. DEDUCED, log entry 33. -/
def Core.short (k : Core) : Nat :=
  let heads := (k.arr.tqA.take 1 ++ k.arr.tqB.take 1).map k.tileCost
  let arr := match heads with
    | [] => 0
    | [a] => a
    | a :: b :: _ => Nat.min a b
  let st (t : StreamSt) : Nat := if t.state = .waiting ∧ t.wait = .credit then t.waitCost else 0
  let w := arr + st k.sa + st k.sb + k.reel0.waitCost + k.reel1.waitCost
  Nat.min ((w - k.credit) / 64) 0xFFFF

/-- What the interval report of logical core l says, and the core once it has been sent (R454). -/
def Core.report (l : Nat) (k : Core) : CoreReport × Core :=
  let sp := Nat.min (k.spent / 64) 0xFFFF
  ({ core := l, stall := Nat.min k.stallIv 0xFFFF, spent := sp, short := k.short },
   { k with spent := k.spent - sp * 64, stallIv := 0, wasAwake := !k.asleep })

/-- The reports of the active cores that were awake in the interval leave. -/
def State.sendReports (s : State) : List Nat → State
  | [] => s
  | l :: t =>
    match s.phys l with
    | none => s.sendReports t
    | some c =>
      let k := s.core c
      if k.fenced || k.resetting || s.dieOut (dieOfCore c) || !(k.wasAwake || !k.asleep) then s.sendReports t
      else
        let r := k.report l
        let s := s.setCore c r.2
        ({ s with env := { s.env with msgs := s.env.msgs ++ [.report r.1] } } : State).sendReports t

/-- Deals leave for the cores that reported. -/
def State.sendDeals (s : State) (share iseq : Nat) : List CoreReport → State
  | [] => s
  | r :: t =>
    let s := match s.phys r.core with
      | some c => { s with env := { s.env with msgs := s.env.msgs ++ [EnvMsg.deal c share iseq s.env.cur] } }
      | none => s
    s.sendDeals share iseq t

/-- The deal of a boundary (R453). -/
def State.deal (s : State) (b : Boundary) (ePkg spent : Nat) : State :=
  let e := s.env
  let n := e.reports.length
  if s.keel.state ≠ .aloft ∨ n = 0 then { s with env := { e with carry := e.carry + b.given, reports := [] } }
  else
    let pool := e.inForce * 10 - (ePkg - spent)
    let total := pool * 1024 + e.carry + b.given
    let share := total / n
    let s := s.sendDeals share (b.tick / 500 % 65536) e.reports
    { s with env := { s.env with carry := total % n, dealtUnits := e.dealtUnits + share * n, reports := [] } }

/-! ### The boundary (R443) -/

/-- The package energy of an interval is counted (R471). -/
def EnvSt.addEnergy (e : EnvSt) (uj : Nat) : EnvSt :=
  let x := e.energyRemUj + uj
  { e with energyMj := (e.energyMj + x / 1000) % 2 ^ 64, energyRemUj := x % 1000,
           powerNow := Nat.min (uj / 10) 0xFFFF, powerPeak := Nat.max e.powerPeak (Nat.min (uj / 10) 0xFFFF) }

/-- Once every report is in, the controller chooses the point, updates records and notices and deals credits. -/
def State.boundaryWork (s : State) (b : Boundary) : State :=
  let e := s.env
  let spent := ((e.reports.map (·.spent)).sum) / 16
  let ePkg := match b.energy with
    | some uj => uj
    | none => spent + (if s.tables then (s.powerAt e.cur).other * 10 else 0)
  let n := e.reports.length
  let stall := (e.reports.map (·.stall)).sum
  let short := (e.reports.map (·.short)).sum
  let hi := decide (e.stallHi * (n * b.ac) < stall * 256)
  let lo := decide (stall * 256 < e.stallLo * (n * b.ac)) || (n == 0 && decide (0 < e.stallLo))
  let held := e.held.filter (fun h => decide (b.tick < h.expiry))
  let s := { s with env := { e.addEnergy ePkg with due := none, held } }
  if s.railsOn then
    let s := s.moveLimits ePkg hi lo
    let s := if s.tables then { s with env := { s.env with target := s.choose ePkg } } else s
    let s := s.mapOpen (ThrRec.addShort short) s.env.openRecs
    let s := s.records b.tick [1, 2, 3, 4, 5, 6, 7]
    let s := s.mapOpen (ThrRec.lowestPeer s.env.lowest) s.env.openRecs
    ((s.notify b.tick).deal b ePkg spent).moveBurners
  else { s with env := { s.env with carry := s.env.carry + b.given, reports := [] } }

/-- Whether a message is a report. -/
def EnvMsg.isReport : EnvMsg → Bool
  | .report _ => true
  | _ => false

/-- Whether a report is still on its way. -/
def EnvSt.awaits (e : EnvSt) : Bool := e.msgs.any EnvMsg.isReport

/-- The work of a boundary whose reports have all come. DEDUCED, log entry 70. -/
def State.boundaryDone (s : State) : State :=
  match s.env.due with
  | some b => if s.env.awaits then s else s.boundaryWork b
  | none => s

/-- A new boundary ends the wait for the reports of the one before it. -/
def State.boundaryLate (s : State) : State :=
  match s.env.due with
  | some b =>
    let s := s.boundaryWork b
    { s with env := { s.env with msgs := s.env.msgs.filter (fun m => !m.isReport) } }
  | none => s

/-- The average of rail r, mv, is below 96 % of its set point (R461, R464, R466). -/
def State.sagWarn (s : State) (rail mv : Nat) : State :=
  let e := s.env
  let isOpen := e.openRecs.any (fun p => p.1 == 4)
  let s : State := { s with env := { e with rails := sset none e.rails rail (some mv), target := Nat.min e.target e.sagPoint,
                                            sagHold := true, sagClean := 0, sagDirty := true } }
  let s := if isOpen then s else s.openRec s.env.ticks 4 s.env.sagPoint
  let s := s.event 0x41 rail mv
  (s.notify s.env.ticks).moveBurners

/-- The rails whose average has fallen below 96 % since `old` are warned of (R461). DEDUCED, log entry 103. -/
def State.sagSampled (s : State) (old : EnvSt) : State :=
  (List.range 8).foldl (fun s r => if s.env.below 96 r && !(old.below 96 r) then s.sagWarn r ((sget none s.env.rails r).getD 0) else s) s

/-- A boundary with no trip: the budget, the reports and, once they are in, the controller's work. -/
def State.boundaryBegin (s : State) : State :=
  let s := s.sampleBudget
  let b : Boundary := { tick := s.env.ticks, energy := s.env.energyNew, given := s.env.given, ac := s.env.ivAc }
  let s := { s with env := { s.env with energyNew := none, given := 0, ivAc := 0, due := some b } }
  let s := if s.keel.state = .aloft then s.sendReports (List.range 384) else s
  s.boundaryDone

/-- An interval boundary at the current tick, with the readings sampled: a trip (R459), or its work. -/
def State.boundary (s : State) (x : EnvSample) : State :=
  let s := s.boundaryLate
  let old := s.env
  let s := s.sample x
  match s.env.trips with
  | c :: t => s.pkgFault (t.foldl Nat.min c)
  | [] => (s.sagSampled old).boundaryBegin

end Sys2Proof.Machine
end

