-- ==== Sys2Proof/Machine/Time.lean ====
section
/-! DEFINITION. What the passing of keel ticks does of itself (R6, R442, R443): the counts that tick whatever is
commanded, and the interval boundaries. -/

namespace Sys2Proof.Machine

open Sys2Proof

/-! ### What a core counts -/

/-- Whether a core's array, tail, lane, vector engine, reels and loft manager have no work (R446). -/
def Core.noWork (k : Core) : Bool :=
  let a := k.arr
  let reel (q : Reel) : Bool := q.prog.isEmpty && (q.stopped || q.pending == 0)
  a.tqA.isEmpty && a.tqB.isEmpty && a.granted.isEmpty && a.running.isEmpty && a.spills.isEmpty && a.spilling.isNone
    && k.lane.queue.isEmpty && k.vec.queue.isEmpty && !k.vec.clearing && reel k.reel0 && reel k.reel1
    && k.loftM.copies.isEmpty

/-- Whether a core meets the conditions of sleep (R446). -/
def Core.idle (k : Core) : Bool :=
  k.sa.state ≠ .running && k.sb.state ≠ .running && k.noWork && !k.arr.unchecked

/-- Whether a stream or a reel of a core waits for credit (R99, R454). -/
def Core.streamsWant (k : Core) : Bool :=
  let st (t : StreamSt) : Bool := t.state == .waiting && t.wait == .credit
  st k.sa || st k.sb || k.reel0.waitCost ≠ 0 || k.reel1.waitCost ≠ 0

/-- Whether nothing is granted at the array's acceptance points for want of credit (R98, R101, R130). -/
def Core.arrWants (k : Core) : Bool :=
  let head (x : Stream) : Bool := match k.arr.tq x with
    | [] => false
    | t :: _ => k.unheld t && !k.covers t
  k.arr.granted.isEmpty && !k.arr.halted && (k.elig .a).isNone && (k.elig .b).isNone && (head .a || head .b)

/-- The ac of a tile's streaming that are left (R130). -/
def ArrSt.leftAc (a : ArrSt) : Nat := a.running.foldl (fun m r => Nat.max m r.left) 0

/-- Of n ac, those in which a spend point of a core waits for credit (R115): the array has no acceptance point while a tile
streams. -/
def Core.wantAc (k : Core) (n : Nat) : Nat :=
  if k.streamsWant then n
  else if k.arrWants && !(k.arr.paused && k.arr.streams) then n - k.arr.leftAc else 0

/-- Whether the STALL watchdog of a core counts (R543): a stream runs, or a unit holds work that waits for nothing
outside the core. -/
def Core.busyAlone (k : Core) : Bool :=
  let a := k.arr
  let ready (l : List Tile) : Bool := match l with
    | [] => false
    | t :: _ => k.unheld t && k.covers t
  k.sa.state == .running || k.sb.state == .running || !a.granted.isEmpty || !a.running.isEmpty || !a.spills.isEmpty
    || a.spilling.isSome || ready a.tqA || ready a.tqB || !k.lane.queue.isEmpty
    || k.vec.queue.any (fun i => i.reqs.isEmpty) || k.vec.clearing
    || k.reel0.prog.any (fun p => p.reqs.isEmpty && p.segIds.isEmpty) || k.reel1.prog.any (fun p => p.reqs.isEmpty && p.segIds.isEmpty)
    || !k.loftM.copies.isEmpty

/-- A stream's WAIT watchdog counts n ticks (R543). -/
def StreamSt.tick (n : Nat) (t : StreamSt) : StreamSt :=
  { t with waitTicks := if t.state = .waiting then t.waitTicks + n else 0 }

/-- A core counts n keel ticks of ac each (R115, R143, R446, R454, R543). -/
def Core.tick (n ac : Nat) (k : Core) : Core :=
  let want := k.wantAc (n * ac)
  { k with
    sa := k.sa.tick n, sb := k.sb.tick n,
    arr := { k.arr with chkTimer := if k.arr.unchecked then Nat.min (k.arr.chkTimer + n) 0xFFF else k.arr.chkTimer,
                        running := if k.arr.paused then k.arr.running
                          else k.arr.running.map (fun r => { r with left := r.left - n * ac }) },
    creditStall := cnt k.creditStall want, stallIv := k.stallIv + want,
    idleTicks := if k.idle && !k.asleep then k.idleTicks + n else 0,
    stallTicks := if k.busyAlone then k.stallTicks + n else k.stallTicks }

/-- The bound cores count n keel ticks. -/
def State.tickCores (s : State) (n : Nat) : List (Nat × Nat) → State
  | [] => s
  | (_, c) :: t =>
    let k := s.core (c - 1)
    let s := if c = 0 || k.fenced || k.resetting then s else s.setCore (c - 1) (k.tick n s.acPerKt)
    s.tickCores n t

/-! ### Ticks -/

/-- n keel ticks pass (R442, R471, R538, R543). -/
def State.tickBy (s : State) (n : Nat) : State :=
  let e := s.env
  let res := sset 0 e.res e.cur (cnt (sget 0 e.res e.cur) n)
  let s := { s with env := { e with ticks := (e.ticks + n) % 2 ^ 64, res, ivAc := e.ivAc + n * s.acPerKt } }
  let s := s.tickCores n s.rig.live.bind
  let s : State := { s with
    gons := s.gons.map (fun p => (p.1, { p.2 with petTicks := p.2.petTicks.map (· + n) })),
    host := { s.host with sessions := s.host.sessions.map (fun p => (p.1, if p.2.isOpen then { p.2 with age := p.2.age + n } else p.2)) } }
  if !s.host.heldTx.isEmpty && decide (s.host.paused ≤ s.env.ticks) then s.unpause else s

/-- Keel ticks up to the next interval boundary pass, and the boundary comes (R443). -/
def State.toBoundary (s : State) (x : EnvSample) : State :=
  (s.tickBy (500 - s.env.ticks % 500)).boundary x

/-- What a step does when no command waits: one keel tick passes, with the boundary that may fall on it.
DESIGN CHOICE, log entry 1. -/
def State.idleTick (s : State) : State :=
  match s.keel.state with
  | .off => s
  | _ =>
    let s := s.tickBy 1
    if s.env.ticks % 500 = 0 then s.boundary {} else s

end Sys2Proof.Machine
end

