-- ==== Sys2Proof/Machine/Env.lean ====
section
/-! DEFINITION. The commands of the envelope controller, sleep and wake (R443 to R471), and its registers. -/

namespace Sys2Proof.Machine

open Sys2Proof

/-- ENVELOPE_INTERVAL (R443): the next interval boundary comes, with these readings. -/
def execEnvelopeInterval (x : EnvSample) (s : State) : Host.Outcome State Fault Refusal :=
  .next (match s.keel.state with
    | .off => s
    | _ => s.toBoundary x)

/-- CORE_REPORT (R452, R454): message k of the envelope's bridle messages, a report, reaches the controller; with the
last one the work of the boundary is done. -/
def execCoreReport (k : Nat) (s : State) : Host.Outcome State Fault Refusal :=
  .next (match s.env.msgs[k]? with
    | some (.report r) =>
      let e := s.env
      ({ s with env := { e with msgs := e.msgs.eraseIdx k, reports := e.reports ++ [r] } } : State).boundaryDone
    | _ => s)

/-- CREDIT_RETURN (R453, R454): message k, a credit return, reaches the controller. -/
def execCreditReturn (k : Nat) (s : State) : Host.Outcome State Fault Refusal :=
  .next (match s.env.msgs[k]? with
    | some (.give _ n) =>
      let e := s.env
      { s with env := { e with msgs := e.msgs.eraseIdx k, given := e.given + n } }
    | _ => s)

/-- The burners are at point p: the lowest point of the open records follows (R465). -/
def State.setCur (s : State) (p : Nat) : State :=
  let s := { s with env := { s.env with cur := p } }
  s.mapOpen (fun r => { r with low := Nat.min r.low p }) s.env.openRecs

/-- The burners have reached the point they stepped to: after a fall the lower costs and set point follow (R449). -/
def State.stepsDone (s : State) : State :=
  let s := s.setPhase .idle
  let s := if s.env.cur < s.env.costPt ∧ s.tables then (s.writeCosts s.env.cur).requestPt s.env.cur else s
  s.moveIdle

/-- BURNER_STEP (R445, R449). -/
def execBurnerStep (s : State) : Host.Outcome State Fault Refusal :=
  .next (match s.env.phase with
    | .stepping g =>
      let p := s.env.cur
      let p' := if p < g then p + 1 else if g < p then p - 1 else p
      let s := s.setCur p'
      if p' = g then s.stepsDone else s
    | _ => s)

/-- RAIL_RAISE_TIMEOUT (R449): 200 µs have passed without SET_OK. -/
def execRailRaiseTimeout (s : State) : Host.Outcome State Fault Refusal :=
  .next (match s.env.phase with
    | .waitSet _ =>
      let s := s.abandonRaise
      { s with env := { s.env with railSlow := true, raiseBarred := s.env.ticks + 50000 } }
    | _ => s)

/-- SAG_WARNING (R461, R464, R466): the 200 ns average of rail r is below 96 % of its set point. -/
def execSagWarning (rail mv : Nat) (s : State) : Host.Outcome State Fault Refusal :=
  .next (
    if rail < 8 ∧ s.railsOn ∧ mv * 100 < 96 * s.env.setPoint rail then s.sagWarn rail mv else s)

/-- SUPPLY_SAG_RESET (R462): a rail has stayed below 92 % of its set point for 50 kt. -/
def execSupplySagReset (rail mv : Nat) (s : State) : Host.Outcome State Fault Refusal :=
  .next (
    if rail < 8 ∧ s.railsOn ∧ mv * 100 < 92 * s.env.setPoint rail then s.pkgFault (ripCode 0x01 (0x10 + rail) 0x0202)
    else s)

/-- THERMAL_TRIP (R459): junction sensor n, or the sensor of the logic die of stack n, reads 105 °C or more. -/
def execThermalTrip (logic : Bool) (n celsius : Nat) (s : State) : Host.Outcome State Fault Refusal :=
  .next (
    if s.keel.state ≠ .off ∧ 105 ≤ celsius ∧ n < (if logic then 16 else 64) then s.pkgFault (tripCode logic n) else s)

/-- The envelope controller changed. -/
def State.updEnv (s : State) (f : EnvSt → EnvSt) : State := { s with env := f s.env }

/-- A write of ENV_ARM (R456). -/
def EnvSt.arm (e : EnvSt) (v : Nat) : EnvSt :=
  if !(bit 0 v) then e
  else if e.modeFixed ∧ 26 < e.modePt then { e with wrIgn := true }
  else { e with fixed := e.modeFixed, fixedPt := e.modePt }

/-- ENV_ARM (R456). -/
def execEnvArm (v : W32) (s : State) : Host.Outcome State Fault Refusal :=
  .next (if s.ctrlUp then s.updEnv (fun e => e.arm v.toNat) else s)

/-- A write of ENV_PACE (R468, R470). -/
def EnvSt.paceWrite (e : EnvSt) (v : Nat) : EnvSt :=
  { e with paceMatch := bit 31 v, paceSend := bit 30 v, paceGroup := fld 15 0 v,
           held := if fld 15 0 v = e.paceGroup then e.held else [] }

/-- ENV_PACE_WRITE (R468). -/
def execEnvPaceWrite (v : W32) (s : State) : Host.Outcome State Fault Refusal :=
  .next (if s.ctrlUp then s.updEnv (fun e => e.paceWrite v.toNat) else s)

/-- Whether a notice is accepted (R468). -/
def State.paceOk (s : State) (m : PaceMsg) : Bool :=
  s.env.paceGroup ≠ 0 && m.group == s.env.paceGroup && m.src ≠ s.teth.self

/-- Whether a held notice is dropped before another: the higher rate, then the earlier expiry. -/
def HeldNotice.before (a b : HeldNotice) : Bool := decide (b.rate < a.rate) || (a.rate == b.rate && decide (a.expiry < b.expiry))

/-- A notice is held; the controller holds 64 (R468). -/
def EnvSt.hold (e : EnvSt) (h : HeldNotice) : EnvSt :=
  let l := e.held.filter (fun x => x.src ≠ h.src)
  if l.length < 64 then { e with held := l ++ [h] }
  else
    let out := l.foldl (fun m x => if x.before m then x else m) (l.headD h)
    { e with held := l.filter (fun x => x.src ≠ out.src) ++ [h] }

/-- SLACK_NOTICE (R467, R468): notice k of those that have arrived reaches the controller. -/
def execSlackNotice (k : Nat) (s : State) : Host.Outcome State Fault Refusal :=
  .next (match s.pace[k]? with
    | some m =>
      if m.resume then s
      else
        let s := { s with pace := s.pace.eraseIdx k }
        if s.paceOk m then
          let h : HeldNotice := { src := m.src, seq := m.seq, reason := m.reason, rate := m.rate,
                                  expiry := s.env.ticks + m.duration }
          (s.updEnv (fun e => e.hold h)).event 0x43 m.src (m.reason * 256 + m.rate)
        else s
    | none => s)

/-- RESUME_NOTICE (R468): notice k of those that have arrived reaches the controller. -/
def execResumeNotice (k : Nat) (s : State) : Host.Outcome State Fault Refusal :=
  .next (match s.pace[k]? with
    | some m =>
      if !m.resume then s
      else
        let s := { s with pace := s.pace.eraseIdx k }
        if s.paceOk m then
          (s.updEnv (fun e => { e with held := e.held.filter (fun h => !(h.src == m.src && h.seq == m.seq)) })).event
            0x44 m.src (m.reason * 256 + m.rate)
        else s
    | none => s)

/-- NOTICE_EXPIRY (R468). -/
def execNoticeExpiry (src : Nat) (s : State) : Host.Outcome State Fault Refusal :=
  .next (s.updEnv (fun e => { e with held := e.held.filter (fun h => !(h.src == src && decide (h.expiry ≤ e.ticks))) }))

/-! ### Latched pairs (R444) -/

/-- A read of KEEL_TICKS_LO. -/
def State.readTicks (s : State) : State × Nat :=
  (s.updEnv (fun e => { e with ticksHi := fld 63 32 e.ticks }), fld 31 0 s.env.ticks)

/-- A read of ENV_WS_ENERGY_LO. -/
def State.readEnergy (s : State) : State × Nat :=
  (s.updEnv (fun e => { e with energyHi := fld 63 32 e.energyMj }), fld 31 0 s.env.energyMj)

/-- KEEL_TICKS_READ (R444). -/
def execKeelTicksRead (w : Who) (s : State) : Host.Outcome State Fault Refusal :=
  .next (if s.ctrlUp && s.whoOk w then let r := s.readTicks; { r.1 with lastRead := r.2 } else s)

/-- ENV_WS_ENERGY_READ (R444). -/
def execEnvWsEnergyRead (w : Who) (s : State) : Host.Outcome State Fault Refusal :=
  .next (if s.ctrlUp && s.whoOk w then let r := s.readEnergy; { r.1 with lastRead := r.2 } else s)

/-! ### Sleep and wake (R31, R446) -/

/-- CORE_SLEEP (R446): the conditions have held for 50 kt. -/
def execCoreSleep (c : Nat) (s : State) : Host.Outcome State Fault Refusal :=
  .next (
    let k := s.core c
    if s.coreRuns c && k.idle && decide (50 ≤ k.idleTicks) then
      s.setCore c { k with asleep := true, waking := false, idleTicks := 0 }
    else s)

/-- CORE_WAKE (R446): the burner of a core that an event has reached runs again. -/
def execCoreWake (c : Nat) (s : State) : Host.Outcome State Fault Refusal :=
  .next (
    let k := s.core c
    if s.keel.state = .aloft ∧ k.asleep ∧ k.waking ∧ !k.fenced then
      s.setCore c { k with asleep := false, waking := false, wasAwake := true, idleTicks := 0 }
    else s)

/-! ### Registers (R465, R470, R471) -/

/-- A record as eight words (R465). -/
def ThrRec.words (r : ThrRec) : List Nat :=
  [fld 31 0 r.start, fld 63 32 r.start, r.duration,
   flag 7 r.opened + r.reason + r.low * 0x100 + r.peer * 0x10000, r.deficit, r.rate]

/-- EST: no ENERGY frame has completed for 20 µs (R586). -/
def EnvSt.est (e : EnvSt) : Bool := decide (e.energyAt + 1000 ≤ e.ticks)

/-- A read of the keel and envelope window at an offset of this chapter. -/
def State.envRead (s : State) (off : Nat) : State × Nat :=
  let e := s.env
  let ro (v : Nat) : State × Nat := (s, v)
  if off = 0 then s.readTicks
  else if off = 4 then ro e.ticksHi
  else if off = 0x200 then
    ro (flag 8 e.est + flag 7 e.railSlow + flag 6 e.budgetLow + flag 5 e.sagHold + flag 4 (decide (27 ≤ e.target))
      + flag 3 (s.reasonAt 5).1 + flag 2 (!e.openRecs.isEmpty) + flag 1 e.fixed + flag 0 e.wrIgn)
  else if off = 0x204 then ro (flag 8 e.modeFixed + e.modePt)
  else if off = 0x20C then ro (e.cur * 0x1000000 + e.target * 0x10000 + e.uc * 0x100 + s.bindingReason)
  else if off = 0x210 then ro (Nat.min e.budgetRail 0x7FF * 0x10000 + e.inForce)
  else if off = 0x214 then ro e.pmax
  else if off = 0x218 then ro (e.hostBudget * 0x10000 + e.hostCeil)
  else if off = 0x21C then ro (flag 31 e.boostEn + e.boostMargin * 0x10000 + e.stallHi * 0x100 + e.stallLo)
  else if off = 0x220 then ro (e.sagPoint * 0x10000 + e.sagHoldN)
  else if off = 0x224 then ro (flag 31 e.paceMatch + flag 30 e.paceSend + e.paceGroup)
  else if off = 0x228 then ro (e.durHost * 0x1000000 + e.durCurrent * 0x10000 + e.durThermal * 0x100 + e.durBudget)
  else if off = 0x22C then ro (e.thrTotal * 0x10000 + e.thrNext)
  else if off = 0x230 then ro ((match e.lowest with
    | some h => h.rate
    | none => 0x1F) * 0x100 + e.held.length)
  else if off = 0x234 then
    (s.updEnv (fun e => { e with dealtUnits := e.dealtUnits % 1024 }), Nat.min (e.dealtUnits / 1024) cntMax)
  else if off = 0x400 then (s.updEnv (fun e => { e with powerPeak := 0 }), e.powerPeak * 0x10000 + e.powerNow)
  else if off = 0x404 then s.readEnergy
  else if off = 0x408 then ro e.energyHi
  else if 0x410 ≤ off ∧ off < 0x420 ∧ off % 4 = 0 then
    let d := (off - 0x410) / 4
    (s.updEnv (fun e => { e with tempPeak := sset 0 e.tempPeak d 0 }),
      hottest e.stackTemp (4 * d) 4 * 0x1000000 + sget 0 e.tempPeak d * 0x10000 + hottest e.junction (16 * d) 16)
  else if 0x420 ≤ off ∧ off < 0x440 ∧ off % 4 = 0 then
    let r := (off - 0x420) / 4
    ro (match sget none e.rails r with
      | some v => e.setPoint r * 0x10000 + v
      | none => 0)
  else if 0x480 ≤ off ∧ off < 0x4F8 ∧ off % 4 = 0 then
    let p := (off - 0x480) / 4
    (s.updEnv (fun e => { e with res := sset 0 e.res p 0 }), sget 0 e.res p)
  else if 0x1000 ≤ off ∧ off < 0x3000 ∧ off % 4 = 0 then
    ro ((sget {} e.ring ((off - 0x1000) / 32)).words.getD (off / 4 % 8) 0)
  else ro 0

/-- A write to the keel and envelope window at an offset of this chapter. -/
def EnvSt.write (e : EnvSt) (off v : Nat) : EnvSt :=
  let one (n : Nat) : Nat := if n = 0 then 1 else n
  if off = 0x200 then { e with railSlow := e.railSlow && !bit 7 v, budgetLow := e.budgetLow && !bit 6 v,
                               wrIgn := e.wrIgn && !bit 0 v }
  else if off = 0x204 then { e with modeFixed := bit 8 v, modePt := fld 4 0 v }
  else if off = 0x208 then e.arm v
  else if off = 0x214 then { e with pmax := Nat.min (Nat.max (fld 10 0 v) 250) 1100 }
  else if off = 0x218 then { e with hostBudget := fld 26 16 v, hostCeil := Nat.min (fld 4 0 v) 29 }
  else if off = 0x21C then { e with boostEn := bit 31 v, boostMargin := fld 23 16 v, stallHi := fld 15 8 v,
                                    stallLo := fld 7 0 v }
  else if off = 0x220 then { e with sagPoint := fld 20 16 v, sagHoldN := one (fld 15 0 v) }
  else if off = 0x224 then e.paceWrite v
  else if off = 0x228 then { e with durHost := one (fld 31 24 v), durCurrent := one (fld 23 16 v),
                                    durThermal := one (fld 15 8 v), durBudget := one (fld 7 0 v) }
  else e

end Sys2Proof.Machine
end

