-- ==== Sys2Proof/Machine/Watch.lean ====
section
/-! DEFINITION. The WATCH instructions, the merge of slots into the watch table, and the update of WATCH.STEP
(R205 to R226). -/

namespace Sys2Proof.Machine

open Sys2Proof

/-! ### Counting and closing (R209, R210, R220) -/

/-- WATCH.NORM (R209, R223). -/
def execWatchNorm (c : Nat) (x : Stream) (w : InsnW) (s : State) : Host.Outcome State Fault Refusal :=
  .next (s.coreAccess c (fun s => s.issue c x w (fmtI w && iD w == 0) [iA w] (fun s =>
    let slot := iw w 11 0
    let v := ((s.core c).st x |>.getS (iA w)).toNat % 2 ^ 32
    if slot = 0 ∨ iw w 31 13 ≠ 0 then s.raise c x 0x32
    else if isNan pF v || (bit 31 v && !(isZero pF v)) then (s.countNonfinite c slot).retire c x
    else (s.countNorm c slot (bit 12 (iImmU w)) v).retire c x)))

/-- The ticket of a stream's knot operation, a verdict or a WATCH.STEP's wait of core c, and whether it came before ticket n. -/
def KWho.issuedBefore (c n : Nat) : KWho → Bool
  | .stream c' _ _ t _ => c' == c && decide (t < n)
  | .verdict c' t => c' == c && decide (t < n)
  | .step c' _ t => c' == c && decide (t < n)
  | _ => false

/-- Whether a remote request is one of a stream of core c. -/
def Req.ofCore (c : Nat) (q : Req) : Bool :=
  match q.who with
  | .load c' _ _ _ _ => c' == c
  | .store c' _ => c' == c
  | .vec c' _ _ => c' == c
  | _ => false

/-- Whether an array, lane or vector operation that issued before ticket n has still to complete (R220). -/
def Core.busyBefore (k : Core) (n : Nat) : Bool :=
  (k.arr.tilesOf .a ++ k.arr.tilesOf .b ++ k.lane.queue.map (·.id) ++ k.vec.queue.map (·.id)
    ++ k.loads.map (·.ticket) ++ k.watch.stepA.toList ++ k.watch.stepB.toList).any (fun i => decide (i < n))
    || (k.watch.verdictOut && decide (k.watch.verdictId < n))

/-- Whether a knot operation of core c that issued before ticket n has still to be answered, or applied (R220). -/
def State.knotsBefore (s : State) (c n : Nat) : Bool :=
  (s.knot.ops ++ s.knot.heldOps).any (fun m => m.who.issuedBefore c n)
    || s.knot.replies.any (fun r => r.who.issuedBefore c n)
    || s.knot.knots.any (fun p => p.2.waiters.any (fun w => w.who.issuedBefore c n))

/-- Everything the streams of core c have issued up to now (R220). -/
def State.closeSet (s : State) (c : Nat) : CloseSet :=
  let k := s.core c
  { ticket := k.nextTicket, tags := (s.teth.reqs.filter (fun r => r.ofCore c)).map (·.tag),
    gone0 := k.reel0.gone + k.reel0.pending, gone1 := k.reel1.gone + k.reel1.pending }

/-- Whether something that core c issued before a WATCH.CLOSE has still to complete (R220). -/
def State.closeBusy (s : State) (c : Nat) (q : CloseSet) : Bool :=
  let k := s.core c
  k.busyBefore q.ticket || s.knotsBefore c q.ticket || s.teth.reqs.any (fun r => r.ofCore c && q.tags.contains r.tag)
    || decide (k.reel0.gone < q.gone0) || decide (k.reel1.gone < q.gone1)

/-- Merges of held slots leave, the least recent first (R210, R220). -/
def State.mergeAll (s : State) (c : Nat) : List HeldSlot → State
  | [] => s
  | h :: t => (s.sendMerge c h).mergeAll c t

/-- WATCH.CLOSE (R220): the first presentation fixes what it waits for. -/
def execWatchClose (c : Nat) (x : Stream) (w : InsnW) (s : State) : Host.Outcome State Fault Refusal :=
  .next (s.issue c x w (fmtJ w && iImmU w == 0) [] (fun s =>
    let k := s.core c
    let t := k.st x
    let n := t.closeAt.getD (s.closeSet c)
    if t.closeAt = none ∧ !k.watch.valid then s.raise c x 0x33
    else if t.closed then (if k.watch.unacked = 0 then s.retire c x else s)
    else if s.closeBusy c n then s.updSt c x (fun t => { t with closeAt := some n })
    else
      let s := (s.mergeAll c k.watch.held).updCore c (fun k => { k with watch := { k.watch with held := [] } })
      if (s.core c).watch.unacked = 0 then s.retire c x
      else s.updSt c x (fun t => { t with closeAt := some n, closed := true })))

/-- WATCH.LOAD (R217): the copy completes at once. -/
def execWatchLoad (c : Nat) (x : Stream) (w : InsnW) (s : State) : Host.Outcome State Fault Refusal :=
  .next (s.coreAccess c (fun s => s.issue c x w (fmtJ w && iImmU w == 0) [] (fun s =>
    let k := s.core c
    if !k.watch.valid then s.raise c x 0x33
    else
      let r := s.readBytes (k.watch.base + 64) 512
      (r.1.updCore c (fun k => { k with watch := { k.watch with fb := ofLe r.2 } })).retire c x)))

/-! ### The verdict (R219, R221) -/

/-- WATCH.VERDICT (R219, R378). -/
def execWatchVerdict (c : Nat) (x : Stream) (w : InsnW) (s : State) : Host.Outcome State Fault Refusal :=
  .next (s.coreAccess c (fun s => s.issue c x w (fmtJ w && iImmU w == 0) [] (fun s =>
    let k := s.core c
    if !k.watch.valid then s.raise c x 0x33
    else
      let r := s.readBytes (k.watch.base + 20) 4
      let s := r.1
      let knot := ofLe r.2 % 2 ^ 18
      match s.knotCheck .arrive knot (some (s.logNum c)) with
      | some code => s.raise c x code
      | none =>
        let n := s.ticket c
        let s := n.2
        let m := s.releaseOf c x { who := .verdict c n.1, op := .arrive, knot, arg := 1, err := k.watch.stepOvf, node := c,
                                   agent := 0 }
        ((s.sendKnot m).updCore c (fun k => { k with watch := { k.watch with
          stepOvf := false, verdict := none, verdictOut := true, verdictKnot := knot, verdictId := n.1 } })).retire c x)))

/-- The wait of the WATCH.STEP with ticket n is sent to the verdict knot (R221, step 2). -/
def State.stepWait (s : State) (c : Nat) (x : Stream) (n : Nat) : State :=
  let w := (s.core c).watch
  s.sendKnot { who := .step c x n, op := .wait, knot := w.verdictKnot, arg := w.verdict.getD 0, node := c, agent := 0 }

/-- WATCH.STEP (R221): its stream waits for the reply of the verdict, then for the verdict knot. -/
def execWatchStep (c : Nat) (x : Stream) (w : InsnW) (s : State) : Host.Outcome State Fault Refusal :=
  .next (s.issue c x w (fmtJ w && iImmU w == 0) [] (fun s =>
    let k := s.core c
    if !k.watch.valid then s.raise c x 0x33
    else if k.watch.verdict = none ∧ !k.watch.verdictOut then s.raise c x 0x34
    else
      let n := s.ticket c
      let s := (n.2.waitFor c x .knot).updCore c Core.issued
      if k.watch.verdictOut then
        s.updCore c (fun k => { k with watch := match x with
          | .a => { k.watch with stepA := some n.1 }
          | .b => { k.watch with stepB := some n.1 } })
      else s.stepWait c x n.1))

/-! ### The evaluation (R212, R213, R218, R221, R222) -/

/-- A slot's norm of a step (R212). -/
def stepNorm (nsq : Nat) (nexp : Int) : Nat :=
  match fdec pF (fofInt pF nsq) with
  | .fin _ m e => if m = 0 then 0 else sqrtDy pF m (e + nexp)
  | _ => 0

/-- One norm of a slot at the evaluation: whether it rose or fell (R212), and its average and NEXP after it (R213). -/
structure NormStep where
  up : Bool := false
  down : Bool := false
  avg : Nat
  nexp : Nat

/-- One norm of a slot: `free` is its NEXP when its running norm is infinite. -/
def normStep (jump : Nat) (drop on fb : Bool) (samples h nsq avg nexp free : Nat) : NormStep :=
  let n := stepNorm nsq (sx 16 nexp)
  let j : Fv := .fin false jump (-4)
  let up := on && fvLt (mulFv j (fdec pF avg)) (fdec pF n)
  let down := on && drop && fvLt (mulFv j (fdec pF n)) (fdec pF avg)
  let a := if samples = 0 then n
    else if fb || !(up || down) then fadd pF avg (fmul pF (fsub pF n avg) (fenc pF false 1 (-(h : Int))))
    else avg
  let e := match fdec pF a with
    | .fin false m e => if m = 0 then nexp else wrap 16 (((m * m).log2 : Int) + 2 * e - 40)
    | .inf false => free
    | _ => nexp
  { up, down, avg := a, nexp := e }

/-- A slot's record after an evaluation without overflow (R212, R213), its accumulators not yet cleared.
DEDUCED, log entry 42. -/
def slotStep (i : Nat) (b : List Byte) : List Byte :=
  let cfg := leAt b 0 4
  let st := leAt b 12 4
  let m0 := bit 0 cfg
  let m1 := bit 1 cfg
  let fb := bit 31 st
  let samples := fld 23 16 st
  let flags := leAt b 29 1
  let elems := leAt b 40 8
  let jump := Nat.max (fld 31 24 cfg) 16
  let on := m1 && decide (fld 23 16 cfg ≤ samples)
  let go (have' : Bool) (nsq avg nexp free : Nat) : NormStep :=
    if have' then normStep jump (bit 4 cfg) on fb samples (fld 15 12 cfg) nsq avg nexp free else { avg, nexp }
  let o := go (bit 2 flags) (leAt b 48 8) (leAt b 20 4) (leAt b 16 2) (Config.freeNexpInf (2 * i)).toNat
  let g := go (bit 3 flags) (leAt b 56 8) (leAt b 24 4) (leAt b 18 2) (Config.freeNexpInf (2 * i + 1)).toNat
  let why := flag 0 (m0 && decide (leAt b 4 2 * elems < leAt b 32 4 * 65536))
    + flag 1 (m0 && decide (leAt b 6 2 * elems < leAt b 36 4 * 65536)) + flag 2 (m0 && bit 0 flags)
    + flag 3 o.up + flag 4 o.down + flag 5 g.up + flag 6 g.down + flag 7 (m1 && (bit 4 flags || bit 5 flags))
  let clean := st % 65536
  let next : Bool × Nat :=
    if why ≠ 0 then (true, 0)
    else if fb then
      (if leAt b 8 2 ≤ clean + 1 then (false, 0) else (true, Nat.min (clean + 1) 0xFFFF))
    else (false, clean)
  let samples := if bit 2 flags || bit 3 flags then Nat.min (samples + 1) 255 else samples
  b.take 12 ++ leBytes 4 (flag 31 next.1 + samples * 65536 + next.2) ++ leBytes 2 o.nexp ++ leBytes 2 g.nexp
    ++ leBytes 4 o.avg ++ leBytes 4 g.avg ++ leBytes 1 why ++ b.drop 29

/-- A slot's record after WATCH.STEP (R221, R222), and whether its slot is active and in fall-back. -/
def recordStep (ovf : Bool) (i : Nat) (b : List Byte) : List Byte × Bool × Bool :=
  let act := leAt b 0 4 % 4 != 0
  let b := if act && !ovf then slotStep i b else b
  (b.take 29 ++ leBytes 1 0 ++ slice b 30 2 ++ leBytes 8 0 ++ leBytes 8 0 ++ leBytes 8 0 ++ leBytes 8 0, act,
    act && bit 31 (leAt b 12 4))

/-- Records from slot i on: the state, and what each slot is. -/
def State.stepSlots (s : State) (base : Nat) (ovf : Bool) : Nat → Nat → State × List (Bool × Bool)
  | _, 0 => (s, [])
  | i, n + 1 =>
    let r := s.readBytes (slotAddr base i) 64
    let q := recordStep ovf i r.2
    let w := r.1.writeBytes {} (slotAddr base i + 12) (q.1.drop 12)
    let t := w.1.stepSlots base ovf (i + 1) n
    (t.1, q.2 :: t.2)

/-- The bits of a list of flags from bit i on. -/
def flagBits : Nat → List Bool → Nat
  | _, [] => 0
  | i, b :: t => flag i b + flagBits (i + 1) t

/-- The first 20 bytes of the table's header after WATCH.STEP (R206, R221). -/
def headerStep (ovf storm : Bool) (active fb : Nat) (h : List Byte) : List Byte :=
  let ls := leAt h 0 1
  let clean := (leAt h 4 4 + 1) % 2 ^ 32
  let grow := decide (leAt h 8 2 ≤ clean)
  let next : Nat × Nat :=
    if ovf then (if leAt h 1 1 < ls then ls - 1 else ls, 0)
    else (if grow && decide (ls < leAt h 2 1) then ls + 1 else ls, if grow then 0 else clean)
  leBytes 1 next.1 ++ slice h 1 2 ++ leBytes 1 ls ++ leBytes 4 next.2 ++ slice h 8 2
    ++ leBytes 1 (flag 1 storm + flag 0 ovf) ++ slice h 11 1 ++ leBytes 4 (leAt h 12 4 + 1) ++ leBytes 2 active
    ++ leBytes 2 fb

/-- The watch table at WATCH.STEP (R221). -/
def State.tableStep (s : State) (c base : Nat) (ovf : Bool) : State :=
  let h := s.readBytes base 64
  let m := h.1.readBytes (base + 64) 1
  let r := m.1.stepSlots base ovf 1 4095
  let active := (r.2.filter (·.1)).length
  let fb := (r.2.filter (·.2)).length
  let storm := decide (active < fb * 2)
  let s := (r.1.writeBytes {} base (headerStep ovf storm active fb h.2)).1
  let bits := flag 0 (bit 0 (ofLe m.2)) + flagBits 1 (r.2.map (·.2))
  let s := (s.writeBytes {} (base + 64) (leBytes 512 bits)).1
  if storm then s.event 0x10 (s.logNum c) (fb * 65536 + active) else s

/-- The status that satisfies the wait of a WATCH.STEP has come (R221, steps 3 and 4). -/
def State.stepReply (s : State) (c : Nat) (x : Stream) (status : Nat) : State :=
  let s := s.updCore c (fun k => { k with watch := { k.watch with verdict := none } })
  if bit 63 status then s.raise c x 0x35
  else if !(s.core c).watch.valid then s.raise c x 0x33
  else (s.tableStep c (s.core c).watch.base (bit 62 status)).retire c x

/-! ### Merges (R210) -/

/-- A counter added with saturation. -/
def satAdd (mx a b : Nat) : Nat := Nat.min (a + b) mx

/-- A slot's record after a merge (R210). -/
def mergeRecord (b : List Byte) (h : HeldSlot) : List Byte :=
  let o := satNorm (leAt b 48 8) h.nsqOut
  let g := satNorm (leAt b 56 8) h.nsqGrad
  b.take 29 ++ leBytes 1 (leAt b 29 1 ||| h.flags ||| flag 4 o.2 ||| flag 5 g.2) ++ slice b 30 2
    ++ leBytes 4 (satAdd u32Max (leAt b 32 4) h.sat) ++ leBytes 4 (satAdd u32Max (leAt b 36 4) h.flush)
    ++ leBytes 8 (satAdd u64Max (leAt b 40 8) h.elems) ++ leBytes 8 o.1 ++ leBytes 8 g.1

/-- A merge's counts go into the record of its slot (R210); a poisoned record stays as it is. -/
def State.mergeSlot (s : State) (m : Merge) : State :=
  let r := s.readMem (slotAddr m.base m.held.slot) 64
  if marked r.2.1 then r.1
  else (r.1.writeBytes {} (slotAddr m.base m.held.slot + 28) ((mergeRecord (r.2.1.map (·.1)) m.held).drop 28)).1

/-- Merge k, m, has reached its stack, and its core is told. -/
def State.mergeTold (s : State) (k : Nat) (m : Merge) : State :=
  ({ s with merges := s.merges.eraseIdx k } : State).updCore m.core (fun q =>
    { q with watch := { q.watch with unacked := q.watch.unacked - 1 } })

/-- WATCH_MERGE (R210, R226): merge k reaches the stack that holds its record, and is acknowledged. -/
def execWatchMerge (k : Nat) (s : State) : Host.Outcome State Fault Refusal :=
  .next (
    match s.merges[k]? with
    | none => s
    | some m =>
      s.coreAccess m.core (fun s =>
        let t := s.mergeTold k m
        if s.tableOk m.base then t.mergeSlot m
        else t.updCore m.core (fun q => { q with watch := { q.watch with lost := true } })))

/-- A write of v to half of WATCH_BASE while the table's validity for an address is `ok` (R226). -/
def Core.watchBase (k : Core) (ok : Nat → Bool) (hi : Bool) (v : Nat) : Core :=
  let w := k.watch
  if !(w.held.isEmpty) then { k with wrIgn := true }
  else
    let base := if hi then v * 2 ^ 32 + w.base % 2 ^ 32 else w.base / 2 ^ 32 * 2 ^ 32 + v / 1024 * 1024
    { k with watch := { w with base, valid := ok base } }

/-- WATCH_BASE_WRITE (R226). DEDUCED, log entry 43. -/
def execWatchBaseWrite (c : Nat) (hi : Bool) (v : W32) (s : State) : Host.Outcome State Fault Refusal :=
  .next (s.coreWrite c (fun k => k.watchBase s.tableOk hi v.toNat))

end Sys2Proof.Machine
end

