-- ==== Sys2Proof/Machine/Knt.lean ====
section
/-! DEFINITION. The knot commands: the KN instructions (R371), operations at their home (R377), replies (R372), group trees
(R380 to R382), heartbeats (R388, R402), and the knot registers (R370, R389, R390). -/

namespace Sys2Proof.Machine

open Sys2Proof

/-! ### The KN instructions (R371, R378) -/

/-- A KN instruction (R371): `src` are the registers it reads. -/
def State.knIssue (s : State) (c : Nat) (x : Stream) (w : InsnW) (op : KOp) (src : List Nat) : State :=
  s.issue c x w (fmtI w && iw w 31 18 == 0) src (fun s =>
    let knot := iw w 17 0
    match s.knotCheck op knot (some (s.logNum c)) with
    | some code => s.raise c x code
    | none =>
      let arg := (((s.core c).st x).getS (iA w)).toNat % 2 ^ 32
      let stop := op == .wait || op == .take
      let r := s.ticket c
      let m : KMsg := { who := .stream c x (iD w) r.1 stop, op, knot, arg, err := s.arriveErr op knot arg, node := c, agent := 0 }
      let rel := op == .arrive || op == .give || op == .set || op == .store
      let s := (r.2.sendKnot (if rel then s.releaseOf c x m else m)).updSt c x (fun t => t.await (iD w) r.1)
      if stop then (s.waitFor c x .knot).updCore c Core.issued else s.retire c x)

/-- KN.ARRIVE (R371). -/
def execKnArrive (c : Nat) (x : Stream) (w : InsnW) (s : State) : Host.Outcome State Fault Refusal :=
  .next (s.knIssue c x w .arrive [iA w])
/-- KN.WAIT (R373). -/
def execKnWait (c : Nat) (x : Stream) (w : InsnW) (s : State) : Host.Outcome State Fault Refusal :=
  .next (s.knIssue c x w .wait [iA w])
/-- KN.GIVE (R375). -/
def execKnGive (c : Nat) (x : Stream) (w : InsnW) (s : State) : Host.Outcome State Fault Refusal :=
  .next (s.knIssue c x w .give [iA w])
/-- KN.TAKE (R375). -/
def execKnTake (c : Nat) (x : Stream) (w : InsnW) (s : State) : Host.Outcome State Fault Refusal :=
  .next (s.knIssue c x w .take [iA w])
/-- KN.SET (R371). -/
def execKnSet (c : Nat) (x : Stream) (w : InsnW) (s : State) : Host.Outcome State Fault Refusal :=
  .next (s.knIssue c x w .set [])
/-- KN.STORE (R371). -/
def execKnStore (c : Nat) (x : Stream) (w : InsnW) (s : State) : Host.Outcome State Fault Refusal :=
  .next (s.knIssue c x w .store [iA w])
/-- KN.READ (R371). -/
def execKnRead (c : Nat) (x : Stream) (w : InsnW) (s : State) : Host.Outcome State Fault Refusal :=
  .next (s.knIssue c x w .read [])
/-- KN.ABORT (R376). -/
def execKnAbort (c : Nat) (x : Stream) (w : InsnW) (s : State) : Host.Outcome State Fault Refusal :=
  .next (s.knIssue c x w .abort [])

/-! ### At the home (R377, R386) -/

/-- The node a reply goes to. -/
def KWho.node : KWho → Nat
  | .stream c _ _ _ _ => c
  | .reel c => c
  | .verdict c _ => c
  | .step c _ _ => c
  | .pair g _ => pairNode g
  | .host _ _ => 94
  | .unit _ _ => keelNode
  | .far dev _ => 0x400 + dev

/-- The stream of a message, when a stream sent it. -/
def KWho.streamOf : KWho → Option (Nat × Stream)
  | .stream c x _ _ _ => some (c, x)
  | .step c x _ => some (c, x)
  | _ => none

/-- Whether an earlier message holds back a later one: both go from one node to one home, and the earlier one has left, or is
held for release by the same stream for the same knot (R377, R386). DEDUCED, log entry 58. -/
def State.before (s : State) (e m : KMsg) : Bool :=
  e.node == m.node && homeOf e.knot == homeOf m.knot
    && (s.released e || (e.who.streamOf == m.who.streamOf && e.who.streamOf.isSome && e.knot == m.knot))

/-- Whether message m, the first of its kind in the list, can arrive. -/
def State.canArrive (s : State) (m : KMsg) : List KMsg → Bool
  | [] => false
  | e :: t => if e = m then s.released m else !(s.before e m) && s.canArrive m t

/-- A message is placed among those that arrive in its cycle: the home's own node first, then by node and agent (R377). -/
def placeMsg (m : KMsg) : List KMsg → List KMsg
  | [] => [m]
  | e :: t =>
    let key (q : KMsg) : Nat := (if q.node = homeOf q.knot then 0 else q.node + 1) * 8 + q.agent
    if key m < key e then m :: e :: t else e :: placeMsg m t

/-- The messages that can arrive leave those on their way, in the order they were sent; one that cannot arrive yet stays. -/
def State.arriving (s : State) : List KMsg → State × List KMsg
  | [] => (s, [])
  | m :: t =>
    if s.canArrive m s.knot.ops then
      let r := ({ s with knot := { s.knot with ops := s.knot.ops.erase m } } : State).arriving t
      (r.1, m :: r.2)
    else s.arriving t

/-- Messages that have arrived are applied in turn. -/
def State.applyMsgs (s : State) : List KMsg → State
  | [] => s
  | m :: t => (((s.knotApply m).redArrived m).redAfter (s.kn m.knot) m.knot).applyMsgs t

/-- An entry of the knot store is read: a word that cannot be corrected aborts the knot (R541, R560). -/
def State.knotEcc (s : State) (k : Nat) (e : Ecc) : State :=
  match e with
  | .ok => s
  | .corrected => { s with rip := { s.rip with corrected := cnt s.rip.corrected 1 } }
  | .double =>
    let s := s.report (ripCode (0x10 + k / 65536) 0x50 0x4201)
    match s.rangeOf k with
    | some r => s.abortKnot k r none
    | none => s

/-- A double-bit error is detected in a message on bridle link n of the package (0 to 3 of a die, 4 to 7 a bridge): the message
is lost (R387, R560). DESIGN CHOICE, log entry 101. -/
def State.bridleFault (s : State) (n : Nat) : State :=
  let s := { s with knot := { s.knot with bridleErr := cnt s.knot.bridleErr 1 } }
  if n < 4 then s.dieFault n (ripCode (0x10 + n) 0x31 0x4001) else s.pkgFault (ripCode 0x01 (0x1C + n) 0x4001)

/-- The bridle link of the bridge between two dies that share an edge (R559). -/
def bridgeLink (a b : Nat) : Nat :=
  match Nat.min a b, Nat.max a b with
  | 0, 1 => 4
  | 2, 3 => 5
  | 0, 2 => 6
  | _, _ => 7

/-- The dies that a message between two dies passes (R479). DESIGN CHOICE, log entry 101. -/
def diePath (mesh a b : Nat) : List Nat :=
  if a = b then [a]
  else if a + b = 3 then
    (if a = 0 ∨ b = 0 then [a, if bit 0 mesh then 2 else 1, b] else [a, if bit 1 mesh then 3 else 0, b])
  else [a, b]

/-- A message from one bridle node to another has been heard on every link it passed (R388). -/
def State.hear (s : State) (a b : Nat) : State :=
  if 400 ≤ a ∨ 400 ≤ b then s else
  let p := diePath s.rig.live.mesh (a / 100) (b / 100)
  let l := p ++ (p.zip (p.drop 1)).map (fun q => bridgeLink q.1 q.2)
  { s with knot := { s.knot with heard := l.foldl (fun m n => sset 0 m n s.env.ticks) s.knot.heard } }

/-- The messages on their way to a home that operands name, in the order they were sent: those for the home of the first. -/
def State.opsNamed (s : State) (ks : List Nat) : List KMsg :=
  let ms := ((List.range s.knot.ops.length).filter (fun i => ks.contains i)).filterMap (fun i => s.knot.ops[i]?)
  match ms with
  | [] => []
  | m :: _ => ms.filter (fun q => homeOf q.knot == homeOf m.knot)

/-- KNOT_OP_AT_HOME (R377): the messages `ks` reach one home in one cycle. -/
def execKnotOpAtHome (ks : List Nat) (e : KnotCheck) (s : State) : Host.Outcome State Fault Refusal :=
  .next (
    s.access (.gondola 0) none (fun s =>
    let r := s.arriving (s.opsNamed ks)
    match r.2, e.bad with
    | [], _ => s
    | _, some n => r.1.bridleFault n
    | m :: _, none =>
      let s := r.2.foldl (fun s q => s.hear q.node (homeOf q.knot)) r.1
      (s.knotEcc m.knot e.entry).applyMsgs (r.2.foldl (fun l q => placeMsg q l) [])))

/-! ### Replies (R372, R389) -/

/-- A stream's knot operation is answered: the register takes the status, and a stream that stopped for it goes on, or halts
when it has been stopped meanwhile (R111, R371). -/
def State.knotAnswer (s : State) (c : Nat) (x : Stream) (d ticket : Nat) (stop : Bool) (status : Nat) : State :=
  let s := s.updSt c x (fun t => t.deliver d ticket (BitVec.ofNat 64 status))
  let t := (s.core c).st x
  if stop && t.state == .waiting && t.wait == .knot then
    (s.retire c x).updSt c x (fun t => if t.stopReq then { t with state := .halted, stopReq := false } else t)
  else s

/-- A stream that was stopped while its WATCH.STEP waited halts (R111). DEDUCED, log entry 30. -/
def State.stepStopped (s : State) (c : Nat) (x : Stream) : State :=
  s.updSt c x (fun t => if t.stopReq then { t with state := if t.state = .running then .halted else t.state, stopReq := false } else t)

/-- The WATCH.STEPs that waited for a verdict's reply send their waits (R221). -/
def State.stepsGo (s : State) (c : Nat) : State :=
  let w := (s.core c).watch
  let s := s.updCore c (fun k => { k with watch := { k.watch with stepA := none, stepB := none } })
  let go (s : State) (x : Stream) (t : Option Nat) : State :=
    match t with
    | some n => s.stepWait c x n
    | none => s
  go (go s .a w.stepA) .b w.stepB

/-- The reply to a WATCH.VERDICT (R221): only that to the core's last one gives its verdict phase. -/
def State.verdictReply (s : State) (c n status : Nat) : State :=
  let w := (s.core c).watch
  if w.verdictOut && w.verdictId == n then
    (s.updCore c (fun k => { k with watch := { k.watch with verdict := some (status % 65536), verdictOut := false } })).stepsGo c
  else s

/-- A reply reaches the agent it is for. -/
def State.takeReply (s : State) (r : KReply) : State :=
  match r.who with
  | .stream c x d ticket stop => (s.updCore c Core.poke).knotAnswer c x d ticket stop r.status
  | .verdict c n => (s.updCore c Core.poke).verdictReply c n r.status
  | .step c x _ => ((s.updCore c Core.poke).stepReply c x r.status).stepStopped c x
  | .pair g n =>
    if (s.pair g).serial ≠ n then s
    else s.updPair g (fun p => { p with waiting := false, resValid := true, resAborted := bit 63 r.status,
                                        resErr := bit 62 r.status, resValue := r.status % 2 ^ 29 })
  | .host n id => s.cmdDone n id (if bit 63 r.status then 6 else 0) r.status
  | _ => s

/-- Reply k, which is r, comes in: it reaches the agent it is for, or a double-bit error is detected in it. -/
def State.replyIn (s : State) (k : Nat) (r : KReply) (bad : Option Nat) : State :=
  let s := { s with knot := { s.knot with replies := s.knot.replies.eraseIdx k } }
  match bad with
  | some n => s.bridleFault n
  | none => (s.hear (homeOf r.knot) r.who.node).takeReply r

/-- KNOT_REPLY (R372): a reply reaches the agent it is for. Replies from one home to one node come in order (R386). -/
def execKnotReply (m : Arrival) (s : State) : Host.Outcome State Fault Refusal :=
  .next (
    match s.knot.replies[m.k]? with
    | none => s
    | some r =>
      if (s.knot.replies.take m.k).any (fun q => q.who.node == r.who.node && homeOf q.knot == homeOf r.knot) then s
      else
        match r.who with
        | .step c _ _ => s.coreAccess c (fun s => s.replyIn m.k r m.bad)
        | _ => s.replyIn m.k r m.bad)

/-! ### Trees (R380 to R382) -/

/-- A tree message is dropped for its phase or its knot (R381). -/
def State.treeDrop (s : State) : State :=
  { s with knot := { s.knot with stale := true, phaseDrops := cnt s.knot.phaseDrops 1 } }

/-- Tree message k, of kind `kind`, reaches its knot: unless R381 or R382 drops it, `body` acts on the instance. Messages from
one device come in order (R386). -/
def State.treeMsg (s : State) (k : Nat) (kind : TreeKind) (body : State → TreeMsg → KRange → State) : State :=
  match s.knot.tree[k]? with
  | none => s
  | some m =>
    if m.kind ≠ kind ∨ (s.knot.tree.take k).any (fun q => q.src == m.src) then s
    else
      let s := { s with knot := { s.knot with tree := s.knot.tree.eraseIdx k } }
      match s.rangeOf m.knot with
      | none => s.treeDrop
      | some r =>
        if r.scope ≠ 2 then s.treeDrop
        else if m.gen ≠ s.rangeGen r then
          ({ s with knot := { s.knot with stale := true, staleDrops := cnt s.knot.staleDrops 1 } } : State).updCtx r.ctx
            (fun t => { t with drops := cnt t.drops 1 })
        else body s m r

/-- TREE_ARRIVE (R380). -/
def execTreeArrive (k : Nat) (s : State) : Host.Outcome State Fault Refusal :=
  .next (s.treeMsg k .arrive (fun s m r =>
    let e := s.kn m.knot
    if m.phase ≠ e.phase then s.treeDrop
    else
      (((s.setKn m.knot { e with childIn := e.childIn + 1, err := e.err || m.err }).barrierStep m.knot r).retest
        m.knot r.kind).notifyIf e m.knot))

/-- TREE_DONE (R380, R381): it carries the PHASE that its completion leads to. DEDUCED, log entry 57. -/
def execTreeDone (k : Nat) (s : State) : Host.Outcome State Fault Refusal :=
  .next (s.treeMsg k .done (fun s m r =>
    let e := s.kn m.knot
    if m.phase ≠ (e.phase + 1) % 65536 then s.treeDrop
    else
      ((((s.setKn m.knot (e.complete m.err)).sendTrees .done m.knot m.phase m.err (s.treeOf e).children).barrierStep
        m.knot r).retest m.knot r.kind).notifyIf e m.knot))

/-- TREE_ABORT (R376). -/
def execTreeAbort (k : Nat) (s : State) : Host.Outcome State Fault Refusal :=
  .next (s.treeMsg k .abort (fun s m r => s.abortKnot m.knot r (some m.src)))

/-! ### Heartbeats and silence (R388, R402) -/

/-- HEARTBEAT (R388): a heartbeat arrives on a bridle link of the package, or on a tether port. -/
def execHeartbeat (tether : Bool) (m : Arrival) (s : State) : Host.Outcome State Fault Refusal :=
  .next (
    if tether then (if (s.port m.k).state = .up then s.updPort m.k (fun q => { q with heard := s.env.ticks }) else s)
    else if s.knot.beats.contains m.k then
      let s := { s with knot := { s.knot with beats := s.knot.beats.erase m.k } }
      if m.bad.isSome then s.bridleFault m.k
      else { s with knot := { s.knot with heard := sset 0 s.knot.heard m.k s.env.ticks } }
    else s)

/-- BRIDLE_HEARTBEAT_TIMER (R388, R402): nothing has been sent for 100 µs on bridle link n of the package, or in the bridle
class of tether port n. -/
def execBridleHeartbeatTimer (tether : Bool) (n : Nat) (s : State) : Host.Outcome State Fault Refusal :=
  .next (
    if tether then
      let q := s.port n
      if !(s.portWin n) || q.state != .up then s
      else
        let me := s.teth.self
        let r := s.nextFseq 0 q.peerDev 0xFFF
        r.2.sendOn n { cls := 0, kind := 1, dst := q.peerDev, src := me, fseq := r.1, epoch := s.epochTo q.peerDev,
                       hops := if q.peerDev = 0xFFFF then 0 else 15, payload := pay256 (heartbeatBytes q.peerDev me) }
          (if q.peerDev = 0xFFFF then .link else .flow (s.keyTo q.peerDev))
    else if s.diesUp then { s with knot := { s.knot with beats := s.knot.beats ++ [n] } }
    else s)

/-- BRIDLE_LINK_LOST (R388): bridle link n of the package (0 to 3 of a die, 4 to 7 a bridge), or the bridle class of tether port
n, has been silent for 1 ms. -/
def execBridleLinkLost (tether : Bool) (n : Nat) (s : State) : Host.Outcome State Fault Refusal :=
  .next (
    if tether then s.portSilent n
    else if !s.diesUp || decide (7 < n) || s.knot.lostLinks.contains n || decide (s.env.ticks < sget 0 s.knot.heard n + 50000) then s
    else
      let s := { s with knot := { s.knot with linkLost := true, lostLinks := s.knot.lostLinks ++ [n] } }
      if n < 4 then s.dieFault n (ripCode (0x10 + n) 0x31 0x4002) else s.pkgFault (ripCode 0x01 (0x1C + n) 0x4002))

/-! ### The knot table window (R370) -/

/-- The pair and staging buffer of a writer. -/
def Who.idx : Who → Nat
  | .gon g => g
  | .owner => 16

/-- Word `word` of a writer's staging buffer takes v. -/
def KPair.stage (p : KPair) (word v : Nat) : KPair :=
  match word with
  | 0 => { p with stage0 := v }
  | 1 => { p with stage1 := v }
  | 2 => { p with stage2 := v }
  | _ => p

/-- KNOT_ENTRY_STAGE (R370). -/
def execKnotEntryStage (w : Who) (knot word : Nat) (v : W32) (s : State) : Host.Outcome State Fault Refusal :=
  .next (if s.whoOk w && s.knotWin knot then s.updPair (Who.idx w) (fun p => p.stage word v.toNat) else s)

/-- A write of v to bytes 12 to 15 of a knot's entry (R370). -/
def State.replaceKnot (s : State) (w : Who) (knot v : Nat) : State :=
  let p := s.pair (Who.idx w)
  match s.rangeOf knot, bit 31 p.stage2 with
  | some r, true =>
    let e := s.kn knot
    let st := p.stage2
    let e' : Knot := { e with value := p.stage0, limit := p.stage1, phase := st % 65536, childIn := fld 23 16 st, valid := true,
                              aborted := false, err := bit 29 st, lastErr := bit 28 st, upSent := bit 27 st, tree := v % 4096 }
    let s := s.setKn knot e'
    let s := if r.scope = 2 ∧ r.kind = 0 then s.barrierStep knot r else s
    ((s.retest knot r.kind).notifyIf e knot).redAfter e knot
  | _, _ => { s with knot := { s.knot with wrIgn := true } }

/-- KNOT_ENTRY_REPLACE (R370). -/
def execKnotEntryReplace (w : Who) (knot : Nat) (v : W32) (s : State) : Host.Outcome State Fault Refusal :=
  .next (if s.whoOk w && s.knotWin knot then s.access (.gondola 0) none (fun s => s.replaceKnot w knot v.toNat) else s)

/-! ### Operation pairs and notify records (R379, R389, R390) -/

/-- Whether operation pair g can be written: its writer can, and, for a gondola core, its die is not out. -/
def State.pairOk (s : State) (g : Nat) : Bool := s.diesUp && (if g = 16 then s.whoOk .owner else s.gonRuns g)

/-- KNT_OP with an operation on a knot, through pair g (R389, R390); a minor that R371 does not list is defined for no kind (R378). -/
def State.pairOp (s : State) (g : Nat) (op : Option KOp) (knot : Nat) : State :=
  let p := s.pair g
  let ign (s : State) : State := { s with knot := { s.knot with wrIgn := true } }
  if p.waiting then ign s
  else
    let s := s.updPair g (fun p => { p with serial := p.serial + 1, resValid := false, resAborted := false, resErr := false, resValue := 0 })
    match op with
    | none => (ign s).updPair g (fun p => { p with resValid := true })
    | some op =>
      match s.knotCheck op knot none with
      | some _ => (ign s).updPair g (fun p => { p with resValid := true })
      | none =>
        (s.sendKnot { who := .pair g (p.serial + 1), op, knot, arg := p.arg, err := s.arriveErr op knot p.arg,
                      node := pairNode g, agent := pairAgent g }).updPair g (fun p => { p with waiting := op == .wait || op == .take })

/-- A write of KNT_OP by a writer that can make it. -/
def State.pairWrite (s : State) (g : Nat) (op : KOp) (knot : Nat) : State := if s.pairOk g then s.pairOp g (some op) knot else s

/-- KNT_OP with KN.ARRIVE (R389). -/
def execKntOpArrive (g : Nat) (knot : BitVec 18) (s : State) : Host.Outcome State Fault Refusal :=
  .next (s.pairWrite g .arrive knot.toNat)
/-- KNT_OP with KN.WAIT (R389). -/
def execKntOpWait (g : Nat) (knot : BitVec 18) (s : State) : Host.Outcome State Fault Refusal :=
  .next (s.pairWrite g .wait knot.toNat)
/-- KNT_OP with KN.GIVE (R389). -/
def execKntOpGive (g : Nat) (knot : BitVec 18) (s : State) : Host.Outcome State Fault Refusal :=
  .next (s.pairWrite g .give knot.toNat)
/-- KNT_OP with KN.TAKE (R389). -/
def execKntOpTake (g : Nat) (knot : BitVec 18) (s : State) : Host.Outcome State Fault Refusal :=
  .next (s.pairWrite g .take knot.toNat)
/-- KNT_OP with KN.SET (R389). -/
def execKntOpSet (g : Nat) (knot : BitVec 18) (s : State) : Host.Outcome State Fault Refusal :=
  .next (s.pairWrite g .set knot.toNat)
/-- KNT_OP with KN.STORE (R389). -/
def execKntOpStore (g : Nat) (knot : BitVec 18) (s : State) : Host.Outcome State Fault Refusal :=
  .next (s.pairWrite g .store knot.toNat)
/-- KNT_OP with KN.READ (R389). -/
def execKntOpRead (g : Nat) (knot : BitVec 18) (s : State) : Host.Outcome State Fault Refusal :=
  .next (s.pairWrite g .read knot.toNat)
/-- KNT_OP with KN.ABORT (R389). -/
def execKntOpAbort (g : Nat) (knot : BitVec 18) (s : State) : Host.Outcome State Fault Refusal :=
  .next (s.pairWrite g .abort knot.toNat)

/-- A write of v to KNT_NOTIFY n (R389, R390). -/
def State.notifyWrite (s : State) (n v : Nat) : State :=
  if 256 ≤ n then { s with knot := { s.knot with wrIgn := true } }
  else { s with knot := { s.knot with notify := sset {} s.knot.notify n { en := bit 31 v, gon := fld 21 18 v, knot := fld 17 0 v } } }

/-- KNT_NOTIFY_WRITE (R389, R390). -/
def execKntNotifyWrite (n : Nat) (v : W32) (s : State) : Host.Outcome State Fault Refusal :=
  .next (if s.diesUp then s.notifyWrite n v.toNat else s)

end Sys2Proof.Machine
end

