-- ==== Sys2Proof/Machine/Loft.lean ====
section
/-! DEFINITION. The loft manager's copies (R279, R281, R283) and its registers (R295, R296). -/

namespace Sys2Proof.Machine

open Sys2Proof

/-! ### Copies -/

/-- The address of a page of the overflow region. -/
def LoftSt.ovfPage (l : LoftSt) (p : Nat) : Nat := l.ovfAddr + 4096 * p

/-- A copy leaves the manager's list. -/
def State.dropCopy (s : State) (c i : Nat) : State :=
  s.updLoft c (fun m => { m with copies := m.copies.filter (fun p => p.entry ≠ i) })

/-- The copy p of entry `entry` to overflow is made, and the entry is in OVERFLOW (R279). -/
def State.spillCopy (s : State) (c entry : Nat) (p : LoftCopy) : State :=
  let k := s.core c
  let s := s.guardRead c (s.loftAddr c (p.page * 4096)) (k.entPages entry * 4096)
  let bs := mread k.loft (p.page * 4096) (k.entPages entry * 4096)
  let s := (s.writeBytes {} (k.loftM.ovfPage p.ovf) bs).1
  let s := ((s.dropCopy c entry).setEnt c entry 4).setLoc c entry true p.ovf
  let s := (s.hdrAdd c 4 1).updLoft c (fun m => { m with spills := cnt m.spills 1 })
  s.loftFreed c

/-- The copy p of entry `entry` back into the loft is made, and the entry is in the loft (R281). -/
def State.recallCopy (s : State) (c entry : Nat) (p : LoftCopy) : State :=
  let k := s.core c
  let r := s.readBytes (k.loftM.ovfPage p.ovf) (k.entPages entry * 4096)
  let s := (r.1.loftWrite c (p.page * 4096) r.2).dropCopy c entry
  let s := s.placeEnt c entry p.page
  (s.hdrAdd c 8 1).updLoft c (fun m => { m with recalls := cnt m.recalls 1 })

/-- LOFT_SPILL_DONE (R279): the copy of entry `entry` to overflow finishes. -/
def execLoftSpillDone (c entry : Nat) (s : State) : Host.Outcome State Fault Refusal :=
  .next (s.coreAccess c (fun s =>
    match (s.core c).loftM.copies.find? (fun p => p.entry == entry && !p.isRecall) with
    | none => s
    | some p => if s.coreRuns c then s.spillCopy c entry p else s))

/-- LOFT_RECALL_START (R281): the first recall that waits is placed, or makes room when it can. -/
def execLoftRecallStart (c : Nat) (s : State) : Host.Outcome State Fault Refusal :=
  .next (
    let k := s.core c
    match k.loftM.waitRecall with
    | [] => s
    | i :: rest =>
      if !(s.coreRuns c) then s
      else
        match k.loftRun (k.entPages i) with
        | none => s.makeRoom c i
        | some p =>
          let cp : LoftCopy := { entry := i, ovf := k.entLoc i, page := p, isRecall := true }
          ((s.setEnt c i 5).updLoft c (fun m => { m with waitRecall := rest, copies := m.copies ++ [cp] })).loftPeaks c)

/-- LOFT_RECALL_DONE (R281): the copy of entry `entry` back into the loft finishes. -/
def execLoftRecallDone (c entry : Nat) (s : State) : Host.Outcome State Fault Refusal :=
  .next (s.coreAccess c (fun s =>
    match (s.core c).loftM.copies.find? (fun p => p.entry == entry && p.isRecall) with
    | none => s
    | some p => if s.coreRuns c then s.recallCopy c entry p else s))

/-! ### Registers (R295, R296) -/

/-- Some entries are released: those that are LOFT, OVERFLOW or DROPPED become EMPTY, but pinned ones are ignored and set
WR_IGN. -/
def State.loftReleaseAll (s : State) (c : Nat) : List Nat → State
  | [] => s
  | i :: t =>
    let k := s.core c
    let s := if k.pinned i then s.updCore c (fun k => { k with wrIgn := true })
      else if !([2, 4, 6].contains (k.entState i)) then s
      else s.freeEnt c i
    s.loftReleaseAll c t

/-- A write of LOFT_RELEASE. DEDUCED, log entry 47. -/
def State.loftRel (s : State) (c v : Nat) : State :=
  if !(s.coreWin c) then s
  else (s.loftReleaseAll c (if bit 8 v then List.range 256 else [v % 256])).updCore c Core.poke

/-- LOFT_RELEASE (R296): one entry. -/
def execLoftRelease (c : Nat) (v : W32) (s : State) : Host.Outcome State Fault Refusal :=
  .next (s.loftRel c v.toNat)
/-- LOFT_RELEASE_ALL (R296): every entry. -/
def execLoftReleaseAll (c : Nat) (v : W32) (s : State) : Host.Outcome State Fault Refusal :=
  .next (s.loftRel c v.toNat)

/-- A write of v to a configuration register at an offset of the core's window. -/
def LoftSt.config (l : LoftSt) (off v : Nat) : LoftSt :=
  match off with
  | 0x4200 => { l with dirBase := fld 21 6 v, en := bit 0 v }
  | 0x4204 => { l with page0 := fld 9 0 v }
  | 0x4208 => { l with ovf := l.ovf / 2 ^ 32 * 2 ^ 32 + v / 4096 * 4096 }
  | 0x420C => { l with ovf := v * 2 ^ 32 + l.ovf % 2 ^ 32 }
  | 0x4210 => { l with ovfPages := fld 19 0 v }
  | _ => l

/-- Whether an entry is in a state that keeps the configuration as it is (R296). -/
def Core.loftLive (k : Core) : Bool := k.loftM.en && (List.range 256).any (fun i => !([0, 1, 6].contains (k.entState i)))

/-- A write of v to a configuration register. -/
def Core.loftConfig (k : Core) (off v : Nat) : Core :=
  if k.loftLive then { k with wrIgn := true } else { k with loftM := k.loftM.config off v }

/-- LOFT_CONFIG_WRITE (R295, R296). -/
def execLoftConfigWrite (c off : Nat) (v : W32) (s : State) : Host.Outcome State Fault Refusal :=
  .next (if [0x4200, 0x4204, 0x4208, 0x420C, 0x4210].contains off then s.coreWrite c (fun k => k.loftConfig off v.toNat) else s)

end Sys2Proof.Machine
end

