-- ==== Sys2Proof/Machine/Icmp.lean ====
section
/-! DEFINITION. The host port's addresses (R519, R520) and the ICMPv6 packets it sends (R520). -/

namespace Sys2Proof.Machine

open Sys2Proof

/-- The MAC address (R519). -/
def macBytes : List Byte :=
  let f := (fingerprint idKey).take 6
  ((f.getD 0 0 &&& 0xFC) ||| 2) :: f.drop 1

/-- The link-local address, its 16 bytes in network order (R520). -/
def ownIp : List Byte :=
  let m := macBytes
  [0xFE, 0x80, 0, 0, 0, 0, 0, 0, m.getD 0 0 ^^^ 2, m.getD 1 0, m.getD 2 0, 0xFF, 0xFE, m.getD 3 0, m.getD 4 0, m.getD 5 0]

/-- The address as a number. -/
def ownIpNat : Nat := ofLe ownIp.reverse

/-- The solicited-node group of the address (R520). -/
def solicitedNode : List Byte := [0xFF, 2, 0, 0, 0, 0, 0, 0, 0, 0, 0, 1, 0xFF] ++ ownIp.drop 13

/-- The discovery group ff02::5648 (R520). -/
def discoveryGroup : List Byte := [0xFF, 2, 0, 0, 0, 0, 0, 0, 0, 0, 0, 0, 0, 0, 0x56, 0x48]

/-- The group of all nodes. -/
def allNodes : List Byte := [0xFF, 2, 0, 0, 0, 0, 0, 0, 0, 0, 0, 0, 0, 0, 0, 1]

/-- The 16-bit words of a byte string in network order, added. -/
def sum16 : List Byte → Nat
  | [] => 0
  | [a] => a.toNat * 256
  | a :: b :: t => a.toNat * 256 + b.toNat + sum16 t

/-- The Internet checksum of a byte string. -/
def inetSum (bs : List Byte) : Nat :=
  let fold (n : Nat) : Nat := n % 65536 + n / 65536
  65535 - fold (fold (fold (sum16 bs)))

/-- An IPv6 packet that holds an ICMPv6 message: `ext` is what stands before it, `next` the type of what follows the base
header, and `body` what follows the checksum. -/
def icmp (src dst : List Byte) (next hop : Nat) (ext : List Byte) (type : Nat) (body : List Byte) : List Byte :=
  let len := 4 + body.length
  let pseudo := src ++ dst ++ beBytes 4 len ++ [0, 0, 0, 58]
  let sum := inetSum (pseudo ++ [BitVec.ofNat 8 type, 0, 0, 0] ++ body)
  [0x60, 0, 0, 0] ++ beBytes 2 (ext.length + len) ++ [BitVec.ofNat 8 next, BitVec.ofNat 8 hop] ++ src ++ dst ++ ext
    ++ [BitVec.ofNat 8 type, 0] ++ beBytes 2 sum ++ body

/-- A neighbour advertisement of the own address. -/
def advertisement (dst : List Byte) (solicited : Bool) : List Byte :=
  icmp ownIp dst 58 255 [] 136
    ([if solicited then 0x60 else 0x20, 0, 0, 0] ++ ownIp ++ [2, 1] ++ macBytes)

/-- The solicitation of duplicate address detection. -/
def dadProbe : List Byte := icmp (List.replicate 16 0) solicitedNode 58 255 [] 135 ([0, 0, 0, 0] ++ ownIp)

/-- The MLDv2 report of the two groups: from the unspecified address, to ff02::16, with the router-alert option. -/
def mldReport : List Byte :=
  icmp (List.replicate 16 0) ([0xFF, 2] ++ List.replicate 13 0 ++ [0x16]) 0 1 [58, 0, 5, 2, 0, 0, 1, 0] 143
    ([0, 0, 0, 2] ++ [4, 0, 0, 0] ++ solicitedNode ++ [4, 0, 0, 0] ++ discoveryGroup)

/-- An echo reply. -/
def echoReply (dst : Nat) (data : List Byte) : List Byte := icmp ownIp (beBytes 16 dst) 58 64 [] 129 data

/-- Keel ticks that duplicate address detection runs: 1 s. -/
def dadTicks : Nat := 50000000

/-- The port's address is tried when its link comes up (R520). PRESUMED, log entry 91. -/
def State.startDad (s : State) : State :=
  (({ s with host := { s.host with dadEnd := s.env.ticks + dadTicks } } : State).emitTx (.packet mldReport)).emitTx
    (.packet dadProbe)

end Sys2Proof.Machine
end

