-- ==== Sys2Proof/Machine/RigImg.lean ====
section
/-! DEFINITION. Rigging images (R472 to R484): their header and frames, the checks of VERIFY (R486, R491), and the
configuration they lead to (R475). -/

namespace Sys2Proof.Machine

open Sys2Proof

/-- A failed check: the code, the frame and the detail of RIG_RESULT (R491). -/
abbrev RigErr := Nat × Nat × Nat

/-- A frame (R474): its number in the image, type, flags, scope and body. -/
structure RFrame where
  idx : Nat
  typ : Nat
  flags : Nat
  scope : Nat
  body : List Byte

/-- An image (R472). -/
structure Image where
  full : Bool
  serial : Nat
  signer : List Byte
  digest : List Byte
  frames : List RFrame

/-- The frame of a type. -/
def Image.frame (m : Image) (t : Nat) : Option RFrame := m.frames.find? (fun f => f.typ == t)
/-- The number of the frame of a type, or 0xFF. -/
def Image.at' (m : Image) (t : Nat) : Nat := ((m.frame t).map (·.idx)).getD 0xFF

/-! ### Structure (R472, R474, R475) -/

/-- LENGTH of a header that meets R472, or its error. -/
def headerCheck (b : List Byte) : Except RigErr Nat :=
  let n := leAt b 8 4
  if leAt b 0 4 ≠ 0x31514E47 ∨ leAt b 4 2 ≠ 1 ∨ leAt b 12 1 = 0 ∨ 2 < leAt b 12 1 ∨ !(zeros b 13 3) ∨ !(zeros b 72 56) then
    .error (1, 0xFF, 0)
  else if n % 16 ≠ 0 ∨ 2097152 < n ∨ n < 192 then .error (2, 0xFF, 0)
  else .ok n

/-- The frames of an image, of which `b` holds what is left: `last` is the type of the frame before. -/
def parseFrames : Nat → Nat → Nat → List Byte → Except RigErr (List RFrame)
  | 0, _, _, b => if b.isEmpty then .ok [] else .error (2, 0xFF, 0)
  | n + 1, i, last, b =>
    if b.length < 16 then .error (2, i, 0)
    else
      let typ := leAt b 0 1
      let len := leAt b 4 4
      if typ ≤ last ∨ 8 < typ ∨ !(zeros b 8 8) ∨ len % 16 ≠ 0 then .error (6, i, 0)
      else if b.length < 16 + len then .error (2, i, 0)
      else
        match parseFrames n (i + 1) typ (b.drop (16 + len)) with
        | .error e => .error e
        | .ok l => .ok ({ idx := i, typ, flags := leAt b 1 1, scope := leAt b 2 2, body := (b.drop 16).take len } :: l)

/-! ### Field conditions a frame states alone (R477 to R484) -/

/-- The first of n entries that is wrong. -/
def firstBad (n : Nat) (p : Nat → Bool) : Option Nat := (List.range n).find? p

/-- n rounded up to a multiple of 16. -/
def up16 (n : Nat) : Nat := cdiv n 16 * 16

/-- CORE_MAP (R477). -/
def badCoreMap (f : RFrame) : Option Nat :=
  let n := popcount 4 f.scope
  if 15 < f.scope ∨ f.flags ≠ 0 ∨ f.body.length ≠ 112 * n then some 0
  else firstBad n (fun j =>
    let b := slice f.body (112 * j) 112
    let l := (b.take 100).map (·.toNat)
    !(l.all (fun x => decide (x < 100))) || !(distinct l) || !(zeros b 100 12))

/-- The rows of entry j of ROW_SPARE. -/
def rowsOf (b : List Byte) (j : Nat) : List Nat := (List.range 8).map (fun i => leAt b (24 * j + 4 + 2 * i) 2)

/-- ROW_SPARE (R478). -/
def badRowSpare (f : RFrame) : Option Nat :=
  let b := f.body
  let core (j : Nat) : Nat := leAt b (24 * j) 2
  if f.scope = 0 ∨ 400 < f.scope ∨ f.flags ≠ 0 ∨ b.length ≠ up16 (24 * f.scope) ∨ !(zeros b (24 * f.scope) 16) then some 0
  else firstBad f.scope (fun j =>
    let n := leAt b (24 * j + 2) 1
    let r := (rowsOf b j).take n
    decide (399 < core j) || decide (8 < n) || !(zeros b (24 * j + 3) 1) || !(zeros b (24 * j + 20) 4)
      || r.any (fun x => decide (520 < x)) || ((rowsOf b j).drop n).any (fun x => x != 0)
      || (List.range (n - 1)).any (fun i => decide (r.getD (i + 1) 0 ≤ r.getD i 0))
      || (List.range j).any (fun i => core i == core j))

/-- MESH_ROUTE (R479). -/
def badMesh (f : RFrame) : Option Nat :=
  if f.scope ≠ 0 ∨ f.flags ≠ 0 ∨ f.body.length ≠ 16 ∨ 3 < leAt f.body 0 1 ∨ 15 < leAt f.body 1 1 ∨ !(zeros f.body 2 14) then some 0
  else none

/-- INTERLEAVE (R480). -/
def badIleave (f : RFrame) : Option Nat :=
  if f.scope = 0 ∨ 8 < f.scope ∨ f.flags ≠ 0 ∨ f.body.length ≠ 32 * f.scope then some 0
  else firstBad f.scope (fun j => !(zeros f.body (32 * j + 27) 5))

/-- KNOT_ALLOC (R481). -/
def badKnotAlloc (f : RFrame) : Option Nat :=
  let b := f.body
  let nr := leAt b 0 2
  let nt := leAt b 2 2
  let first := leAt b 4 2
  let used := 16 + 16 * nr + 40 * nt
  if f.scope ≠ 0 ∨ 1 < f.flags ∨ b.length < 16 ∨ !(zeros b 6 10) ∨ 256 < nr ∨ 4096 < first + nt ∨ b.length ≠ up16 used
      ∨ !(zeros b used 16) ∨ (f.flags = 0 ∧ first ≠ 0) ∨ (f.flags = 1 ∧ nr ≠ 0) then some 0
  else
    let r (j lo n : Nat) : Nat := leAt b (16 + 16 * j + lo) n
    let t (j lo n : Nat) : Nat := leAt b (16 + 16 * nr + 40 * j + lo) n
    match firstBad nr (fun j => decide (2 ^ 18 ≤ r j 0 4) || r j 4 4 == 0 || decide (3 < r j 8 1) || decide (2 < r j 9 1)
        || (r j 9 1 != 0 && r j 10 2 != 0) || decide (4095 < r j 12 2) || decide (12 < r j 14 2 / 4096)) with
    | some j => some j
    | none =>
      (firstBad nt (fun j => decide (16 < t j 2 1) || t j 3 1 != 0 || t j 36 4 != 0
        || (List.range 16).any (fun i => decide (t j 2 1 ≤ i) && t j (4 + 2 * i) 2 != 0))).map (· + nr)

/-- TETHER (R482). -/
def badTether (f : RFrame) : Option Nat :=
  let b := f.body
  let n := leAt b 216 4
  if f.scope ≠ 0 ∨ f.flags ≠ 0 ∨ b.length < 224 ∨ 65535 < n ∨ b.length ≠ up16 (224 + 24 * n) ∨ !(zeros b (224 + 24 * n) 16)
      ∨ (b.take 12).any (fun x => decide (2 < x.toNat)) ∨ !(zeros b 12 4) ∨ leAt b 208 2 = 0xFFFF ∨ 4095 < leAt b 210 2
      ∨ 1 < leAt b 212 1 ∨ !(zeros b 213 3) ∨ !(zeros b 220 4) then some 0
  else firstBad n (fun j => decide (1 < leAt b (226 + 24 * j) 1) || decide (7 < leAt b (227 + 24 * j) 1)
    || decide (4095 < leAt b (228 + 24 * j) 2))

/-- POWER_TABLES (R483). -/
def badPower (f : RFrame) : Option Nat :=
  let b := f.body
  let at' (p i : Nat) : Nat := leAt b (8 * p + 2 * i) 2
  if f.scope ≠ 0 ∨ f.flags ≠ 0 ∨ b.length ≠ 2048 ∨ !(zeros b 2040 8) then some 0
  else firstBad 30 (fun p => at' p 0 % 5 != 0 || decide (at' p 0 < 450) || decide (650 < at' p 0) || at' p 3 != 0
    || decide (at' p 1 ≤ at' p 2) || (p == 26 && decide (1100 < at' p 1))
    || (p != 0 && (decide (at' p 0 < at' (p - 1) 0) || decide (at' p 1 < at' (p - 1) 1))))

/-- SECURITY_POLICY (R484). -/
def badPolicy (f : RFrame) : Option Nat :=
  let b := f.body
  if f.scope ≠ 0 ∨ f.flags ≠ 0 ∨ b.length ≠ 64 ∨ 1 < leAt b 0 1 ∨ 7 < leAt b 1 1 ∨ !(zeros b 2 6) ∨ !(zeros b 40 24) then some 0
  else none

/-- The first entry of a frame that breaks a condition the frame states alone. -/
def RFrame.bad (f : RFrame) : Option Nat :=
  match f.typ with
  | 1 => badCoreMap f
  | 2 => badRowSpare f
  | 3 => badMesh f
  | 4 => badIleave f
  | 5 => badKnotAlloc f
  | 6 => badTether f
  | 7 => badPower f
  | _ => badPolicy f

/-- The frames' conditions, in order. -/
def fieldCheck : List RFrame → Except RigErr Unit
  | [] => .ok ()
  | f :: t =>
    match f.bad with
    | some j => .error (6, f.idx, j)
    | none => fieldCheck t

/-- A frame that R475 requires of a FULL image and that is missing. -/
def Image.missing (m : Image) : Option RigErr :=
  if !m.full then none
  else if [1, 5, 6, 7, 8].any (fun t => (m.frame t).isNone) then some (7, 0xFF, 0)
  else match m.frame 1 with
    | some f => if f.scope = 0xF then none else some (7, f.idx, 0)
    | none => none

/-- Header and frame structure of the image at the start of some bytes (R472, R474, R475). -/
def parseImage (b : List Byte) : Except RigErr Image :=
  match headerCheck b with
  | .error e => .error e
  | .ok n =>
    if leAt b 6 2 = 0 then .error (6, 0xFF, 0)
    else
      match parseFrames (leAt b 6 2) 0 0 ((b.take (n - 64)).drop 128) with
      | .error e => .error e
      | .ok fs =>
        let m : Image := { full := leAt b 12 1 == 1, serial := leAt b 16 8, signer := slice b 40 32,
                           digest := sha512 (b.take (n - 64)), frames := fs }
        match m.missing with
        | some e => .error e
        | none =>
          match fieldCheck fs with
          | .error e => .error e
          | .ok _ => .ok m

/-! ### VERIFY (R486) -/

/-- The shadow store's first bytes. -/
def State.staged (s : State) : List Byte :=
  let n := leAt (mread s.rig.shadow 0 12) 8 4
  mread s.rig.shadow 0 (Nat.max 192 (Nat.min n 2097152))

/-- Whether the anchor accepts the signer of an image (R473, R503). -/
def State.imageSigner (s : State) (m : Image) : Bool :=
  s.anc.signerOk m.signer || (!m.full && m.signer == s.rig.live.signer2 && !(zeros m.signer 0 32))

/-- Whether SOURCES names the source of the staged image (R484). -/
def State.sourceOk (s : State) : Bool :=
  match s.rig.src with
  | .flash => bit 0 s.rig.live.sources
  | .host => bit 1 s.rig.live.sources
  | .gondola => bit 2 s.rig.live.sources

/-- The checks of VERIFY on the staged image (R486, R491). DEDUCED, log entry 77. -/
def State.verifyStaged (s : State) : Except RigErr Image :=
  let b := s.staged
  match parseImage b with
  | .error e => .error e
  | .ok m =>
    let fp := slice b 24 16
    if !(zeros fp 0 16) && fp != fingerprint idKey then .error (4, 0xFF, 0)
    else if !(edVerify m.signer m.digest (slice b (leAt b 8 4 - 64) 64)) then .error (3, 0xFF, 0)
    else if !(s.imageSigner m) then .error (5, 0xFF, 0)
    else
      let up := match s.keel.state with
        | .rigged => true
        | .aloft => true
        | _ => false
      if up && !m.full && !s.sourceOk then .error (9, 0xFF, 0) else .ok m

/-! ### The configuration a commit would produce (R475) -/

/-- CORE_MAP's die records (R477). -/
def Live.coreMap (l : Live) (b : List Byte) : Nat → List Nat → Live
  | _, [] => l
  | j, d :: t =>
    let r := slice b (112 * j) 112
    let bind := (List.range 96).foldl (fun m i => sset 0 m (96 * d + i) (100 * d + leAt r i 1 + 1)) l.bind
    ({ l with bind, spares := sset [] l.spares d ((slice r 96 4).map (·.toNat)) } : Live).coreMap b (j + 1) t

/-- ROW_SPARE's entries (R478). -/
def Live.rowSpare (l : Live) (b : List Byte) (n : Nat) : Live :=
  { l with retired := (List.range n).foldl (fun m j =>
      sset [] m (leAt b (24 * j) 2) ((rowsOf b j).take (leAt b (24 * j + 2) 1))) l.retired }

/-- INTERLEAVE's regions (R480). -/
def regionsOf (b : List Byte) (n : Nat) : List Region :=
  (List.range n).map (fun j => { base := leAt b (32 * j) 8, size := leAt b (32 * j + 8) 8, lbase := leAt b (32 * j + 16) 8,
                                 set := leAt b (32 * j + 24) 2, gran := leAt b (32 * j + 26) 1 })

/-- Range j of KNOT_ALLOC (R481). -/
def rangeAt (b : List Byte) (j : Nat) : KRange :=
  let o := 16 + 16 * j
  { first := leAt b o 4, count := leAt b (o + 4) 4, kind := leAt b (o + 8) 1, scope := leAt b (o + 9) 1,
    owner := leAt b (o + 10) 2, ctx := leAt b (o + 12) 2, tree := leAt b (o + 14) 2 }

/-- The tree record at byte o (R481). -/
def treeAt (b : List Byte) (o : Nat) : TreeRec :=
  { parent := leAt b o 2, children := (List.range (leAt b (o + 2) 1)).map (fun i => leAt b (o + 4 + 2 * i) 2) }

/-- KNOT_ALLOC (R481). -/
def Live.knotAlloc (l : Live) (flags : Nat) (b : List Byte) : Live :=
  let nr := leAt b 0 2
  let nt := leAt b 2 2
  let first := leAt b 4 2
  let new := (List.range nt).map (fun j => treeAt b (16 + 16 * nr + 40 * j))
  if flags = 1 then
    let old := l.trees ++ List.replicate (first - l.trees.length) ({} : TreeRec)
    { l with trees := old.take first ++ new ++ old.drop (first + nt) }
  else { l with ranges := (List.range nr).map (rangeAt b), trees := new }

/-- POWER_TABLES (R483). -/
def Live.powerTables (l : Live) (b : List Byte) : Live :=
  { l with power := (List.range 30).map (fun p =>
             { vset := leAt b (8 * p) 2, full := leAt b (8 * p + 2) 2, other := leAt b (8 * p + 4) 2 }),
           costs := swrite 0 [] 0 ((List.range 450).map (fun i => BitVec.ofNat 32 (leAt b (240 + 4 * i) 4))) }

/-- One frame's part of the configuration. -/
def Live.frame (l : Live) (f : RFrame) : Live :=
  let b := f.body
  match f.typ with
  | 1 => l.coreMap b 0 (setBits 4 f.scope)
  | 2 => l.rowSpare b f.scope
  | 3 => { l with mesh := leAt b 0 2 }
  | 4 => { l with regions := regionsOf b f.scope }
  | 5 => l.knotAlloc f.flags b
  | 6 => { l with roles := (b.take 12).map (·.toNat) }
  | 7 => l.powerTables b
  | _ => { l with debug := leAt b 0 1, sources := leAt b 1 1, signer2 := slice b 8 32 }

/-- The configuration an image leads to: a FULL image replaces everything, a DELTA what its frames name. -/
def Live.after (l : Live) (m : Image) : Live :=
  m.frames.foldl Live.frame (if m.full then { present := true } else l)

end Sys2Proof.Machine
end

