-- ==== Sys2Proof/Machine/RigOps.lean ====
section
/-! DEFINITION. Commits (R487 to R490): the agreement rules, the quiet points and holds, and what a commit applies
(R482, R488). -/

namespace Sys2Proof.Machine

open Sys2Proof

/-! ### Agreement rules (R300, R489) -/

/-- The first of a list of errors. -/
def firstErr : List (Option RigErr) → Option RigErr
  | [] => none
  | some e :: _ => some e
  | none :: t => firstErr t

/-- An error when a condition holds somewhere among n entries. -/
def entryErr (code frame n : Nat) (p : Nat → Bool) : Option RigErr :=
  (firstBad n p).map (fun j => (code, frame, j))

/-- A bound core or a spare that is fenced. -/
def State.fencedRule (s : State) (l : Live) (fr : Nat) : Option RigErr :=
  match l.bind.find? (fun p => s.rip.fenced.contains (p.2 - 1)) with
  | some p => some (0x21, fr, p.1)
  | none =>
    match l.spares.find? (fun p => p.2.any (fun i => s.rip.fenced.contains (100 * p.1 + i))) with
    | some p => some (0x21, fr, p.1)
    | none => none

/-- The knot ranges and tree records of a configuration with an own ID. -/
def Live.knotRule (l : Live) (own fr : Nat) : Option RigErr :=
  let r (j : Nat) : KRange := l.ranges.getD j { first := 0, count := 0, kind := 0, scope := 0, owner := 0, ctx := 0, tree := 0 }
  let n := l.ranges.length
  firstErr [
    entryErr 0x14 fr n (fun j => decide (2 ^ 18 < (r j).first + (r j).count)
      || (List.range j).any (fun i => decide ((r i).first < (r j).first + (r j).count)
            && decide ((r j).first < (r i).first + (r i).count))),
    entryErr 0x14 fr n (fun j => (r j).scope == 2 && ((r j).kind == 1 || (r j).kind == 2 || (r j).ctx == 0xFFF
      || decide (l.trees.length < (r j).tree % 4096 + 2 ^ ((r j).tree / 4096)))),
    entryErr 0x14 fr n (fun j => (r j).scope == 0 && decide (384 ≤ (r j).owner)),
    (entryErr 0x14 fr l.trees.length (fun j =>
      let t := l.trees.getD j {}
      t.parent == own || t.children.contains own)).map (fun e => (e.1, e.2.1, e.2.2 + n))]

/-- A seed entry of a TETHER body (R482). -/
structure Seed where
  dev : Nat
  expected : Bool
  flags : Nat
  ports : Nat
  next : Nat
  fp : List Byte

/-- The seed entries of a TETHER body. -/
def seedsOf (b : List Byte) : List Seed :=
  (List.range (leAt b 216 4)).map (fun j =>
    let o := 224 + 24 * j
    { dev := leAt b o 2, expected := leAt b (o + 2) 1 == 1, flags := leAt b (o + 3) 1, ports := leAt b (o + 4) 2,
      next := leAt b (o + 6) 2, fp := slice b (o + 8) 16 })

/-- BCAST and the seed entries. -/
def State.tetherRule (s : State) (full : Bool) (b : List Byte) (fr : Nat) : Option RigErr :=
  let live (ps : Nat) : Bool := (setBits 12 ps).all (fun p => leAt b p 1 != 0)
  let own := leAt b 208 2
  let sd := seedsOf b
  let at' (j : Nat) : Seed := sd.getD j { dev := 0, expected := false, flags := 0, ports := 0, next := 0, fp := [] }
  let stays (d : Nat) : Bool :=
    let e := s.peer d
    e.state == .up || d == own || (!full && e.state != .absent && !(sd.any (fun q => q.dev == d)))
  let hop (d : Nat) : Bool := sd.any (fun q => q.dev == d && !(bit 0 q.flags)) || (stays d && !(bit 0 (s.peer d).flags))
  firstErr [
    if live (leAt b 210 2) then none else some (0x15, fr, 0),
    entryErr 0x15 fr sd.length (fun j => !(live (at' j).ports)),
    entryErr 0x15 fr sd.length (fun j => (at' j).dev == own || (at' j).dev == 0xFFFF
      || (sd.take j).any (fun q => q.dev == (at' j).dev)),
    entryErr 0x15 fr sd.length (fun j => bit 0 (at' j).flags && !(hop (at' j).next))]

/-- Whether two spans meet. -/
def spanMeet (a n b m : Nat) : Bool := decide (a < b + m) && decide (b < a + n)

/-- The regions meet R300. -/
def regionRule (l : List Region) (fr : Nat) : Option RigErr :=
  let r (j : Nat) : Region := l.getD j defaultRegion
  let cnt' (j : Nat) : Nat := popcount 16 (r j).set
  entryErr 0x13 fr l.length (fun j =>
    let g := 2 ^ (r j).gran
    let n := cnt' j
    !([1, 2, 4, 8, 16].contains n) || decide ((r j).gran < 8) || decide (16 < (r j).gran) || (r j).base % (n * g) != 0
      || (r j).size % (n * g) != 0 || (r j).lbase % g != 0 || decide (stackLocalEnd < (r j).lbase + (r j).size / n)
      || (List.range j).any (fun i => spanMeet (r i).base (r i).size (r j).base (r j).size
            || ((r i).set &&& (r j).set != 0
                && spanMeet (r i).lbase ((r i).size / cnt' i) (r j).lbase ((r j).size / n))))

/-- Every group of the loaded ballast tables lies within one region (R334). -/
def State.groupsRule (s : State) (l : Live) (fr : Nat) : Option RigErr :=
  let rs := if l.regions.isEmpty then [defaultRegion] else l.regions
  let bad (m : Memory) (g : Nat) : Bool :=
    let q := groupOf m g
    let o := aOff q.pbase
    q.valid && !(rs.any (fun r => decide (r.base ≤ o) && decide (o + q.chunks * q.recsz ≤ r.base + r.size)))
  firstErr (s.stks.map (fun p => if p.2.bal.loaded then entryErr 0x13 fr 4096 (bad p.2.bal.copy) else none))

/-- The device ID a commit leaves. -/
def State.idAfter (s : State) (m : Image) : Nat :=
  match m.frame 6 with
  | some f => leAt f.body 208 2
  | none => s.teth.self

/-- The first breach of R489 by the configuration an image leads to. -/
def State.ruleErr (s : State) (m : Image) : Option RigErr :=
  let l := s.rig.live.after m
  firstErr [
    s.fencedRule l (m.at' 1),
    l.knotRule (s.idAfter m) (m.at' 5),
    match m.frame 6 with
    | some f => s.tetherRule m.full f.body f.idx
    | none => none,
    regionRule l.regions (m.at' 4),
    s.groupsRule l (m.at' 4)]

/-! ### Allowed states (R476) -/

/-- Whether the device's state allows the commit of an image. -/
def State.commitAllowed (s : State) (m : Image) : Bool :=
  let has (t : Nat) : Bool := (m.frame t).isSome
  s.keel.target == s.keel.state && (match s.keel.state with
  | .moored => m.full
  | .rigged => true
  | .aloft => !m.full && !(has 3) && !(has 4) && s.idAfter m == s.teth.self
  | _ => false)

/-! ### Quiet points and holds (R488) -/

/-- The physical cores whose binding a commit changes, old and new. -/
def State.rebound (s : State) (m : Image) : List Nat :=
  if (m.frame 1).isNone then []
  else
    let l := s.rig.live.after m
    (List.range 384).flatMap (fun i =>
      let a := sget 0 s.rig.live.bind i
      let b := sget 0 l.bind i
      if a = b then [] else ([a, b].filter (· ≠ 0)).map (· - 1))

/-- The cores that ROW_SPARE names. -/
def Image.rowCores (m : Image) : List Nat :=
  match m.frame 2 with
  | some f => (List.range f.scope).map (fun j => leAt f.body (24 * j) 2)
  | none => []

/-- No tile is queued, prepared, streaming or draining, and no spill is in progress (R137). -/
def ArrSt.quiet (a : ArrSt) : Bool :=
  a.tqA.isEmpty && a.tqB.isEmpty && a.granted.isEmpty && a.running.isEmpty && a.spills.isEmpty && a.spilling.isNone

/-- The quiet point of CORE_MAP for a core. -/
def Core.quiet (k : Core) : Bool :=
  let off (t : StreamSt) : Bool := t.state == .halted || t.state == .exception
  k.fenced || (off k.sa && off k.sb && k.arr.tqA.isEmpty && k.arr.tqB.isEmpty && k.reel0.pending == 0 && k.reel1.pending == 0
    && k.vec.queue.isEmpty && k.lane.queue.isEmpty && !k.arr.dirty)

/-- The tree records that a TREES_ONLY frame replaces. -/
def Image.trees (m : Image) : Nat × Nat :=
  match m.frame 5 with
  | some f => if f.flags = 1 then (leAt f.body 4 2, leAt f.body 4 2 + leAt f.body 2 2) else (0, 0)
  | none => (0, 0)

/-- Whether a KNOT_ALLOC frame replaces the ranges. -/
def Image.allKnots (m : Image) : Bool :=
  match m.frame 5 with
  | some f => f.flags == 0
  | none => false

/-- Whether a knot is of group scope and uses one of some tree records. -/
def State.usesTree (s : State) (lo hi k : Nat) (e : Knot) : Bool :=
  decide (lo ≤ e.tree) && decide (e.tree < hi) && (match s.rangeOf k with
    | some r => r.scope == 2
    | none => false)

/-- The ports whose role a commit changes. -/
def State.rolePorts (s : State) (m : Image) : List Nat :=
  match m.frame 6 with
  | some f => (List.range 12).filter (fun p => leAt f.body p 1 != s.rig.live.roles.getD p 0)
  | none => []

/-- Whether every hold of a commit stands. DESIGN CHOICE, log entry 80. -/
def State.holdsStand (s : State) (m : Image) : Bool :=
  match s.keel.state with
  | .moored => true
  | _ =>
    let t := m.trees
    (s.rebound m).all (fun c => (s.core c).quiet)
      && m.rowCores.all (fun c => (s.core c).arr.quiet)
      && ((m.frame 4).isNone || s.stks.all (fun p => p.2.slots.isEmpty && p.2.heldReqs.isEmpty && p.2.meshQ.isEmpty && p.2.awaitData.isEmpty && p.2.responses.isEmpty
            && p.2.ranges.isEmpty && p.2.bal.state == .idle && p.2.bal.input.isEmpty && p.2.bal.prog.isEmpty))
      && (!m.allKnots || (s.knot.ops.isEmpty && s.knot.knots.all (fun p => p.2.waiters.isEmpty)
            && s.knot.notify.all (fun p => !p.2.en)))
      && s.knot.knots.all (fun p => !(s.usesTree t.1 t.2 p.1 p.2) || (p.2.waiters.isEmpty && !p.2.upSent))
      && (s.rolePorts m).all (fun p => (s.port p).down)
      && (s.idAfter m == s.teth.self || s.teth.ctxs.all (fun p => p.1 == 0xFFF || p.2.state == .closed))
      && ((m.frame 7).isNone || s.env.ticks % 500 == 0)

/-- The holds of a commit are requested (R487). -/
def State.requestHolds (s : State) (m : Image) : State :=
  match s.keel.state with
  | .moored => s
  | _ =>
    let t := m.trees
    let s := (s.rebound m).foldl (fun s c => s.updCore c (fun k => { k with startHold := true })) s
    let s := m.rowCores.foldl (fun s c => s.updCore c (fun k => { k with grantHold := true })) s
    let h : Holds := { ileave := (m.frame 4).isSome, knots := m.allKnots, treeLo := t.1, treeHi := t.2 }
    { s with rig := { s.rig with holds := h } }

/-! ### Applying a commit (R482, R487, R488) -/

/-- A newly bound core comes out of core reset (R488). -/
def State.bindCore (s : State) (c : Nat) : State :=
  s.setCore c { s.freshCore c with asleep := decide (s.keel.state = .rigged), wasAwake := decide (s.keel.state ≠ .rigged) }

/-- The new physical cores of changed bindings go through core reset. -/
def State.bindCores (s : State) (old : Sparse Nat) : List Nat → State
  | [] => s
  | i :: t =>
    let b := sget 0 s.rig.live.bind i
    (if b ≠ 0 ∧ b ≠ sget 0 old i then s.bindCore (b - 1) else s).bindCores old t

/-- Every core takes the rows its ROW_SPARE entry retires. -/
def State.takeRows (s : State) : State :=
  (List.range 400).foldl (fun s c =>
    let r := sget [] s.rig.live.retired c
    if (s.core c).retired = r then s else s.updCore c (fun k => { k with retired := r })) s

/-- Every allocated knot is written (R369). -/
def State.allocKnots (s : State) : State :=
  let put (m : Sparse Knot) (r : KRange) : Sparse Knot :=
    (List.range r.count).foldl (fun m i => sset {} m (r.first + i) (allocKnot r (r.first + i))) m
  { s with knot := { s.knot with knots := s.rig.live.ranges.foldl put [] } }

/-- The seed entries are applied (R413, R482). -/
def State.applySeeds (s : State) : List Seed → State
  | [] => s
  | q :: t =>
    let e := s.peer q.dev
    if e.state = .up then
      ({ s with rig := { s.rig with seedSkips := cnt s.rig.seedSkips 1 } } : State).applySeeds t
    else
      ((s.setPeer q.dev { e with flags := q.flags, ports := q.ports, nextDev := q.next, fp := q.fp }).peerTo q.dev
        (if q.expected then .expected else .absent)).applySeeds t

/-- The role of a port (R392). -/
def roleOf (n : Nat) : PortRole := if n = 0 then .off else if n = 1 then .direct else .switch

/-- TETHER is applied (R482). -/
def State.applyTether (s : State) (full : Bool) (b : List Byte) : State :=
  let own := leAt b 208 2
  let sd := seedsOf b
  let old := s.teth.self
  let s := (List.range 12).foldl (fun s p => s.updPort p (fun q => { q with role := roleOf (leAt b p 1) })) s
  let gone := (s.teth.peers.filter (fun p => p.1 != own && p.2.state != .up
    && (p.1 == old && p.2.state == .self || full && !(sd.any (fun q => q.dev == p.1))))).map (·.1)
  let s := gone.foldl (fun s d => s.peerTo d .absent) s
  let s : State := { s with teth := { s.teth with
    self := own, bcast := leAt b 210 2, admitNew := bit 0 (leAt b 212 1),
    switchFp := swrite [] [] 0 ((List.range 12).map (fun p => slice b (16 + 16 * p) 16)) } }
  ((s.applySeeds sd).peerTo own .self).meetPeers (sd.map (·.dev))

/-- WATCH_STATUS.VALID of some cores is evaluated again (R226). DEDUCED, log entry 43. -/
def State.retable (s : State) : List Nat → State
  | [] => s
  | c :: t =>
    let ok := s.tableOk (s.core c).watch.base
    (if (s.core c).fenced then s else s.updCore c (fun k => { k with watch := { k.watch with valid := ok } })).retable t

/-- Every frame of an image is applied in one step. -/
def State.applyImage (s : State) (m : Image) : State :=
  let old := s.rig.live.bind
  let s := { s with rig := { s.rig with live := s.rig.live.after m } }
  let s := if (m.frame 1).isSome then s.bindCores old (List.range 384) else s
  let s := if m.full || (m.frame 2).isSome then s.takeRows else s
  let s := if m.allKnots then s.allocKnots else s
  let s := match m.frame 6 with
    | some f => s.applyTether m.full f.body
    | none => s
  let s := if (m.frame 1).isSome || (m.frame 7).isSome then s.writeCosts s.env.costPt else s
  let s := if m.full || (m.frame 4).isSome || (m.frame 6).isSome then s.retable (List.range 400) else s
  if (m.frame 8).isSome && s.rig.live.debug == 0 then { s with anc := { s.anc with debug := 0 } } else s

end Sys2Proof.Machine
end

