-- ==== Sys2Proof/Machine/Rig.lean ====
section
/-! DEFINITION. The commands of the rigging controller (R485 to R495): the aperture, VERIFY, COMMIT, ABORT and the
serial-flash launch, and its registers (R497). -/

namespace Sys2Proof.Machine

open Sys2Proof

/-- The rigging controller changed. -/
def State.updRig (s : State) (f : RigSt → RigSt) : State := { s with rig := f s.rig }

/-- The source of an image a writer stages (R484). -/
def Who.source : Who → RigSrc
  | .gon _ => .gondola
  | .owner => .host

/-- A write of aperture byte off (R485). -/
def State.aperture (s : State) (w : Who) (off v : Nat) : State :=
  match s.rig.state with
  | .verifying => s.updRig (fun r => { r with wrIgn := true })
  | .committing => s.updRig (fun r => { r with wrIgn := true })
  | _ => s.updRig (fun r => { r with state := .loading, src := Who.source w,
                                     shadow := mwrite r.shadow (r.page * 0x80000 + off) (leBytes 4 v) })

/-- APERTURE_WRITE (R485): four bytes at byte off of the aperture. -/
def execApertureWrite (w : Who) (off : Nat) (v : W32) (s : State) : Host.Outcome State Fault Refusal :=
  .next (if s.ctrlUp && s.whoOk w && decide (off < 0x80000) && off % 4 == 0 then s.aperture w off v.toNat else s)

/-- A command that is turned away, or a VERIFY that fails, is a rejection (R491). -/
def State.rigRefuse (s : State) (code frame detail : Nat) : State :=
  (s.updRig (fun r => { r with rejects := cnt r.rejects 1, flashRun := false })).rigResult true code frame detail

/-- Whether a serial-flash launch runs (R495): from the entry to MOORED until it has committed or failed. -/
def State.flashBusy (s : State) : Bool :=
  s.rig.flashRun || (decide (s.keel.state = .moored) && s.keel.flashEn && !s.rig.flashRead)

/-- A VERIFY or COMMIT from another source while a serial-flash launch runs (R491, R495). -/
def State.rigBusy (s : State) : State :=
  (s.updRig (fun r => { r with rejects := cnt r.rejects 1 })).rigResult true 0x22 0xFF 0

/-- The anchor is to check the staged image (R486, R508). -/
def State.beginVerify (s : State) : State := (s.updRig (fun r => { r with state := .verifying })).ancSubmit .verify

/-- RIG_CMD VERIFY. -/
def State.rigVerify (s : State) : State :=
  if s.flashBusy then s.rigBusy
  else match s.rig.state with
    | .loading => s.beginVerify
    | .verified => s.beginVerify
    | _ => s.rigRefuse 8 0xFF 0

/-- VERIFY (R486). -/
def execVerify (w : Who) (s : State) : Host.Outcome State Fault Refusal :=
  .next (if s.ctrlUp && s.whoOk w then s.rigVerify else s)

/-- The frame that R476 does not allow in the device's state, or 0xFF where it is the image's kind. -/
def State.barredFrame (s : State) (m : Image) : Nat :=
  if m.full || s.keel.state != .aloft || s.keel.target != .aloft then 0xFF
  else if (m.frame 3).isSome then m.at' 3
  else if (m.frame 4).isSome then m.at' 4
  else m.at' 6

/-- The first reason for which a commit of an image is rejected (R476, R487, R489, R490, R502).
DEDUCED, log entry 78. -/
def State.commitErr (s : State) (m : Image) : Option RigErr :=
  if !(s.commitAllowed m) then some (8, s.barredFrame m, 0)
  else if s.rip.dieResetting ≠ 0 then some (0x24, 0xFF, 0)
  else if !(s.imageSigner m) then some (5, 0xFF, 0)
  else s.ruleErr m

/-- A commit begins (R487): its rules are checked and its holds requested. -/
def State.beginCommit (s : State) : State :=
  match parseImage s.staged with
  | .error e => s.rigReject e.1 e.2.1 e.2.2
  | .ok m =>
    match s.commitErr m with
    | some e => s.rigReject e.1 e.2.1 e.2.2
    | none => ((s.updRig (fun r => { r with state := .committing, commitAt := s.env.ticks })).requestHolds m).ancSubmit .commit

/-- RIG_CMD COMMIT. -/
def State.rigCommit (s : State) : State :=
  if s.flashBusy then s.rigBusy
  else match s.rig.state with
    | .verified => s.beginCommit
    | _ => s.rigRefuse 8 0xFF 0

/-- COMMIT (R487). -/
def execCommit (w : Who) (s : State) : Host.Outcome State Fault Refusal :=
  .next (if s.ctrlUp && s.whoOk w then s.rigCommit else s)

/-- RIG_VERIFY_DONE (R486): the anchor has checked the staged image; one of a serial-flash launch is committed (R495). -/
def execRigVerifyDone (s : State) : Host.Outcome State Fault Refusal :=
  .next (
    if s.rig.state = .verifying ∧ s.anc.op = some .verify then
      match s.verifyStaged with
      | .error e => ((s.updRig (fun r => { r with state := .loading })).rigRefuse e.1 e.2.1 e.2.2).ancEnd
      | .ok _ =>
        let s := ((s.updRig (fun r => { r with state := .verified })).rigResult true 0 0xFF 0).ancEnd
        if s.rig.flashRun then s.beginCommit else s
    else s)

/-- After the first FULL commit in MOORED the dies start, and stacks and ports train (R494). -/
def State.bringUp (s : State) : State :=
  let s := (List.range 16).foldl (fun s i => s.updStk i (fun t => { t with state := .training })) s
  let s := (List.range 12).foldl (fun s p =>
    s.updPort p (fun q => { q with state := if q.role = .off then .off else .training })) s
  s.setDev .moored .rigged

/-- A commit succeeds (R487, R494, R502, R505). -/
def State.commitDone (s : State) (m : Image) : State :=
  let s := (s.applyImage m).unhold
  let s := s.updRig (fun r => { r with serial := m.serial, commits := cnt r.commits 1, state := .empty,
                                       flashOk := r.flashRun || r.flashOk, flashRun := false })
  let s := s.rigResult true 0 0xFF 0
  let s := s.ancSubmit (.extend 1 (if m.full then 2 else 3) m.serial (fingerprint m.signer) m.digest)
  let s := if m.full && s.anc.owner.isNone then s.bindOwner m.signer else s
  let s := s.ancEnd
  match s.keel.state with
  | .moored => s.bringUp
  | _ => s

/-- Whether RIG_QUIET_TO has passed since the commit began (R490). A commit in MOORED waits for nothing (R488). -/
def State.quietOver (s : State) : Bool :=
  s.keel.state != .moored && decide (s.rig.commitAt + s.rig.quietTo * 50000 < s.env.ticks)

/-- RIG_APPLY (R487, R490): every hold stands, the rules are checked again, and every frame is applied in one step. -/
def execRigApply (s : State) : Host.Outcome State Fault Refusal :=
  .next (
    if s.rig.state = .committing ∧ s.anc.op = some .commit then
      match parseImage s.staged with
      | .error _ => s
      | .ok m =>
        if s.quietOver || !(s.holdsStand m) then s
        else match s.commitErr m with
          | some e => s.rigReject e.1 e.2.1 e.2.2
          | none => s.commitDone m
    else s)

/-- RIG_QUIET_TIMEOUT (R490): RIG_QUIET_TO has passed and the commit has not been applied. -/
def execRigQuietTimeout (s : State) : Host.Outcome State Fault Refusal :=
  .next (
    if s.rig.state = .committing ∧ s.quietOver then s.rigReject 0x20 0xFF 0 else s)

/-- RIG_CMD ABORT (R490). DEDUCED, log entry 79. -/
def State.rigAbort (s : State) : State :=
  match s.rig.state with
  | .committing => s.rigReject 0x23 0xFF 0
  | .verifying => (s.updRig (fun r => { r with state := .loading, flashRun := false })).ancDrop .verify
  | _ => s.rigResult false 8 0xFF 0

/-- ABORT (R490). -/
def execAbort (w : Who) (s : State) : Host.Outcome State Fault Refusal :=
  .next (if s.ctrlUp && s.whoOk w then s.rigAbort else s)

/-- FLASH_IMAGE_LOADED (R495, R507, R581): what serial flash holds from byte 0, and from the first 4 KiB boundary after
the image; the image is copied into the shadow store and verified when a header that meets R472 lies there.
DEDUCED, log entry 81. -/
def execFlashImageLoaded (img fw : List Byte) (s : State) : Host.Outcome State Fault Refusal :=
  .next (
    let free : Bool := match s.rig.state with
      | .verifying => false
      | .committing => false
      | _ => true
    if s.keel.state = .moored ∧ s.keel.target = .moored ∧ s.keel.flashEn ∧ !s.rig.flashRead ∧ free then
      match headerCheck (img ++ List.replicate (128 - img.length) 0xFF) with
      | .error _ => s.updRig (fun r => { r with flashRead := true, flashSeen := false, flashOk := false })
      | .ok n =>
        (s.updRig (fun r => { r with flashRead := true, flashSeen := true, flashOk := false, flashRun := true, flashFw := fw,
                                     src := .flash, shadow := mwrite r.shadow 0 (img.take n) })).beginVerify
    else s)

/-! ### Registers (R497) -/

/-- The encoding of the controller's states (R497). -/
def RigState.code : RigState → Nat
  | .empty => 0
  | .loading => 1
  | .verifying => 2
  | .verified => 3
  | .committing => 4

/-- A read of the rigging window at an offset. -/
def State.rigRead (s : State) (off : Nat) : State × Nat :=
  let r := s.rig
  let serial := match s.keel.state with
    | .moored => 0
    | _ => r.serial
  if off = 0 then
    (s, flag 11 r.flashOk + flag 10 r.flashSeen
      + flag 9 (decide (r.state ≠ .empty) && (mread r.shadow 12 1).getD 0 0 == 2) + flag 8 r.wrIgn + r.state.code)
  else if off = 8 then (s, r.code * 0x1000000 + r.frame * 0x10000 + r.detail)
  else if off = 0xC then (s, r.page)
  else if off = 0x10 then (s, r.quietTo)
  else if off = 0x14 then (s, fld 31 0 serial)
  else if off = 0x18 then (s, fld 63 32 serial)
  else if off = 0x1C then (s.updRig (fun r => { r with commits := 0 }), r.commits)
  else if off = 0x20 then (s.updRig (fun r => { r with rejects := 0 }), r.rejects)
  else if off = 0x24 then (s.updRig (fun r => { r with seedSkips := 0 }), r.seedSkips)
  else if 0x40 ≤ off ∧ off < 0x50 ∧ off % 4 = 0 then
    let d := (off - 0x40) / 4
    let left := (sget [] r.live.spares d).filter (fun i => !(s.rip.fenced.contains (100 * d + i)))
    (s, left.length * 0x10000 + left.headD 0xFF)
  else (s, 0)

/-- A write to the rigging window at an offset, the aperture among them. -/
def State.rigWrite (s : State) (w : Who) (off v : Nat) : State :=
  if off = 0 then s.updRig (fun r => { r with wrIgn := r.wrIgn && !bit 8 v })
  else if off = 4 then
    match v % 4 with
    | 1 => s.rigVerify
    | 2 => s.rigCommit
    | 3 => s.rigAbort
    | _ => s
  else if off = 0xC then s.updRig (fun r => { r with page := v % 4 })
  else if off = 0x10 then s.updRig (fun r => { r with quietTo := if v % 65536 = 0 then 1 else v % 65536 })
  else if 0x80000 ≤ off ∧ off < 0x100000 ∧ off % 4 = 0 then s.aperture w (off - 0x80000) v
  else s

end Sys2Proof.Machine
end

