-- ==== Sys2Proof/Machine/Keel.lean ====
section
/-! DEFINITION. The device's states and the transitions between them (R25 to R31, R494, R498, R499), and the host port's
link (R517). -/

namespace Sys2Proof.Machine

open Sys2Proof

/-- The keel domain's state changed. -/
def State.updKeel (s : State) (f : KeelSt → KeelSt) : State := { s with keel := f s.keel }

/-- KEEL_POWER_ON (R27, R581). -/
def execKeelPowerOn (flashEn flashQuad : Bool) (s : State) : Host.Outcome State Fault Refusal :=
  .next (match s.keel.state with
    | .off => (s.updKeel (fun k => { k with flashEn, flashQuad })).setDev .keel .keel
    | _ => s)

/-- KEEL_RAIL_LOST (R27): the device is OFF and has lost everything. -/
def execKeelRailLost (s : State) : Host.Outcome State Fault Refusal :=
  .next { pending := s.pending, keel := { state := .off, target := .off }, env := { sent := s.env.sent },
          anc := { draws := s.anc.draws }, host := { sent := s.host.sent }, lastRead := s.lastRead }

/-! ### Requests (R27 to R29) -/

/-- Whether a request names a transition of the current state, with none in progress (R27, R28). -/
def State.reqOk (s : State) (q : Nat) : Bool :=
  s.keel.target == s.keel.state && (match s.keel.state with
  | .moored => q == 1
  | .rigged => q == 2 || q == 4
  | .aloft => q == 3
  | _ => false)

/-- The operations an entry to MOORED leaves at the anchor: extends and what ATTEST asked for. -/
def AncOp.stays : AncOp → Bool
  | .extend _ _ _ _ _ => true
  | .attest _ _ _ _ => true
  | .log _ _ _ => true
  | _ => false

/-- The anchor's registers at an entry to MOORED from RIGGED (R507, R515): the owner, the debug scopes, the measurement
registers and the log stay (R504, R514), and a new challenge is drawn. -/
def State.ancMoored (s : State) : State :=
  let a := s.anc
  let ops := (a.op.toList ++ a.waiting).filter AncOp.stays
  let s := s.updAnc (fun _ => { logFull := a.logFull, debug := a.debug, owner := a.owner, draws := a.draws, mr := a.mr,
                                log := a.log, seq := a.seq })
  let r := s.draw 16
  (r.1.updAnc (fun a => { a with challenge := r.2 })).ancPump ops

/-- The host port's registers at an entry to MOORED from RIGGED (R538): its link and its sessions stay. -/
def HostSt.moored (h : HostSt) : HostSt :=
  { link := h.link, sessions := h.sessions, sent := h.sent, paused := h.paused, heldTx := h.heldTx,
    dadEnd := h.dadEnd,
    rlMs := h.rlMs, rlCount := h.rlCount }

/-- UNRIG (R27, R329, R496): the dies are powered down, and the live copy and the shadow store are discarded.
DEDUCED, log entry 82. -/
def State.unrig (s : State) : State :=
  let s := s.boundaryLate
  let r := s.rig
  let s : State := { s with
    cores := s.fencedCores, stks := [], knot := {}, teth := {}, gons := [(0, { mode := 1 })], gonCe := 0,
    merges := [], stale := [], pace := [],
    env := { s.env with msgs := [], reports := [] },
    rig := { quietTo := r.quietTo, page := r.page, commits := r.commits, rejects := r.rejects, seedSkips := r.seedSkips,
             wrIgn := r.wrIgn, code := r.code, frame := r.frame, detail := r.detail, flashOk := r.flashOk },
    rip := { s.rip with dieResetting := 0, sparesPending := [] },
    host := s.host.moored }
  s.ancMoored.setDev .moored .moored

/-- A transition that has been accepted begins (R27, R29). -/
def State.reqGo (s : State) (q : Nat) : State :=
  match q with
  | 1 => s.enterKeel
  | 2 => s.unrig
  | 3 => s.setDev .aloft .rigged
  | _ => s.setDev .aloft .aloft

/-- The STATUS of a request (R29). -/
def State.toStatus (s : State) (q : Nat) : Nat := if s.reqOk q then 0 else 2

/-- A request of a transition (R28, R29): its decision is reported, and the transition begins. -/
def State.request (s : State) (q : Nat) : State :=
  let ok := s.reqOk q
  let s := s.updKeel (fun k => { k with resDone := true, resTo := q, resStatus := if ok then 0 else 2 })
  if ok then s.reqGo q else s

/-- STOW (R29). -/
def execStow (w : Who) (s : State) : Host.Outcome State Fault Refusal :=
  .next (if s.ctrlUp && s.whoOk w then s.request 1 else s)

/-- UNRIG (R29). -/
def execUnrig (w : Who) (s : State) : Host.Outcome State Fault Refusal :=
  .next (if s.ctrlUp && s.whoOk w then s.request 2 else s)

/-- LAND (R29). -/
def execLand (w : Who) (s : State) : Host.Outcome State Fault Refusal :=
  .next (if s.ctrlUp && s.whoOk w then s.request 3 else s)

/-- LAUNCH (R29). -/
def execLaunch (w : Who) (s : State) : Host.Outcome State Fault Refusal :=
  .next (if s.ctrlUp && s.whoOk w then s.request 4 else s)

/-- Whether a core has no tile queued or in its array and no reel transfer outstanding (R27). -/
def Core.landed (k : Core) : Bool :=
  let reel (r : Reel) : Bool := r.prog.isEmpty && (r.stopped || r.pending == 0)
  k.fenced || (k.arr.quiet && reel k.reel0 && reel k.reel1)

/-- The compute cores are held asleep below ALOFT (R26). -/
def Core.holdAsleep (k : Core) : Core := if k.fenced then k else { k with asleep := true, wasAwake := false, idleTicks := 0 }

/-- The bound cores are held asleep. -/
def State.holdCores (s : State) : List (Nat × Nat) → State
  | [] => s
  | (_, c) :: t => (if c = 0 then s else s.updCore (c - 1) Core.holdAsleep).holdCores t

/-- LAND_COMPLETE (R27). -/
def execLandComplete (s : State) : Host.Outcome State Fault Refusal :=
  .next (
    if s.keel.state = .aloft ∧ s.keel.target = .rigged ∧ s.cores.all (fun p => p.2.landed) then
      (s.holdCores s.rig.live.bind).setDev .rigged .rigged
    else s)

/-! ### The rise (R494, R498, R499, R551) -/

/-- A test of the boot ROM fails (R499): the device stays in KEEL, and the code is latched. -/
def State.bootStop (s : State) (cause : Nat) : State :=
  let s := (s.report (ripCode 1 1 cause)).latch true (ripCode 1 1 cause)
  let s : State := { s with knot := {} }
  (s.updKeel (fun k => { k with booting := false, stopped := true })).setDev .keel .keel

/-- The anchor as the boot ROM leaves it (R498, R505, R515). DESIGN CHOICE, log entry 83. -/
def State.bootAnchor (s : State) : State :=
  let s := s.updAnc (fun a => { owner := a.owner, draws := a.draws })
  let r := s.draw 16
  r.1.updAnc (fun a => ({ a with challenge := r.2 }).extend 0 1 0 (List.replicate 16 0)
    ((List.range 64).map Config.romDigestByte))

/-- BOOT_ROM_COMPLETE (R498, R499, R551): the outcome of the known-answer tests, the PUF derivation and the entropy test,
and whether gondola core 0 starts. -/
def execBootRomComplete (kat puf entropy gon0 : Bool) (s : State) : Host.Outcome State Fault Refusal :=
  .next (
    if s.keel.state = .keel ∧ s.keel.booting then
      if !kat then s.bootStop 0x0101
      else if !entropy then s.bootStop 0x0103
      else if !puf then s.bootStop 0x0102
      else
        let s := s.bootAnchor
        let s : State := { s with host := { s.host.moored with link := .training, sessions := [] } }
        let code := ripCode 0x10 0x40 0x5001
        let s := if gon0 then s.updGon 0 (fun g => { g with mode := 1 }) else (s.report code).latch false code
        (s.updKeel (fun k => { k with booting := false })).setDev .moored .moored
    else s)

/-- ENTROPY_HEALTH_FAIL (R499). -/
def execEntropyHealthFail (s : State) : Host.Outcome State Fault Refusal :=
  .next (if s.ctrlUp then s.pkgFault (ripCode 1 1 0x0103) else s)

/-- A stack ends its training (R306, R329, R494). -/
def State.stackTrained (s : State) (bad : List Nat) (st : Nat) : State :=
  if bad.contains st then
    (s.updStk st (fun t => { t with state := .fault })).report (stackCode st 0x2003)
  else s.updStk st (fun t => { t with state := .ready, mem := [], upsets := [], poisoned := [] })

/-- The gondola cores are released into the wait loop (R494). -/
def State.waitGons (s : State) : State :=
  (List.range 16).foldl (fun s g => s.updGon g (fun k => { k with mode := 1, petTicks := none })) s

/-- After a serial-flash launch, the firmware that follows the image in flash is copied to LOAD and taken (R507). -/
def State.flashFirmware (s : State) : State :=
  let b := s.rig.flashFw
  let n := leAt b 8 4
  if s.rig.flashOk ∧ fwHeaderOk (b.take 128) ∧ s.inOwnMem (leAt b 72 8) n then
    ((s.writeBytes { gon := true } (leAt b 72 8) (b.take n)).1).ancSubmit (.firmware (leAt b 72 8))
  else s

/-- Bring-up is complete: the stacks have trained, or failed to, the gondola cores wait, the cores are held asleep, and the package's
links have been heard from (R388, R494). -/
def State.reachRigged (s : State) (badStacks : List Nat) : State :=
  let s := (List.range 16).foldl (fun s st => s.stackTrained badStacks st) s
  let s := s.waitGons.holdCores s.rig.live.bind
  let s := (List.range 8).foldl (fun s n => { s with knot := { s.knot with heard := sset 0 s.knot.heard n s.env.ticks } }) s
  (s.setDev .rigged .rigged).flashFirmware

/-- RIGGED_REACHED (R494): bring-up is complete, but for the stacks that fail to train. -/
def execRiggedReached (badStacks : List Nat) (s : State) : Host.Outcome State Fault Refusal :=
  .next (
    if s.keel.state = .moored ∧ s.keel.target = .rigged then s.access (.gondola 0) none (fun s => s.reachRigged badStacks)
    else s)

/-! ### The host port's link (R517, R580) -/

/-- HOST_LINK_UP (R517, R520). -/
def execHostLinkUp (s : State) : Host.Outcome State Fault Refusal :=
  .next (match s.host.link with
    | .training => ({ s with host := { s.host with link := .up } } : State).startDad
    | _ => s)

/-- HOST_LINK_DOWN (R580): the port must train again. -/
def execHostLinkDown (s : State) : Host.Outcome State Fault Refusal :=
  .next (match s.host.link with
    | .up => { s with host := { s.host with link := .training } }
    | _ => s)

end Sys2Proof.Machine
end

