-- ==== Sys2Proof/Machine/Rip.lean ====
section
/-! DEFINITION. The commands of the ripcord logic (R540 to R564): watchdogs, spares, die resets and events, and its
registers. -/

namespace Sys2Proof.Machine

open Sys2Proof

/-- The ripcord registers changed. -/
def State.updRip (s : State) (f : RipSt → RipSt) : State := { s with rip := f s.rip }

/-- Keel ticks in a millisecond (R442). -/
def msTicks : Nat := 50000

/-! ### Events (R537, R561, R562) -/

/-- An event's 16 bytes (R384, R561). -/
def State.eventBytes (s : State) (m : EvMsg) : List Byte :=
  leBytes 1 9 ++ leBytes 1 0 ++ leBytes 2 s.teth.self ++ leBytes 2 s.teth.self
    ++ leBytes 2 (2 * 1024 + gonNode s.rip.evtGon) ++ leBytes 2 m.code ++ leBytes 2 m.source ++ leBytes 4 m.arg

/-- An event is written to the ring, or lost when the ring is full or cannot be written (R562). -/
def State.ringEvent (s : State) (b : List Byte) : State :=
  let r := s.rip
  let a := r.evtBase + 16 * r.head
  let lost := s.updRip (fun r => { r with evtLost := true, evtLostN := cnt r.evtLostN 1 })
  if (r.head + 1) % 4096 = r.tail ∨ !(s.inOwnMem a 16) then lost
  else
    let w := s.writeBytes {} a b
    if w.2 then
      w.1.updRip (fun r => { r with head := (r.head + 1) % 4096,
                                    gonIrq := if r.gonIrq.contains r.evtGon then r.gonIrq else r.gonIrq ++ [r.evtGon] })
    else lost

/-- The kinds of agent that send events, with the number of the one that does (R563): 0 a logical core, 1 a stack, 2 the knot store of
a knot's home, 3 the tether logic, 4 a ballast group, 5 the keel domain. Events of one agent come in the order they were sent
(R386). DEDUCED, log entry 58. -/
def EvMsg.agent (m : EvMsg) : Nat × Nat :=
  if m.code ≤ 0x11 ∨ m.code = 0x21 then (0, m.source)
  else if m.code = 0x20 ∨ m.code = 0x23 ∨ m.code = 0x24 then (1, m.source)
  else if m.code = 0x51 then (2, homeOf m.arg)
  else if m.code = 0x22 then (4, m.source)
  else if 0x30 ≤ m.code ∧ m.code ≤ 0x35 then (3, 0)
  else (5, 0)

/-- Event k of those on their way, which is m, has come in: it goes to the ring, and to the sessions that take events. -/
def State.eventIn (s : State) (k : Nat) (m : EvMsg) : State :=
  let s : State := { s with knot := { s.knot with events := s.knot.events.eraseIdx k } }
  let b := s.eventBytes m
  let s := if s.diesUp && s.rip.evtBaseSet then s.ringEvent b else s
  s.eventSessions b (m.code == 0x64) [1, 2, 3, 4]

/-- EVENT_MESSAGE (R537, R562): event k of those on their way reaches the ripcord logic. -/
def execEventMessage (k : Nat) (s : State) : Host.Outcome State Fault Refusal :=
  .next (match s.knot.events[k]? with
    | some m =>
      if (s.knot.events.take k).any (fun e => e.agent == m.agent) then s
      else s.access (.gondola 0) none (fun s => s.eventIn k m)
    | none => s)

/-! ### Watchdogs (R543, R544) -/

/-- STALL_WATCHDOG_EXPIRY (R543). -/
def execStallWatchdogExpiry (c : Nat) (s : State) : Host.Outcome State Fault Refusal :=
  .next (if s.coreWin c ∧ s.rip.stallMs * msTicks ≤ (s.core c).stallTicks then s.coreFault c 0x1005 else s)

/-- WAIT_WATCHDOG_EXPIRY (R543): the wait goes on. -/
def execWaitWatchdogExpiry (c : Nat) (x : Stream) (s : State) : Host.Outcome State Fault Refusal :=
  .next (
    let t := (s.core c).st x
    if s.coreWin c ∧ t.state = .waiting ∧ s.rip.waitMs * msTicks ≤ t.waitTicks then
      (s.updSt c x (fun t => { t with waitTicks := 0 })).event 0x62 (s.logNum c) (sNum x * 0x10000 + t.wait.code)
    else s)

/-- A gondola core after its reset (R544). -/
def State.resetGon (s : State) (g : Nat) : State :=
  s.updGon g (fun _ => if s.anc.fwRun then { mode := 2, pc := s.anc.fwEntry } else { mode := 1 })

/-- GON_WATCHDOG_EXPIRY (R543, R544). -/
def execGonWatchdogExpiry (g : Nat) (s : State) : Host.Outcome State Fault Refusal :=
  .next (match (s.gon g).petTicks with
    | some n =>
      if g < 16 ∧ s.rip.gonMs * msTicks ≤ n then
        ((s.report (ripCode (0x10 + g / 4) (0x40 + g % 4) 0x5001)).resetGon g).event 0x64 g 0
      else s
    | none => s)

/-- A write of RIP_PET_g. -/
def State.pet (s : State) (g : Nat) : State :=
  if g < 16 ∧ (s.gon g).mode ≠ 0 then s.updGon g (fun k => { k with petTicks := some 0 }) else s

/-- RIP_PET (R543). -/
def execRipPet (g : Nat) (s : State) : Host.Outcome State Fault Refusal := .next (if s.ctrlUp then s.pet g else s)

/-! ### Spares (R493, R548) -/

/-- A physical core takes a logical number; its class costs are those of the point in force (R448). -/
def State.bindTo (s : State) (l c fencedC : Nat) : State :=
  let s := s.updRig (fun r => { r with commits := cnt r.commits 1, live := { r.live with bind := sset 0 r.live.bind l (c + 1) } })
  let s := if s.tables then s.updCore c (fun k => { k with cost := swrite 0 k.cost 0 (s.costsAt s.env.costPt) }) else s
  s.event 0x61 l (fencedC * 0x10000 + c)

/-- SPARE_READY (R493, R548): the reset and self-test of spare c are over; one that fails is fenced, and the next is
tried. -/
def execSpareReady (c : Nat) (ok : Bool) (s : State) : Host.Outcome State Fault Refusal :=
  .next (match s.rip.sparesPending.find? (fun p => p.2.2 == c) with
    | some (l, f, _) =>
      let s := s.updRip (fun r => { r with sparesPending := r.sparesPending.filter (fun p => p.2.2 ≠ c) })
      let s := s.setCore c { s.freshCore c with asleep := decide (s.keel.state ≠ .aloft), wasAwake := decide (s.keel.state = .aloft) }
      if ok then s.bindTo l c f else (s.coreFault c 0x1008).rebind l f (c / 100)
    | none => s)

/-! ### Faults of burners and of the keel domain (R540) -/

/-- BURNER_LOCK_LOST (R540): the burner of core n, or of the mesh of die n. -/
def execBurnerLockLost (mesh : Bool) (n : Nat) (s : State) : Host.Outcome State Fault Refusal :=
  .next (
    if !s.diesUp then s
    else if mesh then (if n < 4 then s.dieFault n (ripCode (0x10 + n) 0x32 0x4102) else s)
    else if n < 400 then s.coreFault n 0x1006 else s)

/-- KEEL_VOTE_DISAGREE (R540): twice on one bit within 1 ms is a package reset. DEDUCED, log entry 87. -/
def execKeelVoteDisagree (bit : Nat) (s : State) : Host.Outcome State Fault Refusal :=
  .next (match s.keel.state with
    | .off => s
    | _ =>
      let now := s.env.ticks
      let s := s.report (ripCode 1 0 0x0203)
      let recent := s.keel.votes.filter (fun p => decide (now ≤ p.2 + msTicks))
      if recent.any (fun p => p.1 == bit) then
        (s.updKeel (fun k => { k with votes := [] })).pkgReset (ripCode 1 0 0x0203)
      else s.updKeel (fun k => { k with votes := recent ++ [(bit, now)] }))

/-! ### Keyed writes (R550, R553, R554, R564) -/

/-- A keyed write that is not ignored. -/
def State.keyed (s : State) (v : Nat) (ok : Bool) (body : State → State) : State :=
  if fld 31 16 v = 0x5A5A ∧ ok then body s else s.updRip (fun r => { r with wrIgn := true })

/-- A write of RIP_FENCE_REQ (R550): a core already fenced is left alone. -/
def State.fenceReq (s : State) (v : Nat) : State :=
  let c := fld 8 0 v
  s.keyed v (decide (c < 400)) (fun s => if s.rip.fenced.contains c then s else s.coreFault c 0x1007)

/-- A write of RIP_DIE_RESET (R546, R554): a die that is held goes on with its reset. DESIGN CHOICE, log entry 85. -/
def State.dieReq (s : State) (v : Nat) : State :=
  let d := fld 1 0 v
  s.keyed v true (fun s =>
    if !s.diesUp || bit d s.rip.dieResetting then s
    else if bit d s.rip.dieHeld then
      s.updRip (fun r => { r with dieHeld := r.dieHeld - 2 ^ d, dieResetting := r.dieResetting ||| 2 ^ d })
    else
      let code := ripCode (0x10 + d) 0 0x0303
      (s.report code).dieReset d code)

/-- A write of RIP_PKG_RESET (R553). -/
def State.pkgReq (s : State) (v : Nat) : State :=
  s.keyed v true (fun s => if bit 0 v then s.pkgFault (ripCode 1 0 0x0301) else s)

/-- A write of RIP_CODE_CLR (R564). -/
def RipSt.codeClr (r : RipSt) (v : Nat) : RipSt :=
  if bit 0 v then { r with code := 0, codeAt := none, codePkg := false, more := false } else r

/-- A write of half of RIP_EVT_BASE (R562, R564). -/
def RipSt.setBase (r : RipSt) (hi : Bool) (v : Nat) : RipSt :=
  let base := if hi then v * 2 ^ 32 + r.evtBase % 2 ^ 32 else r.evtBase / 2 ^ 32 * 2 ^ 32 + v / 65536 * 65536
  { r with evtBase := base, evtBaseSet := true, head := 0, tail := 0 }

/-- RIP_FENCE_REQ (R550). -/
def execRipFenceReq (v : W32) (s : State) : Host.Outcome State Fault Refusal :=
  .next (if s.ctrlUp then s.fenceReq v.toNat else s)

/-- RIP_DIE_RESET (R554). -/
def execRipDieReset (v : W32) (s : State) : Host.Outcome State Fault Refusal :=
  .next (if s.ctrlUp then s.dieReq v.toNat else s)

/-- RIP_PKG_RESET (R553, R557). -/
def execRipPkgReset (v : W32) (s : State) : Host.Outcome State Fault Refusal :=
  .next (if s.ctrlUp then s.pkgReq v.toNat else s)

/-- RIP_CODE_CLR (R564). -/
def execRipCodeClr (v : W32) (s : State) : Host.Outcome State Fault Refusal :=
  .next (if s.ctrlUp then s.updRip (fun r => r.codeClr v.toNat) else s)

/-- RIP_EVT_BASE_WRITE (R562, R564). -/
def execRipEvtBaseWrite (hi : Bool) (v : W32) (s : State) : Host.Outcome State Fault Refusal :=
  .next (if s.ctrlUp then s.updRip (fun r => r.setBase hi v.toNat) else s)

/-! ### The rest of a die reset (R549, R554 to R556) -/

/-- The cores of die d after core reset, none of them fenced; those that are neither bound nor spares become spares
(R549). -/
def State.resetCores (s : State) (d : Nat) : State :=
  let on (c : Nat) : Bool := c / 100 == d
  let back := (s.rip.sparesPending.filter (fun p => on p.2.2)).map (fun p => p.2.2 % 100)
  let s := s.updRip (fun r => { r with fenced := r.fenced.filter (fun c => !(on c)),
                                       sparesPending := r.sparesPending.filter (fun p => !(on p.2.2)) })
  let s : State := { s with cores := s.cores.filter (fun p => !(on p.1)) }
  let s := (List.range 100).foldl (fun s i =>
    s.setCore (100 * d + i) { s.freshCore (100 * d + i) with asleep := decide (s.keel.state = .rigged)
                                                               && (s.logical (100 * d + i)).isSome }) s
  let sp := back ++ sget [] s.rig.live.spares d
  let new := (List.range 100).filter (fun i => (s.logical (100 * d + i)).isNone && !(sp.contains i))
  s.updRig (fun r => { r with live := { r.live with spares := sset [] r.live.spares d (sp ++ new) } })

/-- The cores of die d that fail their self-test are fenced anew. -/
def State.failCores (s : State) (d : Nat) : List Nat → State
  | [] => s
  | c :: t =>
    if c / 100 ≠ d ∨ s.rip.fenced.contains c then s.failCores d t
    else
      let s := s.report (coreCode c 0x1008)
      let s := (s.updCore c (fun k => { k with fenced := true })).updRip (fun r =>
        { r with fenced := r.fenced ++ [c], fenceNew := true })
      (s.updRig (fun r => { r with live := { r.live with
        spares := sset [] r.live.spares d ((sget [] r.live.spares d).filter (fun i => 100 * d + i ≠ c)) } })).failCores d t

/-- A logical number of die d takes the next spare, or stays unbound (R493). -/
def State.rebindNow (s : State) (l f d : Nat) : State :=
  match s.nextSpare d with
  | some sp =>
    (s.updRig (fun r => { r with live := { r.live with
      spares := sset [] r.live.spares d ((sget [] r.live.spares d).filter (fun i => 100 * d + i ≠ sp)) } })).bindTo l sp f
  | none =>
    (s.updRig (fun r => { r with live := { r.live with bind := sset 0 r.live.bind l 0 } })).event 0x61 l (f * 0x10000 + 0xFFFF)

/-- Some logical numbers are bound again. DEDUCED, log entry 86. -/
def State.rebindAll (s : State) (d : Nat) : List (Nat × Nat) → State
  | [] => s
  | (l, f) :: t => (s.rebindNow l f d).rebindAll d t

/-- A context's generation as a stack holds it (R325, R554). -/
def State.gensNow (s : State) : Sparse Nat :=
  s.teth.ctxs.foldl (fun m p => sset 0 m p.1 (s.ctx p.1).gen) []

/-- A stack of a die at the end of the die's reset (R329, R554). -/
def State.stackReset (s : State) (bad : List Nat) (st : Nat) : State :=
  (s.setStk st { gens := s.gensNow }).stackTrained bad st

/-- The ports of a die train again to their roles (R392, R410, R554). -/
def State.portReset (s : State) (p : Nat) : State :=
  let s := s.losePartner p
  let role := roleOf (s.rig.live.roles.getD p 0)
  s.updPort p (fun _ => { role, state := if role = .off then .off else .training })

/-- The knot store, notify records and operation pairs of die d, and the registers on D0 (R369, R554, R567). -/
def State.knotReset (s : State) (d : Nat) : State :=
  let n := s.knot
  let put (m : Sparse Knot) (r : KRange) : Sparse Knot :=
    (List.range r.count).foldl (fun m i =>
      if (r.first + i) / 65536 = d then sset {} m (r.first + i) (allocKnot r (r.first + i)) else m) m
  let onPair (g : Nat) : Bool := if g = 16 then d == 0 else g / 4 == d
  let knots := s.rig.live.ranges.foldl put (n.knots.filter (fun p => p.1 / 65536 ≠ d))
  let pairs := smap {} id (n.pairs.map (fun p => (p.1,
    if onPair p.1 then { stage0 := p.2.stage0, stage1 := p.2.stage1, stage2 := p.2.stage2, serial := p.2.serial } else p.2)))
  let n : KnotSt := { n with knots, pairs, notify := n.notify.filter (fun p => p.1 / 64 ≠ d),
                             lostLinks := n.lostLinks.filter (· ≠ d), heard := sset 0 n.heard d s.env.ticks }
  let n : KnotSt := if d = 0 then { n with linkLost := false, semaOvf := false, stale := false, wrIgn := false, aborts := 0,
                                           semaOvfN := 0, staleDrops := 0, phaseDrops := 0, bridleErr := 0 } else n
  { s with knot := n }

/-- Whether the requester is on die d. -/
def ReqWho.onDie (d : Nat) : ReqWho → Bool
  | .load c _ _ _ _ => c / 100 == d
  | .store c _ => c / 100 == d
  | .vec c _ _ => c / 100 == d
  | .reel c _ => c / 100 == d

/-- What was on its way to the cores of die d is lost (R555). -/
def State.loseTraffic (s : State) (d : Nat) : State :=
  { s with
    teth := { s.teth with reqs := s.teth.reqs.filter (fun q => !(q.who.onDie d)) },
    env := { s.env with msgs := s.env.msgs.filter (fun m => match m with
      | .deal c _ _ _ => c / 100 ≠ d
      | .report r => (s.phys r.core).getD 400 / 100 ≠ d
      | .give l _ => (s.phys l).getD 400 / 100 ≠ d) },
    stks := s.stks.map (fun p => (p.1, { p.2 with ranges := p.2.ranges.filter (fun r => r.core / 100 ≠ d) })) }

/-- Whether the firmware's span, from a on, misses the stacks of die d (R556). -/
def State.fwMisses (s : State) (d : Nat) : Nat → Nat → Bool
  | 0, _ => true
  | n + 1, a =>
    (match s.locate a with
      | .stack st _ => st / 4 != d
      | _ => false) && s.fwMisses d n (a + 256)

/-- The gondola cores restart (R556). -/
def State.restartGons (s : State) (d : Nat) : State :=
  if s.anc.fwRun && s.fwMisses d (cdiv s.anc.fwLen 256) s.anc.fwLoad then s.startGons
  else (s.updAnc (fun a => { a with fwRun := false })).waitGons

/-- DIE_RESET_DONE (R549, R553 to R556): the reset of die d is over; `failed` are its cores that failed the self-test and
`badStacks` the stacks that failed to train. -/
def execDieResetDone (d : Nat) (failed badStacks : List Nat) (s : State) : Host.Outcome State Fault Refusal :=
  .next (
    if !s.diesUp || decide (3 < d) || !(bit d s.rip.dieResetting) then s
    else
      let pend := (s.rip.sparesPending.filter (fun p => p.2.2 / 100 == d)).map (fun p => (p.1, p.2.1))
      let s := ((s.loseTraffic d).resetCores d).failCores d failed
      let s := (List.range 4).foldl (fun s i => s.stackReset badStacks (4 * d + i)) s
      let s := (List.range 3).foldl (fun s i => s.portReset (3 * d + i)) s
      let s := s.knotReset d
      let s := s.updRip (fun r => { r with dieResetting := r.dieResetting - 2 ^ d })
      let lost := (s.rig.live.bind.filter (fun p => p.2 ≠ 0 && s.rip.fenced.contains (p.2 - 1) && (p.2 - 1) / 100 == d)).map
        (fun p => (p.1, p.2 - 1))
      let s := s.rebindAll d (lost ++ pend)
      let s := if s.tables then s.writeCosts s.env.costPt else s
      (s.restartGons d).event 0x63 d (failed.filter (fun c => c / 100 == d)).length)

/-! ### Registers (R564) -/

/-- RIP_FENCED_w. -/
def RipSt.fencedWord (r : RipSt) (w : Nat) : Nat :=
  ((List.range 32).map (fun b =>
    flag b (decide (32 * (w % 4) + b < 100) && r.fenced.contains (100 * (w / 4) + 32 * (w % 4) + b)))).sum

/-- A read of the ripcord registers at an offset of the keel and envelope window. -/
def State.ripRead (s : State) (off : Nat) : State × Nat :=
  let r := s.rip
  if off = 0x300 then
    (s, flag 12 r.wrIgn + r.dieHeld * 0x100 + r.dieResetting * 0x10 + flag 3 r.evtLost + flag 2 r.more + flag 1 r.fenceNew
      + flag 0 r.fault)
  else if off = 0x304 then (s, r.code)
  else if off = 0x30C then (s, r.last)
  else if off = 0x310 then (s, flag 8 r.autoDie + r.evtGon)
  else if off = 0x314 then (s, r.gonMs * 0x10000 + r.waitMs * 0x100 + r.stallMs)
  else if off = 0x324 then (s, fld 31 0 r.evtBase)
  else if off = 0x328 then (s, fld 63 32 r.evtBase)
  else if off = 0x32C then (s, r.head)
  else if off = 0x330 then (s, r.tail)
  else if off = 0x334 then (s.updRip (fun r => { r with evtLostN := 0 }), r.evtLostN)
  else if off = 0x338 then (s.updRip (fun r => { r with faults := 0 }), r.faults)
  else if off = 0x33C then (s.updRip (fun r => { r with corrected := 0 }), r.corrected)
  else if 0x340 ≤ off ∧ off < 0x380 ∧ off % 4 = 0 then (s, r.fencedWord ((off - 0x340) / 4))
  else (s, 0)

/-- A write to the ripcord registers at an offset of the keel and envelope window. -/
def State.ripWrite (s : State) (off v : Nat) : State :=
  if off = 0x300 then
    s.updRip (fun r => { r with wrIgn := r.wrIgn && !bit 12 v, evtLost := r.evtLost && !bit 3 v,
                                fenceNew := r.fenceNew && !bit 1 v, fault := r.fault && !bit 0 v })
  else if off = 0x308 then s.updRip (fun r => r.codeClr v)
  else if off = 0x310 then s.updRip (fun r => { r with autoDie := bit 8 v, evtGon := v % 16 })
  else if off = 0x314 then
    s.updRip (fun r => { r with gonMs := Nat.max 1 (fld 23 16 v), waitMs := Nat.max 1 (fld 15 8 v),
                                stallMs := Nat.max 1 (fld 7 0 v) })
  else if off = 0x318 then s.fenceReq v
  else if off = 0x31C then s.dieReq v
  else if off = 0x320 then s.pkgReq v
  else if off = 0x324 then s.updRip (fun r => r.setBase false v)
  else if off = 0x328 then s.updRip (fun r => r.setBase true v)
  else if off = 0x330 then s.updRip (fun r => { r with tail := v % 4096 })
  else if 0x380 ≤ off ∧ off < 0x3C0 ∧ off % 4 = 0 then s.pet ((off - 0x380) / 4)
  else s

end Sys2Proof.Machine
end

