-- ==== Sys2Proof/Machine/Link.lean ====
section
/-! DEFINITION. The stack link (R303 to R306): the layout and CRC of its frames, its transmitters, and what an accepted frame
does. -/

namespace Sys2Proof.Machine

open Sys2Proof

/-! ### Layout (R303, R304) -/

/-- The SRC code of a source. DESIGN CHOICE, log entry 49. -/
def srcCode : ReqSrc → Nat
  | .core l => l % 0x200
  | .tether p => 0x200 + p % 16
  | .host => 0x210
  | .gondola n => 0x220 + n % 16
  | .ballast n => 0x230 + n % 16
  | .scrub => 0x240

/-- The source of a SRC code. -/
def srcOf (n : Nat) : ReqSrc :=
  if n < 0x200 then .core n
  else if n < 0x210 then .tether (n % 16)
  else if n < 0x220 then .host
  else if n < 0x230 then .gondola (n % 16)
  else if n < 0x240 then .ballast (n % 16)
  else .scrub

/-- The 16 bytes of a header. -/
def linkHeader (seq : Nat) (f : LinkFrame) : List Byte :=
  leBytes 1 seq ++ leBytes 1 f.kind ++ leBytes 2 f.flags ++ leBytes 4 (f.block % 2 ^ 28) ++ leBytes 2 f.src ++ leBytes 2 f.tag
    ++ leBytes 2 f.gen ++ leBytes 2 (f.ctx % 4096)

/-- Bytes 0 to 271 of a frame. -/
def linkBody (seq : Nat) (f : LinkFrame) : List Byte :=
  linkHeader seq f ++ f.payload.take 256 ++ List.replicate (256 - f.payload.length) 0

/-- The 276 bytes of a frame: its CRC-32C stands at 272 to 275 (R304). -/
def linkBytes (seq : Nat) (f : LinkFrame) : List Byte :=
  let b := linkBody seq f
  b ++ leBytes 4 (crc32c b)

/-- Whether a received frame's CRC checks. -/
def linkCrcOk (b : List Byte) : Bool := leAt b 272 4 == crc32c (b.take 272)

/-- The fields of a received header. -/
def linkFields (b : List Byte) : LinkFrame :=
  { kind := leAt b 1 1, flags := leAt b 2 2, block := leAt b 4 4 % 2 ^ 28, src := leAt b 8 2, tag := leAt b 10 2,
    gen := leAt b 12 2, ctx := leAt b 14 2 % 4096, payload := slice b 16 256 }

/-- Bytes with errors put into some of them: (byte, value). -/
def upsetBytes (b : List Byte) : List (Nat × Nat) → List Byte
  | [] => b
  | (i, v) :: t => upsetBytes (b.set i (b.getD i 0 ^^^ BitVec.ofNat 8 v)) t

/-! ### What an accepted frame does (R303) -/

/-- The request that a header names: a guarded read carries its guard in the low bits of its tag.
DESIGN CHOICE, log entry 49. -/
def linkRequest (f : LinkFrame) (cores : Nat → Nat) : StackReq :=
  { src := srcOf f.src, tag := f.tag, write := f.kind == 2, block := f.block, ctx := f.ctx, gen := f.gen,
    poison := bit 15 f.flags, data := if f.kind = 2 then f.payload else [],
    guard := if bit 14 f.flags && f.kind != 2 then some (cores f.src, f.tag % 32) else none }

/-- The requests of a request group: an entry of KIND 0x02 announces a write, one of KIND 0x03 asks for read data.
DESIGN CHOICE, log entry 49. -/
def groupReqs (f : LinkFrame) (cores : Nat → Nat) : List StackReq :=
  ((List.range 16).map (fun i => linkFields (slice f.payload (16 * i) 16))).filterMap (fun g =>
    if g.kind = 2 ∨ g.kind = 3 then some (linkRequest { g with payload := [] } cores) else none)

/-- The physical core of a logical number; 400, which no core has, where none is bound. -/
def State.physOr (s : State) (l : Nat) : Nat := (s.phys l).getD 400

/-- An accepted frame takes effect (R303): a request group's reads reach the sorter, its writes once their data has come; read
data leaves for its source. -/
def State.linkTake (s : State) (st : Nat) (toStack : Bool) (f : LinkFrame) : State :=
  if toStack then
    if f.kind = 1 then
      let l := groupReqs f s.physOr
      let s := s.updStk st (fun t => { t with awaitData := t.awaitData ++ l.filter (·.write) })
      (s.wakeStk st).arriveAll st (l.filter (fun q => !q.write))
    else if f.kind = 2 then
      let q := linkRequest f s.physOr
      let same (r : StackReq) : Bool := r.src == q.src && r.tag == q.tag && r.block == q.block
      match (s.stk st).awaitData.find? same with
      | none => s
      | some r => ((s.updStk st (fun t => { t with awaitData := t.awaitData.erase r })).wakeStk st).arriveAll st
          [{ r with data := q.data, poison := q.poison }]
    else s
  else if f.kind = 3 then
    let mine : StackResp → Bool
      | .data src tag _ _ => src == srcOf f.src && tag == f.tag
      | _ => false
    s.updStk st (fun t => { t with responses := match t.responses.find? mine with
      | some r => t.responses.erase r
      | none => t.responses })
  else s

/-! ### Sending and receiving (R305) -/

/-- One direction of a stack's link. -/
def Stack.lane (t : Stack) (toStack : Bool) : LinkEnd := if toStack then t.toStack else t.toDie
/-- One direction replaced. -/
def Stack.setLane (t : Stack) (toStack : Bool) (e : LinkEnd) : Stack :=
  if toStack then { t with toStack := e } else { t with toDie := e }

/-- The transmitter sends a new frame, and keeps it. -/
def LinkEnd.send (e : LinkEnd) (f : LinkFrame) : LinkEnd :=
  if 64 ≤ e.held.length then e
  else { e with held := e.held ++ [(e.nextSeq, f)], wire := e.wire ++ [e.nextSeq], nextSeq := (e.nextSeq + 1) % 256 }

/-- The frames that the transmitter sends again: those it keeps from SEQ n on, or all when it keeps none of that SEQ. -/
def LinkEnd.from' (e : LinkEnd) (n : Nat) : List Nat := (e.held.map (·.1)).dropWhile (fun x => x ≠ n)

/-- The transmitter sends frames again from SEQ n on, in order. -/
def Stack.resendFrom (t : Stack) (toStack : Bool) (n : Nat) : Stack :=
  let e := t.lane toStack
  let l := e.from' n
  ({ t with resends := cnt t.resends l.length } : Stack).setLane toStack { e with wire := e.wire ++ l }

/-- The receiver acknowledges every frame it has accepted, and the transmitter keeps them no longer. -/
def LinkEnd.ack (e : LinkEnd) : LinkEnd :=
  { e with held := e.held.dropWhile (fun p => p.1 ≠ e.expect), owed := 0 }

/-- The acknowledgement that is due 200 ns after a frame's acceptance. -/
def LinkEnd.tick (e : LinkEnd) (now : Nat) : LinkEnd := if 0 < e.owed ∧ e.owedAt + 10 ≤ now then e.ack else e

/-- A link retrains: the frames on their way are lost, and kept ones go again when it ends. -/
def LinkEnd.cut (e : LinkEnd) : LinkEnd := { e with wire := [], fails := 0, naked := false }

/-- After a retrain the kept frames are sent in their original order. -/
def Stack.restart (t : Stack) : Stack :=
  let go (t : Stack) (b : Bool) : Stack :=
    match (t.lane b).ack.held with
    | [] => t.setLane b (t.lane b).ack
    | p :: _ => (t.setLane b (t.lane b).ack).resendFrom b p.1
  go (go t true) false

/-- A frame's bytes come in at the receiver: it is accepted, or discarded with a NAK for the frame that is expected. -/
def State.linkReceive (s : State) (st : Nat) (toStack : Bool) (seq : Nat) (b : List Byte) : State :=
  let t := s.stk st
  let e := t.lane toStack
  if leAt b 0 1 = e.expect ∧ linkCrcOk b then
    let e := { e with expect := (e.expect + 1) % 256, fails := 0, naked := false, owed := e.owed + 1,
                      owedAt := if e.owed = 0 then s.env.ticks else e.owedAt }
    (s.setStk st (t.setLane toStack (if 8 ≤ e.owed then e.ack else e))).linkTake st toStack (linkFields b)
  else if seq = e.expect then
    if 8 ≤ e.fails + 1 then s.setStk st { t with state := .retraining, toStack := t.toStack.cut, toDie := t.toDie.cut }
    else s.setStk st ((t.setLane toStack { e with fails := e.fails + 1, naked := true }).resendFrom toStack e.expect)
  else if e.naked then s
  else s.setStk st ((t.setLane toStack { e with naked := true }).resendFrom toStack e.expect)

end Sys2Proof.Machine
end

