-- ==== Sys2Proof/Machine/Stk.lean ====
section
/-! DEFINITION. The commands of a stack: its sorter (R312 to R317, R320 to R322, R325), its link (R303 to R306), scrub, refresh
and self-refresh (R311, R327, R328). -/

namespace Sys2Proof.Machine

open Sys2Proof

/-- STACK_REQUEST (R312, R313, R325): a request reaches the sorter of stack st, or waits in its source (R314). -/
def execStackRequest (st : Nat) (q : StackReq) (s : State) : Host.Outcome State Fault Refusal :=
  .next (if 16 ≤ st || !((s.stk st).powered) || decide (stackBlocks ≤ q.block) then s else s.submitAll st [q])

/-- STACK_REQUEST_SERVICE (R315): the sorter of stack st serves a request of a bank. `ups` are upsets that have struck codewords
of the stack: (codeword, symbol, value). -/
def execStackRequestService (st bank : Nat) (ups : List (Nat × Nat × Nat)) (s : State) : Host.Outcome State Fault Refusal :=
  .next (
    let t := s.stk st
    if 16 ≤ st || t.state != .ready then s
    else
      match t.pick bank s.env.ticks with
      | none => s
      | some (q, urg) =>
        let n := (t.bankSlots bank).length
        let t := (if urg then { t with urgent := cnt t.urgent 1 } else t).useRow bank (blkRow q.req.block)
        (((s.setStk st (t.strike ups)).serve st q).openBank st bank n).pump st)

/-- BANK_OPEN (R313): notice k of stack st reaches its source. -/
def execBankOpen (st k : Nat) (s : State) : Host.Outcome State Fault Refusal :=
  .next (
    match (s.stk st).bankOpens[k]? with
    | none => s
    | some (bank, src) =>
      let s := s.updStk st (fun t => { t with bankOpens := t.bankOpens.eraseIdx k })
      (s.resendAll st ((s.stk st).heldReqs.filter (fun q => q.src == src && blkBank q.block == bank))).pump st)

/-- STACK_WRITE_ACK (R317): response k of stack st, an acknowledgement, reaches its source, once the stale notices of its
write have been accepted. -/
def execStackWriteAck (st k : Nat) (s : State) : Host.Outcome State Fault Refusal :=
  .next (
    match (s.stk st).responses[k]? with
    | some (.ack _ _ notes) =>
      if notes.any (fun n => s.stale.contains n) then s
      else s.updStk st (fun t => { t with responses := t.responses.eraseIdx k })
    | _ => s)

/-! ### The link (R305, R306) -/

/-- Whether the link of a stack carries frames. -/
def Stack.linkUp (t : Stack) : Bool := t.state == .ready || t.state == .selfRefresh

/-- STACK_LINK_FRAME (R303 to R306): the transmitter of one direction of a link sends a new frame, when `send` is 1, and the
oldest frame on its way comes in at the receiver, with some of its bytes upset. DESIGN CHOICE, log entry 49. -/
def execStackLinkFrame (st : Nat) (toStack send : Bool) (f : LinkFrame) (ups : List (Nat × Nat)) (s : State) :
    Host.Outcome State Fault Refusal :=
  .next (
    let t := s.stk st
    if 16 ≤ st || !t.linkUp then s
    else
      let e := if send then (t.lane toStack).send f else t.lane toStack
      match e.wire with
      | [] => s
      | seq :: w =>
        let s := s.setStk st (t.setLane toStack { e with wire := w })
        match e.held.find? (fun p => p.1 == seq) with
        | some p => s.linkReceive st toStack seq (upsetBytes (linkBytes seq p.2) ups)
        | none => s.linkReceive st toStack seq (upsetBytes (linkBytes seq { kind := 4 }) ups))

/-- STACK_LINK_RESEND_TIMEOUT (R305): the oldest frame has waited 2 µs unacknowledged, and goes again with all after it. What the
receiver has accepted it has acknowledged by then. -/
def execStackLinkResendTimeout (st : Nat) (toStack : Bool) (s : State) : Host.Outcome State Fault Refusal :=
  .next (
    let t := s.stk st
    if 16 ≤ st || !t.linkUp then s
    else
      let e := (t.lane toStack).ack
      let t := t.setLane toStack e
      match e.held with
      | [] => s.setStk st t
      | p :: _ => s.setStk st (t.resendFrom toStack p.1))

/-- STACK_LINK_RETRAIN_DONE (R306): a retrain ends. -/
def execStackLinkRetrainDone (st : Nat) (ok : Bool) (s : State) : Host.Outcome State Fault Refusal :=
  .next (
    let t := s.stk st
    if 16 ≤ st || t.state != .retraining then s
    else
      let t := { t with retrains := cnt t.retrains 1, retrained := true }
      if ok then
        let times := t.retrainTimes.filter (fun x => decide (s.env.ticks < x + 50000000)) ++ [s.env.ticks]
        let s := s.setStk st ({ t with state := .ready, retrainFails := 0, retrainTimes := times } : Stack).restart
        if 8 ≤ times.length then s.stackFault st else s.pump st
      else
        let s := s.setStk st { t with retrainFails := t.retrainFails + 1 }
        if 3 ≤ t.retrainFails + 1 then s.stackFault st else s)

/-- Codewords in a stack. -/
def stackCws : Nat := 805306368

/-! ### Scrub, refresh and self-refresh (R311, R327, R328) -/

/-- SCRUB_READ (R311, R315): the patrol scrub reads its next codeword, when the bank of its block has no other request. `ups` are
upsets that have struck codewords of the stack. -/
def execScrubRead (st : Nat) (ups : List (Nat × Nat × Nat)) (s : State) : Host.Outcome State Fault Refusal :=
  .next (
    let t := s.stk st
    let cw := t.scrubPos
    if 16 ≤ st || t.scrubPeriod == 0 || !t.linkUp || !((t.bankSlots (blkBank (cw / 4))).isEmpty) then s
    else (s.setStk st { t.strike ups with scrubPos := (cw + 1) % stackCws }).scrubCw st cw)

/-- REFRESH (R327): a row group of a bank is refreshed, and its open row closes. -/
def execRefresh (st bank : Nat) (s : State) : Host.Outcome State Fault Refusal :=
  .next (
    let t := s.stk st
    if 16 ≤ st || 512 ≤ bank || !(t.powered) then s
    else s.setStk st { t with openRow := sset 0 t.openRow bank 0, hits := sset 0 t.hits bank 0,
                              refreshes := sset 0 t.refreshes bank (cnt (sget 0 t.refreshes bank) 1) })

/-- SELF_REFRESH_ENTRY (R328): no request has come for 100 µs. -/
def execSelfRefreshEntry (st : Nat) (s : State) : Host.Outcome State Fault Refusal :=
  .next (
    let t := s.stk st
    if decide (st < 16) && t.srEn && t.state == .ready && t.slots.isEmpty && t.meshQ.isEmpty then
      s.setStk st { t with state := .selfRefresh }
    else s)

end Sys2Proof.Machine
end

