-- ==== Sys2Proof/Machine/Quant.lean ====
section
/-! DEFINITION. The quantiser (R54 to R66). -/

namespace Sys2Proof.Machine

/-- The limits P and N of a format (R55). -/
def qLimits (f : Nat) (sym : Bool) : Nat × Nat :=
  match f with
  | 0 => (6, 6)
  | 1 => (7, if sym then 7 else 8)
  | 2 => (1, if sym then 1 else 2)
  | _ => (127, if sym then 127 else 128)

/-- One step of the generator (R59). -/
def srStep (s : Nat) : Nat := if s % 2 = 1 then (s / 2) ^^^ 0x80200003 else s / 2

/-- Whether m × 2^k ≤ lim × 2^e. -/
def leScaled (m : Nat) (k : Int) (lim : Nat) (e : Int) : Bool :=
  let q := min k e
  decide ((m : Int) * (2 : Int) ^ (k - q).toNat ≤ (lim : Int) * (2 : Int) ^ (e - q).toNat)

/-- The least e with |u| ≤ lim × 2^e, for a nonzero u (R56); an infinity needs more than any block exponent. -/
def smallestE (p n : Nat) (u : Nat) : Int :=
  match fdec pF u with
  | .fin neg m k =>
    let lim := if neg then n else p
    let e := k + (m.log2 : Int) - (lim.log2 : Int)
    if leScaled m k lim e then e else e + 1
  | _ => 1000

/-- Whether u exceeds a bound on its side: P × 2^c or N × 2^c (R56). -/
def beyond (p n c u : Nat) : Bool :=
  fvLt (.fin false (if bit 31 u then n else p) c) (fdec pF (fabs pF u))

/-- The images of FP4's grid, in order (R38, R58). -/
def fp4Grid : List Int := [-12, -8, -6, -4, -3, -2, -1, 0, 1, 2, 3, 4, 6, 8, 12]

/-- Two grid values around v / 2^s in units of an image: the largest not above it, and the least above it. -/
def gridAround (f : Nat) (v : Int) (s : Nat) : Int × Int :=
  let d := (2 : Int) ^ s
  if f = 0 then
    let lo := (fp4Grid.filter (fun g => decide (g * d ≤ v))).getLastD (-12)
    let hi := (fp4Grid.filter (fun g => decide (v < g * d))).headD 12
    (lo, hi)
  else (v / d, v / d + 1)

/-- The image nearest to v / 2^s, ties to even: for FP4 to the code with mantissa bit 0 (R49). -/
def gridNearest (f : Nat) (v : Int) (s : Nat) : Int :=
  if f = 0 then
    let d : Nat := 2 ^ s
    let mags : List Nat := [0, 1, 2, 3, 4, 6, 8, 12]
    let dist (k : Nat) : Int := ((v.natAbs : Int) - ((mags.getD k 0 * d : Nat) : Int)).natAbs
    let best := [1, 2, 3, 4, 5, 6, 7].foldl (fun b k =>
      if dist k < dist b ∨ (dist k = dist b ∧ k % 2 = 0) then k else b) 0
    let g : Int := (mags.getD best 0 : Nat)
    if v < 0 then -g else g
  else rneShift v s

/-- The image that y takes: to nearest even, or with draw r (R56, R58). `p` is the limit P in units of an image. -/
def toGrid (f : Nat) (p : Int) (r : Option Nat) (y : Nat) : Int :=
  match fdec pF y with
  | .fin neg m e =>
    let k : Int := e + (fp4n f : Int)
    let s := (-k).toNat
    let v : Int := sm neg m * (2 : Int) ^ k.toNat
    match r with
    | none => gridNearest f v s
    | some r =>
      if v = p * (2 : Int) ^ s then p
      else
        let g := gridAround f v s
        let fr := (v - g.1 * (2 : Int) ^ s) * 65536 / ((g.2 - g.1) * (2 : Int) ^ s)
        if (r : Int) < fr then g.2 else g.1
  | _ => 0

/-- The code of an image: an image of 0 has the code 0 (R39, R56). -/
def codeOf (f : Nat) (g : Int) : Nat :=
  match f with
  | 0 => (([0, 1, 2, 3, 4, 6, 8, 12] : List Nat).findIdx (fun m => m == g.natAbs)) + (if g < 0 then 8 else 0)
  | 1 => wrap 4 g
  | 2 => wrap 2 g
  | _ => wrap 8 g

/-- What quantising did: codes in order, a scale and an outlier word for each block, counts, whether OUTLIER_OVF was set
and whether a block was non-finite, and the generator. -/
structure QRes where
  codes : List Nat := []
  scale : Nat := 0
  ow : Nat := 0
  sat : Nat := 0
  flush : Nat := 0
  ovf : Bool := false
  nonfinite : Bool := false
  sr : Option Nat := none
deriving DecidableEq, Repr

/-- The settings of a quantise operation. -/
structure QSet where
  fmt : Nat
  sym : Bool
  outl : Bool
  cap : Nat
  st : Nat

/-- The candidate of largest magnitude, the lowest position on a tie (R63): its position and magnitude. -/
def bigCand (q : QSet) (p n : Nat) : Nat → Option (Nat × Nat) → List Nat → Option (Nat × Nat)
  | _, b, [] => b
  | i, b, u :: t =>
    let c := q.outl && beyond p n q.cap u
    let b := if !c then b else
      match b with
      | none => some (i, fabs pF u)
      | some x => if x.2 < fabs pF u then some (i, fabs pF u) else some x
    bigCand q p n (i + 1) b t

/-- BF16 of a value, an infinity replaced by the largest finite one, and whether it was (R56). -/
def bf16Sat (u : Nat) : Nat × Bool :=
  let b := toB u
  if isInf pB b then (0x7F7F + flag 15 (bit 31 u), true) else (b, false)

/-- u × 2^(−b) as FP32. -/
def scaleDown (u : Nat) (b : Int) : Nat :=
  match fdec pF u with
  | .fin neg m e => fenc pF neg m (e - b)
  | _ => u

/-- The elements of a block from position i on, in order (R56): `big` is the carried position. -/
def quantEls (q : QSet) (p n : Nat) (b : Int) (big : Option Nat) : Nat → QRes → List (Nat × Nat) → QRes
  | _, r, [] => r
  | i, r, (x, u) :: t =>
    let sr := r.sr.map srStep
    let r := { r with sr }
    let r :=
      if big = some i then
        let v := bf16Sat u
        { r with codes := r.codes ++ [0], ow := v.1 * 65536 + 32768 + i, sat := r.sat + b2n v.2 }
      else
        let y := scaleDown u b
        let out := beyond p n 0 y
        let y := if out then (if bit 31 y then fneg pF (fofInt pF n) else fofInt pF p) else y
        let g := toGrid q.fmt ((p : Int) * (2 : Int) ^ fp4n q.fmt) (sr.map (fun s => s / 65536)) y
        { r with codes := r.codes ++ [codeOf q.fmt g], sat := r.sat + b2n out,
                 flush := r.flush + b2n (!(isZero pF x) && g == 0) }
    quantEls q p n b big (i + 1) r t

/-- n steps of the generator. -/
def srSteps : Nat → Nat → Nat
  | 0, s => s
  | n + 1, s => srSteps n (srStep s)

/-- One block of FP32 elements (R56). -/
def quantBlock (q : QSet) (sr : Option Nat) (xs : List Nat) : QRes :=
  if xs.any (fun x => !(isFin pF x)) then
    { codes := xs.map (fun _ => 0), scale := 0xFF, nonfinite := true, sr := sr.map (srSteps xs.length) }
  else
    let l := qLimits q.fmt q.sym
    let us := xs.map (fun x => fdiv pF x q.st)
    let big := (bigCand q l.1 l.2 0 none us).map (·.1)
    let rest := us.filter (fun u => !(q.outl && beyond l.1 l.2 q.cap u) && !(isZero pF u))
    let e : Int := (rest.map (smallestE l.1 l.2)).foldl max (-128)
    let b : Int := if e ≠ -128 then e else if big.isSome then (q.cap : Int) else -127
    let b := max (-127) (min 127 b)
    let r := quantEls q l.1 l.2 b big 0 { sr } (xs.zip us)
    { r with scale := (b + 127).toNat,
             ovf := decide (1 < (us.filter (fun u => q.outl && beyond l.1 l.2 q.cap u)).length) }

/-- Codes of 32 elements packed in bytes (R68). -/
def packCodes (f : Nat) (cs : List Nat) : List Byte :=
  let w := if fFour f then 4 else if f = 2 then 2 else 8
  leBytes (blkBytes f) ((cs.take 32).foldr (fun c v => c + v * 2 ^ w) 0)

/-- A run of blocks: the bytes of codes, scales and outlier words, and what all blocks did together. -/
structure QRun where
  codes : List Byte := []
  scales : List Byte := []
  ows : List Byte := []
  res : QRes := {}

/-- Elements are quantised block by block. -/
def quantRun (q : QSet) : Nat → QRun → List Nat → QRun
  | 0, r, _ => r
  | fuel + 1, r, xs =>
    if xs.isEmpty then r
    else
      let b := quantBlock q r.res.sr (xs.take 32)
      quantRun q fuel
        { codes := r.codes ++ packCodes q.fmt b.codes, scales := r.scales ++ leBytes 1 b.scale,
          ows := r.ows ++ leBytes 4 b.ow,
          res := { sat := r.res.sat + b.sat, flush := r.res.flush + b.flush, ovf := r.res.ovf || b.ovf,
                   nonfinite := r.res.nonfinite || b.nonfinite, sr := b.sr } } (xs.drop 32)

end Sys2Proof.Machine
end

