-- ==== Sys2Proof/Machine/Vec.lean ====
section
/-! DEFINITION. What vector instructions do (R231 to R234, R238 to R262), the accesses that fail (R242, R258), the
generator (R58 to R62) and CLEAR (R263, R264). -/

namespace Sys2Proof.Machine

open Sys2Proof

/-! ### The order of the engine (R239) -/

/-- The instruction word of an accepted instruction, for its fields. -/
def VInsn.w (i : VInsn) : InsnW := { low := i.low }

/-- The store bytes of an accepted instruction: those it reads, or those it writes. -/
def VInsn.spans (i : VInsn) (write : Bool) : List (Nat × Nat) :=
  let off (r : Nat) : Nat := if r = 0 then i.dOff else if r = 1 then i.aOff else if r = 2 then i.bOff else i.kOff
  let rmw := !write && (i.op == .fma || i.op == .topk || i.op == .cmpk || vMen i.w)
  ((vOpnds i.op i.w).filter (fun o => o.write == write || (rmw && o.write))).map (fun o => (off o.role, o.size))

/-- Whether an instruction waits for the completion of an earlier one (R239). A VFLAGS waits for those of its stream, and those after
it for the VFLAGS, so that it takes no later flag (R262). -/
def VInsn.dependsOn (i p : VInsn) : Bool :=
  ((i.op == .flags || p.op == .flags) && p.x == i.x)
    || spansMeet (p.spans true) (i.spans false ++ i.spans true) || spansMeet (p.spans false) (i.spans true)
    || spansMeet (p.memSpans true) (i.memSpans false ++ i.memSpans true)
    || spansMeet (p.memSpans false) (i.memSpans true)

/-- The first instruction that has not started, and those before it. -/
def nextInsn : List VInsn → List VInsn → Option (VInsn × List VInsn)
  | _, [] => none
  | before, i :: t => if i.started then nextInsn (i :: before) t else some (i, before)

/-- One accepted instruction changed. -/
def VecSt.updInsn (v : VecSt) (id : Nat) (f : VInsn → VInsn) : VecSt :=
  { v with queue := v.queue.map (fun i => if i.id = id then f i else i) }

/-! ### Flags (R240, R242) -/

/-- Flags set for a stream. -/
def VecSt.setFlags (v : VecSt) (x : Stream) (f : Nat) : VecSt :=
  match x with
  | .a => { v with flagsA := v.flagsA ||| f }
  | .b => { v with flagsB := v.flagsB ||| f }

/-- The flags of a stream. -/
def VecSt.flagsOf (v : VecSt) : Stream → Nat
  | .a => v.flagsA
  | .b => v.flagsB

/-- Flags of a stream cleared. -/
def VecSt.clearFlags (v : VecSt) (x : Stream) (f : Nat) : VecSt :=
  match x with
  | .a => { v with flagsA := v.flagsA ^^^ (v.flagsA &&& f) }
  | .b => { v with flagsB := v.flagsB ^^^ (v.flagsB &&& f) }

/-- A part of an accepted instruction has failed: XFAULT and its event, once for the instruction (R242). -/
def State.vecXfault (s : State) (c id : Nat) (x : Stream) : State :=
  if (s.core c).vec.queue.any (fun i => i.id == id && i.xfault) then s
  else (s.updVec c (fun v => (v.updInsn id (fun i => { i with xfault := true })).setFlags x fgXfault)).event 0x05
    (s.logNum c) (sNum x * 0x10000)

/-! ### Reads and writes of device memory (R242, R258) -/

/-- A byte read: its value, whether it is poisoned, and whether its read failed. -/
abbrev VByte := Byte × Bool × Bool

/-- The pieces of a run on this device are read. -/
def State.gatherPieces (s : State) (fails : List Nat) : List (Nat × Nat) → State × List VByte
  | [] => (s, [])
  | (a, n) :: t =>
    match (if fails.any (fun b => meets256 b a n) then none else s.readPiece a n) with
    | some (s', bs) => let r := s'.gatherPieces fails t; (r.1, bs.map (fun b => (b.1, b.2, false)) ++ r.2)
    | none => let r := s.gatherPieces fails t; (r.1, List.replicate n (0xFF, true, true) ++ r.2)

/-- The bytes that remote requests brought for a run, in order. -/
def farRun (l : List Req) (r : VRun) : List VByte :=
  (l.filter (fun q => decide (r.pos ≤ q.pos) && decide (q.pos < r.pos + r.len))).flatMap (fun q =>
    if q.fault ≠ 0 then List.replicate q.len (0xFF, true, true)
    else (q.data.zip q.poison).map (fun b => (b.1, b.2, false)))

/-- Every run of an instruction is read; a remote run that was not asked for has failed. -/
def State.gather (s : State) (fails : List Nat) (rq : List Req) : List VRun → State × List VByte
  | [] => (s, [])
  | r :: t =>
    let g := if aDev r.base = s.teth.self then s.gatherPieces fails (blkCuts r.addr r.len)
      else
        let b := farRun rq r
        (s, b ++ List.replicate (r.len - b.length) (0xFF, true, true))
    let q := g.1.gather fails rq t
    (q.1, g.2 ++ q.2)

/-- Read requests leave for the remote runs of an instruction (R407): their tags. -/
def State.askRuns (s : State) (who : ReqWho) (ctx : Nat) : List VRun → State × List Nat
  | [] => (s, [])
  | r :: t =>
    if aDev r.base = s.teth.self then s.askRuns who ctx t
    else
      let q := s.addReqs who false ctx (blkChunks (r.len / 256 + 2) r.addr r.len r.pos)
      let u := (q.1.sendReadReqs ctx (aDev r.base) (groups 16 (q.2.length + 1) q.2)).askRuns who ctx t
      (u.1, q.2.map (·.1) ++ u.2)

/-- The runs of an instruction are written: the tags of remote requests, and whether a part was discarded. A remote part within a
context that has closed or begun to since is discarded (R242, R423). -/
def State.putRuns (s : State) (i : VInsn) (c : Nat) (bs : List Byte) : List VRun → State × List Nat × Bool
  | [] => (s, [], false)
  | r :: t =>
    let d := slice bs r.pos r.len
    if aDev r.base = s.teth.self then
      let p := s.putPieces i.fails (blkCuts r.addr r.len) (d.map (fun b => (b, false)))
      let q := p.1.putRuns i c bs t
      (q.1, q.2.1, p.2 || q.2.2)
    else
      let p := if s.ctxLive i.ctx i.gen then s.remoteWrite (.vec c i.x i.id) i.ctx r.addr (d.map (fun b => (b, false)))
        else (s, [])
      let q := p.1.putRuns i c bs t
      (q.1, p.2 ++ q.2.1, q.2.2 || !(s.ctxLive i.ctx i.gen))

/-! ### Sources -/

/-- Which elements are active (R232). -/
def VInsn.act (i : VInsn) (m : Memory) : List Bool :=
  let n := vN i.w
  if vMen i.w then
    let k := mread m i.kOff (cdiv n 8)
    (List.range n).map (fun j => bit (j % 8) (k.getD (j / 8) 0).toNat)
  else List.replicate n true

/-- N elements of w bytes at a place of the stores. -/
def vElems (m : Memory) (off w n : Nat) : List Nat := unpack w n (mread m off (n * w))

/-- The second source: an operand, or the low bits of sB for every element (R235). -/
def VInsn.second (i : VInsn) (m : Memory) : List Nat :=
  let es := esize (vT i.w)
  if i.op.unary then List.replicate (vN i.w) 0
  else if vBc i.w then List.replicate (vN i.w) (i.sb.toNat % 2 ^ (8 * es))
  else vElems m i.bOff es (vN i.w)

/-- Elementwise results: an inactive element keeps what it held. -/
def elemwise (f : Nat → Nat → Nat → EF) : List Bool → List Nat → List Nat → List Nat → List Nat × Nat
  | a :: as, x :: xs, y :: ys, d :: ds =>
    let r := elemwise f as xs ys ds
    if a then
      let v := f x y d
      (v.1 :: r.1, v.2 ||| r.2)
    else (d :: r.1, r.2)
  | _, _, _, _ => ([], 0)

/-- New elements where active, old ones elsewhere. -/
def mergeEls : List Bool → List Nat → List Nat → List Nat
  | a :: as, x :: xs, d :: ds => (if a then x else d) :: mergeEls as xs ds
  | _, _, _ => []

/-- Bits packed into the bytes that hold them, from old bytes, where active (R256). -/
def mergeBits (act res : List Bool) (old : List Byte) : List Byte :=
  (indexed 0 old).map (fun b => (List.range 8).foldl (fun (v : Byte) j =>
    let k := 8 * b.1 + j
    if act.getD k false then
      (if res.getD k false then v ||| BitVec.ofNat 8 (2 ^ j) else v &&& BitVec.ofNat 8 (255 - 2 ^ j))
    else v) b.2)

/-! ### Results -/

/-- What an instruction gives: bytes for its destination, flags, a scalar, and the outlier words it ignores. -/
structure VRes where
  bytes : List Byte := []
  flags : Nat := 0
  scalar : Option W64 := none
  ign : Nat := 0

/-- The reduction of a VRED or VTRED. -/
def VOp.redOp : VOp → RedOp
  | .redProd => .prod
  | .redMax => .max
  | .redMin => .min
  | .redCount => .count
  | .redMean => .mean
  | .redSumsq => .sumsq
  | .tredSumsq => .sumsq
  | .tredMax => .max
  | .tredMin => .min
  | _ => .sum

/-- Offers of active elements to a record, from position `pos` on (R255). -/
def offerAll (small : Bool) (k : Nat) : Nat → TopRec → List (Option Nat) → TopRec
  | _, r, [] => r
  | pos, r, none :: t => offerAll small k (pos + 1) r t
  | pos, r, some v :: t => offerAll small k (pos + 1) (r.offer small k v pos) t

/-- VTOPK (R255). -/
def vTopk (i : VInsn) (m : Memory) : VRes :=
  let k := vB i.w + 1
  let small := bit 1 (vT i.w)
  let bf := bit 0 (vT i.w)
  let old := topRead k (mread m i.dOff (8 * k))
  let r0 := topNew small k
  let r0 := if bit 2 (vT i.w) then
      let r := old.ents.foldl (fun r e => r.offer small k e.v e.pos) r0
      { r with nan := r.nan || old.nan }
    else r0
  let xs := masked (i.act m) (vElems m i.aOff (if bf then 2 else 4) (vN i.w))
  let r := offerAll small k (i.sv.toNat % 2 ^ 24) { r0 with nan := false } (xs.map (fun x => x.map (eF32 (if bf then 1 else 0))))
  { bytes := ({ r with nan := r.nan || r0.nan } : TopRec).bytes, flags := if r.nan then fgNan else 0 }

/-- VSPL (R173, R178, R261): element i of N. -/
def Core.splVal (k : Core) (i : VInsn) (n : Nat) : Nat :=
  let row := i.sa.toNat % 1024 + n / 128
  let v := k.spoolAt row (n % 128)
  if v = spoolNan then qnan pF
  else scaleInt (sx 64 v) (k.arr.eRowAt row - ((vV i.w % 4 : Nat) : Int)) (i.sb.toNat % 2 ^ 32)

/-- FP32 values as elements of a floating-point type. -/
def toElems (t : Nat) (vs : List Nat) : List Nat := if t = 1 then vs.map toB else vs

/-- An instruction that reaches no device memory (R243 to R256, R260, R261). -/
def Core.vResult (k : Core) (i : VInsn) : VRes :=
  let m := k.vec.store
  let w := i.w
  let n := vN w
  let t := vT w
  let es := esize t
  let act := i.act m
  let old := vElems m i.dOff es n
  let sat := bit 0 (vV w)
  let each (f : Nat → Nat → Nat → EF) (ws : Nat) : VRes :=
    let r := elemwise f act (vElems m i.aOff ws n) (i.second m) old
    { bytes := pack es r.1, flags := r.2 }
  match i.op.grp with
  | .int => each (fun a b _ => vInt i.op t sat a b) es
  | .fp => each (fun a b d => vFp i.op t a b d) es
  | .cvt => each (fun a _ _ => vCvt (vV w / 4) t sat a) (esize (vV w / 4))
  | .tr => each (fun a b _ => vTr i.op t a b) es
  | .red =>
    let r := red i.op.redOp t sat (masked act (vElems m i.aOff es n))
    { flags := r.flags, scalar := some (BitVec.ofNat 64 r.word) }
  | .tred =>
    let r := tred i.op.redOp t sat (vElems m i.aOff 4 4096) n
    { bytes := pack 4 r.1, flags := r.2 }
  | .smax =>
    let ti := if sat then 1 else 0
    let r := smax ((masked act (vElems m i.aOff (esize ti) n)).map (fun x => x.map (eF32 ti)))
    { bytes := pack es (toElems t r.1), flags := r.2 }
  | .topk => vTopk i m
  | .cmpk =>
    let a := vElems m i.aOff es n
    let res := List.zipWith (fun a b => vCmp (vV w / 4) t a b) a (i.second m)
    { bytes := mergeBits act res (mread m i.dOff (cdiv n 8)) }
  | .mov => { bytes := pack es (mergeEls act (vElems m i.aOff es n) old) }
  | .fill => { bytes := pack es (mergeEls act (List.replicate n (i.sb.toNat % 2 ^ (8 * es))) old) }
  | .transp =>
    let a := vElems m i.aOff 4 4096
    { bytes := pack 4 ((List.range 4096).map (fun j => a.getD (j % 64 * 64 + j / 64) 0)) }
  | .spl =>
    let vs := (List.range n).map (k.splVal i)
    let e := toElems t vs
    let ovf := (act.zip e).any (fun p => p.1 && isInf (ePrec t) p.2)
    { bytes := pack es (mergeEls act e old), flags := if ovf then fgFovf else 0 }
  | .splexp => { scalar := some (w64 (k.arr.eRowAt (i.sa.toNat % 1024))) }
  | .flags => { scalar := some (BitVec.ofNat 64 (k.vec.flagsOf i.x)) }
  | _ => {}

/-- VLD (R259): bytes read, those of a failed part left as they were. -/
def vLoad (old : List Byte) (bs : List VByte) : List Byte :=
  List.zipWith (fun (o : Byte) (b : VByte) => if b.2.2 then o else b.1) old bs

/-- VDEQ (R258): the elements of the runs that were read. -/
def vDeq (i : VInsn) (m : Memory) (bs : List VByte) : VRes :=
  let w := i.w
  let n := vN w
  let t := vT w
  let d := tdesc i.desc i.fall
  let e0 := i.sb.toNat % 2 ^ 32
  let nb := cdiv n 32
  let p : List PByte := bs.map (fun b => (b.1, b.2.1))
  let codes := p.take (nb * blkBytes d.fmt)
  let rest := p.drop (nb * blkBytes d.fmt)
  let sc := if fScaled d.fmt then rest.take nb else []
  let ow := if fScaled d.fmt then rest.drop nb else []
  let be := blocksEls d codes sc ow (e0 / 32) nb
  let els := be.1.take n
  let vs := els.map (fun e => fmul pF d.scale e.u)
  let ev := toElems t vs
  let act := i.act m
  let ovf := (act.zip (els.zip ev)).any (fun p =>
    p.1 && isInf (ePrec t) p.2.2 && !(p.2.1.outl && isInf pF p.2.1.u))
  { bytes := pack (esize t) (mergeEls act ev (vElems m i.dOff (esize t) n)), flags := if ovf then fgFovf else 0,
    ign := be.2 }

/-! ### Quantise (R54 to R66, R257) -/

/-- A quantise operation begins: its blocks, its counts, and its generator. -/
def State.vQuant (s : State) (c : Nat) (i : VInsn) : State × List Byte :=
  let k := s.core c
  let w := i.w
  let d := tdesc i.desc i.fall
  let t := vT w
  let n := vN w
  let act := i.act k.vec.store
  let xs := mergeEls act ((vElems k.vec.store i.aOff (esize t) n).map (eF32 t)) (List.replicate n 0)
  let sr := bit 4 (vV w)
  let q : QSet := { fmt := d.fmt, sym := d.sym, outl := d.outl, cap := vV w % 16, st := d.tscale }
  let r := quantRun q (n / 32 + 1) { res := { sr := if sr then some k.vec.srState else none } } xs
  let s := match r.res.sr with
    | some v => s.updVec c (fun u => { u with srState := v })
    | none => s
  let s := s.countSlot c d.watch (fun h => { h with
    sat := Nat.min (h.sat + r.res.sat) u32Max, flush := Nat.min (h.flush + r.res.flush) u32Max,
    elems := Nat.min (h.elems + n) u64Max, flags := h.flags ||| b2n r.res.ovf })
  let s := if r.res.nonfinite then s.countNonfinite c d.watch else s
  let s := if r.res.ovf then s.updCore c (fun k => { k with watch := { k.watch with outlierOvf := true } }) else s
  (s, r.codes ++ r.scales ++ (if d.outl then r.ows else []))

/-! ### Start and completion -/

/-- The word whose error code a start reports: the first one read. -/
def State.vecLoc (s : State) (c : Nat) (i : VInsn) : Loc :=
  match i.op, i.runs with
  | .ld, r :: _ => s.locate r.addr
  | .deq, r :: _ => s.locate r.addr
  | _, _ => .scratch c 0

/-- The first effects of an instruction: stores leave, and remote reads are asked for. -/
def State.vecBegin (s : State) (c : Nat) (i : VInsn) : State :=
  let set (s : State) (tags : List Nat) : State :=
    s.updVec c (fun v => { v.updInsn i.id (fun j => { j with started := true, reqs := tags }) with
      busy := cnt v.busy (vOcc i.op i.w) })
  let live := if s.ctxLive i.ctx i.gen then i.runs else []
  match i.op with
  | .ld => let r := s.askRuns (.vec c i.x i.id) i.ctx live; set r.1 r.2
  | .deq => let r := s.askRuns (.vec c i.x i.id) i.ctx live; set r.1 r.2
  | .st =>
    let r := s.putRuns i c (mread (s.core c).vec.store i.dOff (vN i.w * esize (vT i.w))) i.runs
    let s := set r.1 r.2.1
    if r.2.2 then s.vecXfault c i.id i.x else s
  | .quant =>
    let q := s.vQuant c i
    let r := q.1.putRuns i c q.2 i.runs
    let s := set r.1 r.2.1
    if r.2.2 then s.vecXfault c i.id i.x else s
  | _ => set s []

/-- VEC_INSTR_START (R239): the first instruction that has not started starts, unless an earlier one that it depends on
has not completed. `e` is what the error code of the first word it reads found. DESIGN CHOICE, log entry 45. -/
def execVecInstrStart (c : Nat) (e : Ecc) (s : State) : Host.Outcome State Fault Refusal :=
  .next (s.coreAccess c (fun s =>
    let k := s.core c
    match nextInsn [] k.vec.queue with
    | none => s
    | some (i, before) =>
      if !(s.coreRuns c) || k.vec.clearing || before.any i.dependsOn then s
      else
        let ec := s.eccAt (s.vecLoc c i) e
        if !ec.2 then ec.1 else ec.1.vecBegin c i))

/-- The results of an instruction: what the engine writes, and whether a read failed. A VDEQ counts the outlier words it ignores as
saturated (R65, R208). -/
def State.vecResult (s : State) (c : Nat) (i : VInsn) : State × VRes × Bool :=
  let rq := s.reqsOf i.reqs
  let m := (s.core c).vec.store
  match i.op with
  | .ld =>
    let g := s.gather i.fails rq i.runs
    (g.1, { bytes := vLoad (mread m i.dOff (vN i.w * esize (vT i.w))) g.2 }, g.2.any (·.2.2))
  | .deq =>
    let g := s.gather i.fails rq i.runs
    let r := vDeq i m g.2
    (g.1.countSat c (tdesc i.desc i.fall).watch r.ign, r, g.2.any (·.2.2))
  | .st => (s, {}, rq.any (fun q => q.fault ≠ 0))
  | .quant => (s, {}, rq.any (fun q => q.fault ≠ 0))
  | .spl => (s.guardRead c i.aa.toNat (cdiv (vN i.w) 128 * 1024), (s.core c).vResult i, false)
  | _ => (s, (s.core c).vResult i, false)

/-- Whether a stochastic quantise operation is in flight (R62). -/
def VecSt.srBusy (v : VecSt) : Bool := v.queue.any (fun i => i.op == .quant && bit 4 (vV i.w))

/-- The engine after an instruction has left it: a write of VEC_SR_STATE that waited takes effect. -/
def VecSt.finish (v : VecSt) (id : Nat) : VecSt :=
  let v := { v with queue := v.queue.filter (fun i => i.id ≠ id) }
  match v.srWrite with
  | some n => if v.srBusy then v else { v with srState := n, srWrite := none }
  | none => v

/-- VEC_INSTR_COMPLETE (R238, R239, R542): instruction `id` of core c completes: its results are written, its flags set
and its scalar delivered. With a mismatch nothing more is written. -/
def execVecInstrComplete (c id : Nat) (mismatch : Bool) (s : State) : Host.Outcome State Fault Refusal :=
  .next (s.coreAccess c (fun s =>
    match (s.core c).vec.queue.find? (fun i => i.id == id) with
    | none => s
    | some i =>
      if !(s.coreRuns c) || !i.started || (s.reqsOf i.reqs).any (fun q => !q.done) then s
      else if mismatch then s.coreFault c 0x1003
      else
        let r := s.vecResult c i
        let s := if r.2.2 then r.1.vecXfault c id i.x else r.1
        let s := (s.dropReqs i.reqs).updVec c (fun v =>
          let v := if i.op = .flags then v.clearFlags i.x (v.flagsOf i.x) else v
          ({ v with store := mwrite v.store i.dOff r.2.1.bytes } : VecSt).setFlags i.x r.2.1.flags)
        let s := match r.2.1.scalar with
          | some v => s.updSt c i.x (fun t => t.deliver (iD i.w) id v)
          | none => s
        s.updCore c (fun k => { k with stallTicks := 0, vec := k.vec.finish id })))

/-- VEC_ACCESS_FAIL (R242, R258): a part of an accepted instruction's accesses on this device, not yet made, fails at an
address that fails. DEDUCED, log entry 46. -/
def execVecAccessFail (c id : Nat) (addr : W64) (s : State) : Host.Outcome State Fault Refusal :=
  .next (
    match (s.core c).vec.queue.find? (fun i => i.id == id) with
    | none => s
    | some i =>
      let b := addr.toNat
      let done := i.started && (i.op == .st || i.op == .quant)
      let held := ((s.core c).vec.queue.takeWhile (fun j => j.id ≠ id)).any (fun j => j.op == .flags && j.x == i.x)
      if done || held || i.fails.contains b || !(s.failsAt b) || aDev b != s.teth.self
          || !(i.runs.any (fun r => meets256 b r.addr r.len)) then s
      else (s.updVec c (fun v => v.updInsn id (fun i => { i with fails := b :: i.fails }))).vecXfault c id i.x)

/-! ### Registers (R61, R62, R263, R264) -/

/-- A write of VEC_SR_STATE. -/
def VecSt.srSet (v : VecSt) (n : Nat) : VecSt :=
  let n := if n = 0 then 1 else n
  if v.srBusy then { v with srWrite := some n } else { v with srState := n, srWrite := none }

/-- VEC_SR_STATE_WRITE (R61, R62). -/
def execVecSrStateWrite (c : Nat) (v : W32) (s : State) : Host.Outcome State Fault Refusal :=
  .next (s.coreWrite c (fun k => { k with vec := k.vec.srSet v.toNat }))

/-- Whether a stream is HALTED or in EXCEPTION. -/
def StreamSt.idle (t : StreamSt) : Bool := t.state == .halted || t.state == .exception

/-- A write of VEC_CTRL. -/
def Core.vecCtrl (k : Core) (v : Nat) : Core :=
  if !(bit 0 v) then k
  else if k.sa.idle && k.sb.idle && k.vec.queue.isEmpty then
    { k with vec := { k.vec with store := [], clearing := true, busy := cnt k.vec.busy 768 } }
  else { k with wrIgn := true }

/-- CLEAR (R264). -/
def execClear (c : Nat) (v : W32) (s : State) : Host.Outcome State Fault Refusal :=
  .next (s.coreWrite c (fun k => k.vecCtrl v.toNat))

/-- VEC_CLEAR_DONE (R264). -/
def execVecClearDone (c : Nat) (s : State) : Host.Outcome State Fault Refusal :=
  .next (if s.coreRuns c && (s.core c).vec.clearing then s.updVec c (fun v => { v with clearing := false }) else s)

end Sys2Proof.Machine
end

