-- ==== Sys2Proof/Machine/Regs.lean ====
section
/-! DEFINITION. Control space (R7, R36, R565 to R570): which accesses it serves, and what a read and a write of each
register do. -/

namespace Sys2Proof.Machine

open Sys2Proof

/-- The state a step answers. -/
def State.after (s : State) (o : Host.Outcome State Fault Refusal) : State :=
  match o with
  | .next t => t
  | _ => s

/-- A read of an RC field: its value, and the state with the field cleared. -/
abbrev Reading := State × Nat

/-! ### Core windows -/

/-- A read of the window of core c at an offset of the sequencer. -/
def State.seqRead (s : State) (c off : Nat) : Reading :=
  let k := s.core c
  let reel (r o : Nat) : Nat :=
    match o with
    | 0 => (k.reel r).ringWord
    | 4 => (k.reel r).headWord
    | 8 => (k.reel r).statWord
    | _ => 0
  match off with
  | 0x00 => (s, flag 7 k.haltBoth)
  | 0x04 => (s, k.seqStatus)
  | 0x08 => (s, k.sa.pc % 2 ^ 22)
  | 0x0C => (s, k.sb.pc % 2 ^ 22)
  | 0x10 => (s, k.sa.excWord)
  | 0x14 => (s, k.sb.excWord)
  | 0x18 => (s, k.ctxB * 0x10000 + k.ctxA)
  | 0x20 => (s, flag 8 k.arbFirst + k.wb * 16 + k.wa)
  | 0x30 => (s, k.credit)
  | 0x34 => (s, k.cap)
  | 0x38 => (s.updCore c (fun k => { k with lost := 0 }), k.lost)
  | 0x3C => (s.updCore c (fun k => { k with creditStall := 0 }), k.creditStall)
  | _ =>
    if 0x100 ≤ off ∧ off < 0x140 then (s, (sget (0 : W32) k.cost ((off - 0x100) / 4)).toNat)
    else if 0x200 ≤ off ∧ off < 0x240 then (s, reel ((off - 0x200) / 0x20) (off % 0x20))
    else (s, 0)

/-- ARR_STATUS (R156). DESIGN CHOICE, log entry 38. -/
def Core.arrStatus (k : Core) : Nat :=
  let a := k.arr
  flag 11 a.xfault + flag 10 a.spillMismatch + flag 9 a.accPaired + flag 8 a.unchecked + flag 7 a.halted + flag 6 a.chkFail
    + flag 5 a.accDiscard + flag 4 a.dirty + flag 3 a.spilling.isSome + flag 2 a.paused + flag 1 k.prepared.isSome
    + flag 0 a.streams

/-- A read of the window of core c at an offset of the array, its tail and the loft manager. -/
def State.arrRead (s : State) (c off : Nat) : Reading :=
  let k := s.core c
  let a := k.arr
  let m := k.loftM
  let upd (f : ArrSt → ArrSt) : State := s.updCore c (fun k => { k with arr := f k.arr })
  let updM (f : LoftSt → LoftSt) : State := s.updCore c (fun k => { k with loftM := f k.loftM })
  let r := k.retired.length
  match off with
  | 0x4000 => (s, k.arrStatus)
  | 0x4004 => (s, 0x219A0298 + r * 0x00100401)
  | 0x4008 => (s, r)
  | 0x400C => (s, a.tileSeq % 2 ^ 32)
  | 0x4010 => (s, a.logKind * 2 ^ 30 + a.logRow * 2 ^ 20 + a.logCol * 2 ^ 12 + a.logTile % 4096)
  | 0x4014 => (s, a.chkTimer)
  | 0x4018 => (upd (fun a => { a with forcedChecks := 0 }), a.forcedChecks)
  | 0x4020 => (s, flag 31 a.armed + a.injRow * 2 ^ 20 + a.injCol * 2 ^ 12 + a.injBit)
  | 0x4100 => (s, wrap 10 a.eRes * 0x10000 + wrap 10 a.eLast)
  | 0x4104 => (upd (fun a => { a with frameSat := 0 }), a.frameSat)
  | 0x4108 => (upd (fun a => { a with pairSat := 0 }), a.pairSat)
  | 0x410C => (upd (fun a => { a with spoolSat := 0 }), a.spoolSat)
  | 0x4110 => (s, a.peakLast * 256 + a.peak)
  | 0x4120 => (s, a.tkCfg)
  | 0x4124 => (s, a.tkBase)
  | 0x4200 => (s, m.dirBase * 64 + b2n m.en)
  | 0x4204 => (s, m.page0)
  | 0x4208 => (s, m.ovf % 2 ^ 32)
  | 0x420C => (s, m.ovf / 2 ^ 32)
  | 0x4210 => (s, m.ovfPages)
  | 0x4214 => (s, k.loftFree * 4096 + flag 1 (!m.copies.isEmpty) + flag 0 (s.loftValid c))
  | 0x4218 => (updM (fun m => { m with spills := 0 }), m.spills)
  | 0x421C => (updM (fun m => { m with recalls := 0 }), m.recalls)
  | 0x4220 => (updM (fun m => { m with drops := 0 }), m.drops)
  | _ =>
    if 0x4040 ≤ off ∧ off < 0x4060 then
      (s, match k.retired[(off - 0x4040) / 4]? with
        | some p => 2 ^ 31 + p
        | none => 0)
    else if 0x4800 ≤ off ∧ off < 0x5000 then
      let j := (off - 0x4800) / 4
      (s, wrap 10 (sget 0 a.eRow (2 * j + 1)) * 0x10000 + wrap 10 (sget 0 a.eRow (2 * j)))
    else (s, 0)

/-- A read of the window of core c at an offset of the lane, the precision watch and the vector engine. -/
def State.vecRead (s : State) (c off : Nat) : Reading :=
  let k := s.core c
  let q := k.lane
  let w := k.watch
  let v := k.vec
  let terms := k.arr.running.any (·.hasTerms)
  match off with
  | 0x5000 =>
    (s, q.queue.length * 256 + flag 3 q.chkFail + flag 2 q.outlIgn + flag 1 terms + flag 0 (!q.queue.isEmpty))
  | 0x5004 => (s.updCore c (fun k => { k with lane := { k.lane with terms := 0 } }), q.terms)
  | 0x5008 => (s.updCore c (fun k => { k with lane := { k.lane with busy := 0 } }), q.busy)
  | 0x6000 => (s, flag 4 w.valid + flag 3 w.lost + flag 2 w.nonfinite + flag 1 w.outlierOvf + flag 0 w.stepOvf)
  | 0x6004 => (s, w.held.length)
  | 0x6008 => (s, w.base % 2 ^ 32)
  | 0x600C => (s, w.base / 2 ^ 32)
  | 0x6010 => (s.updCore c (fun k => { k with watch := { k.watch with merges := 0 } }), w.merges)
  | 0x7000 => (s, flag 9 v.clearing + flag 8 (v.queue.any (·.started)) + (v.queue.filter (fun i => !i.started)).length)
  | 0x7004 => (s, v.flagsA)
  | 0x7008 => (s, v.flagsB)
  | 0x7010 => (s, v.srState)
  | 0x7014 => (s.updCore c (fun k => { k with vec := { k.vec with busy := 0 } }), v.busy)
  | _ => if 0x6100 ≤ off ∧ off < 0x6300 then (s, (w.fb >>> (8 * (off - 0x6100))) % 2 ^ 32) else (s, 0)

/-- A read of the window of core c (R568). -/
def State.coreRead (s : State) (c off : Nat) : Reading :=
  if off < 0x4000 then s.seqRead c off else if off < 0x5000 then s.arrRead c off else s.vecRead c off

/-- Bits of v are cleared in flags. -/
def clearBits (flags v : Nat) : Nat := flags - (flags &&& v)

/-- A write of v to a register of a core's window that changes only the core. -/
def Core.regWrite (ok : Nat → Bool) (k : Core) (off v : Nat) : Core :=
  let a := k.arr
  match off with
  | 0x00 => k.seqCtrl v
  | 0x04 => k.seqStatusW1c v
  | 0x08 => k.seqPc .a v
  | 0x0C => k.seqPc .b v
  | 0x18 => k.seqCtx v
  | 0x20 => k.seqArb v
  | 0x34 => k.seqCap v
  | 0x200 => k.seqRing 0 v
  | 0x220 => k.seqRing 1 v
  | 0x4000 =>
    { k with arr := { a with xfault := a.xfault && !bit 11 v, spillMismatch := a.spillMismatch && !bit 10 v,
                             chkFail := a.chkFail && !bit 6 v, accDiscard := a.accDiscard && !bit 5 v } }
  | 0x401C => k.arrCtrl v
  | 0x4020 => k.arrInject v
  | 0x4024 => k.arrArm v
  | 0x4120 => { k with arr := { a with tkCfg := v &&& 0x0FFFF803 } }
  | 0x4124 => { k with arr := { a with tkBase := v &&& 0x003FFF80 } }
  | 0x4128 => k.arrTopk v
  | 0x4200 => k.loftConfig off v
  | 0x4204 => k.loftConfig off v
  | 0x4208 => k.loftConfig off v
  | 0x420C => k.loftConfig off v
  | 0x4210 => k.loftConfig off v
  | 0x5000 => { k with lane := { k.lane with outlIgn := k.lane.outlIgn && !bit 2 v } }
  | 0x6000 =>
    { k with watch := { k.watch with lost := k.watch.lost && !bit 3 v, nonfinite := k.watch.nonfinite && !bit 2 v,
                                     outlierOvf := k.watch.outlierOvf && !bit 1 v } }
  | 0x6008 => k.watchBase ok false v
  | 0x600C => k.watchBase ok true v
  | 0x7004 => { k with vec := { k.vec with flagsA := clearBits k.vec.flagsA v } }
  | 0x7008 => { k with vec := { k.vec with flagsB := clearBits k.vec.flagsB v } }
  | 0x7010 => { k with vec := k.vec.srSet v }
  | 0x7018 => k.vecCtrl v
  | _ => if 0x100 ≤ off ∧ off < 0x140 then k.seqCost ((off - 0x100) / 4) v else k

/-- A write to the window of core c (R446, R568). -/
def State.coreRegWrite (s : State) (c off v : Nat) : State :=
  match off with
  | 0x20C => s.reelResume c 0 v
  | 0x22C => s.reelResume c 1 v
  | 0x4224 => s.loftRel c v
  | _ => s.coreWrite c (fun k => k.regWrite s.tableOk off v)

/-! ### Stack windows -/

/-- The encoding of a stack's states (R330). -/
def StackState.code : StackState → Nat
  | .off => 0
  | .training => 1
  | .ready => 2
  | .selfRefresh => 3
  | .retraining => 4
  | .fault => 5

/-- A read of the window of stack st at an offset of its ballast engine (R364 to R366). -/
def State.balRead (s : State) (st off : Nat) : Reading :=
  let b := (s.stk st).bal
  let rc (v : Nat) (f : BalSt → BalSt) : Reading := (s.updBal st f, v)
  match off with
  | 0x1000 => (s, b.statusWord)
  | 0x1008 => (s, b.logWord)
  | 0x100C => (s, b.step)
  | 0x1010 => (s, b.table % 2 ^ 32)
  | 0x1014 => (s, b.table / 2 ^ 32)
  | 0x1018 => (s, b.watch % 2 ^ 32)
  | 0x101C => (s, b.watch / 2 ^ 32)
  | 0x1020 => (s, b.mapWord)
  | 0x1028 => (s, b.snapWord)
  | 0x1040 => rc b.segments (fun b => { b with segments := 0 })
  | 0x1044 => rc b.elemsK (fun b => { b with elemsK := 0 })
  | 0x1048 => rc b.frozenSkips (fun b => { b with frozenSkips := 0 })
  | 0x104C => rc b.ovfSkips (fun b => { b with ovfSkips := 0 })
  | 0x1050 => rc b.nonfiniteN (fun b => { b with nonfiniteN := 0 })
  | 0x1054 => rc b.poisonSkips (fun b => { b with poisonSkips := 0 })
  | 0x1058 => rc b.singular (fun b => { b with singular := 0 })
  | 0x105C => rc b.dampRaises (fun b => { b with dampRaises := 0 })
  | 0x1060 => rc b.snapCopies (fun b => { b with snapCopies := 0 })
  | _ => (s, 0)

/-- A read of the window of stack st (R330, R331). -/
def State.stkRead (s : State) (st off : Nat) : Reading :=
  let t := s.stk st
  let rc (v : Nat) (f : Stack → Stack) : Reading := (s.updStk st f, v)
  match off with
  | 0x00 =>
    (s, flag 15 t.ue + flag 14 t.ce + flag 13 t.retrained + flag 12 t.hot + t.state.code)
  | 0x04 => (s, flag 1 t.ceEvent + flag 0 t.srEn)
  | 0x08 => rc (t.tempPeak * 256 + t.tempNow) (fun t => { t with tempPeak := 0 })
  | 0x10 => rc t.resends (fun t => { t with resends := 0 })
  | 0x14 => rc t.retrains (fun t => { t with retrains := 0 })
  | 0x20 => rc t.eccCe (fun t => { t with eccCe := 0 })
  | 0x24 => rc t.eccUe (fun t => { t with eccUe := 0 })
  | 0x28 => (s, t.logAddr * 64 % 2 ^ 32 + t.logKind)
  | 0x2C => (s, t.logAddr * 64 / 2 ^ 32)
  | 0x30 => (s, t.scrubPeriod)
  | 0x34 => (s, t.scrubPos)
  | 0x40 => rc (t.occPeak * 0x10000 + t.slots.length) (fun t => { t with occPeak := 0 })
  | 0x44 => rc t.bankHolds (fun t => { t with bankHolds := 0 })
  | 0x48 => rc t.urgent (fun t => { t with urgent := 0 })
  | 0x50 => (s, t.ranges.length)
  | 0x54 => rc t.watchMiss (fun t => { t with watchMiss := 0 })
  | 0x58 => rc t.staleNotices (fun t => { t with staleNotices := 0 })
  | 0x5C => rc t.genDrops (fun t => { t with genDrops := 0 })
  | _ => s.balRead st off

/-- A write to the window of stack st (R330, R331, R364, R365). -/
def State.stkWrite (s : State) (st off v : Nat) : State :=
  let w := BitVec.ofNat 32 v
  let half (x : Nat) (hi : Bool) (g : Nat) : Nat :=
    if hi then v * 2 ^ 32 + x % 2 ^ 32 else x / 2 ^ 32 * 2 ^ 32 + v / g * g
  match off with
  | 0x00 => s.updStk st (fun t => { t with ue := t.ue && !bit 15 v, ce := t.ce && !bit 14 v,
                                           retrained := t.retrained && !bit 13 v })
  | 0x04 => s.updStk st (fun t => { t with ceEvent := bit 1 v, srEn := bit 0 v })
  | 0x30 => s.updStk st (fun t => { t with scrubPeriod := v % 256 })
  | 0x1000 => s.updBal st (fun b => b.statusClear v)
  | 0x1004 => s.after (execLoad st w s)
  | 0x100C => s.after (execBalStepWrite st w s)
  | 0x1010 => s.updBal st (fun b => { b with table := half b.table false 4096 })
  | 0x1014 => s.updBal st (fun b => { b with table := half b.table true 1 })
  | 0x1018 => s.updBal st (fun b => { b with watch := half b.watch false 1024 })
  | 0x101C => s.updBal st (fun b => { b with watch := half b.watch true 1 })
  | 0x1020 => s.after (execBalSnapMapWrite st w s)
  | 0x1024 => s.after (execArm st w s)
  | 0x1028 => s.updBal st (fun b => { b with done := b.done && !bit 2 v })
  | _ => s

/-! ### Tether window -/

/-- A read of the registers of port p (R438). -/
def State.portRead (s : State) (p off : Nat) : Reading :=
  let q := s.port p
  let rc (v : Nat) (f : Port → Port) : Reading := (s.updPort p f, v)
  match off with
  | 0x00 => (s, q.statusWord)
  | 0x04 => (s, flag 1 q.down)
  | 0x08 => (s, q.peerWord)
  | 0x10 => rc q.resends (fun q => { q with resends := 0 })
  | 0x14 => rc q.retrains (fun q => { q with retrains := 0 })
  | 0x18 => rc q.crcErr (fun q => { q with crcErr := 0 })
  | 0x1C => rc q.authFail (fun q => { q with authFail := 0 })
  | 0x20 => rc q.replay (fun q => { q with replay := 0 })
  | 0x24 => rc q.ctrlRefused (fun q => { q with ctrlRefused := 0 })
  | 0x28 => rc q.hopDrops (fun q => { q with hopDrops := 0 })
  | 0x2C => rc q.noRoute (fun q => { q with noRoute := 0 })
  | 0x30 => rc q.fwdBlocks (fun q => { q with fwdBlocks := 0 })
  | 0x34 => rc q.hsRefused (fun q => { q with hsRefused := 0 })
  | 0x38 => rc q.adds (fun q => { q with adds := 0 })
  | _ => (s, 0)

/-- A write to the registers of port p (R438). -/
def State.portWrite (s : State) (p off v : Nat) : State :=
  match off with
  | 0x00 => s.updPort p (fun q => { q with lost := q.lost && !bit 15 v, refused := q.refused && !bit 14 v,
                                           auth := q.auth && !bit 13 v })
  | 0x04 => s.tthCtrl p v
  | _ => s

/-- The parts taken of armed slot i (R439). -/
def State.partWord (s : State) (i : Nat) : Nat :=
  match s.teth.armed.find? (fun a => a.slot == i) with
  | some a => a.bucket * 0x10000 + ((List.range 16).map (fun p => flag p (a.taken.contains p))).sum
  | none => 0

/-- Contexts OPEN or DRAINING, 0xFFF among them (R440). -/
def State.ctxOpen (s : State) : Nat :=
  (s.teth.ctxs.filter (fun p => p.1 != 0xFFF && p.2.state != .closed)).length + 1

/-- A read of the tether window beyond the ports (R439 to R441), the tether state changed by f where a field clears. -/
def State.tethRead (s : State) (off : Nat) : Reading :=
  let t := s.teth
  let rc (v : Nat) (f : TetherSt → TetherSt) : Reading := ({ s with teth := f s.teth }, v)
  if 0xE0000 ≤ off ∧ off < 0xF0000 then
    let c := (off - 0xE0000) / 16
    let x := s.ctx c
    match off % 16 with
    | 0 => (s, x.drain)
    | 4 => (s, x.hi * 0x10000 + x.lo)
    | 8 => (s, x.stateWord)
    | _ => (s.updCtx c (fun x => { x with drops := 0 }), x.drops)
  else if 0xC0100 ≤ off ∧ off < 0xC0140 then (s, s.partWord ((off - 0xC0100) / 4))
  else
    match off with
    | 0xC0000 => (s, t.redBase % 2 ^ 32)
    | 0xC0004 => (s, t.redBase / 2 ^ 32)
    | 0xC000C => (s, flag 5 t.redErr + t.armed.length)
    | 0xC0010 => (s, t.redCode * 0x1000000 + t.redBucket)
    | 0xC0014 => rc t.redLate (fun t => { t with redLate := 0 })
    | 0xC0018 => rc t.redMismatch (fun t => { t with redMismatch := 0 })
    | 0xC001C => rc t.redTaken (fun t => { t with redTaken := 0 })
    | 0xD0004 => (s, flag 13 t.ctxBadState + s.ctxOpen)
    | 0xF0000 => (s, t.self)
    | 0xF0004 => (s, flag 12 t.admitNew + t.bcast)
    | 0xF0008 => (s, flag 16 t.peerWrIgn + (t.peers.filter (fun p => p.2.state == .up)).length)
    | _ => (s, 0)

/-- A write to the tether window beyond the ports (R429, R439 to R441). -/
def State.tethWrite (s : State) (off v : Nat) : State :=
  let w := BitVec.ofNat 32 v
  let upd (f : TetherSt → TetherSt) : State := { s with teth := f s.teth }
  if 0xE0000 ≤ off ∧ off < 0xF0000 then
    let c := (off - 0xE0000) / 16
    match off % 16 with
    | 0 => s.ctxCfg c v
    | 4 => s.after (execCtxRangeWrite c w s)
    | 8 => s.after (execCtxGenWrite c w s)
    | _ => s
  else
    match off with
    | 0xC0000 => upd (fun t => { t with redBase := t.redBase / 2 ^ 32 * 2 ^ 32 + v / 4096 * 4096 })
    | 0xC0004 => upd (fun t => { t with redBase := v * 2 ^ 32 + t.redBase % 2 ^ 32 })
    | 0xC0008 => s.after (execTthRedArm w s)
    | 0xC000C => if bit 5 v then upd (fun t => { t with redErr := false, redCode := 0, redBucket := 0 }) else s
    | 0xD0000 => s.ctxCmd v
    | 0xD0004 => upd (fun t => { t with ctxBadState := t.ctxBadState && !bit 13 v })
    | 0xF0004 => upd (fun t => { t with admitNew := bit 12 v, bcast := v % 4096 })
    | 0xF0008 => upd (fun t => { t with peerWrIgn := t.peerWrIgn && !bit 16 v })
    | _ => s

/-! ### Gondola window, knot table and peer directory -/

/-- KNT_OP_RES (R390). -/
def KPair.resWord (p : KPair) : Nat :=
  flag 31 p.resValid + flag 30 p.resAborted + flag 29 p.resErr + p.resValue % 2 ^ 29

/-- KNT_NOTIFY (R390). -/
def Notify.word (n : Notify) : Nat := flag 31 n.en + n.gon * 2 ^ 18 + n.knot

/-- A read of the gondola window (R390, R570). -/
def State.gonRead (s : State) (off : Nat) : Reading :=
  let n := s.knot
  let rc (v : Nat) (f : KnotSt → KnotSt) : Reading := ({ s with knot := f s.knot }, v)
  if off < 0x40 then
    let g := s.gon (off / 4)
    (s, flag 2 g.wfi + g.mode)
  else if 0x700100 ≤ off ∧ off < 0x700210 then
    let p := s.pair ((off - 0x700100) / 16)
    match off % 16 with
    | 0 => (s, p.arg)
    | 8 => (s, p.resWord)
    | _ => (s, 0)
  else if 0x700400 ≤ off ∧ off < 0x700800 then (s, (sget {} n.notify ((off - 0x700400) / 4)).word)
  else
    match off with
    | 0x40 => ({ s with gonCe := 0 }, s.gonCe)
    | 0x700000 => (s, flag 3 n.linkLost + flag 2 n.semaOvf + flag 1 n.stale + flag 0 n.wrIgn)
    | 0x700010 => rc n.aborts (fun n => { n with aborts := 0 })
    | 0x700014 => rc n.semaOvfN (fun n => { n with semaOvfN := 0 })
    | 0x700018 => rc n.staleDrops (fun n => { n with staleDrops := 0 })
    | 0x70001C => rc n.phaseDrops (fun n => { n with phaseDrops := 0 })
    | 0x700020 => rc n.bridleErr (fun n => { n with bridleErr := 0 })
    | _ => (s, 0)

/-- A write to the gondola window (R389, R390). -/
def State.gonWrite (s : State) (off v : Nat) : State :=
  if 0x700100 ≤ off ∧ off < 0x700210 then
    let g := (off - 0x700100) / 16
    match off % 16 with
    | 0 => s.updPair g (fun p => { p with arg := v })
    | 4 => s.pairOp g (KOp.ofMinor (fld 31 28 v)) (v % 2 ^ 18)
    | _ => s
  else if 0x700400 ≤ off ∧ off < 0x700800 then s.notifyWrite ((off - 0x700400) / 4) v
  else if off = 0x700000 then
    { s with knot := { s.knot with linkLost := s.knot.linkLost && !bit 3 v, semaOvf := s.knot.semaOvf && !bit 2 v,
                                   stale := s.knot.stale && !bit 1 v, wrIgn := s.knot.wrIgn && !bit 0 v } }
  else s

/-- The encoding of a directory entry's states (R412). -/
def PeerState.code : PeerState → Nat
  | .absent => 0
  | .expected => 1
  | .up => 2
  | .lost => 3
  | .refused => 4
  | .self => 5

/-- A directory entry's 32 bytes (R411). -/
def Peer.bytes (e : Peer) : List Byte :=
  leBytes 1 e.state.code ++ leBytes 1 e.flags ++ leBytes 2 e.ports ++ leBytes 2 e.nextDev ++ leBytes 2 e.appears
    ++ leBytes 4 e.seen ++ leBytes 4 0 ++ (e.fp ++ List.replicate (16 - e.fp.length) 0)

/-- Word w of directory entry d as a read returns it: a word written since the entry was last written out reads as written
(R492). DEDUCED, log entry 59. -/
def State.peerWord (s : State) (d w : Nat) : Nat :=
  if bit w (sget 0 s.teth.peerOpen d) then leAt (s.stagedPeer d) (4 * w) 4 else wordAt (s.peer d).bytes w

/-! ### Keel and envelope window, host port window -/

/-- A read of the keel and envelope window. -/
def State.keelRead (s : State) (off : Nat) : Reading :=
  if off = 0x100 then (s, s.devWord)
  else if off = 0x108 then (s, flag 31 s.keel.resDone + s.keel.resTo * 256 + s.keel.resStatus)
  else if 0x300 ≤ off ∧ off < 0x400 then s.ripRead off
  else s.envRead off

/-- A write to the keel and envelope window. -/
def State.keelWrite (s : State) (off v : Nat) : State :=
  if off = 0x104 then s.request (v % 8)
  else if 0x300 ≤ off ∧ off < 0x400 then s.ripWrite off v
  else s.updEnv (fun e => e.write off v)

/-- The encoding of the link's states (R538). -/
def LinkState.code : LinkState → Nat
  | .down => 0
  | .training => 1
  | .up => 2

/-- HST_SESS_n of session n + 1 (R538). -/
def Session.word (q : Session) : Nat :=
  if q.isOpen then 2 ^ 31 + q.cmds.length * 0x10000 + Nat.min (q.age / msTicks) 0xFFFF else 0

/-- A read of the host port window (R538). -/
def State.hostRead (s : State) (off : Nat) : Reading :=
  let h := s.host
  let rc (v : Nat) (f : HostSt → HostSt) : Reading := ({ s with host := f s.host }, v)
  match off with
  | 0x00 =>
    (s, flag 7 h.dup + flag 6 h.auth + flag 5 h.evLost + (h.sessions.filter (fun p => p.2.isOpen)).length * 4 + h.link.code)
  | 0x04 => (s, h.rto * 0x1000000 + h.idle * 0x10000 + h.txRate * 256 + flag 1 h.jumbo + flag 0 h.announce)
  | 0x08 => (s, flag 16 h.vlanEn + h.pcp * 0x2000 + flag 12 h.pfc + h.vid)
  | 0x0C => (s, leAt macBytes 0 4)
  | 0x10 => (s, leAt macBytes 4 2)
  | 0x40 => rc h.authFail (fun h => { h with authFail := 0 })
  | 0x44 => rc h.resends (fun h => { h with resends := 0 })
  | 0x48 => rc h.rlDrops (fun h => { h with rlDrops := 0 })
  | 0x4C => rc h.fcsErr (fun h => { h with fcsErr := 0 })
  | 0x50 => rc h.badDgram (fun h => { h with badDgram := 0 })
  | _ => if 0x20 ≤ off ∧ off < 0x30 then (s, (s.sess ((off - 0x20) / 4 + 1)).word) else (s, 0)

/-- A write to the host port window (R538). -/
def HostSt.write (h : HostSt) (off v : Nat) : HostSt :=
  match off with
  | 0x00 => { h with auth := h.auth && !bit 6 v, evLost := h.evLost && !bit 5 v }
  | 0x04 => { h with rto := Nat.max 1 (fld 31 24 v), idle := Nat.max 1 (fld 23 16 v), txRate := fld 15 8 v,
                     jumbo := bit 1 v, announce := bit 0 v }
  | 0x08 => { h with vlanEn := bit 16 v, pcp := fld 15 13 v, pfc := bit 12 v, vid := fld 11 0 v }
  | _ => h

/-! ### Control space (R36, R565 to R567) -/

/-- Whether control space serves an access at an offset (R565 to R567): aligned, in a window, in a state that reaches it,
and not of a block on a die that is out. -/
def State.ctrlOk (s : State) (off : Nat) : Bool :=
  off % 4 == 0 &&
  (if off < 0x400000 then s.ctrlUp
   else if off < 0x4C0000 then s.portWin ((off - 0x400000) / 0x10000)
   else if off < 0x500000 then s.diesUp
   else if off < 0x800000 then false
   else if off < 0x1000000 then
     s.diesUp && !(decide (off < 0x800040) && s.dieOut ((off - 0x800000) / 16))
       && !(decide (0xF00100 ≤ off) && decide (off < 0xF00200) && s.dieOut ((off - 0xF00100) / 64))
   else if off < 0x1400000 then s.knotWin ((off - 0x1000000) / 16)
   else if off < 0x1600000 then s.diesUp
   else if off < 0x2000000 then false
   else if off < 0x3000000 then s.stkWin ((off - 0x2000000) / 0x100000)
   else if off < 0x10000000 then false
   else s.coreWinR ((off - 0x10000000) / 0x100000))

/-- A read that control space serves: the value, and the state with RC fields cleared. -/
def State.ctrlRead (s : State) (off : Nat) : Reading :=
  if off < 0x100000 then s.keelRead off
  else if off < 0x200000 then s.ancRead (off - 0x100000)
  else if off < 0x300000 then s.rigRead (off - 0x200000)
  else if off < 0x400000 then s.hostRead (off - 0x300000)
  else if off < 0x4C0000 then s.portRead ((off - 0x400000) / 0x10000) (off % 0x10000)
  else if off < 0x500000 then s.tethRead (off - 0x400000)
  else if off < 0x1000000 then s.gonRead (off - 0x800000)
  else if off < 0x1400000 then (s, (s.kn ((off - 0x1000000) / 16)).word (off / 4 % 4))
  else if off < 0x1600000 then (s, s.peerWord ((off - 0x1400000) / 32) (off / 4 % 8))
  else if off < 0x3000000 then s.stkRead ((off - 0x2000000) / 0x100000) (off % 0x100000)
  else s.coreRead ((off - 0x10000000) / 0x100000) (off % 0x100000)

/-- A write that control space serves. -/
def State.ctrlWrite (s : State) (w : Who) (off v : Nat) : State :=
  if off < 0x100000 then s.keelWrite off v
  else if off < 0x200000 then s.ancWrite (off - 0x100000) v
  else if off < 0x300000 then s.rigWrite w (off - 0x200000) v
  else if off < 0x400000 then { s with host := s.host.write (off - 0x300000) v }
  else if off < 0x4C0000 then s.portWrite ((off - 0x400000) / 0x10000) (off % 0x10000) v
  else if off < 0x500000 then s.tethWrite (off - 0x400000) v
  else if off < 0x1000000 then s.gonWrite (off - 0x800000) v
  else if off < 0x1400000 then
    let k := (off - 0x1000000) / 16
    if off / 4 % 4 = 3 then s.replaceKnot w k v else s.updPair (Who.idx w) (fun p => p.stage (off / 4 % 4) v)
  else if off < 0x1600000 then
    let d := (off - 0x1400000) / 32
    if d = 0xFFFF then s else if off / 4 % 8 = 7 then s.peerReplace d v else s.peerStageWrite d (off / 4 % 8) v
  else if off < 0x3000000 then s.stkWrite ((off - 0x2000000) / 0x100000) (off % 0x100000) v
  else s.coreRegWrite ((off - 0x10000000) / 0x100000) (off % 0x100000) v

/-- RC_REGISTER_READ (R7): a read of a register; an RC field clears. -/
def execRcRegisterRead (w : Who) (off : Nat) (s : State) : Host.Outcome State Fault Refusal :=
  .next (
    if s.whoOk w && s.ctrlOk off then
      let r := s.ctrlRead off
      { r.1 with lastRead := r.2 }
    else s)

/-- REGISTER_WRITE (R7). -/
def execRegisterWrite (w : Who) (off : Nat) (v : W32) (s : State) : Host.Outcome State Fault Refusal :=
  .next (if s.whoOk w && s.ctrlOk off then s.access (.gondola 0) none (fun s => s.ctrlWrite w off v.toNat) else s)

end Sys2Proof.Machine
end

