-- ==== Sys2Proof/Machine/Host.lean ====
section
/-! DEFINITION. The commands of the host port (R518 to R537): discovery, sessions, their datagrams and their commands. -/

namespace Sys2Proof.Machine

open Sys2Proof

/-- The host port changed. -/
def State.updHost (s : State) (f : HostSt → HostSt) : State := { s with host := f s.host }

/-- Whether the port receives (R517). -/
def State.hostUp (s : State) : Bool :=
  match s.host.link with
  | .up => true
  | _ => false

/-- Whether the port takes a frame with this tag, or with none (R517, R518). -/
def State.hears (s : State) (vid : Option Nat) : Bool := s.hostUp && (!s.host.vlanEn || vid == some s.host.vid)

/-- A datagram is discarded and counted (R523). -/
def State.badDgram (s : State) : State := s.updHost (fun h => { h with badDgram := cnt h.badDgram 1 })

/-- A datagram fails authentication (R524). -/
def State.authFail (s : State) : State := s.updHost (fun h => { h with authFail := cnt h.authFail 1, auth := true })

/-! ### Without a session (R526, R527, R529, R530) -/

/-- A datagram without a session is taken, unless 64 have been in its millisecond (R530). -/
def State.rateOk (s : State) : State × Bool :=
  let ms := s.env.ticks / msTicks
  let n := if s.host.rlMs = ms then s.host.rlCount else 0
  if 64 ≤ n then (s.updHost (fun h => { h with rlDrops := cnt h.rlDrops 1 }), false)
  else (s.updHost (fun h => { h with rlMs := ms, rlCount := n + 1 }), true)

/-- Whether a slot is free (R527). -/
def Session.free (q : Session) : Bool := !q.isOpen && !q.opening

/-- The free session slots, in order. -/
def State.freeSlots (s : State) : List Nat := [1, 2, 3, 4].filter (fun n => (s.sess n).free)

/-- Bytes 0 to 191 of an ANNOUNCE (R529). -/
def State.announceBody (s : State) (nonce : List Byte) : List Byte :=
  let serial := match s.keel.state with
    | .moored => 0
    | _ => s.rig.serial
  idKey ++ s.anc.ownerFp ++ leBytes 2 s.teth.self ++ leBytes 1 s.keel.state.code ++ leBytes 1 s.freeSlots.length
    ++ leBytes 8 serial ++ nonce ++ List.replicate 116 0

/-- An ANNOUNCE is sent (R529). -/
def State.announceTo (s : State) (addr port : Nat) (nonce : List Byte) : State :=
  let b := s.announceBody nonce
  s.emitDg addr port 2 0 (b ++ edSign idSeed b)

/-- DISCOVER (R529, R530). -/
def execDiscover (addr : Framed) (port : Nat) (nonce : List Byte) (s : State) : Host.Outcome State Fault Refusal :=
  .next (
    if !(s.hears addr.vid) then s
    else if nonce.length ≠ 16 then s.badDgram
    else
      let r := s.rateOk
      if r.2 then r.1.announceTo addr.n port nonce else r.1)

/-- ANNOUNCE_TIMER (R529): to ff02::5648. -/
def execAnnounceTimer (s : State) : Host.Outcome State Fault Refusal :=
  .next (
    if s.hostUp && s.host.announce then s.announceTo 0xFF020000000000000000000000005648 4800 (List.replicate 16 0) else s)

/-- ATTEST (R530): FROM is `start`. -/
def execAttest (addr : Framed) (port : Nat) (nonce : List Byte) (start : Nat) (s : State) : Host.Outcome State Fault Refusal :=
  .next (
    if !(s.hears addr.vid) then s
    else if nonce.length ≠ 32 ∨ 65536 ≤ start then s.badDgram
    else
      let r := s.rateOk
      if !r.2 then r.1
      else r.1.ancSubmit (if start = 0xFFFF then .attest addr.n port nonce [] else .log addr.n port start))

/-! Fields of the body of HELLO, HELLO_REPLY and CONFIRM (R526). -/

/-- IDKEY. -/
def hbKey (b : List Byte) : List Byte := slice b 0 32
/-- EPHKEY. -/
def hbEph (b : List Byte) : Nat := ofLe (slice b 32 32)
/-- NONCE. -/
def hbNonce (b : List Byte) : List Byte := slice b 64 16
/-- PNONCE. -/
def hbPnonce (b : List Byte) : List Byte := slice b 80 16

/-- Whether a body has its size and its 15 bytes of 0. -/
def hbForm (b : List Byte) : Bool := b.length == 176 && zeros b 97 15

/-- Whether the signature of a body of a type verifies. -/
def hbSigned (type : Nat) (b : List Byte) : Bool := edVerify (hbKey b) (leBytes 1 type ++ b.take 112) (slice b 112 64)

/-- The device's body of a type. -/
def hbMake (type eph : Nat) (nonce pnonce : List Byte) : List Byte :=
  let b := idKey ++ leBytes 32 (x25519 eph 9) ++ nonce ++ pnonce ++ List.replicate 16 0
  b ++ edSign idSeed (leBytes 1 type ++ b)

/-- A HELLO is refused (R527). -/
def State.helloRefuse (s : State) (addr port : Nat) : State :=
  s.emitDg addr port 0x11 0 (List.replicate 176 0)

/-- A HELLO from an admitted key takes slot n (R502, R526, R527). -/
def State.helloTake (s : State) (addr port n eph : Nat) (nonce body : List Byte) : State :=
  let s := match s.anc.owner with
    | some _ => s
    | none => s.bindOwner (hbKey body)
  let reply := hbMake 0x11 eph nonce (hbNonce body)
  (s.updSess n (fun q => { opening := true, addr, port, hostKey := hbKey body, hello := body, reply, eph,
                           nextId := q.nextId })).emitDg addr port 0x11 n reply

/-- HOST_HELLO (R526, R527). -/
def execHostHello (addr : Framed) (port : Nat) (body : List Byte) (s : State) : Host.Outcome State Fault Refusal :=
  .next (
    if !(s.hears addr.vid) then s
    else if !(hbForm body) || !(zeros body 80 16) then s.badDgram
    else
      let r := s.rateOk
      let s := r.1
      if !r.2 then s
      else if !(hbSigned 0x10 body) || !(s.anc.signerOk (hbKey body)) then s.helloRefuse addr.n port
      else
        match s.freeSlots with
        | [] => s.helloRefuse addr.n port
        | n :: _ =>
          let e := s.draw 32
          let f := e.1.draw 16
          let eph := ofLe e.2
          if x25519 eph (hbEph body) = 0 then f.1.helloRefuse addr.n port
          else f.1.helloTake addr.n port n eph f.2 body)

/-- Whether a CONFIRM answers the HELLO_REPLY of its slot (R526). -/
def Session.confirmOk (q : Session) (b : List Byte) : Bool :=
  hbForm b && b.take 80 == q.hello.take 80 && hbPnonce b == hbNonce q.reply && hbSigned 0x12 b

/-- A session opens (R511, R526). -/
def State.openSession (s : State) (n : Nat) (b : List Byte) : State :=
  s.updSess n (fun q =>
    let z := x25519 q.eph (hbEph b)
    let salt := hbNonce b ++ hbNonce q.reply
    { isOpen := true, addr := q.addr, port := q.port, hostKey := q.hostKey, nextId := q.nextId,
      txKey := trafficKey z salt [0x48, 0x53, 0x54, 0x44] s.teth.self 0xFFFF,
      rxKey := trafficKey z salt [0x48, 0x53, 0x54, 0x48] 0xFFFF s.teth.self,
      events := bit 0 (leAt b 96 1) })

/-- HOST_CONFIRM (R526). -/
def execHostConfirm (sess : Framed) (body : List Byte) (s : State) : Host.Outcome State Fault Refusal :=
  .next (
    if !(s.hears sess.vid) then s
    else if [1, 2, 3, 4].contains sess.n && (s.sess sess.n).opening && (s.sess sess.n).confirmOk body then
      s.openSession sess.n body
    else s.badDgram)

/-- HOST_CONFIRM_TIMEOUT (R527). -/
def execHostConfirmTimeout (sess : Nat) (s : State) : Host.Outcome State Fault Refusal :=
  .next (if (s.sess sess).opening then s.endSession sess else s)

/-! ### Datagrams of a session (R524, R525, R528) -/

/-- The datagrams of session n that the host has not acknowledged are sent again (R525). -/
def State.resendDgrams (s : State) (n : Nat) : State :=
  let q := s.sess n
  let s := s.updHost (fun h => { h with resends := cnt h.resends q.unacked.length })
  let s := s.updSess n (fun q => { q with unacked := q.unacked.map (fun d => { d with at' := s.env.ticks }) })
  q.unacked.foldl (fun s d => s.emitTx (.dgram q.addr q.port d.bytes)) s

/-- The ACK of an accepted datagram (R525): what it acknowledges is dropped, what waits for room leaves, and the third of
the same value below the own SEQ makes the device send again. -/
def State.takeAck (s : State) (n ack : Nat) : State :=
  let q := s.sess n
  if q.nextSeq < ack then s
  else
    let run := if ack = q.nextSeq then 0 else if ack = q.lastAck then q.dupAcks + 1 else 1
    let s := s.updSess n (fun q => { q with unacked := q.unacked.filter (fun d => decide (ack ≤ d.seq)), lastAck := ack,
                                            dupAcks := if run = 3 then 0 else run })
    let s := if run = 3 then s.resendDgrams n else s
    s.sendRest n (s.sess n).outq

/-- The largest number of data bytes in a DATA datagram (R533). -/
def HostSt.dataMax (h : HostSt) : Nat := if h.jumbo then 8192 else 1024

/-- Whether the header of a session datagram of a type keeps R522 and its body has the size of its type (R523).
DEDUCED, log entry 90. -/
def HostSt.dgForm (h : HostSt) (type : Nat) (d : Dgram) : Bool :=
  [1, 2, 3, 4].contains d.sess && decide (d.body.length ≤ h.dataMax + 16) && (match type with
    | 0x20 => decide (d.queue < 8) && d.body.length == 32
    | 0x22 => d.queue == 0 && decide (16 ≤ d.body.length)
    | _ => d.queue == 0 && d.body.isEmpty)

/-- The body of a received datagram of a type in the clear, when its session is open and its tag verifies (R524). -/
def State.openDg (s : State) (type : Nat) (d : Dgram) : Option (List Byte) :=
  let q := s.sess d.sess
  if q.isOpen then dgOpen q.rxKey type d else none

/-- A session datagram of a type reaches the port (R522, R524, R525): `body` acts on its body in the clear when it is accepted.
DEDUCED, log entry 90. -/
def State.rxDgram (s : State) (type : Nat) (d : Dgram) (body : State → List Byte → State) : State :=
  let n := d.sess
  if !(s.hears d.vid) then s
  else if !(s.host.dgForm type d) then s.badDgram
  else
    match s.openDg type d with
    | none => s.authFail
    | some pt =>
      if d.seq < (s.sess n).expect then s.updSess n (fun q => { q with owed := true })
      else if (s.sess n).expect < d.seq then s
      else body ((s.updSess n (fun q => { q with expect := q.expect + 1, age := 0, owed := true })).takeAck n d.ack) pt

/-! ### Commands (R531 to R536) -/

/-- Whether WRITE and READ may name an address and a length (R532). -/
def State.hostSpan (s : State) (a n : Nat) : Bool :=
  aDev a == s.teth.self && decide (aSpace a < 3) && a % 4 == 0 && n % 4 == 0 && decide (4 ≤ n) && decide (n ≤ 2 ^ 40)
    && decide (aOff a + n ≤ 2 ^ 44)

/-- The body of a DATA datagram (R533). -/
def dataBytes (tag off : Nat) (bs : List Byte) : List Byte := leBytes 4 tag ++ leBytes 4 0 ++ leBytes 8 off ++ bs

/-- READ sends its data, in `fuel` datagrams, up to the first that a refused part falls in, and completes (R533). -/
def State.readOut (s : State) (n : Nat) (c : CmdSt) (step : Nat) (poison : Bool) : Nat → Nat → State
  | 0, _ => s.cmdEnd n c.id (if poison then 5 else 0)
  | fuel + 1, off =>
    if c.cmd.val ≤ off then s.cmdEnd n c.id (if poison then 5 else 0)
    else
      let r := s.readMem (c.cmd.addr + off) (Nat.min step (c.cmd.val - off))
      if r.2.2 then r.1.cmdEnd n c.id 1
      else
        let bs := r.2.1
        (r.1.sendSess n 0x22 (dataBytes c.cmd.tag off (bs.map (·.1)))).readOut n c step (poison || bs.any (·.2)) fuel
          (off + step)

/-- A command of a session changes. -/
def State.updCmd (s : State) (n id : Nat) (f : CmdSt → CmdSt) : State :=
  s.updSess n (fun q => { q with cmds := q.cmds.map (fun c => if c.id = id then f c else c) })

/-- Data of a started WRITE goes to memory (R533). -/
def State.putData (s : State) (n : Nat) (c : CmdSt) : List (Nat × List Byte) → State
  | [] => s
  | (off, bs) :: t =>
    let r := s.writeBytes {} (c.cmd.addr + off) bs
    (if r.2 then r.1 else r.1.updCmd n c.id (fun c => { c with bad := true })).putData n c t

/-- A WRITE whose data has all come completes (R533, R534). DEDUCED, log entry 89. -/
def State.writeDone (s : State) (n id : Nat) : State :=
  match (s.sess n).cmds.find? (fun c => c.id == id) with
  | some c => if c.spans = [(0, c.cmd.val)] then s.cmdEnd n id (if c.bad then 1 else 0) else s
  | none => s

/-- A span joins the spans that have come. -/
def addSpan (lo hi : Nat) : List (Nat × Nat) → List (Nat × Nat)
  | [] => [(lo, hi)]
  | (a, b) :: t =>
    if hi < a then (lo, hi) :: (a, b) :: t
    else if b < lo then (a, b) :: addSpan lo hi t
    else addSpan (Nat.min lo a) (Nat.max hi b) t

/-- RD32 (R531, R532). -/
def State.startRd32 (s : State) (n : Nat) (c : CmdSt) : State :=
  let off := aOff c.cmd.addr
  if s.ctrlOk off then
    let r := s.ctrlRead off
    r.1.cmdDone n c.id 0 r.2
  else s.cmdEnd n c.id 1

/-- WR32 (R531, R532): a write of HST_CTRL or HST_VLAN takes effect after its response (R535). -/
def State.startWr32 (s : State) (n : Nat) (c : CmdSt) : State :=
  let off := aOff c.cmd.addr
  let v := fld 31 0 c.cmd.val
  if !(s.ctrlOk off) then s.cmdEnd n c.id 1
  else if off = 0x300004 ∨ off = 0x300008 then (s.cmdEnd n c.id 0).ctrlWrite .owner off v
  else (s.ctrlWrite .owner off v).cmdEnd n c.id 0

/-- WRITE (R532, R533). -/
def State.startWrite (s : State) (n : Nat) (c : CmdSt) : State :=
  if s.hostSpan c.cmd.addr c.cmd.val then
    ((s.updCmd n c.id (fun c => { c with early := [] })).putData n c c.early).writeDone n c.id
  else s.cmdEnd n c.id 1

/-- READ (R532, R533). -/
def State.startRead (s : State) (n : Nat) (c : CmdSt) : State :=
  let step := s.host.dataMax
  if s.hostSpan c.cmd.addr c.cmd.val then s.readOut n c step false (c.cmd.val / step + 2) 0 else s.cmdEnd n c.id 1

/-- KNOT (R531, R534): an operation that R378 refuses is not performed. -/
def State.startKnot (s : State) (n : Nat) (c : CmdSt) : State :=
  let knot := fld 17 0 c.cmd.arg
  let arg := fld 31 0 c.cmd.val
  if !(s.knotWin knot) then s.cmdEnd n c.id 1
  else
    match KOp.ofMinor (fld 31 28 c.cmd.arg) with
    | none => s.cmdEnd n c.id 3
    | some op =>
      match s.knotCheck op knot none with
      | some _ => s.cmdEnd n c.id 3
      | none => s.sendKnot { who := .host n c.id, op, knot, arg, err := s.arriveErr op knot arg, node := 94, agent := 2 }

/-- STATE (R29, R531): the response is sent before the transition begins. -/
def State.startState (s : State) (n : Nat) (c : CmdSt) : State :=
  let q := fld 2 0 c.cmd.val
  (s.cmdEnd n c.id (s.toStatus q)).request q

/-- A command starts (R531, R536). -/
def State.startCmd (s : State) (n : Nat) (c : CmdSt) : State :=
  let s := s.updCmd n c.id (fun c => { c with started := true })
  if c.cmd.rsv then s.cmdEnd n c.id 3
  else
    match c.cmd.op with
    | 1 => s.startRd32 n c
    | 2 => s.startWr32 n c
    | 3 => s.startWrite n c
    | 4 => s.startRead n c
    | 5 => s.startKnot n c
    | 6 => s.startState n c
    | _ => s.cmdEnd n c.id 3

/-- Whether a command performs a knot operation: KNOT, or a WR32 of a KNT_OP (R389, R531). -/
def isKnotCmd (c : HostCmd) : Bool :=
  let off := aOff c.addr
  c.op == 5 || (c.op == 2 && decide (0xF00104 ≤ off) && decide (off ≤ 0xF00204) && off % 16 == 4)

/-- Whether a command may start: it has not, and those it must follow have completed (R389, R534). -/
def Session.canStart (q : Session) (c : CmdSt) : Bool :=
  !c.started && (q.cmds.takeWhile (fun d => d.id ≠ c.id)).all (fun d => !(isKnotCmd c.cmd) && d.queue ≠ c.queue)

/-- Command id of session n starts if it may. -/
def State.tryStart (s : State) (n id : Nat) : State :=
  match (s.sess n).cmds.find? (fun c => c.id == id) with
  | some c => if (s.sess n).canStart c then s.startCmd n c else s
  | none => s

/-- A CMD datagram is accepted (R534, R535). DEDUCED, log entry 88. -/
def State.takeCmd (s : State) (n queue : Nat) (k : HostCmd) : State :=
  let q := s.sess n
  if 64 ≤ q.cmds.length then s.sendSess n 0x21 (respBytes k.op 4 k.tag (Config.freeResp k.op k.tag).toNat)
  else
    (s.updSess n (fun q => { q with nextId := q.nextId + 1, cmds := q.cmds ++ [{ id := q.nextId, queue, cmd := k }] })).tryStart
      n q.nextId

/-- The command record that 32 bytes hold (R531). -/
def hostCmdOf (b : List Byte) : HostCmd :=
  { op := leAt b 0 1, flags := leAt b 1 1, tag := leAt b 4 4, addr := leAt b 8 8, val := leAt b 16 8, arg := leAt b 24 8,
    rsv := !(zeros b 2 2) }

/-- A CMD datagram of the OPs that `is` names; one of another OP has a command of its own. -/
def State.rxCmd (s : State) (is : Nat → Bool) (d : Dgram) : State :=
  if (s.openDg 0x20 d).all (fun b => is (hostCmdOf b).op) then
    s.access .host none (fun s => s.rxDgram 0x20 d (fun s b => s.takeCmd d.sess d.queue (hostCmdOf b)))
  else s

/-- RD32 (R531), and the OPs that R531 does not name (R536). -/
def execRd32 (h : DgramHead) (b : Sealed) (s : State) : Host.Outcome State Fault Refusal :=
  .next (s.rxCmd (fun o => !([2, 3, 4, 5, 6].contains o)) ⟨h, b⟩)
/-- WR32 (R531). -/
def execWr32 (h : DgramHead) (b : Sealed) (s : State) : Host.Outcome State Fault Refusal := .next (s.rxCmd (· == 2) ⟨h, b⟩)
/-- WRITE (R533). -/
def execWrite (h : DgramHead) (b : Sealed) (s : State) : Host.Outcome State Fault Refusal := .next (s.rxCmd (· == 3) ⟨h, b⟩)
/-- READ (R533). -/
def execRead (h : DgramHead) (b : Sealed) (s : State) : Host.Outcome State Fault Refusal := .next (s.rxCmd (· == 4) ⟨h, b⟩)
/-- KNOT (R534). -/
def execKnot (h : DgramHead) (b : Sealed) (s : State) : Host.Outcome State Fault Refusal := .next (s.rxCmd (· == 5) ⟨h, b⟩)
/-- STATE (R531). -/
def execState (h : DgramHead) (b : Sealed) (s : State) : Host.Outcome State Fault Refusal := .next (s.rxCmd (· == 6) ⟨h, b⟩)

/-- HOST_CMD_START (R534). -/
def execHostCmdStart (sess id : Nat) (s : State) : Host.Outcome State Fault Refusal :=
  .next (s.access .host none (fun s => s.tryStart sess id))

/-- Data for a WRITE (R533). -/
def State.takeData (s : State) (n : Nat) (c : CmdSt) (off : Nat) (bs : List Byte) : State :=
  if c.cmd.val < off + bs.length then s.cmdEnd n c.id 3
  else
    let s := s.updCmd n c.id (fun c => { c with spans := if bs.isEmpty then c.spans else addSpan off (off + bs.length) c.spans })
    if c.started then (s.putData n c [(off, bs)]).writeDone n c.id
    else s.updCmd n c.id (fun c => { c with early := c.early ++ [(off, bs)] })

/-- HOST_DATA (R533): a datagram whose body is an encrypted header and data. -/
def execHostData (h : DgramHead) (head data tag : List Byte) (s : State) : Host.Outcome State Fault Refusal :=
  .next (s.access .host none (fun s => s.rxDgram 0x22 ⟨h, ⟨head ++ data, tag⟩⟩ (fun s b =>
    match (s.sess h.sess).cmds.find? (fun c => c.cmd.op == 3 && c.cmd.tag == leAt b 0 4) with
    | some c => s.takeData h.sess c (leAt b 8 8) (b.drop 16)
    | none => s.badDgram)))

/-- ACKONLY (R525). -/
def execAckonly (d : Dgram) (s : State) : Host.Outcome State Fault Refusal := .next (s.rxDgram 0x23 d (fun s _ => s))

/-- HOST_CLOSE (R528). -/
def execHostClose (d : Dgram) (s : State) : Host.Outcome State Fault Refusal :=
  .next (s.rxDgram 0x25 d (fun s _ => s.endSession d.sess))

/-- HOST_ACK_TIMER (R525). -/
def execHostAckTimer (sess : Nat) (s : State) : Host.Outcome State Fault Refusal :=
  .next (if (s.sess sess).isOpen && (s.sess sess).owed then s.sendSess sess 0x23 [] else s)

/-- HOST_RESEND_TIMEOUT (R525): the oldest unacknowledged datagram has waited RTO × 10 µs. -/
def execHostResendTimeout (sess : Nat) (s : State) : Host.Outcome State Fault Refusal :=
  .next (
    match (s.sess sess).unacked with
    | [] => s
    | d :: _ => if d.at' + s.host.rto * 500 ≤ s.env.ticks then s.resendDgrams sess else s)

/-- HOST_SESSION_IDLE (R528). DEDUCED, log entry 93. -/
def execHostSessionIdle (sess : Nat) (s : State) : Host.Outcome State Fault Refusal :=
  .next (
    if (s.sess sess).isOpen && decide (s.host.idle * 1000 * msTicks ≤ (s.sess sess).age) then s.endSession sess else s)

/-! ### ICMPv6 and flow control (R518, R520, R523) -/

/-- Whether duplicate address detection runs (R520). -/
def State.inDad (s : State) : Bool := decide (s.env.ticks < s.host.dadEnd)

/-- The address is in use elsewhere (R520). -/
def State.dupFound (s : State) : State := s.updHost (fun h => { h with dup := true })

/-- NEIGHBOUR_SOLICITATION (R520): `dad` says that it is one of duplicate address detection. -/
def execNeighbourSolicitation (src : Framed) (target : Nat) (dad : Bool) (s : State) : Host.Outcome State Fault Refusal :=
  .next (
    if !(s.hears src.vid) || target != ownIpNat then s
    else if s.inDad then (if dad then s.dupFound else s)
    else s.emitTx (.packet (if dad then advertisement allNodes false else advertisement (beBytes 16 src.n) true)))

/-- NEIGHBOUR_ADVERTISEMENT (R520). -/
def execNeighbourAdvertisement (target : Framed) (s : State) : Host.Outcome State Fault Refusal :=
  .next (if s.hears target.vid && target.n == ownIpNat && s.inDad then s.dupFound else s)

/-- ECHO_REQUEST (R520): `data` is what follows the checksum. -/
def execEchoRequest (src : Framed) (data : List Byte) (s : State) : Host.Outcome State Fault Refusal :=
  .next (if s.hears src.vid then s.emitTx (.packet (echoReply src.n data)) else s)

/-- PAUSE (R518): quanta of 512 bit times at 1.6 Tb/s, in keel ticks of 20 ns. DEDUCED, log entry 92. -/
def execPause (quanta : Nat) (priority : Option Nat) (s : State) : Host.Outcome State Fault Refusal :=
  .next (
    let obey : Bool := match priority with
      | none => true
      | some p => s.host.pfc && p == s.host.pcp
    if s.hostUp && obey then
      let s := s.updHost (fun h => { h with paused := s.env.ticks + (quanta * 2 + 124) / 125 })
      if quanta = 0 then s.unpause else s
    else s)

/-- BAD_DATAGRAM (R518, R520, R521, R523). -/
def execBadDatagram (why : BadFrame) (s : State) : Host.Outcome State Fault Refusal :=
  .next (
    if !s.hostUp then s
    else
      match why with
      | .fcs => s.updHost (fun h => { h with fcsErr := cnt h.fcsErr 1 })
      | .foreign => s
      | .malformed => s.badDgram)

end Sys2Proof.Machine
end

