-- ==== Sys2Proof/Machine/Rail.lean ====
section
/-! DEFINITION. The rail-control interface (R575, R579, R583 to R586): the frames of the board. -/

namespace Sys2Proof.Machine

open Sys2Proof

/-- The board's frame number seq is acknowledged with a status (R585). DEDUCED, log entry 75. -/
def State.ackBoard (s : State) (seq status : Nat) : State := s.sendRc 0x81 status seq

/-- A frame of the board that is acknowledged (R585): one whose SEQ is that of the last frame accepted is acknowledged
again and not acted on. -/
def State.board (s : State) (seq status : Nat) (body : State → State) : State :=
  let q := seq % 256
  match s.keel.state with
  | .off => s
  | _ =>
    if s.env.boardSeq = some q then s.ackBoard q s.env.boardStatus
    else body (({ s with env := { s.env with boardSeq := some q, boardStatus := status } } : State).ackBoard q status)

/-- RAILS_GOOD (R579): with all eight bits set, the device in KEEL begins to rise, unless a test of R498 has stopped it
(R499). -/
def execRailsGood (seq : Nat) (v : W16) (_data : W32) (s : State) : Host.Outcome State Fault Refusal :=
  .next (s.board seq 0 (fun s =>
    if v.toNat % 256 = 255 ∧ s.keel.state = .keel ∧ s.keel.target = .keel ∧ !s.keel.stopped then
      ({ s with keel := { s.keel with booting := true } } : State).setDev .keel .moored
    else s))

/-- BUDGET (R451, R467, R584). -/
def execBudget (seq : Nat) (v : W16) (data : W32) (s : State) : Host.Outcome State Fault Refusal :=
  .next (s.board seq 0 (fun s => s.updEnv (fun e => { e with budgetRail := v.toNat, budgetMs := data.toNat })))

/-- ENERGY (R585, R586): never acknowledged. -/
def execEnergy (_seq : Nat) (_v : W16) (data : W32) (s : State) : Host.Outcome State Fault Refusal :=
  .next (match s.keel.state with
    | .off => s
    | _ => s.updEnv (fun e => { e with energyNew := some data.toNat, energyAt := e.ticks }))

/-- SET_OK (R449, R575): the rail is at the requested value, and the burners begin to step to the higher point. -/
def execSetOk (seq : Nat) (v : W16) (_data : W32) (s : State) : Host.Outcome State Fault Refusal :=
  .next (s.board seq 0 (fun s =>
    match s.env.phase with
    | .waitSet g => if v.toNat = s.env.setReq then s.setPhase (.stepping g) else s
    | _ => s))

/-- ALERT (R460, R584). -/
def execAlert (seq : Nat) (v : W16) (_data : W32) (s : State) : Host.Outcome State Fault Refusal :=
  .next (s.board seq 0 (fun s => s.updEnv (fun e => { e with alerts := v.toNat % 256 })))

/-- RESET (R584, R585): a package reset, when DATA is right. -/
def execRcReset (seq : Nat) (_v : W16) (data : W32) (s : State) : Host.Outcome State Fault Refusal :=
  .next (
    if data = 0x5A5A5A5A then s.board seq 0 (fun s => s.pkgFault (ripCode 1 4 0x0302))
    else s.board seq 2 id)

/-- STOW (R27, R28, R585). -/
def execRcStow (seq : Nat) (_v : W16) (_data : W32) (s : State) : Host.Outcome State Fault Refusal :=
  .next (
    if s.keel.state = .moored ∧ s.keel.target = .moored then s.board seq 0 State.enterKeel
    else s.board seq 1 id)

/-- The STATUS frame that is due every 1 ms (R585). -/
def execStatusTimer (s : State) : Host.Outcome State Fault Refusal :=
  .next (match s.keel.state with
    | .off => s
    | _ => s.sendStatus)

/-- A frame of unknown TYPE, or a RESET with the wrong DATA (R585). -/
def execRcBadFrame (type seq : Nat) (_v : W16) (data : W32) (s : State) : Host.Outcome State Fault Refusal :=
  .next (
    if type = 0 ∨ 7 < type ∨ (type = 6 ∧ data ≠ 0x5A5A5A5A) then s.board seq 2 id else s)

end Sys2Proof.Machine
end

