-- ==== Sys2Proof/Machine/Salu.lean ====
section
/-! DEFINITION. The SALU and SALUI instructions (R10, R78, R82). -/

namespace Sys2Proof.Machine

open Sys2Proof

/-- Operand b of a scalar instruction: sB, or the sign-extended immediate (R82). -/
def StreamSt.opB (t : StreamSt) (imm : Bool) (w : InsnW) : W64 :=
  if imm then w64 (iImm w) else t.getS (iB w)

/-- The scalar registers that operand b reads. -/
def srcB (imm : Bool) (w : InsnW) : List Nat := if imm then [] else [iB w]

/-- The zero bits of a scalar instruction in either form. -/
def fmtRI (imm : Bool) (w : InsnW) : Bool := if imm then fmtI w else fmtR w

/-- A scalar instruction that writes f sA b to sD. -/
def State.salu (s : State) (c : Nat) (x : Stream) (imm : Bool) (w : InsnW) (f : W64 → W64 → W64) : State :=
  s.issue c x w (fmtRI imm w) (iA w :: srcB imm w) (fun s =>
    let t := (s.core c).st x
    s.retS c x (iD w) (f (t.getS (iA w)) (t.opB imm w)))

/-- A division: as `State.salu`, and a divisor of 0 sets DIV0. -/
def State.saluDiv (s : State) (c : Nat) (x : Stream) (imm : Bool) (w : InsnW) (f : W64 → W64 → W64) : State :=
  s.issue c x w (fmtRI imm w) (iA w :: srcB imm w) (fun s =>
    let t := (s.core c).st x
    let b := t.opB imm w
    (s.updSt c x (fun t => t.div0If (b == 0))).retS c x (iD w) (f (t.getS (iA w)) b))

/-- A shift left by all 64 bits of b (R10). -/
def shl64 (a b : W64) : W64 := if b.toNat < 64 then a <<< b.toNat else 0
/-- A logical shift right (R10). -/
def shr64 (a b : W64) : W64 := if b.toNat < 64 then a >>> b.toNat else 0
/-- An arithmetic shift right (R10). -/
def sra64 (a b : W64) : W64 := a.sshiftRight (Nat.min b.toNat 64)
/-- The high 64 bits of the signed product. -/
def mulh64 (a b : W64) : W64 := w64 ((sgn a * sgn b) / (2 : Int) ^ 64)
/-- The high 64 bits of the unsigned product. -/
def mulhu64 (a b : W64) : W64 := BitVec.ofNat 64 (a.toNat * b.toNat / 2 ^ 64)
/-- DIV: toward 0; a divisor of 0 gives 0. -/
def div64 (a b : W64) : W64 := w64 ((sgn a).tdiv (sgn b))
/-- DIVU. -/
def divu64 (a b : W64) : W64 := BitVec.ofNat 64 (a.toNat / b.toNat)
/-- REM: a divisor of 0 gives a. -/
def rem64 (a b : W64) : W64 := if b = 0 then a else w64 ((sgn a).tmod (sgn b))
/-- REMU: a divisor of 0 gives a. -/
def remu64 (a b : W64) : W64 := BitVec.ofNat 64 (a.toNat % b.toNat)

/-- ADD (R82). -/
def execAdd (c : Nat) (x : Stream) (imm : Bool) (w : InsnW) (s : State) : Host.Outcome State Fault Refusal :=
  .next (s.salu c x imm w (fun a b => a + b))
/-- SUB (R82). -/
def execSub (c : Nat) (x : Stream) (imm : Bool) (w : InsnW) (s : State) : Host.Outcome State Fault Refusal :=
  .next (s.salu c x imm w (fun a b => a - b))
/-- AND (R82). -/
def execAnd (c : Nat) (x : Stream) (imm : Bool) (w : InsnW) (s : State) : Host.Outcome State Fault Refusal :=
  .next (s.salu c x imm w (fun a b => a &&& b))
/-- OR (R82). -/
def execOr (c : Nat) (x : Stream) (imm : Bool) (w : InsnW) (s : State) : Host.Outcome State Fault Refusal :=
  .next (s.salu c x imm w (fun a b => a ||| b))
/-- XOR (R82). -/
def execXor (c : Nat) (x : Stream) (imm : Bool) (w : InsnW) (s : State) : Host.Outcome State Fault Refusal :=
  .next (s.salu c x imm w (fun a b => a ^^^ b))
/-- SHL (R82, R10). -/
def execShl (c : Nat) (x : Stream) (imm : Bool) (w : InsnW) (s : State) : Host.Outcome State Fault Refusal :=
  .next (s.salu c x imm w shl64)
/-- SHR (R82, R10). -/
def execShr (c : Nat) (x : Stream) (imm : Bool) (w : InsnW) (s : State) : Host.Outcome State Fault Refusal :=
  .next (s.salu c x imm w shr64)
/-- SRA (R82, R10). -/
def execSra (c : Nat) (x : Stream) (imm : Bool) (w : InsnW) (s : State) : Host.Outcome State Fault Refusal :=
  .next (s.salu c x imm w sra64)
/-- MUL (R82). -/
def execMul (c : Nat) (x : Stream) (imm : Bool) (w : InsnW) (s : State) : Host.Outcome State Fault Refusal :=
  .next (s.salu c x imm w (fun a b => a * b))
/-- MULH (R82). -/
def execMulh (c : Nat) (x : Stream) (imm : Bool) (w : InsnW) (s : State) : Host.Outcome State Fault Refusal :=
  .next (s.salu c x imm w mulh64)
/-- MULHU (R82). -/
def execMulhu (c : Nat) (x : Stream) (imm : Bool) (w : InsnW) (s : State) : Host.Outcome State Fault Refusal :=
  .next (s.salu c x imm w mulhu64)
/-- DIV (R82). -/
def execDiv (c : Nat) (x : Stream) (imm : Bool) (w : InsnW) (s : State) : Host.Outcome State Fault Refusal :=
  .next (s.saluDiv c x imm w div64)
/-- DIVU (R82). -/
def execDivu (c : Nat) (x : Stream) (imm : Bool) (w : InsnW) (s : State) : Host.Outcome State Fault Refusal :=
  .next (s.saluDiv c x imm w divu64)
/-- REM (R82). -/
def execRem (c : Nat) (x : Stream) (imm : Bool) (w : InsnW) (s : State) : Host.Outcome State Fault Refusal :=
  .next (s.saluDiv c x imm w rem64)
/-- REMU (R82). -/
def execRemu (c : Nat) (x : Stream) (imm : Bool) (w : InsnW) (s : State) : Host.Outcome State Fault Refusal :=
  .next (s.saluDiv c x imm w remu64)
/-- MIN (R82). -/
def execMin (c : Nat) (x : Stream) (imm : Bool) (w : InsnW) (s : State) : Host.Outcome State Fault Refusal :=
  .next (s.salu c x imm w (fun a b => if sgn a ≤ sgn b then a else b))
/-- MAX (R82). -/
def execMax (c : Nat) (x : Stream) (imm : Bool) (w : InsnW) (s : State) : Host.Outcome State Fault Refusal :=
  .next (s.salu c x imm w (fun a b => if sgn a ≤ sgn b then b else a))
/-- MINU (R82). -/
def execMinu (c : Nat) (x : Stream) (imm : Bool) (w : InsnW) (s : State) : Host.Outcome State Fault Refusal :=
  .next (s.salu c x imm w (fun a b => if a.toNat ≤ b.toNat then a else b))
/-- MAXU (R82). -/
def execMaxu (c : Nat) (x : Stream) (imm : Bool) (w : InsnW) (s : State) : Host.Outcome State Fault Refusal :=
  .next (s.salu c x imm w (fun a b => if a.toNat ≤ b.toNat then b else a))

/-- MOV (R82): A must be 0. -/
def execMov (c : Nat) (x : Stream) (imm : Bool) (w : InsnW) (s : State) : Host.Outcome State Fault Refusal :=
  .next (s.issue c x w (fmtRI imm w && iA w == 0) (srcB imm w)
    (fun s => s.retS c x (iD w) (((s.core c).st x).opB imm w)))

/-- MOVH (R82): the immediate form alone exists, and A must equal D. -/
def execMovh (c : Nat) (x : Stream) (imm : Bool) (w : InsnW) (s : State) : Host.Outcome State Fault Refusal :=
  .next (s.issue c x w (imm && fmtI w && iA w == iD w) [iD w]
    (fun s => s.retS c x (iD w)
      (BitVec.ofNat 64 (iImmU w * 2 ^ 32 + (((s.core c).st x).getS (iD w)).toNat % 2 ^ 32))))

end Sys2Proof.Machine
end

