-- ==== Sys2Proof/Machine/Scmp.lean ====
section
/-! DEFINITION. The SCMP and ADDR instructions (R75, R83). -/

namespace Sys2Proof.Machine

open Sys2Proof

/-- A predicate field: its upper bits are 0 (R75). -/
def pfld (n : Nat) : Bool := n / 8 == 0
/-- An address register field: its bit 4 is 0 (R75). -/
def afld (n : Nat) : Bool := n / 16 == 0

/-- Predicate r takes v, and the instruction ends. -/
def State.retP (s : State) (c : Nat) (x : Stream) (r : Nat) (v : Bool) : State :=
  (s.updSt c x (fun t => t.setP r v)).retire c x
/-- Address register r takes v, and the instruction ends. -/
def State.retA (s : State) (c : Nat) (x : Stream) (r : Nat) (v : W64) : State :=
  (s.updSt c x (fun t => t.setA r v)).retire c x

/-- CMP: pD = (sA cc sB). -/
def State.cmp (s : State) (c : Nat) (x : Stream) (w : InsnW) (f : W64 → W64 → Bool) : State :=
  s.issue c x w (fmtR w && pfld (iD w)) [iA w, iB w] (fun s =>
    let t := (s.core c).st x
    s.retP c x (iD w) (f (t.getS (iA w)) (t.getS (iB w))))
/-- CMPI: pD = (sA cc sext(IMM)). -/
def State.cmpi (s : State) (c : Nat) (x : Stream) (w : InsnW) (f : W64 → W64 → Bool) : State :=
  s.issue c x w (fmtI w && pfld (iD w)) [iA w] (fun s =>
    s.retP c x (iD w) (f (((s.core c).st x).getS (iA w)) (w64 (iImm w))))
/-- Predicate logic: pD = f pA pB. -/
def State.plog (s : State) (c : Nat) (x : Stream) (w : InsnW) (f : Bool → Bool → Bool) : State :=
  s.issue c x w (fmtR w && pfld (iD w) && pfld (iA w) && pfld (iB w)) [] (fun s =>
    let t := (s.core c).st x
    s.retP c x (iD w) (f (t.getP (iA w)) (t.getP (iB w))))

/-- Equal. -/
def ccEq (a b : W64) : Bool := a == b
/-- Not equal. -/
def ccNe (a b : W64) : Bool := !(a == b)
/-- Signed less than. -/
def ccLt (a b : W64) : Bool := decide (sgn a < sgn b)
/-- Signed less or equal. -/
def ccLe (a b : W64) : Bool := decide (sgn a ≤ sgn b)
/-- Unsigned less than. -/
def ccLtu (a b : W64) : Bool := decide (a.toNat < b.toNat)
/-- Unsigned less or equal. -/
def ccLeu (a b : W64) : Bool := decide (a.toNat ≤ b.toNat)

/-- CMP.EQ (R83). -/
def execCmpEq (c : Nat) (x : Stream) (w : InsnW) (s : State) : Host.Outcome State Fault Refusal :=
  .next (s.cmp c x w ccEq)
/-- CMP.NE (R83). -/
def execCmpNe (c : Nat) (x : Stream) (w : InsnW) (s : State) : Host.Outcome State Fault Refusal :=
  .next (s.cmp c x w ccNe)
/-- CMP.LT (R83). -/
def execCmpLt (c : Nat) (x : Stream) (w : InsnW) (s : State) : Host.Outcome State Fault Refusal :=
  .next (s.cmp c x w ccLt)
/-- CMP.LE (R83). -/
def execCmpLe (c : Nat) (x : Stream) (w : InsnW) (s : State) : Host.Outcome State Fault Refusal :=
  .next (s.cmp c x w ccLe)
/-- CMP.LTU (R83). -/
def execCmpLtu (c : Nat) (x : Stream) (w : InsnW) (s : State) : Host.Outcome State Fault Refusal :=
  .next (s.cmp c x w ccLtu)
/-- CMP.LEU (R83). -/
def execCmpLeu (c : Nat) (x : Stream) (w : InsnW) (s : State) : Host.Outcome State Fault Refusal :=
  .next (s.cmp c x w ccLeu)
/-- CMPI.EQ (R83). -/
def execCmpiEq (c : Nat) (x : Stream) (w : InsnW) (s : State) : Host.Outcome State Fault Refusal :=
  .next (s.cmpi c x w ccEq)
/-- CMPI.NE (R83). -/
def execCmpiNe (c : Nat) (x : Stream) (w : InsnW) (s : State) : Host.Outcome State Fault Refusal :=
  .next (s.cmpi c x w ccNe)
/-- CMPI.LT (R83). -/
def execCmpiLt (c : Nat) (x : Stream) (w : InsnW) (s : State) : Host.Outcome State Fault Refusal :=
  .next (s.cmpi c x w ccLt)
/-- CMPI.LE (R83). -/
def execCmpiLe (c : Nat) (x : Stream) (w : InsnW) (s : State) : Host.Outcome State Fault Refusal :=
  .next (s.cmpi c x w ccLe)
/-- CMPI.LTU (R83). -/
def execCmpiLtu (c : Nat) (x : Stream) (w : InsnW) (s : State) : Host.Outcome State Fault Refusal :=
  .next (s.cmpi c x w ccLtu)
/-- CMPI.LEU (R83). -/
def execCmpiLeu (c : Nat) (x : Stream) (w : InsnW) (s : State) : Host.Outcome State Fault Refusal :=
  .next (s.cmpi c x w ccLeu)

/-- PAND (R83). -/
def execPand (c : Nat) (x : Stream) (w : InsnW) (s : State) : Host.Outcome State Fault Refusal :=
  .next (s.plog c x w (fun a b => a && b))
/-- POR (R83). -/
def execPor (c : Nat) (x : Stream) (w : InsnW) (s : State) : Host.Outcome State Fault Refusal :=
  .next (s.plog c x w (fun a b => a || b))
/-- PXOR (R83). -/
def execPxor (c : Nat) (x : Stream) (w : InsnW) (s : State) : Host.Outcome State Fault Refusal :=
  .next (s.plog c x w (fun a b => xor a b))
/-- PANDN (R83). -/
def execPandn (c : Nat) (x : Stream) (w : InsnW) (s : State) : Host.Outcome State Fault Refusal :=
  .next (s.plog c x w (fun a b => a && !b))

/-- The offset of aA moved by i into aD, with AOVF when it leaves its range (R83). -/
def State.retOff (s : State) (c : Nat) (x : Stream) (w : InsnW) (i : Int) : State :=
  let a := ((s.core c).st x).getA (iA w)
  (s.updSt c x (fun t => t.aovfIf (offOut (offSum a i)))).retA c x (iD w) (offAdd a i)

/-- ADDA (R83): sB is read as a signed number. DEDUCED, log entry 12. -/
def execAdda (c : Nat) (x : Stream) (w : InsnW) (s : State) : Host.Outcome State Fault Refusal :=
  .next (s.issue c x w (fmtR w && afld (iD w) && afld (iA w)) [iB w]
    (fun s => s.retOff c x w (sgn (((s.core c).st x).getS (iB w)))))
/-- ADDAI (R83). -/
def execAddai (c : Nat) (x : Stream) (w : InsnW) (s : State) : Host.Outcome State Fault Refusal :=
  .next (s.issue c x w (fmtI w && afld (iD w) && afld (iA w)) [] (fun s => s.retOff c x w (iImm w)))
/-- MOVA (R83). A nonzero bit below its register fields is ILLEGAL_OP: DESIGN CHOICE, log entry 106. -/
def execMova (c : Nat) (x : Stream) (w : InsnW) (s : State) : Host.Outcome State Fault Refusal :=
  .next (s.issue c x w (iw w 37 0 == 0 && afld (iD w)) [iA w]
    (fun s => s.retA c x (iD w) (((s.core c).st x).getS (iA w))))
/-- MOVS (R83). A nonzero bit below its register fields is ILLEGAL_OP: DESIGN CHOICE, log entry 106. -/
def execMovs (c : Nat) (x : Stream) (w : InsnW) (s : State) : Host.Outcome State Fault Refusal :=
  .next (s.issue c x w (iw w 37 0 == 0 && afld (iA w)) []
    (fun s => s.retS c x (iD w) (((s.core c).st x).getA (iA w))))
/-- SETDEV (R83). A nonzero unused bit of IMM is ILLEGAL_OP: DESIGN CHOICE, log entry 106. -/
def execSetdev (c : Nat) (x : Stream) (w : InsnW) (s : State) : Host.Outcome State Fault Refusal :=
  .next (s.issue c x w (fmtI w && iw w 31 16 == 0 && afld (iD w) && afld (iA w)) []
    (fun s => s.retA c x (iD w)
      (BitVec.ofNat 64 (iw w 15 0 * 2 ^ 48 + (((s.core c).st x).getA (iA w)).toNat % 2 ^ 48))))
/-- SETSP (R83). A nonzero unused bit of IMM is ILLEGAL_OP: DESIGN CHOICE, log entry 106. -/
def execSetsp (c : Nat) (x : Stream) (w : InsnW) (s : State) : Host.Outcome State Fault Refusal :=
  .next (s.issue c x w (fmtI w && iw w 31 4 == 0 && afld (iD w) && afld (iA w)) []
    (fun s =>
      let a := (((s.core c).st x).getA (iA w)).toNat
      s.retA c x (iD w) (BitVec.ofNat 64 (aDev a * 2 ^ 48 + iw w 3 0 * 2 ^ 44 + aOff a))))
/-- SELF (R83). A nonzero bit below its register fields is ILLEGAL_OP: DESIGN CHOICE, log entry 106. -/
def execSelf (c : Nat) (x : Stream) (w : InsnW) (s : State) : Host.Outcome State Fault Refusal :=
  .next (s.issue c x w (iw w 37 0 == 0 && afld (iD w) && afld (iA w)) []
    (fun s => s.retA c x (iD w)
      (BitVec.ofNat 64 (s.teth.self * 2 ^ 48 + (((s.core c).st x).getA (iA w)).toNat % 2 ^ 48))))

end Sys2Proof.Machine
end

