-- ==== Sys2Proof/Machine/VecRows.lean ====
section
/-! DEFINITION. The vector instructions as streams present them (R227 to R262): the issue of each. -/

namespace Sys2Proof.Machine

open Sys2Proof

/-- VADD (R243). -/
def execVadd (c : Nat) (x : Stream) (w : InsnW) (s : State) : Host.Outcome State Fault Refusal :=
  .next (s.vecIssue c x .add w)
/-- VSUB (R243). -/
def execVsub (c : Nat) (x : Stream) (w : InsnW) (s : State) : Host.Outcome State Fault Refusal :=
  .next (s.vecIssue c x .sub w)
/-- VMUL (R243). -/
def execVmul (c : Nat) (x : Stream) (w : InsnW) (s : State) : Host.Outcome State Fault Refusal :=
  .next (s.vecIssue c x .mul w)
/-- VMIN (R243). -/
def execVmin (c : Nat) (x : Stream) (w : InsnW) (s : State) : Host.Outcome State Fault Refusal :=
  .next (s.vecIssue c x .min w)
/-- VMAX (R243). -/
def execVmax (c : Nat) (x : Stream) (w : InsnW) (s : State) : Host.Outcome State Fault Refusal :=
  .next (s.vecIssue c x .max w)
/-- VABS (R243). -/
def execVabs (c : Nat) (x : Stream) (w : InsnW) (s : State) : Host.Outcome State Fault Refusal :=
  .next (s.vecIssue c x .abs w)
/-- VAND (R243). -/
def execVand (c : Nat) (x : Stream) (w : InsnW) (s : State) : Host.Outcome State Fault Refusal :=
  .next (s.vecIssue c x .and w)
/-- VOR (R243). -/
def execVor (c : Nat) (x : Stream) (w : InsnW) (s : State) : Host.Outcome State Fault Refusal :=
  .next (s.vecIssue c x .or w)
/-- VXOR (R243). -/
def execVxor (c : Nat) (x : Stream) (w : InsnW) (s : State) : Host.Outcome State Fault Refusal :=
  .next (s.vecIssue c x .xor w)
/-- VANDN (R243). -/
def execVandn (c : Nat) (x : Stream) (w : InsnW) (s : State) : Host.Outcome State Fault Refusal :=
  .next (s.vecIssue c x .andn w)
/-- VSHL (R243). -/
def execVshl (c : Nat) (x : Stream) (w : InsnW) (s : State) : Host.Outcome State Fault Refusal :=
  .next (s.vecIssue c x .shl w)
/-- VSHR (R243). -/
def execVshr (c : Nat) (x : Stream) (w : InsnW) (s : State) : Host.Outcome State Fault Refusal :=
  .next (s.vecIssue c x .shr w)
/-- VSRA (R243). -/
def execVsra (c : Nat) (x : Stream) (w : InsnW) (s : State) : Host.Outcome State Fault Refusal :=
  .next (s.vecIssue c x .sra w)
/-- VPOPC (R243). -/
def execVpopc (c : Nat) (x : Stream) (w : InsnW) (s : State) : Host.Outcome State Fault Refusal :=
  .next (s.vecIssue c x .popc w)
/-- VFADD (R244). -/
def execVfadd (c : Nat) (x : Stream) (w : InsnW) (s : State) : Host.Outcome State Fault Refusal :=
  .next (s.vecIssue c x .fadd w)
/-- VFSUB (R244). -/
def execVfsub (c : Nat) (x : Stream) (w : InsnW) (s : State) : Host.Outcome State Fault Refusal :=
  .next (s.vecIssue c x .fsub w)
/-- VFMUL (R244). -/
def execVfmul (c : Nat) (x : Stream) (w : InsnW) (s : State) : Host.Outcome State Fault Refusal :=
  .next (s.vecIssue c x .fmul w)
/-- VFMA (R244). -/
def execVfma (c : Nat) (x : Stream) (w : InsnW) (s : State) : Host.Outcome State Fault Refusal :=
  .next (s.vecIssue c x .fma w)
/-- VFMIN (R244). -/
def execVfmin (c : Nat) (x : Stream) (w : InsnW) (s : State) : Host.Outcome State Fault Refusal :=
  .next (s.vecIssue c x .fmin w)
/-- VFMAX (R244). -/
def execVfmax (c : Nat) (x : Stream) (w : InsnW) (s : State) : Host.Outcome State Fault Refusal :=
  .next (s.vecIssue c x .fmax w)
/-- VFABS (R244). -/
def execVfabs (c : Nat) (x : Stream) (w : InsnW) (s : State) : Host.Outcome State Fault Refusal :=
  .next (s.vecIssue c x .fabs w)
/-- VFNEG (R244). -/
def execVfneg (c : Nat) (x : Stream) (w : InsnW) (s : State) : Host.Outcome State Fault Refusal :=
  .next (s.vecIssue c x .fneg w)
/-- VCVT (R246). -/
def execVcvt (c : Nat) (x : Stream) (w : InsnW) (s : State) : Host.Outcome State Fault Refusal :=
  .next (s.vecIssue c x .cvt w)
/-- VEXP2 (R247). -/
def execVexp2 (c : Nat) (x : Stream) (w : InsnW) (s : State) : Host.Outcome State Fault Refusal :=
  .next (s.vecIssue c x .exp2 w)
/-- VEXP (R247). -/
def execVexp (c : Nat) (x : Stream) (w : InsnW) (s : State) : Host.Outcome State Fault Refusal :=
  .next (s.vecIssue c x .exp w)
/-- VLOG2 (R247). -/
def execVlog2 (c : Nat) (x : Stream) (w : InsnW) (s : State) : Host.Outcome State Fault Refusal :=
  .next (s.vecIssue c x .log2 w)
/-- VLN (R247). -/
def execVln (c : Nat) (x : Stream) (w : InsnW) (s : State) : Host.Outcome State Fault Refusal :=
  .next (s.vecIssue c x .ln w)
/-- VRCP (R247). -/
def execVrcp (c : Nat) (x : Stream) (w : InsnW) (s : State) : Host.Outcome State Fault Refusal :=
  .next (s.vecIssue c x .rcp w)
/-- VSQRT (R247). -/
def execVsqrt (c : Nat) (x : Stream) (w : InsnW) (s : State) : Host.Outcome State Fault Refusal :=
  .next (s.vecIssue c x .sqrt w)
/-- VRSQRT (R247). -/
def execVrsqrt (c : Nat) (x : Stream) (w : InsnW) (s : State) : Host.Outcome State Fault Refusal :=
  .next (s.vecIssue c x .rsqrt w)
/-- VDIV (R247). -/
def execVdiv (c : Nat) (x : Stream) (w : InsnW) (s : State) : Host.Outcome State Fault Refusal :=
  .next (s.vecIssue c x .div w)
/-- VTANH (R247). -/
def execVtanh (c : Nat) (x : Stream) (w : InsnW) (s : State) : Host.Outcome State Fault Refusal :=
  .next (s.vecIssue c x .tanh w)
/-- VSIGM (R247). -/
def execVsigm (c : Nat) (x : Stream) (w : InsnW) (s : State) : Host.Outcome State Fault Refusal :=
  .next (s.vecIssue c x .sigm w)
/-- VERF (R247). -/
def execVerf (c : Nat) (x : Stream) (w : InsnW) (s : State) : Host.Outcome State Fault Refusal :=
  .next (s.vecIssue c x .erf w)
/-- VSINPI (R247). -/
def execVsinpi (c : Nat) (x : Stream) (w : InsnW) (s : State) : Host.Outcome State Fault Refusal :=
  .next (s.vecIssue c x .sinpi w)
/-- VCOSPI (R247). -/
def execVcospi (c : Nat) (x : Stream) (w : InsnW) (s : State) : Host.Outcome State Fault Refusal :=
  .next (s.vecIssue c x .cospi w)
/-- VRED_SUM (R249). -/
def execVredSum (c : Nat) (x : Stream) (w : InsnW) (s : State) : Host.Outcome State Fault Refusal :=
  .next (s.vecIssue c x .redSum w)
/-- VRED_PROD (R249). -/
def execVredProd (c : Nat) (x : Stream) (w : InsnW) (s : State) : Host.Outcome State Fault Refusal :=
  .next (s.vecIssue c x .redProd w)
/-- VRED_MAX (R249). -/
def execVredMax (c : Nat) (x : Stream) (w : InsnW) (s : State) : Host.Outcome State Fault Refusal :=
  .next (s.vecIssue c x .redMax w)
/-- VRED_MIN (R249). -/
def execVredMin (c : Nat) (x : Stream) (w : InsnW) (s : State) : Host.Outcome State Fault Refusal :=
  .next (s.vecIssue c x .redMin w)
/-- VRED_COUNT (R249). -/
def execVredCount (c : Nat) (x : Stream) (w : InsnW) (s : State) : Host.Outcome State Fault Refusal :=
  .next (s.vecIssue c x .redCount w)
/-- VRED_MEAN (R249). -/
def execVredMean (c : Nat) (x : Stream) (w : InsnW) (s : State) : Host.Outcome State Fault Refusal :=
  .next (s.vecIssue c x .redMean w)
/-- VRED_SUMSQ (R249). -/
def execVredSumsq (c : Nat) (x : Stream) (w : InsnW) (s : State) : Host.Outcome State Fault Refusal :=
  .next (s.vecIssue c x .redSumsq w)
/-- VTRED_SUM (R253). -/
def execVtredSum (c : Nat) (x : Stream) (w : InsnW) (s : State) : Host.Outcome State Fault Refusal :=
  .next (s.vecIssue c x .tredSum w)
/-- VTRED_SUMSQ (R253). -/
def execVtredSumsq (c : Nat) (x : Stream) (w : InsnW) (s : State) : Host.Outcome State Fault Refusal :=
  .next (s.vecIssue c x .tredSumsq w)
/-- VTRED_MAX (R253). -/
def execVtredMax (c : Nat) (x : Stream) (w : InsnW) (s : State) : Host.Outcome State Fault Refusal :=
  .next (s.vecIssue c x .tredMax w)
/-- VTRED_MIN (R253). -/
def execVtredMin (c : Nat) (x : Stream) (w : InsnW) (s : State) : Host.Outcome State Fault Refusal :=
  .next (s.vecIssue c x .tredMin w)
/-- VSMAX (R254). -/
def execVsmax (c : Nat) (x : Stream) (w : InsnW) (s : State) : Host.Outcome State Fault Refusal :=
  .next (s.vecIssue c x .smax w)
/-- VTOPK (R255). -/
def execVtopk (c : Nat) (x : Stream) (w : InsnW) (s : State) : Host.Outcome State Fault Refusal :=
  .next (s.vecIssue c x .topk w)
/-- VCMPK (R256). -/
def execVcmpk (c : Nat) (x : Stream) (w : InsnW) (s : State) : Host.Outcome State Fault Refusal :=
  .next (s.vecIssue c x .cmpk w)
/-- VQUANT (R257). -/
def execVquant (c : Nat) (x : Stream) (w : InsnW) (s : State) : Host.Outcome State Fault Refusal :=
  .next (s.vecIssue c x .quant w)
/-- VDEQ (R258). -/
def execVdeq (c : Nat) (x : Stream) (w : InsnW) (s : State) : Host.Outcome State Fault Refusal :=
  .next (s.vecIssue c x .deq w)
/-- VLD (R259). -/
def execVld (c : Nat) (x : Stream) (w : InsnW) (s : State) : Host.Outcome State Fault Refusal :=
  .next (s.vecIssue c x .ld w)
/-- VST (R259). -/
def execVst (c : Nat) (x : Stream) (w : InsnW) (s : State) : Host.Outcome State Fault Refusal :=
  .next (s.vecIssue c x .st w)
/-- VMOV (R260). -/
def execVmov (c : Nat) (x : Stream) (w : InsnW) (s : State) : Host.Outcome State Fault Refusal :=
  .next (s.vecIssue c x .mov w)
/-- VFILL (R260). -/
def execVfill (c : Nat) (x : Stream) (w : InsnW) (s : State) : Host.Outcome State Fault Refusal :=
  .next (s.vecIssue c x .fill w)
/-- VTRANSP (R260). -/
def execVtransp (c : Nat) (x : Stream) (w : InsnW) (s : State) : Host.Outcome State Fault Refusal :=
  .next (s.vecIssue c x .transp w)
/-- VSPL (R261). -/
def execVspl (c : Nat) (x : Stream) (w : InsnW) (s : State) : Host.Outcome State Fault Refusal :=
  .next (s.vecIssue c x .spl w)
/-- VSPLEXP (R261). -/
def execVsplexp (c : Nat) (x : Stream) (w : InsnW) (s : State) : Host.Outcome State Fault Refusal :=
  .next (s.vecIssue c x .splexp w)
/-- VFLAGS (R262). -/
def execVflags (c : Nat) (x : Stream) (w : InsnW) (s : State) : Host.Outcome State Fault Refusal :=
  .next (s.vecIssue c x .flags w)

end Sys2Proof.Machine
end

