-- ==== Sys2Proof/Machine/Dispatch.lean ====
section
/-! DEFINITION. Dispatch: every command to its meaning. -/

namespace Sys2Proof.Machine

/-- The effect of a command on everything but the queue. -/
def exec (i : Instr) (s : State) : Host.Outcome State Fault Refusal :=
  match i with
  | .keelPowerOn flashEn flashQuad => Sys2Proof.Machine.execKeelPowerOn flashEn flashQuad s
  | .keelRailLost => Sys2Proof.Machine.execKeelRailLost s
  | .stow w => Sys2Proof.Machine.execStow w s
  | .unrig w => Sys2Proof.Machine.execUnrig w s
  | .land w => Sys2Proof.Machine.execLand w s
  | .launch w => Sys2Proof.Machine.execLaunch w s
  | .landComplete => Sys2Proof.Machine.execLandComplete s
  | .bootRomComplete kat puf entropy gon0 => Sys2Proof.Machine.execBootRomComplete kat puf entropy gon0 s
  | .entropyHealthFail => Sys2Proof.Machine.execEntropyHealthFail s
  | .riggedReached badStacks => Sys2Proof.Machine.execRiggedReached badStacks s
  | .hostLinkUp => Sys2Proof.Machine.execHostLinkUp s
  | .nop c x w => Sys2Proof.Machine.execNop c x w s
  | .halt c x w => Sys2Proof.Machine.execHalt c x w s
  | .br c x w => Sys2Proof.Machine.execBr c x w s
  | .call c x w => Sys2Proof.Machine.execCall c x w s
  | .jr c x w => Sys2Proof.Machine.execJr c x w s
  | .twait c x w => Sys2Proof.Machine.execTwait c x w s
  | .rwait c x w => Sys2Proof.Machine.execRwait c x w s
  | .fence c x w => Sys2Proof.Machine.execFence c x w s
  | .synci c x w => Sys2Proof.Machine.execSynci c x w s
  | .event c x w => Sys2Proof.Machine.execEvent c x w s
  | .add c x imm w => Sys2Proof.Machine.execAdd c x imm w s
  | .sub c x imm w => Sys2Proof.Machine.execSub c x imm w s
  | .and c x imm w => Sys2Proof.Machine.execAnd c x imm w s
  | .or c x imm w => Sys2Proof.Machine.execOr c x imm w s
  | .xor c x imm w => Sys2Proof.Machine.execXor c x imm w s
  | .shl c x imm w => Sys2Proof.Machine.execShl c x imm w s
  | .shr c x imm w => Sys2Proof.Machine.execShr c x imm w s
  | .sra c x imm w => Sys2Proof.Machine.execSra c x imm w s
  | .mul c x imm w => Sys2Proof.Machine.execMul c x imm w s
  | .mulh c x imm w => Sys2Proof.Machine.execMulh c x imm w s
  | .mulhu c x imm w => Sys2Proof.Machine.execMulhu c x imm w s
  | .div c x imm w => Sys2Proof.Machine.execDiv c x imm w s
  | .divu c x imm w => Sys2Proof.Machine.execDivu c x imm w s
  | .rem c x imm w => Sys2Proof.Machine.execRem c x imm w s
  | .remu c x imm w => Sys2Proof.Machine.execRemu c x imm w s
  | .min c x imm w => Sys2Proof.Machine.execMin c x imm w s
  | .max c x imm w => Sys2Proof.Machine.execMax c x imm w s
  | .minu c x imm w => Sys2Proof.Machine.execMinu c x imm w s
  | .maxu c x imm w => Sys2Proof.Machine.execMaxu c x imm w s
  | .mov c x imm w => Sys2Proof.Machine.execMov c x imm w s
  | .movh c x imm w => Sys2Proof.Machine.execMovh c x imm w s
  | .cmpEq c x w => Sys2Proof.Machine.execCmpEq c x w s
  | .cmpNe c x w => Sys2Proof.Machine.execCmpNe c x w s
  | .cmpLt c x w => Sys2Proof.Machine.execCmpLt c x w s
  | .cmpLe c x w => Sys2Proof.Machine.execCmpLe c x w s
  | .cmpLtu c x w => Sys2Proof.Machine.execCmpLtu c x w s
  | .cmpLeu c x w => Sys2Proof.Machine.execCmpLeu c x w s
  | .cmpiEq c x w => Sys2Proof.Machine.execCmpiEq c x w s
  | .cmpiNe c x w => Sys2Proof.Machine.execCmpiNe c x w s
  | .cmpiLt c x w => Sys2Proof.Machine.execCmpiLt c x w s
  | .cmpiLe c x w => Sys2Proof.Machine.execCmpiLe c x w s
  | .cmpiLtu c x w => Sys2Proof.Machine.execCmpiLtu c x w s
  | .cmpiLeu c x w => Sys2Proof.Machine.execCmpiLeu c x w s
  | .pand c x w => Sys2Proof.Machine.execPand c x w s
  | .por c x w => Sys2Proof.Machine.execPor c x w s
  | .pxor c x w => Sys2Proof.Machine.execPxor c x w s
  | .pandn c x w => Sys2Proof.Machine.execPandn c x w s
  | .adda c x w => Sys2Proof.Machine.execAdda c x w s
  | .addai c x w => Sys2Proof.Machine.execAddai c x w s
  | .mova c x w => Sys2Proof.Machine.execMova c x w s
  | .movs c x w => Sys2Proof.Machine.execMovs c x w s
  | .setdev c x w => Sys2Proof.Machine.execSetdev c x w s
  | .setsp c x w => Sys2Proof.Machine.execSetsp c x w s
  | .self c x w => Sys2Proof.Machine.execSelf c x w s
  | .ld8u c x w e => Sys2Proof.Machine.execLd8u c x w e s
  | .ld16u c x w e => Sys2Proof.Machine.execLd16u c x w e s
  | .ld32u c x w e => Sys2Proof.Machine.execLd32u c x w e s
  | .ld64 c x w e => Sys2Proof.Machine.execLd64 c x w e s
  | .ld8s c x w e => Sys2Proof.Machine.execLd8s c x w e s
  | .ld16s c x w e => Sys2Proof.Machine.execLd16s c x w e s
  | .ld32s c x w e => Sys2Proof.Machine.execLd32s c x w e s
  | .st8 c x w => Sys2Proof.Machine.execSt8 c x w s
  | .st16 c x w => Sys2Proof.Machine.execSt16 c x w s
  | .st32 c x w => Sys2Proof.Machine.execSt32 c x w s
  | .st64 c x w => Sys2Proof.Machine.execSt64 c x w s
  | .scalarLoadReturn c k => Sys2Proof.Machine.execScalarLoadReturn c k s
  | .reelGo c x w => Sys2Proof.Machine.execReelGo c x w s
  | .reelStat c x w => Sys2Proof.Machine.execReelStat c x w s
  | .reelDescStart c r => Sys2Proof.Machine.execReelDescStart c r s
  | .reelDescComplete c r e => Sys2Proof.Machine.execReelDescComplete c r e s
  | .reelDescFail c r => Sys2Proof.Machine.execReelDescFail c r s
  | .crdGet c x w => Sys2Proof.Machine.execCrdGet c x w s
  | .crdWait c x w => Sys2Proof.Machine.execCrdWait c x w s
  | .crdGive c x w => Sys2Proof.Machine.execCrdGive c x w s
  | .startA c v => Sys2Proof.Machine.execStartA c v s
  | .startB c v => Sys2Proof.Machine.execStartB c v s
  | .stopA c v => Sys2Proof.Machine.execStopA c v s
  | .stopB c v => Sys2Proof.Machine.execStopB c v s
  | .seqPcWrite c x v => Sys2Proof.Machine.execSeqPcWrite c x v s
  | .seqReelRingWrite c r v => Sys2Proof.Machine.execSeqReelRingWrite c r v s
  | .seqCreditCapWrite c v => Sys2Proof.Machine.execSeqCreditCapWrite c v s
  | .seqArbWrite c v => Sys2Proof.Machine.execSeqArbWrite c v s
  | .reelResumeFlush c r v => Sys2Proof.Machine.execReelResumeFlush c r v s
  | .reelResumeSkip c r v => Sys2Proof.Machine.execReelResumeSkip c r v s
  | .creditDeal k => Sys2Proof.Machine.execCreditDeal k s
  | .arbGrant c => Sys2Proof.Machine.execArbGrant c s
  | .tileStart c e => Sys2Proof.Machine.execTileStart c e s
  | .tileComplete c fail residue => Sys2Proof.Machine.execTileComplete c fail residue s
  | .spillStart c => Sys2Proof.Machine.execSpillStart c s
  | .spillComplete c fail residue => Sys2Proof.Machine.execSpillComplete c fail residue s
  | .arrChkTimerExpiry c => Sys2Proof.Machine.execArrChkTimerExpiry c s
  | .arrayAccessFail c seq write addr => Sys2Proof.Machine.execArrayAccessFail c seq write addr s
  | .arrFwd c x m w => Sys2Proof.Machine.execArrFwd c x m w s
  | .arrIg c x m w => Sys2Proof.Machine.execArrIg c x m w s
  | .arrWg c x m w => Sys2Proof.Machine.execArrWg c x m w s
  | .arrDist c x m w => Sys2Proof.Machine.execArrDist c x m w s
  | .arrSpill c x m w => Sys2Proof.Machine.execArrSpill c x m w s
  | .forceCheck c v => Sys2Proof.Machine.execForceCheck c v s
  | .arrInjectArm c v => Sys2Proof.Machine.execArrInjectArm c v s
  | .arrInjectCancel c v => Sys2Proof.Machine.execArrInjectCancel c v s
  | .arrTopkArm c v => Sys2Proof.Machine.execArrTopkArm c v s
  | .corProj c x w => Sys2Proof.Machine.execCorProj c x w s
  | .corExpand c x w => Sys2Proof.Machine.execCorExpand c x w s
  | .corOpComplete c e mismatch => Sys2Proof.Machine.execCorOpComplete c e mismatch s
  | .watchNorm c x w => Sys2Proof.Machine.execWatchNorm c x w s
  | .watchClose c x w => Sys2Proof.Machine.execWatchClose c x w s
  | .watchLoad c x w => Sys2Proof.Machine.execWatchLoad c x w s
  | .watchVerdict c x w => Sys2Proof.Machine.execWatchVerdict c x w s
  | .watchStep c x w => Sys2Proof.Machine.execWatchStep c x w s
  | .watchMerge k => Sys2Proof.Machine.execWatchMerge k s
  | .watchBaseWrite c hi v => Sys2Proof.Machine.execWatchBaseWrite c hi v s
  | .vadd c x w => Sys2Proof.Machine.execVadd c x w s
  | .vsub c x w => Sys2Proof.Machine.execVsub c x w s
  | .vmul c x w => Sys2Proof.Machine.execVmul c x w s
  | .vmin c x w => Sys2Proof.Machine.execVmin c x w s
  | .vmax c x w => Sys2Proof.Machine.execVmax c x w s
  | .vabs c x w => Sys2Proof.Machine.execVabs c x w s
  | .vand c x w => Sys2Proof.Machine.execVand c x w s
  | .vor c x w => Sys2Proof.Machine.execVor c x w s
  | .vxor c x w => Sys2Proof.Machine.execVxor c x w s
  | .vandn c x w => Sys2Proof.Machine.execVandn c x w s
  | .vshl c x w => Sys2Proof.Machine.execVshl c x w s
  | .vshr c x w => Sys2Proof.Machine.execVshr c x w s
  | .vsra c x w => Sys2Proof.Machine.execVsra c x w s
  | .vpopc c x w => Sys2Proof.Machine.execVpopc c x w s
  | .vfadd c x w => Sys2Proof.Machine.execVfadd c x w s
  | .vfsub c x w => Sys2Proof.Machine.execVfsub c x w s
  | .vfmul c x w => Sys2Proof.Machine.execVfmul c x w s
  | .vfma c x w => Sys2Proof.Machine.execVfma c x w s
  | .vfmin c x w => Sys2Proof.Machine.execVfmin c x w s
  | .vfmax c x w => Sys2Proof.Machine.execVfmax c x w s
  | .vfabs c x w => Sys2Proof.Machine.execVfabs c x w s
  | .vfneg c x w => Sys2Proof.Machine.execVfneg c x w s
  | .vcvt c x w => Sys2Proof.Machine.execVcvt c x w s
  | .vexp2 c x w => Sys2Proof.Machine.execVexp2 c x w s
  | .vexp c x w => Sys2Proof.Machine.execVexp c x w s
  | .vlog2 c x w => Sys2Proof.Machine.execVlog2 c x w s
  | .vln c x w => Sys2Proof.Machine.execVln c x w s
  | .vrcp c x w => Sys2Proof.Machine.execVrcp c x w s
  | .vsqrt c x w => Sys2Proof.Machine.execVsqrt c x w s
  | .vrsqrt c x w => Sys2Proof.Machine.execVrsqrt c x w s
  | .vdiv c x w => Sys2Proof.Machine.execVdiv c x w s
  | .vtanh c x w => Sys2Proof.Machine.execVtanh c x w s
  | .vsigm c x w => Sys2Proof.Machine.execVsigm c x w s
  | .verf c x w => Sys2Proof.Machine.execVerf c x w s
  | .vsinpi c x w => Sys2Proof.Machine.execVsinpi c x w s
  | .vcospi c x w => Sys2Proof.Machine.execVcospi c x w s
  | .vredSum c x w => Sys2Proof.Machine.execVredSum c x w s
  | .vredProd c x w => Sys2Proof.Machine.execVredProd c x w s
  | .vredMax c x w => Sys2Proof.Machine.execVredMax c x w s
  | .vredMin c x w => Sys2Proof.Machine.execVredMin c x w s
  | .vredCount c x w => Sys2Proof.Machine.execVredCount c x w s
  | .vredMean c x w => Sys2Proof.Machine.execVredMean c x w s
  | .vredSumsq c x w => Sys2Proof.Machine.execVredSumsq c x w s
  | .vtredSum c x w => Sys2Proof.Machine.execVtredSum c x w s
  | .vtredSumsq c x w => Sys2Proof.Machine.execVtredSumsq c x w s
  | .vtredMax c x w => Sys2Proof.Machine.execVtredMax c x w s
  | .vtredMin c x w => Sys2Proof.Machine.execVtredMin c x w s
  | .vsmax c x w => Sys2Proof.Machine.execVsmax c x w s
  | .vtopk c x w => Sys2Proof.Machine.execVtopk c x w s
  | .vcmpk c x w => Sys2Proof.Machine.execVcmpk c x w s
  | .vquant c x w => Sys2Proof.Machine.execVquant c x w s
  | .vdeq c x w => Sys2Proof.Machine.execVdeq c x w s
  | .vld c x w => Sys2Proof.Machine.execVld c x w s
  | .vst c x w => Sys2Proof.Machine.execVst c x w s
  | .vmov c x w => Sys2Proof.Machine.execVmov c x w s
  | .vfill c x w => Sys2Proof.Machine.execVfill c x w s
  | .vtransp c x w => Sys2Proof.Machine.execVtransp c x w s
  | .vspl c x w => Sys2Proof.Machine.execVspl c x w s
  | .vsplexp c x w => Sys2Proof.Machine.execVsplexp c x w s
  | .vflags c x w => Sys2Proof.Machine.execVflags c x w s
  | .vecInstrStart c e => Sys2Proof.Machine.execVecInstrStart c e s
  | .vecInstrComplete c id mismatch => Sys2Proof.Machine.execVecInstrComplete c id mismatch s
  | .vecAccessFail c id addr => Sys2Proof.Machine.execVecAccessFail c id addr s
  | .vecSrStateWrite c v => Sys2Proof.Machine.execVecSrStateWrite c v s
  | .clear c v => Sys2Proof.Machine.execClear c v s
  | .vecClearDone c => Sys2Proof.Machine.execVecClearDone c s
  | .loftSpillDone c entry => Sys2Proof.Machine.execLoftSpillDone c entry s
  | .loftRecallStart c => Sys2Proof.Machine.execLoftRecallStart c s
  | .loftRecallDone c entry => Sys2Proof.Machine.execLoftRecallDone c entry s
  | .loftRelease c v => Sys2Proof.Machine.execLoftRelease c v s
  | .loftReleaseAll c v => Sys2Proof.Machine.execLoftReleaseAll c v s
  | .loftConfigWrite c off v => Sys2Proof.Machine.execLoftConfigWrite c off v s
  | .stackRequest st q => Sys2Proof.Machine.execStackRequest st q s
  | .stackRequestService st bank ups => Sys2Proof.Machine.execStackRequestService st bank ups s
  | .bankOpen st k => Sys2Proof.Machine.execBankOpen st k s
  | .stackWriteAck st k => Sys2Proof.Machine.execStackWriteAck st k s
  | .stackLinkFrame st toStack send f ups => Sys2Proof.Machine.execStackLinkFrame st toStack send f ups s
  | .stackLinkResendTimeout st toStack => Sys2Proof.Machine.execStackLinkResendTimeout st toStack s
  | .stackLinkRetrainDone st ok => Sys2Proof.Machine.execStackLinkRetrainDone st ok s
  | .scrubRead st ups => Sys2Proof.Machine.execScrubRead st ups s
  | .refresh st bank => Sys2Proof.Machine.execRefresh st bank s
  | .selfRefreshEntry st => Sys2Proof.Machine.execSelfRefreshEntry st s
  | .staleNotice k => Sys2Proof.Machine.execStaleNotice k s
  | .guardRecopyDone c guard => Sys2Proof.Machine.execGuardRecopyDone c guard s
  | .load st v => Sys2Proof.Machine.execLoad st v s
  | .balLoadDone st => Sys2Proof.Machine.execBalLoadDone st s
  | .openSegment c r => Sys2Proof.Machine.execOpenSegment c r s
  | .runSegment c r residue => Sys2Proof.Machine.execRunSegment c r residue s
  | .listSegment c r residue => Sys2Proof.Machine.execListSegment c r residue s
  | .balSegmentForwarded st residue => Sys2Proof.Machine.execBalSegmentForwarded st residue s
  | .balSegmentComplete id => Sys2Proof.Machine.execBalSegmentComplete id s
  | .balStepWrite st v => Sys2Proof.Machine.execBalStepWrite st v s
  | .balSnapMapWrite st v => Sys2Proof.Machine.execBalSnapMapWrite st v s
  | .arm st v => Sys2Proof.Machine.execArm st v s
  | .snapSweep st => Sys2Proof.Machine.execSnapSweep st s
  | .knArrive c x w => Sys2Proof.Machine.execKnArrive c x w s
  | .knWait c x w => Sys2Proof.Machine.execKnWait c x w s
  | .knGive c x w => Sys2Proof.Machine.execKnGive c x w s
  | .knTake c x w => Sys2Proof.Machine.execKnTake c x w s
  | .knSet c x w => Sys2Proof.Machine.execKnSet c x w s
  | .knStore c x w => Sys2Proof.Machine.execKnStore c x w s
  | .knRead c x w => Sys2Proof.Machine.execKnRead c x w s
  | .knAbort c x w => Sys2Proof.Machine.execKnAbort c x w s
  | .knotOpAtHome ks e => Sys2Proof.Machine.execKnotOpAtHome ks e s
  | .knotReply m => Sys2Proof.Machine.execKnotReply m s
  | .treeArrive k => Sys2Proof.Machine.execTreeArrive k s
  | .treeDone k => Sys2Proof.Machine.execTreeDone k s
  | .treeAbort k => Sys2Proof.Machine.execTreeAbort k s
  | .heartbeat tether m => Sys2Proof.Machine.execHeartbeat tether m s
  | .bridleHeartbeatTimer tether n => Sys2Proof.Machine.execBridleHeartbeatTimer tether n s
  | .bridleLinkLost tether n => Sys2Proof.Machine.execBridleLinkLost tether n s
  | .eventMessage k => Sys2Proof.Machine.execEventMessage k s
  | .knotEntryStage w knot word v => Sys2Proof.Machine.execKnotEntryStage w knot word v s
  | .knotEntryReplace w knot v => Sys2Proof.Machine.execKnotEntryReplace w knot v s
  | .kntOpArrive g knot => Sys2Proof.Machine.execKntOpArrive g knot s
  | .kntOpWait g knot => Sys2Proof.Machine.execKntOpWait g knot s
  | .kntOpGive g knot => Sys2Proof.Machine.execKntOpGive g knot s
  | .kntOpTake g knot => Sys2Proof.Machine.execKntOpTake g knot s
  | .kntOpSet g knot => Sys2Proof.Machine.execKntOpSet g knot s
  | .kntOpStore g knot => Sys2Proof.Machine.execKntOpStore g knot s
  | .kntOpRead g knot => Sys2Proof.Machine.execKntOpRead g knot s
  | .kntOpAbort g knot => Sys2Proof.Machine.execKntOpAbort g knot s
  | .kntNotifyWrite n v => Sys2Proof.Machine.execKntNotifyWrite n v s
  | .bridle p h b crc => Sys2Proof.Machine.execBridle p h b crc s
  | .hello p h b => Sys2Proof.Machine.execHello p h b s
  | .helloReply p h b => Sys2Proof.Machine.execHelloReply p h b s
  | .confirm p h b => Sys2Proof.Machine.execConfirm p h b s
  | .readReq p h b crc => Sys2Proof.Machine.execReadReq p h b crc s
  | .readData p h b crc => Sys2Proof.Machine.execReadData p h b crc s
  | .writeHdr p h b crc => Sys2Proof.Machine.execWriteHdr p h b crc s
  | .writeData p h b crc => Sys2Proof.Machine.execWriteData p h b crc s
  | .writeAck p h b crc => Sys2Proof.Machine.execWriteAck p h b crc s
  | .reduceHdr p h b crc => Sys2Proof.Machine.execReduceHdr p h b crc s
  | .reduceData p h b crc => Sys2Proof.Machine.execReduceData p h b crc s
  | .link p h b payload crc => Sys2Proof.Machine.execLink p h b payload crc s
  | .tetherResendTimeout p => Sys2Proof.Machine.execTetherResendTimeout p s
  | .linkBlockTimer p => Sys2Proof.Machine.execLinkBlockTimer p s
  | .tetherTrained p => Sys2Proof.Machine.execTetherTrained p s
  | .pmaLockLost p => Sys2Proof.Machine.execPmaLockLost p s
  | .tetherRetrainDone p ok long => Sys2Proof.Machine.execTetherRetrainDone p ok long s
  | .peerPortSilence p => Sys2Proof.Machine.execPeerPortSilence p s
  | .peerWatchTimeout dev => Sys2Proof.Machine.execPeerWatchTimeout dev s
  | .peerHeartbeatTimer => Sys2Proof.Machine.execPeerHeartbeatTimer s
  | .handshakeRetry p => Sys2Proof.Machine.execHandshakeRetry p s
  | .tthRetrain p v => Sys2Proof.Machine.execTthRetrain p v s
  | .tthDownWrite p v => Sys2Proof.Machine.execTthDownWrite p v s
  | .peerEntryStage dev word v => Sys2Proof.Machine.execPeerEntryStage dev word v s
  | .peerEntryReplace dev v => Sys2Proof.Machine.execPeerEntryReplace dev v s
  | .tthRedArm v => Sys2Proof.Machine.execTthRedArm v s
  | .portAdderTake bucket part => Sys2Proof.Machine.execPortAdderTake bucket part s
  | .portAdderDone bucket part residue => Sys2Proof.Machine.execPortAdderDone bucket part residue s
  | .ctxOpen v => Sys2Proof.Machine.execCtxOpen v s
  | .ctxClose v => Sys2Proof.Machine.execCtxClose v s
  | .ctxDrainEnd ctx => Sys2Proof.Machine.execCtxDrainEnd ctx s
  | .ctxRangeWrite ctx v => Sys2Proof.Machine.execCtxRangeWrite ctx v s
  | .ctxGenWrite ctx v => Sys2Proof.Machine.execCtxGenWrite ctx v s
  | .envelopeInterval x => Sys2Proof.Machine.execEnvelopeInterval x s
  | .coreReport k => Sys2Proof.Machine.execCoreReport k s
  | .creditReturn k => Sys2Proof.Machine.execCreditReturn k s
  | .burnerStep => Sys2Proof.Machine.execBurnerStep s
  | .railRaiseTimeout => Sys2Proof.Machine.execRailRaiseTimeout s
  | .sagWarning rail mv => Sys2Proof.Machine.execSagWarning rail mv s
  | .supplySagReset rail mv => Sys2Proof.Machine.execSupplySagReset rail mv s
  | .thermalTrip logic n celsius => Sys2Proof.Machine.execThermalTrip logic n celsius s
  | .envArm v => Sys2Proof.Machine.execEnvArm v s
  | .envPaceWrite v => Sys2Proof.Machine.execEnvPaceWrite v s
  | .slackNotice k => Sys2Proof.Machine.execSlackNotice k s
  | .resumeNotice k => Sys2Proof.Machine.execResumeNotice k s
  | .noticeExpiry src => Sys2Proof.Machine.execNoticeExpiry src s
  | .keelTicksRead w => Sys2Proof.Machine.execKeelTicksRead w s
  | .envWsEnergyRead w => Sys2Proof.Machine.execEnvWsEnergyRead w s
  | .coreSleep c => Sys2Proof.Machine.execCoreSleep c s
  | .coreWake c => Sys2Proof.Machine.execCoreWake c s
  | .apertureWrite w off v => Sys2Proof.Machine.execApertureWrite w off v s
  | .verify w => Sys2Proof.Machine.execVerify w s
  | .rigVerifyDone => Sys2Proof.Machine.execRigVerifyDone s
  | .commit w => Sys2Proof.Machine.execCommit w s
  | .rigApply => Sys2Proof.Machine.execRigApply s
  | .rigQuietTimeout => Sys2Proof.Machine.execRigQuietTimeout s
  | .abort w => Sys2Proof.Machine.execAbort w s
  | .flashImageLoaded img fw => Sys2Proof.Machine.execFlashImageLoaded img fw s
  | .quote w => Sys2Proof.Machine.execQuote w s
  | .extend w mr => Sys2Proof.Machine.execExtend w mr s
  | .challenge w => Sys2Proof.Machine.execChallenge w s
  | .token w => Sys2Proof.Machine.execToken w s
  | .firmware w => Sys2Proof.Machine.execFirmware w s
  | .debugClose w => Sys2Proof.Machine.execDebugClose w s
  | .anchorOpDone badSig => Sys2Proof.Machine.execAnchorOpDone badSig s
  | .discover addr port nonce => Sys2Proof.Machine.execDiscover addr port nonce s
  | .announceTimer => Sys2Proof.Machine.execAnnounceTimer s
  | .attest addr port nonce start => Sys2Proof.Machine.execAttest addr port nonce start s
  | .hostHello addr port body => Sys2Proof.Machine.execHostHello addr port body s
  | .hostConfirm sess body => Sys2Proof.Machine.execHostConfirm sess body s
  | .hostConfirmTimeout sess => Sys2Proof.Machine.execHostConfirmTimeout sess s
  | .rd32 h b => Sys2Proof.Machine.execRd32 h b s
  | .wr32 h b => Sys2Proof.Machine.execWr32 h b s
  | .write h b => Sys2Proof.Machine.execWrite h b s
  | .read h b => Sys2Proof.Machine.execRead h b s
  | .knot h b => Sys2Proof.Machine.execKnot h b s
  | .state h b => Sys2Proof.Machine.execState h b s
  | .hostCmdStart sess id => Sys2Proof.Machine.execHostCmdStart sess id s
  | .hostData h head data tag => Sys2Proof.Machine.execHostData h head data tag s
  | .ackonly d => Sys2Proof.Machine.execAckonly d s
  | .hostClose d => Sys2Proof.Machine.execHostClose d s
  | .hostAckTimer sess => Sys2Proof.Machine.execHostAckTimer sess s
  | .hostResendTimeout sess => Sys2Proof.Machine.execHostResendTimeout sess s
  | .hostSessionIdle sess => Sys2Proof.Machine.execHostSessionIdle sess s
  | .neighbourSolicitation src target dad => Sys2Proof.Machine.execNeighbourSolicitation src target dad s
  | .neighbourAdvertisement target => Sys2Proof.Machine.execNeighbourAdvertisement target s
  | .echoRequest src data => Sys2Proof.Machine.execEchoRequest src data s
  | .pause quanta priority => Sys2Proof.Machine.execPause quanta priority s
  | .stallWatchdogExpiry c => Sys2Proof.Machine.execStallWatchdogExpiry c s
  | .waitWatchdogExpiry c x => Sys2Proof.Machine.execWaitWatchdogExpiry c x s
  | .gonWatchdogExpiry g => Sys2Proof.Machine.execGonWatchdogExpiry g s
  | .ripPet g => Sys2Proof.Machine.execRipPet g s
  | .spareReady c ok => Sys2Proof.Machine.execSpareReady c ok s
  | .burnerLockLost mesh n => Sys2Proof.Machine.execBurnerLockLost mesh n s
  | .keelVoteDisagree bit => Sys2Proof.Machine.execKeelVoteDisagree bit s
  | .ripFenceReq v => Sys2Proof.Machine.execRipFenceReq v s
  | .ripDieReset v => Sys2Proof.Machine.execRipDieReset v s
  | .ripPkgReset v => Sys2Proof.Machine.execRipPkgReset v s
  | .ripCodeClr v => Sys2Proof.Machine.execRipCodeClr v s
  | .ripEvtBaseWrite hi v => Sys2Proof.Machine.execRipEvtBaseWrite hi v s
  | .dieResetDone d failed badStacks => Sys2Proof.Machine.execDieResetDone d failed badStacks s
  | .railsGood seq v data => Sys2Proof.Machine.execRailsGood seq v data s
  | .budget seq v data => Sys2Proof.Machine.execBudget seq v data s
  | .energy seq v data => Sys2Proof.Machine.execEnergy seq v data s
  | .setOk seq v data => Sys2Proof.Machine.execSetOk seq v data s
  | .alert seq v data => Sys2Proof.Machine.execAlert seq v data s
  | .rcReset seq v data => Sys2Proof.Machine.execRcReset seq v data s
  | .rcStow seq v data => Sys2Proof.Machine.execRcStow seq v data s
  | .statusTimer => Sys2Proof.Machine.execStatusTimer s
  | .rcRegisterRead w off => Sys2Proof.Machine.execRcRegisterRead w off s
  | .registerWrite w off v => Sys2Proof.Machine.execRegisterWrite w off v s
  | .tetherBadBlock p h b payload crc => Sys2Proof.Machine.execTetherBadBlock p h b payload crc s
  | .badDatagram why => Sys2Proof.Machine.execBadDatagram why s
  | .rcBadFrame type seq v data => Sys2Proof.Machine.execRcBadFrame type seq v data s
  | .hostLinkDown => Sys2Proof.Machine.execHostLinkDown s

end Sys2Proof.Machine
end

