-- ==== Sys2Proof/WellFormed.lean ====
section
/-! DEFINITION. Which commands are well formed: every number names a part the device has, and every field fits the width
the spec gives it. The step is total: it does not need well-formedness, and does nothing on a part that is not there. -/

namespace Sys2Proof

/-- A physical core (R12). -/
def coreWf (c : Nat) : Bool := decide (c < 400)
/-- A stack (R11). -/
def stackWf (st : Nat) : Bool := decide (st < 16)
/-- A bank of a stack: 16 in each of 32 channels (R298). -/
def bankWf (b : Nat) : Bool := decide (b < 512)
/-- A reel of a core (R89). -/
def reelWf (r : Nat) : Bool := decide (r < 2)
/-- A tether port (R391). -/
def portWf (p : Nat) : Bool := decide (p < 12)
/-- A gondola core (R10). -/
def gonWf (g : Nat) : Bool := decide (g < 16)
/-- The writer of an operation pair: a gondola core, or 16 for the owner (R389). -/
def pairWf (g : Nat) : Bool := decide (g ≤ 16)
/-- A knot (R368). -/
def knotWf (k : Nat) : Bool := decide (k < 262144)
/-- A transfer context (R420). -/
def ctxWf (c : Nat) : Bool := decide (c < 4096)
/-- A device ID: 0xFFFF is none (R34). -/
def devWf (d : Nat) : Bool := decide (d < 65535)
/-- A session slot (R522). -/
def sessWf (n : Nat) : Bool := decide (1 ≤ n) && decide (n ≤ 4)
/-- A number of w bits. -/
def wordWf (w n : Nat) : Bool := decide (n < 2 ^ w)
/-- The offset of a register (R566). -/
def offWf (o : Nat) : Bool := o % 4 == 0
/-- A bridle link of the package, or a tether port (R388, R402). -/
def linkWf (tether : Bool) (n : Nat) : Bool := decide (n < if tether then 12 else 8)
/-- The priority of a flow-control frame (R518). -/
def prioWf : Option Nat → Bool
  | none => true
  | some p => decide (p < 8)
/-- Who writes (R36). -/
def Who.wf : Who → Bool
  | .gon g => gonWf g
  | .owner => true
/-- A fault that the array's checks meet: a cell of the array (R117), a bit of a residue (R139) or of a result. -/
def chkWf : Option ChkFail → Bool
  | some (.cell r n) => decide (r < 521) && decide (n < 129)
  | some (.sum _ _ b) => decide (b < 24)
  | _ => true
/-- A request's source (R303). -/
def ReqSrc.wf : ReqSrc → Bool
  | .core l => decide (l < 384)
  | .tether p => portWf p
  | .host => true
  | .gondola n => decide (n < 4)
  | .ballast st => stackWf st
  | .scrub => true
/-- A stack request: one block, and bytes inside it (R303, R312). -/
def StackReq.wf (q : StackReq) : Bool :=
  q.src.wf && wordWf 16 q.tag && wordWf 28 q.block && decide (q.off + q.data.length ≤ 256) && ctxWf q.ctx && wordWf 16 q.gen
/-- A stack-link frame (R303). -/
def LinkFrame.wf (f : LinkFrame) : Bool :=
  wordWf 8 f.kind && wordWf 16 f.flags && wordWf 32 f.block && wordWf 16 f.src && wordWf 16 f.tag && wordWf 16 f.gen
    && wordWf 16 f.ctx && decide (f.payload.length ≤ 256)
/-- Upsets of codewords: the codeword, the symbol and the value (R298, R307). -/
def upsWf (l : List (Nat × Nat × Nat)) : Bool :=
  l.all (fun u => decide (u.1 < 805306368) && decide (u.2.1 < 68) && wordWf 8 u.2.2)
/-- A tether block (R394). -/
def Block.wf (b : Block) : Bool :=
  decide (b.cls < 4) && decide (b.kind < 64) && decide (b.pmask < 16) && wordWf 16 b.dst && wordWf 16 b.src
    && decide (b.hops < 16) && ctxWf b.ctx && wordWf 16 b.gen && wordWf 16 b.tag && wordWf 48 b.fseq
    && decide (b.payload.length = 256) && decide (b.auth.length = 12)
/-- The fields of one hop (R396). -/
def Hop.wf (h : Hop) : Bool := wordWf 16 h.lseq && wordWf 16 h.lack && decide (h.credCls < 4) && wordWf 14 h.cred
/-- A block received on a port, with its CRC (R394). -/
def blockCmdWf (p : Nat) (h : Hop) (b : Block) (crc : Nat) : Bool := portWf p && Hop.wf h && Block.wf b && wordWf 32 crc
/-- What the envelope samples (R330, R458, R471). -/
def EnvSample.wf (x : EnvSample) : Bool :=
  decide (x.junction.length ≤ 64) && decide (x.logic.length ≤ 16) && decide (x.dram.length ≤ 16) && decide (x.rails.length ≤ 8)
/-- The VID of a frame's tag (R518). -/
def vidWf (v : Option Nat) : Bool := v.all (wordWf 12)
/-- A number that a frame carries. -/
def Framed.wf (k : Nat) (f : Framed) : Bool := wordWf k f.n && vidWf f.vid
/-- A session datagram (R522, R524). -/
def Dgram.wf (d : Dgram) : Bool :=
  vidWf d.vid && sessWf d.sess && decide (d.queue < 8) && wordWf 64 d.seq && wordWf 64 d.ack && decide (d.body.length ≤ 8208)
    && decide (d.tag.length = 16)
/-- The core, stream and word of the command that is an instruction, and what its error code finds (R74). -/
def Instr.fetched : Instr → Option (Nat × Stream × InsnW × Ecc)
  | .nop c x w => some (c, x, w, .ok)
  | .halt c x w => some (c, x, w, .ok)
  | .br c x w => some (c, x, w, .ok)
  | .call c x w => some (c, x, w, .ok)
  | .jr c x w => some (c, x, w, .ok)
  | .twait c x w => some (c, x, w, .ok)
  | .rwait c x w => some (c, x, w, .ok)
  | .fence c x w => some (c, x, w, .ok)
  | .synci c x w => some (c, x, w, .ok)
  | .event c x w => some (c, x, w, .ok)
  | .add c x _ w => some (c, x, w, .ok)
  | .sub c x _ w => some (c, x, w, .ok)
  | .and c x _ w => some (c, x, w, .ok)
  | .or c x _ w => some (c, x, w, .ok)
  | .xor c x _ w => some (c, x, w, .ok)
  | .shl c x _ w => some (c, x, w, .ok)
  | .shr c x _ w => some (c, x, w, .ok)
  | .sra c x _ w => some (c, x, w, .ok)
  | .mul c x _ w => some (c, x, w, .ok)
  | .mulh c x _ w => some (c, x, w, .ok)
  | .mulhu c x _ w => some (c, x, w, .ok)
  | .div c x _ w => some (c, x, w, .ok)
  | .divu c x _ w => some (c, x, w, .ok)
  | .rem c x _ w => some (c, x, w, .ok)
  | .remu c x _ w => some (c, x, w, .ok)
  | .min c x _ w => some (c, x, w, .ok)
  | .max c x _ w => some (c, x, w, .ok)
  | .minu c x _ w => some (c, x, w, .ok)
  | .maxu c x _ w => some (c, x, w, .ok)
  | .mov c x _ w => some (c, x, w, .ok)
  | .movh c x _ w => some (c, x, w, .ok)
  | .cmpEq c x w => some (c, x, w, .ok)
  | .cmpNe c x w => some (c, x, w, .ok)
  | .cmpLt c x w => some (c, x, w, .ok)
  | .cmpLe c x w => some (c, x, w, .ok)
  | .cmpLtu c x w => some (c, x, w, .ok)
  | .cmpLeu c x w => some (c, x, w, .ok)
  | .cmpiEq c x w => some (c, x, w, .ok)
  | .cmpiNe c x w => some (c, x, w, .ok)
  | .cmpiLt c x w => some (c, x, w, .ok)
  | .cmpiLe c x w => some (c, x, w, .ok)
  | .cmpiLtu c x w => some (c, x, w, .ok)
  | .cmpiLeu c x w => some (c, x, w, .ok)
  | .pand c x w => some (c, x, w, .ok)
  | .por c x w => some (c, x, w, .ok)
  | .pxor c x w => some (c, x, w, .ok)
  | .pandn c x w => some (c, x, w, .ok)
  | .adda c x w => some (c, x, w, .ok)
  | .addai c x w => some (c, x, w, .ok)
  | .mova c x w => some (c, x, w, .ok)
  | .movs c x w => some (c, x, w, .ok)
  | .setdev c x w => some (c, x, w, .ok)
  | .setsp c x w => some (c, x, w, .ok)
  | .self c x w => some (c, x, w, .ok)
  | .ld8u c x w e => some (c, x, w, e)
  | .ld16u c x w e => some (c, x, w, e)
  | .ld32u c x w e => some (c, x, w, e)
  | .ld64 c x w e => some (c, x, w, e)
  | .ld8s c x w e => some (c, x, w, e)
  | .ld16s c x w e => some (c, x, w, e)
  | .ld32s c x w e => some (c, x, w, e)
  | .st8 c x w => some (c, x, w, .ok)
  | .st16 c x w => some (c, x, w, .ok)
  | .st32 c x w => some (c, x, w, .ok)
  | .st64 c x w => some (c, x, w, .ok)
  | .reelGo c x w => some (c, x, w, .ok)
  | .reelStat c x w => some (c, x, w, .ok)
  | .crdGet c x w => some (c, x, w, .ok)
  | .crdWait c x w => some (c, x, w, .ok)
  | .crdGive c x w => some (c, x, w, .ok)
  | .arrFwd c x _ w => some (c, x, w, .ok)
  | .arrIg c x _ w => some (c, x, w, .ok)
  | .arrWg c x _ w => some (c, x, w, .ok)
  | .arrDist c x _ w => some (c, x, w, .ok)
  | .arrSpill c x _ w => some (c, x, w, .ok)
  | .corProj c x w => some (c, x, w, .ok)
  | .corExpand c x w => some (c, x, w, .ok)
  | .watchNorm c x w => some (c, x, w, .ok)
  | .watchClose c x w => some (c, x, w, .ok)
  | .watchLoad c x w => some (c, x, w, .ok)
  | .watchVerdict c x w => some (c, x, w, .ok)
  | .watchStep c x w => some (c, x, w, .ok)
  | .vadd c x w => some (c, x, w, .ok)
  | .vsub c x w => some (c, x, w, .ok)
  | .vmul c x w => some (c, x, w, .ok)
  | .vmin c x w => some (c, x, w, .ok)
  | .vmax c x w => some (c, x, w, .ok)
  | .vabs c x w => some (c, x, w, .ok)
  | .vand c x w => some (c, x, w, .ok)
  | .vor c x w => some (c, x, w, .ok)
  | .vxor c x w => some (c, x, w, .ok)
  | .vandn c x w => some (c, x, w, .ok)
  | .vshl c x w => some (c, x, w, .ok)
  | .vshr c x w => some (c, x, w, .ok)
  | .vsra c x w => some (c, x, w, .ok)
  | .vpopc c x w => some (c, x, w, .ok)
  | .vfadd c x w => some (c, x, w, .ok)
  | .vfsub c x w => some (c, x, w, .ok)
  | .vfmul c x w => some (c, x, w, .ok)
  | .vfma c x w => some (c, x, w, .ok)
  | .vfmin c x w => some (c, x, w, .ok)
  | .vfmax c x w => some (c, x, w, .ok)
  | .vfabs c x w => some (c, x, w, .ok)
  | .vfneg c x w => some (c, x, w, .ok)
  | .vcvt c x w => some (c, x, w, .ok)
  | .vexp2 c x w => some (c, x, w, .ok)
  | .vexp c x w => some (c, x, w, .ok)
  | .vlog2 c x w => some (c, x, w, .ok)
  | .vln c x w => some (c, x, w, .ok)
  | .vrcp c x w => some (c, x, w, .ok)
  | .vsqrt c x w => some (c, x, w, .ok)
  | .vrsqrt c x w => some (c, x, w, .ok)
  | .vdiv c x w => some (c, x, w, .ok)
  | .vtanh c x w => some (c, x, w, .ok)
  | .vsigm c x w => some (c, x, w, .ok)
  | .verf c x w => some (c, x, w, .ok)
  | .vsinpi c x w => some (c, x, w, .ok)
  | .vcospi c x w => some (c, x, w, .ok)
  | .vredSum c x w => some (c, x, w, .ok)
  | .vredProd c x w => some (c, x, w, .ok)
  | .vredMax c x w => some (c, x, w, .ok)
  | .vredMin c x w => some (c, x, w, .ok)
  | .vredCount c x w => some (c, x, w, .ok)
  | .vredMean c x w => some (c, x, w, .ok)
  | .vredSumsq c x w => some (c, x, w, .ok)
  | .vtredSum c x w => some (c, x, w, .ok)
  | .vtredSumsq c x w => some (c, x, w, .ok)
  | .vtredMax c x w => some (c, x, w, .ok)
  | .vtredMin c x w => some (c, x, w, .ok)
  | .vsmax c x w => some (c, x, w, .ok)
  | .vtopk c x w => some (c, x, w, .ok)
  | .vcmpk c x w => some (c, x, w, .ok)
  | .vquant c x w => some (c, x, w, .ok)
  | .vdeq c x w => some (c, x, w, .ok)
  | .vld c x w => some (c, x, w, .ok)
  | .vst c x w => some (c, x, w, .ok)
  | .vmov c x w => some (c, x, w, .ok)
  | .vfill c x w => some (c, x, w, .ok)
  | .vtransp c x w => some (c, x, w, .ok)
  | .vspl c x w => some (c, x, w, .ok)
  | .vsplexp c x w => some (c, x, w, .ok)
  | .vflags c x w => some (c, x, w, .ok)
  | .knArrive c x w => some (c, x, w, .ok)
  | .knWait c x w => some (c, x, w, .ok)
  | .knGive c x w => some (c, x, w, .ok)
  | .knTake c x w => some (c, x, w, .ok)
  | .knSet c x w => some (c, x, w, .ok)
  | .knStore c x w => some (c, x, w, .ok)
  | .knRead c x w => some (c, x, w, .ok)
  | .knAbort c x w => some (c, x, w, .ok)
  | _ => none

/-- Whether an instruction's word spells it (R76). -/
def Instr.spelt (i : Instr) : Bool :=
  match i.fetched with
  | none => true
  | some (c, x, w, e) => decide (insnOf w.op.toNat c x w e = some i)

/-- Whether every operand of a command names a part the device has and fits its field. -/
def Instr.fits (i : Instr) : Bool :=
  match i with
  | .keelPowerOn _ _ => true
  | .keelRailLost => true
  | .stow w => Who.wf w
  | .unrig w => Who.wf w
  | .land w => Who.wf w
  | .launch w => Who.wf w
  | .landComplete => true
  | .bootRomComplete _ _ _ _ => true
  | .entropyHealthFail => true
  | .riggedReached badStacks => badStacks.all stackWf
  | .hostLinkUp => true
  | .nop c _ _ => coreWf c
  | .halt c _ _ => coreWf c
  | .br c _ _ => coreWf c
  | .call c _ _ => coreWf c
  | .jr c _ _ => coreWf c
  | .twait c _ _ => coreWf c
  | .rwait c _ _ => coreWf c
  | .fence c _ _ => coreWf c
  | .synci c _ _ => coreWf c
  | .event c _ _ => coreWf c
  | .add c _ _ _ => coreWf c
  | .sub c _ _ _ => coreWf c
  | .and c _ _ _ => coreWf c
  | .or c _ _ _ => coreWf c
  | .xor c _ _ _ => coreWf c
  | .shl c _ _ _ => coreWf c
  | .shr c _ _ _ => coreWf c
  | .sra c _ _ _ => coreWf c
  | .mul c _ _ _ => coreWf c
  | .mulh c _ _ _ => coreWf c
  | .mulhu c _ _ _ => coreWf c
  | .div c _ _ _ => coreWf c
  | .divu c _ _ _ => coreWf c
  | .rem c _ _ _ => coreWf c
  | .remu c _ _ _ => coreWf c
  | .min c _ _ _ => coreWf c
  | .max c _ _ _ => coreWf c
  | .minu c _ _ _ => coreWf c
  | .maxu c _ _ _ => coreWf c
  | .mov c _ _ _ => coreWf c
  | .movh c _ _ _ => coreWf c
  | .cmpEq c _ _ => coreWf c
  | .cmpNe c _ _ => coreWf c
  | .cmpLt c _ _ => coreWf c
  | .cmpLe c _ _ => coreWf c
  | .cmpLtu c _ _ => coreWf c
  | .cmpLeu c _ _ => coreWf c
  | .cmpiEq c _ _ => coreWf c
  | .cmpiNe c _ _ => coreWf c
  | .cmpiLt c _ _ => coreWf c
  | .cmpiLe c _ _ => coreWf c
  | .cmpiLtu c _ _ => coreWf c
  | .cmpiLeu c _ _ => coreWf c
  | .pand c _ _ => coreWf c
  | .por c _ _ => coreWf c
  | .pxor c _ _ => coreWf c
  | .pandn c _ _ => coreWf c
  | .adda c _ _ => coreWf c
  | .addai c _ _ => coreWf c
  | .mova c _ _ => coreWf c
  | .movs c _ _ => coreWf c
  | .setdev c _ _ => coreWf c
  | .setsp c _ _ => coreWf c
  | .self c _ _ => coreWf c
  | .ld8u c _ _ _ => coreWf c
  | .ld16u c _ _ _ => coreWf c
  | .ld32u c _ _ _ => coreWf c
  | .ld64 c _ _ _ => coreWf c
  | .ld8s c _ _ _ => coreWf c
  | .ld16s c _ _ _ => coreWf c
  | .ld32s c _ _ _ => coreWf c
  | .st8 c _ _ => coreWf c
  | .st16 c _ _ => coreWf c
  | .st32 c _ _ => coreWf c
  | .st64 c _ _ => coreWf c
  | .scalarLoadReturn c _ => coreWf c
  | .reelGo c _ _ => coreWf c
  | .reelStat c _ _ => coreWf c
  | .reelDescStart c r => coreWf c && reelWf r
  | .reelDescComplete c r _ => coreWf c && reelWf r
  | .reelDescFail c r => coreWf c && reelWf r
  | .crdGet c _ _ => coreWf c
  | .crdWait c _ _ => coreWf c
  | .crdGive c _ _ => coreWf c
  | .startA c _ => coreWf c
  | .startB c _ => coreWf c
  | .stopA c _ => coreWf c
  | .stopB c _ => coreWf c
  | .seqPcWrite c _ _ => coreWf c
  | .seqReelRingWrite c r _ => coreWf c && reelWf r
  | .seqCreditCapWrite c _ => coreWf c
  | .seqArbWrite c _ => coreWf c
  | .reelResumeFlush c r _ => coreWf c && reelWf r
  | .reelResumeSkip c r _ => coreWf c && reelWf r
  | .creditDeal _ => true
  | .arbGrant c => coreWf c
  | .tileStart c _ => coreWf c
  | .tileComplete c fail _ => coreWf c && chkWf fail
  | .spillStart c => coreWf c
  | .spillComplete c fail _ => coreWf c && chkWf fail
  | .arrChkTimerExpiry c => coreWf c
  | .arrayAccessFail c _ _ _ => coreWf c
  | .arrFwd c _ _ _ => coreWf c
  | .arrIg c _ _ _ => coreWf c
  | .arrWg c _ _ _ => coreWf c
  | .arrDist c _ _ _ => coreWf c
  | .arrSpill c _ _ _ => coreWf c
  | .forceCheck c _ => coreWf c
  | .arrInjectArm c _ => coreWf c
  | .arrInjectCancel c _ => coreWf c
  | .arrTopkArm c _ => coreWf c
  | .corProj c _ _ => coreWf c
  | .corExpand c _ _ => coreWf c
  | .corOpComplete c _ _ => coreWf c
  | .watchNorm c _ _ => coreWf c
  | .watchClose c _ _ => coreWf c
  | .watchLoad c _ _ => coreWf c
  | .watchVerdict c _ _ => coreWf c
  | .watchStep c _ _ => coreWf c
  | .watchMerge _ => true
  | .watchBaseWrite c _ _ => coreWf c
  | .vadd c _ _ => coreWf c
  | .vsub c _ _ => coreWf c
  | .vmul c _ _ => coreWf c
  | .vmin c _ _ => coreWf c
  | .vmax c _ _ => coreWf c
  | .vabs c _ _ => coreWf c
  | .vand c _ _ => coreWf c
  | .vor c _ _ => coreWf c
  | .vxor c _ _ => coreWf c
  | .vandn c _ _ => coreWf c
  | .vshl c _ _ => coreWf c
  | .vshr c _ _ => coreWf c
  | .vsra c _ _ => coreWf c
  | .vpopc c _ _ => coreWf c
  | .vfadd c _ _ => coreWf c
  | .vfsub c _ _ => coreWf c
  | .vfmul c _ _ => coreWf c
  | .vfma c _ _ => coreWf c
  | .vfmin c _ _ => coreWf c
  | .vfmax c _ _ => coreWf c
  | .vfabs c _ _ => coreWf c
  | .vfneg c _ _ => coreWf c
  | .vcvt c _ _ => coreWf c
  | .vexp2 c _ _ => coreWf c
  | .vexp c _ _ => coreWf c
  | .vlog2 c _ _ => coreWf c
  | .vln c _ _ => coreWf c
  | .vrcp c _ _ => coreWf c
  | .vsqrt c _ _ => coreWf c
  | .vrsqrt c _ _ => coreWf c
  | .vdiv c _ _ => coreWf c
  | .vtanh c _ _ => coreWf c
  | .vsigm c _ _ => coreWf c
  | .verf c _ _ => coreWf c
  | .vsinpi c _ _ => coreWf c
  | .vcospi c _ _ => coreWf c
  | .vredSum c _ _ => coreWf c
  | .vredProd c _ _ => coreWf c
  | .vredMax c _ _ => coreWf c
  | .vredMin c _ _ => coreWf c
  | .vredCount c _ _ => coreWf c
  | .vredMean c _ _ => coreWf c
  | .vredSumsq c _ _ => coreWf c
  | .vtredSum c _ _ => coreWf c
  | .vtredSumsq c _ _ => coreWf c
  | .vtredMax c _ _ => coreWf c
  | .vtredMin c _ _ => coreWf c
  | .vsmax c _ _ => coreWf c
  | .vtopk c _ _ => coreWf c
  | .vcmpk c _ _ => coreWf c
  | .vquant c _ _ => coreWf c
  | .vdeq c _ _ => coreWf c
  | .vld c _ _ => coreWf c
  | .vst c _ _ => coreWf c
  | .vmov c _ _ => coreWf c
  | .vfill c _ _ => coreWf c
  | .vtransp c _ _ => coreWf c
  | .vspl c _ _ => coreWf c
  | .vsplexp c _ _ => coreWf c
  | .vflags c _ _ => coreWf c
  | .vecInstrStart c _ => coreWf c
  | .vecInstrComplete c _ _ => coreWf c
  | .vecAccessFail c _ _ => coreWf c
  | .vecSrStateWrite c _ => coreWf c
  | .clear c _ => coreWf c
  | .vecClearDone c => coreWf c
  | .loftSpillDone c entry => coreWf c && decide (entry < 256)
  | .loftRecallStart c => coreWf c
  | .loftRecallDone c entry => coreWf c && decide (entry < 256)
  | .loftRelease c _ => coreWf c
  | .loftReleaseAll c _ => coreWf c
  | .loftConfigWrite c off _ => coreWf c && offWf off
  | .stackRequest st q => stackWf st && StackReq.wf q
  | .stackRequestService st bank ups => stackWf st && bankWf bank && upsWf ups
  | .bankOpen st _ => stackWf st
  | .stackWriteAck st _ => stackWf st
  | .stackLinkFrame st _ _ f ups => stackWf st && LinkFrame.wf f && ups.all (fun u => decide (u.1 < 276) && wordWf 8 u.2)
  | .stackLinkResendTimeout st _ => stackWf st
  | .stackLinkRetrainDone st _ => stackWf st
  | .scrubRead st ups => stackWf st && upsWf ups
  | .refresh st bank => stackWf st && bankWf bank
  | .selfRefreshEntry st => stackWf st
  | .staleNotice _ => true
  | .guardRecopyDone c guard => coreWf c && decide (guard < 32)
  | .load st _ => stackWf st
  | .balLoadDone st => stackWf st
  | .openSegment c r => coreWf c && reelWf r
  | .runSegment c r _ => coreWf c && reelWf r
  | .listSegment c r _ => coreWf c && reelWf r
  | .balSegmentForwarded st _ => stackWf st
  | .balSegmentComplete _ => true
  | .balStepWrite st _ => stackWf st
  | .balSnapMapWrite st _ => stackWf st
  | .arm st _ => stackWf st
  | .snapSweep st => stackWf st
  | .knArrive c _ _ => coreWf c
  | .knWait c _ _ => coreWf c
  | .knGive c _ _ => coreWf c
  | .knTake c _ _ => coreWf c
  | .knSet c _ _ => coreWf c
  | .knStore c _ _ => coreWf c
  | .knRead c _ _ => coreWf c
  | .knAbort c _ _ => coreWf c
  | .knotOpAtHome ks e => decide (0 < ks.length) && e.bad.all (fun n => decide (n < 8))
  | .knotReply m => m.bad.all (fun n => decide (n < 8))
  | .treeArrive _ => true
  | .treeDone _ => true
  | .treeAbort _ => true
  | .heartbeat tether m => linkWf tether m.k && m.bad.all (fun n => !tether && n == m.k)
  | .bridleHeartbeatTimer tether n => linkWf tether n
  | .bridleLinkLost tether n => linkWf tether n
  | .eventMessage _ => true
  | .knotEntryStage w kt word _ => Who.wf w && knotWf kt && decide (word < 4)
  | .knotEntryReplace w kt _ => Who.wf w && knotWf kt
  | .kntOpArrive g _ => pairWf g
  | .kntOpWait g _ => pairWf g
  | .kntOpGive g _ => pairWf g
  | .kntOpTake g _ => pairWf g
  | .kntOpSet g _ => pairWf g
  | .kntOpStore g _ => pairWf g
  | .kntOpRead g _ => pairWf g
  | .kntOpAbort g _ => pairWf g
  | .kntNotifyWrite n _ => decide (n < 256)
  | .bridle p h b crc => blockCmdWf p h b crc
  | .hello p h b => blockCmdWf p h b.blk b.crc
  | .helloReply p h b => blockCmdWf p h b.blk b.crc
  | .confirm p h b => blockCmdWf p h b.blk b.crc
  | .readReq p h b crc => blockCmdWf p h b crc
  | .readData p h b crc => blockCmdWf p h b crc
  | .writeHdr p h b crc => blockCmdWf p h b crc
  | .writeData p h b crc => blockCmdWf p h b crc
  | .writeAck p h b crc => blockCmdWf p h b crc
  | .reduceHdr p h b crc => blockCmdWf p h b crc
  | .reduceData p h b crc => blockCmdWf p h b crc
  | .link p h b pl crc => blockCmdWf p h { b with payload := pl } crc
  | .tetherResendTimeout p => portWf p
  | .linkBlockTimer p => portWf p
  | .tetherTrained p => portWf p
  | .pmaLockLost p => portWf p
  | .tetherRetrainDone p _ _ => portWf p
  | .peerPortSilence p => portWf p
  | .peerWatchTimeout dev => devWf dev
  | .peerHeartbeatTimer => true
  | .handshakeRetry p => portWf p
  | .tthRetrain p _ => portWf p
  | .tthDownWrite p _ => portWf p
  | .peerEntryStage dev word _ => devWf dev && decide (word < 8)
  | .peerEntryReplace dev _ => devWf dev
  | .tthRedArm _ => true
  | .portAdderTake bucket part => decide (bucket < 1024) && decide (part < 16)
  | .portAdderDone bucket part _ => decide (bucket < 1024) && decide (part < 16)
  | .ctxOpen _ => true
  | .ctxClose _ => true
  | .ctxDrainEnd ctx => ctxWf ctx
  | .ctxRangeWrite ctx _ => ctxWf ctx
  | .ctxGenWrite ctx _ => ctxWf ctx
  | .envelopeInterval x => EnvSample.wf x
  | .coreReport _ => true
  | .creditReturn _ => true
  | .burnerStep => true
  | .railRaiseTimeout => true
  | .sagWarning rail mv => decide (rail < 8) && wordWf 16 mv
  | .supplySagReset rail mv => decide (rail < 8) && wordWf 16 mv
  | .thermalTrip logic n _ => decide (n < if logic then 16 else 64)
  | .envArm _ => true
  | .envPaceWrite _ => true
  | .slackNotice _ => true
  | .resumeNotice _ => true
  | .noticeExpiry src => devWf src
  | .keelTicksRead w => Who.wf w
  | .envWsEnergyRead w => Who.wf w
  | .coreSleep c => coreWf c
  | .coreWake c => coreWf c
  | .apertureWrite w off _ => Who.wf w && offWf off
  | .verify w => Who.wf w
  | .rigVerifyDone => true
  | .commit w => Who.wf w
  | .rigApply => true
  | .rigQuietTimeout => true
  | .abort w => Who.wf w
  | .flashImageLoaded _ _ => true
  | .quote w => Who.wf w
  | .extend w _ => Who.wf w
  | .challenge w => Who.wf w
  | .token w => Who.wf w
  | .firmware w => Who.wf w
  | .debugClose w => Who.wf w
  | .anchorOpDone _ => true
  | .discover addr port nonce => addr.wf 128 && wordWf 16 port && decide (nonce.length = 16)
  | .announceTimer => true
  | .attest addr port nonce start => addr.wf 128 && wordWf 16 port && decide (nonce.length = 32) && wordWf 16 start
  | .hostHello addr port body => addr.wf 128 && wordWf 16 port && decide (body.length = 176)
  | .hostConfirm sess body => sessWf sess.n && vidWf sess.vid && decide (body.length = 176)
  | .hostConfirmTimeout sess => sessWf sess
  | .rd32 h b => Dgram.wf ⟨h, b⟩
  | .wr32 h b => Dgram.wf ⟨h, b⟩
  | .write h b => Dgram.wf ⟨h, b⟩
  | .read h b => Dgram.wf ⟨h, b⟩
  | .knot h b => Dgram.wf ⟨h, b⟩
  | .state h b => Dgram.wf ⟨h, b⟩
  | .hostCmdStart sess _ => sessWf sess
  | .hostData h head data tag => Dgram.wf ⟨h, ⟨head ++ data, tag⟩⟩
  | .ackonly d => Dgram.wf d
  | .hostClose d => Dgram.wf d
  | .hostAckTimer sess => sessWf sess
  | .hostResendTimeout sess => sessWf sess
  | .hostSessionIdle sess => sessWf sess
  | .neighbourSolicitation src target _ => src.wf 128 && wordWf 128 target
  | .neighbourAdvertisement target => target.wf 128
  | .echoRequest src _ => src.wf 128
  | .pause quanta priority => wordWf 16 quanta && prioWf priority
  | .stallWatchdogExpiry c => coreWf c
  | .waitWatchdogExpiry c _ => coreWf c
  | .gonWatchdogExpiry g => gonWf g
  | .ripPet g => gonWf g
  | .spareReady c _ => coreWf c
  | .burnerLockLost mesh n => decide (n < if mesh then 4 else 400)
  | .keelVoteDisagree bit => decide (bit < 32)
  | .ripFenceReq _ => true
  | .ripDieReset _ => true
  | .ripPkgReset _ => true
  | .ripCodeClr _ => true
  | .ripEvtBaseWrite _ _ => true
  | .dieResetDone d failed badStacks => decide (d < 4) && failed.all coreWf && badStacks.all stackWf
  | .railsGood seq _ _ => wordWf 8 seq
  | .budget seq _ _ => wordWf 8 seq
  | .energy seq _ _ => wordWf 8 seq
  | .setOk seq _ _ => wordWf 8 seq
  | .alert seq _ _ => wordWf 8 seq
  | .rcReset seq _ _ => wordWf 8 seq
  | .rcStow seq _ _ => wordWf 8 seq
  | .statusTimer => true
  | .rcRegisterRead w off => Who.wf w && offWf off
  | .registerWrite w off _ => Who.wf w && offWf off
  | .tetherBadBlock p h b pl crc => blockCmdWf p h { b with payload := pl } crc
  | .badDatagram _ => true
  | .rcBadFrame type seq _ _ => wordWf 8 type && wordWf 8 seq
  | .hostLinkDown => true

/-- The well-formed commands. -/
def Instr.wf (i : Instr) : Bool := i.fits && i.spelt

end Sys2Proof
end

