-- ==== Sys2Proof/Safety.lean ====
section
/-! DEFINITION. The terms statements are made in: when an instruction acts, what it leaves alone, one byte of a store,
and the invariants of the device. -/

namespace Sys2Proof.Machine

open Sys2Proof

/-- Stream x of core c presents an instruction that acts (R72, R74, R76, R77, R323): the core runs, the stream is ready, its pc is
in scratch and in no stale guard's span, the predicate lets the instruction act, its opcode is not reserved, and no source
register is on its way. -/
abbrev State.Acts (s : State) (c : Nat) (x : Stream) (w : InsnW) (srcs : List Nat) : Prop :=
  s.canIssue c x = true ∧ ((s.core c).st x).pc < 0x400000 ∧ (s.core c).readStalls (s.scrAddr c ((s.core c).st x).pc) 8 = false
    ∧ ((s.core c).st x).predOn w = true ∧ reservedOp w.op.toNat = false ∧ srcs.any ((s.core c).st x).busy = false

/-- The state in which stream x of core c is u, the core's counts of the watchdog and of idle ticks have restarted, and
everything else is as in s. -/
def State.withStream (s : State) (c : Nat) (x : Stream) (u : StreamSt) : State :=
  s.setCore c { (s.core c).setSt x u with stallTicks := 0, idleTicks := 0 }

/-- One byte of a stack or of a core's store; none for what is no store of the package. -/
def State.cell (s : State) : Loc → Option Byte
  | .stack st a => some (sget 0 (s.stk st).mem a)
  | .scratch c o => some (sget 0 (s.core c).scratch o)
  | .loft c o => some (sget 0 (s.core c).loft o)
  | .spool c o => some (sget 0 (s.core c).spool o)
  | _ => none

/-- The place i bytes further on in the same store. -/
def Loc.shift (l : Loc) (i : Nat) : Loc :=
  match l with
  | .stack st a => .stack st (a + i)
  | .scratch c o => .scratch c (o + i)
  | .loft c o => .loft c (o + i)
  | .spool c o => .spool c (o + i)
  | l => l

/-- n bytes from a place on; a byte that is in no store reads 0. -/
def State.bytesAt (s : State) (l : Loc) (n : Nat) : List Byte := (List.range n).map (fun i => (s.cell (l.shift i)).getD 0)

/-- Whether upsets stand in the codeword of a place (R307). -/
def State.upset (s : State) (l : Loc) : Bool :=
  match l with
  | .stack st a => !(sget [] (s.stk st).upsets (a / 64)).isEmpty
  | _ => false

/-- Whether a place can be read and written without an error: in a stack that is not in FAULT, in a codeword that is neither
poisoned nor upset (R306, R307, R309). -/
def State.clean (s : State) (l : Loc) : Bool :=
  match l with
  | .stack st a => decide ((s.stk st).state ≠ .fault) && !((s.stk st).poisoned.contains (a / 64)) && !(s.upset l)
  | _ => true

/-- Whether an access of a source to a place can be served now (R306, R312 to R316, R488): a stack can take its request. -/
def State.canServe (s : State) (src : ReqSrc) (write : Bool) (l : Loc) : Bool :=
  match l with
  | .stack st a => (({ s with acc := { src } } : State).askStop st (a / 256) write).isNone
  | _ => true

/-- Whether every access to memory that f makes for a source, by an agent of a core when it is one, is served at once (R306, R312 to
R316, R323, R488). -/
def State.served (s : State) (src : ReqSrc) (core : Option Nat) (f : State → State) : Bool :=
  (f { s with acc := { src, core } }).acc.stop.isNone

/-- Whether every access that f makes for an agent of core c is served at once. -/
def State.coreServed (s : State) (c : Nat) (f : State → State) : Bool := s.served (.core (s.logNum c)) (some c) f

/-- The keel domain in a legal mode (R26, R27): STATE and TARGET name a state of the device or a transition of R27 that
takes time, the boot ROM runs exactly while the device rises from KEEL, and it has stopped only in KEEL. -/
def KeelSt.ok (k : KeelSt) : Bool :=
  (match k.state, k.target with
   | .off, .off => true
   | .keel, .keel => true
   | .keel, .moored => true
   | .moored, .moored => true
   | .moored, .rigged => true
   | .rigged, .rigged => true
   | .aloft, .aloft => true
   | .aloft, .rigged => true
   | _, _ => false)
  && (k.booting == (k.state == .keel && k.target == .moored)) && (!k.stopped || (k.state == .keel && k.target == .keel))

/-- Every store of bytes is in its canonical form. -/
def State.memOk (s : State) : Prop :=
  (∀ st, (s.stk st).mem.wf = true) ∧ ∀ c, (s.core c).scratch.wf = true ∧ (s.core c).loft.wf = true ∧ (s.core c).spool.wf = true

end Sys2Proof.Machine
end

