-- ==== Sys2Proof/Certificates/Slice0/Obligations.lean ====
section
/-! DEFINITION. The statements about the model. -/

open Sys2Proof Sys2Proof.Machine

namespace Sys2Proof.Machine

/-- The scalar instructions of R82 that write a function of sA and b, by their commands. -/
def aluRows : List ((Nat → Stream → Bool → InsnW → Instr) × (W64 → W64 → W64)) :=
  [(.add, fun a b => a + b), (.sub, fun a b => a - b), (.and, fun a b => a &&& b), (.or, fun a b => a ||| b),
   (.xor, fun a b => a ^^^ b), (.shl, fun a b => a <<< b.toNat), (.shr, fun a b => a >>> b.toNat),
   (.sra, fun a b => a.sshiftRight b.toNat), (.mul, fun a b => a * b),
   (.mulh, fun a b => BitVec.ofInt 64 (a.toInt * b.toInt / 2 ^ 64)),
   (.mulhu, fun a b => BitVec.ofNat 64 (a.toNat * b.toNat / 2 ^ 64)),
   (.min, fun a b => if a.slt b then a else b), (.max, fun a b => if a.slt b then b else a),
   (.minu, fun a b => if a < b then a else b), (.maxu, fun a b => if a < b then b else a)]

/-- The divisions and remainders of R82. -/
def divRows : List ((Nat → Stream → Bool → InsnW → Instr) × (W64 → W64 → W64)) :=
  [(.div, fun a b => if b = 0 then 0 else a.sdiv b), (.divu, fun a b => if b = 0 then 0 else a / b),
   (.rem, fun a b => if b = 0 then a else a.srem b), (.remu, fun a b => if b = 0 then a else a % b)]

/-- The comparisons of R83 between registers and with an immediate. -/
def cmpRows : List ((Nat → Stream → InsnW → Instr) × (Nat → Stream → InsnW → Instr) × (W64 → W64 → Bool)) :=
  [(.cmpEq, .cmpiEq, fun a b => decide (a = b)), (.cmpNe, .cmpiNe, fun a b => decide (a ≠ b)),
   (.cmpLt, .cmpiLt, fun a b => a.slt b), (.cmpLe, .cmpiLe, fun a b => a.sle b),
   (.cmpLtu, .cmpiLtu, fun a b => a.ult b), (.cmpLeu, .cmpiLeu, fun a b => a.ule b)]

/-- The predicate logic of R83. -/
def predRows : List ((Nat → Stream → InsnW → Instr) × (Bool → Bool → Bool)) :=
  [(.pand, fun a b => a && b), (.por, fun a b => a || b), (.pxor, fun a b => a != b), (.pandn, fun a b => a && !b)]

/-- The instructions of the scalar instruction set, by their commands. -/
def scalarInsns : List (Nat → Stream → InsnW → Instr) :=
  [.nop, .halt, .br, .call, .jr, .twait, .rwait, .fence, .synci, .event,
   fun c x => .add c x false, fun c x => .add c x true, fun c x => .sub c x false, fun c x => .sub c x true,
   fun c x => .and c x false, fun c x => .and c x true, fun c x => .or c x false, fun c x => .or c x true,
   fun c x => .xor c x false, fun c x => .xor c x true, fun c x => .shl c x false, fun c x => .shl c x true,
   fun c x => .shr c x false, fun c x => .shr c x true, fun c x => .sra c x false, fun c x => .sra c x true,
   fun c x => .mul c x false, fun c x => .mul c x true, fun c x => .mulh c x false, fun c x => .mulh c x true,
   fun c x => .mulhu c x false, fun c x => .mulhu c x true, fun c x => .div c x false, fun c x => .div c x true,
   fun c x => .divu c x false, fun c x => .divu c x true, fun c x => .rem c x false, fun c x => .rem c x true,
   fun c x => .remu c x false, fun c x => .remu c x true, fun c x => .min c x false, fun c x => .min c x true,
   fun c x => .max c x false, fun c x => .max c x true, fun c x => .minu c x false, fun c x => .minu c x true,
   fun c x => .maxu c x false, fun c x => .maxu c x true, fun c x => .mov c x false, fun c x => .mov c x true,
   fun c x => .movh c x false, fun c x => .movh c x true,
   .cmpEq, .cmpNe, .cmpLt, .cmpLe, .cmpLtu, .cmpLeu, .cmpiEq, .cmpiNe, .cmpiLt, .cmpiLe, .cmpiLtu, .cmpiLeu,
   .pand, .por, .pxor, .pandn, .adda, .addai, .mova, .movs, .setdev, .setsp, .self,
   fun c x w => .ld8u c x w .ok, fun c x w => .ld16u c x w .ok, fun c x w => .ld32u c x w .ok, fun c x w => .ld64 c x w .ok,
   fun c x w => .ld8s c x w .ok, fun c x w => .ld16s c x w .ok, fun c x w => .ld32s c x w .ok,
   .st8, .st16, .st32, .st64, .reelGo, .reelStat, .crdGet, .crdWait, .crdGive,
   .knArrive, .knWait, .knGive, .knTake, .knSet, .knStore, .knRead, .knAbort]

/-- The scalar loads of R84: the bytes and whether they are signed. -/
def loadRows : List ((Nat → Stream → InsnW → Ecc → Instr) × Nat × Bool) :=
  [(.ld8u, 1, false), (.ld16u, 2, false), (.ld32u, 4, false), (.ld64, 8, false), (.ld8s, 1, true), (.ld16s, 2, true),
   (.ld32s, 4, true)]

/-- The scalar stores of R84: the bytes. -/
def storeRows : List ((Nat → Stream → InsnW → Instr) × Nat) := [(.st8, 1), (.st16, 2), (.st32, 4), (.st64, 8)]

/-- The four writes of SEQ_CTRL of R111, each with its bit. -/
def seqCtrlRows : List ((Nat → W32 → Instr) × Nat) := [(.startA, 0), (.startB, 1), (.stopA, 2), (.stopB, 3)]

/-- The array instructions of R148. -/
def tileRows : List ((Nat → Stream → BitVec 6 → InsnW → Instr) × TileKind) :=
  [(.arrFwd, .fwd), (.arrIg, .ig), (.arrWg, .wg), (.arrDist, .dist), (.arrSpill, .spill)]

/-- The vector instructions. -/
def vecRows : List ((Nat → Stream → InsnW → Instr) × VOp) :=
  [(.vadd, .add), (.vsub, .sub), (.vmul, .mul), (.vmin, .min), (.vmax, .max), (.vabs, .abs), (.vand, .and),
   (.vor, .or), (.vxor, .xor), (.vandn, .andn), (.vshl, .shl), (.vshr, .shr), (.vsra, .sra), (.vpopc, .popc),
   (.vfadd, .fadd), (.vfsub, .fsub), (.vfmul, .fmul), (.vfma, .fma), (.vfmin, .fmin), (.vfmax, .fmax), (.vfabs,
   .fabs), (.vfneg, .fneg), (.vcvt, .cvt), (.vexp2, .exp2), (.vexp, .exp), (.vlog2, .log2), (.vln, .ln), (.vrcp,
   .rcp), (.vsqrt, .sqrt), (.vrsqrt, .rsqrt), (.vdiv, .div), (.vtanh, .tanh), (.vsigm, .sigm), (.verf, .erf),
   (.vsinpi, .sinpi), (.vcospi, .cospi), (.vredSum, .redSum), (.vredProd, .redProd), (.vredMax, .redMax),
   (.vredMin, .redMin), (.vredCount, .redCount), (.vredMean, .redMean), (.vredSumsq, .redSumsq), (.vtredSum,
   .tredSum), (.vtredSumsq, .tredSumsq), (.vtredMax, .tredMax), (.vtredMin, .tredMin), (.vsmax, .smax), (.vtopk,
   .topk), (.vcmpk, .cmpk), (.vquant, .quant), (.vdeq, .deq), (.vld, .ld), (.vst, .st), (.vmov, .mov), (.vfill,
   .fill), (.vtransp, .transp), (.vspl, .spl), (.vsplexp, .splexp), (.vflags, .flags)]

/-- The writes of KEEL_STATE_REQ, each with the value of TO (R29). -/
def requestRows : List ((Who → Instr) × Nat) := [(.stow, 1), (.unrig, 2), (.land, 3), (.launch, 4)]

/-- The state and the target at the start of the transition that a value of TO names from a state (R27, R29). -/
def transition (st : DevState) (req : Nat) : Option (DevState × DevState) :=
  match st, req with
  | .moored, 1 => some (.keel, .keel)
  | .rigged, 2 => some (.moored, .moored)
  | .aloft, 3 => some (.aloft, .rigged)
  | .rigged, 4 => some (.aloft, .aloft)
  | _, _ => none

/-- The state after the board's frame q has been accepted and acknowledged with a status, before its effect (R585). -/
def State.acked (s : State) (q status : Nat) : State :=
  ({ s with env := { s.env with boardSeq := some q, boardStatus := status } } : State).sendRc 0x81 status q

/-- A package reset has put the device in KEEL, with a code latched when none was (R30, R558). -/
def State.ResetTo (s t : State) (code : Nat) : Prop :=
  t.keel.state = .keel ∧ t.keel.target = .keel ∧ t.stks = [] ∧ t.teth = {} ∧ t.knot = {} ∧ t.rig = {}
    ∧ t.env.ticks = s.env.ticks ∧ t.anc.owner = s.anc.owner ∧ (s.rip.code = 0 → t.rip.code = code)
    ∧ (s.rip.code ≠ 0 → s.rip.codeAt ≠ some s.env.ticks → t.rip.code = s.rip.code ∧ t.rip.more = true)

/-- The segment instructions, each with the KIND of the segment it stands for (R342). -/
def segmentRows : List ((Nat → Nat → Bool → Instr) × Nat) :=
  [(fun c r _ => .openSegment c r, 1), (.runSegment, 2), (.listSegment, 3)]

/-- The state after reel r of core c has sent its next segment, of a kind, to its engine. -/
def State.sentSegment (s : State) (c r kind : Nat) : State := s.coreAccess c (fun s => (s.sendSegment c r kind).1)

/-- Reel r of core c is to send segment bs of its descriptor i in progress, p, to engine st, which has nothing before it (R340, R343,
R351); every access of the sending and of the engine is served at once. -/
def State.SendsSegment (s : State) (c r kind i : Nat) (p : ReelProg) (bs : List Byte) (st : Nat) (residue : Bool) : Prop :=
  r < 2 ∧ s.coreRuns c = true ∧ ballastNext ((s.core c).reel r).prog = some (i, p)
    ∧ (s.reqsOf p.reqs).any (fun q => !q.done) = false ∧ p.sent = none
    ∧ (({ s with acc := { src := .core (s.logNum c), core := some c } } : State).segBytes p).2 = .ok bs
    ∧ (if leAt bs 0 1 = 1 ∨ leAt bs 0 1 = 3 then leAt bs 0 1 else 2) = kind
    ∧ (∃ a, s.locate (rdesc p.desc).dst = .stack st a)
    ∧ (s.stk st).bal.loading = false ∧ (s.stk st).bal.halted = false ∧ (s.stk st).bal.input = []
    ∧ s.coreServed c (fun s => (s.sendSegment c r kind).1) = true
    ∧ (s.sentSegment c r kind).served (.ballast st) none (fun s => s.balNext st residue) = true

/-- The knot instructions, each with its operation and whether it reads sA (R371). -/
def knRows : List ((Nat → Stream → InsnW → Instr) × KOp × Bool) :=
  [(.knArrive, .arrive, true), (.knWait, .wait, true), (.knGive, .give, true), (.knTake, .take, true),
   (.knSet, .set, false), (.knStore, .store, true), (.knRead, .read, false), (.knAbort, .abort, false)]

/-- The writes of KNT_OP, each with its operation (R390). -/
def kntRows : List ((Nat → BitVec 18 → Instr) × KOp) :=
  [(.kntOpArrive, .arrive), (.kntOpWait, .wait), (.kntOpGive, .give), (.kntOpTake, .take), (.kntOpSet, .set),
   (.kntOpStore, .store), (.kntOpRead, .read), (.kntOpAbort, .abort)]

/-- A block comes in on port p, which is UP, with a good CRC and the number the port expects (R396, R397). -/
def State.Arrives (s : State) (p : Nat) (h : Hop) (b : Block) (crc : Nat) : Prop :=
  s.portWin p = true ∧ (s.port p).state = .up ∧ crc32c (wireBody h b) = crc ∧ h.lseq = (s.port p).expect

/-- A block is for this device (R33, R407). -/
def State.ForMe (s : State) (b : Block) : Prop := b.dst = s.teth.self ∨ b.dst = 0xFFFF ∧ b.cls = 0

/-- The flows in which a received block is numbered, after it has authenticated (R401, R406). -/
def State.flowsFor (s : State) (p : Nat) (b : Block) : List Flow :=
  if blkOfLink b then (s.port p).rxFlows else (s.newEpoch b).teth.flows

/-- The context check of R407 lets a block pass. -/
def State.CtxTakes (s : State) (b : Block) : Prop :=
  b.cls = 1 ∨ b.cls = 2 → b.ctx ≠ 0xFFF ∧ (s.ctx b.ctx).state ≠ .closed ∧ (s.ctx b.ctx).gen = b.gen
    ∧ (s.ctx b.ctx).lo ≤ b.src ∧ b.src ≤ (s.ctx b.ctx).hi

/-- A block that port p expects, for this device, passes the checks of R407; it is c in the clear. -/
def State.AcceptsBlock (s : State) (p : Nat) (h : Hop) (b : Block) (crc : Nat) (c : Block) : Prop :=
  s.Arrives p h b crc ∧ s.ForMe b ∧ s.openRx p b = some c ∧ isReplay c (s.flowsFor p c) = false ∧ s.CtxTakes c

/-- The state after a handshake block on port p has been refused (R409). -/
def State.RefusedOn (s t : State) (p : Nat) : Prop :=
  (t.port p).refused = true ∧ (t.port p).hsRefused = cnt (s.port p).hsRefused 1 ∧ (t.port p).state = (s.port p).state
    ∧ t.cores = s.cores ∧ t.stks = s.stks

/-- The state after port p has failed to take the block it expects (R397, R398). -/
def State.FailedOn (s t : State) (p : Nat) : Prop :=
  (t.port p).expect = (if 7 ≤ (s.port p).fails then 0 else (s.port p).expect) ∧ t = { s with teth := t.teth }
    ∧ (if 7 ≤ (s.port p).fails then (t.port p).state = .retraining ∧ (t.port p).held = []
       else (t.port p).state = (s.port p).state ∧ (t.port p).fails = (s.port p).fails + 1 ∧ (t.port p).naked = true)

/-- The rigging controller has turned a command down (R490, R491): the code is recorded and counted, RIG_DONE tells the
runtime in RIGGED and ALOFT, and the configuration in force stays live; what its holds kept back may go on. -/
def State.RigRejects (s t : State) (st : RigState) (code frame detail : Nat) : Prop :=
  let d := Nat.min detail 0xFFFF
  t.rig.state = st ∧ t.rig.code = code ∧ t.rig.frame = frame ∧ t.rig.detail = d ∧ t.rig.rejects = cnt s.rig.rejects 1
    ∧ t.rig.live = s.rig.live ∧ t.rig.serial = s.rig.serial ∧ t.rig.shadow = s.rig.shadow ∧ t.keel = s.keel ∧ t.env = s.env
    ∧ t.host = s.host ∧ (∀ i, (t.stk i).mem = (s.stk i).mem ∧ (t.stk i).bal = (s.stk i).bal) ∧ t.knot.events = s.knot.events ++ (if s.diesUp then
        [{ code := 0x50, source := 0, arg := code * 0x1000000 + frame * 0x10000 + d }] else [])

/-- A command of ANC_CMD has failed (R516): the code, ERR and the count, and nothing else. -/
def State.ancFails (s : State) (op code : Nat) : State :=
  { s with anc := { s.anc with resCode := code, resOp := op, err := true, fails := cnt s.anc.fails 1 } }

/-- The anchor is free, and nothing waits for it (R508). -/
abbrev State.ancFree (s : State) : Prop := s.anc.op = none ∧ s.anc.waiting = []

/-- The host port may send at once (R518, R520): its link is up, its address is its own, and no PAUSE holds it. -/
abbrev State.hostSends (s : State) : Prop := s.hostUp = true ∧ s.host.dup = false ∧ s.host.paused ≤ s.env.ticks

/-- A datagram of a type that its session takes, with its body in the clear (R522 to R525). -/
abbrev State.Takes (s : State) (type : Nat) (d : Dgram) (pt : List Byte) : Prop :=
  s.hears d.vid = true ∧ s.host.dgForm type d = true ∧ s.openDg type d = some pt ∧ d.seq = (s.sess d.sess).expect

/-- The state after the header of a datagram that its session takes: the number expected next, the age, the
acknowledgement owed, and what its ACK acknowledges (R525). -/
def State.tookHeader (s : State) (d : Dgram) : State :=
  (s.updSess d.sess (fun q => { q with expect := q.expect + 1, age := 0, owed := true })).takeAck d.sess d.ack

/-- A datagram without a session, and a reply that opens one (R522). -/
def dgClear (addr port type sess : Nat) (body : List Byte) : Tx :=
  .dgram addr port (dgHeader type sess 0 0 0 body.length false ++ body)

/-- The next datagram that session n sends (R522, R524, R525). -/
def State.nextDgram (s : State) (n type : Nat) (body : List Byte) : Tx :=
  let q := s.sess n
  .dgram q.addr q.port (dgSeal q.txKey type n q.nextSeq q.expect body)

/-- Session n may send at once: it is open, and fewer than 1,024 datagrams are unacknowledged (R525). -/
abbrev State.sessSends (s : State) (n : Nat) : Prop :=
  s.hostSends ∧ (s.sess n).isOpen = true ∧ (s.sess n).unacked.length < 1024 ∧ (s.sess n).outq = []

/-- A core is fenced by a fault (R545, R547): the fault is reported, the core leaves service and its streams have
stopped. -/
def State.Fences (s t : State) (c cause : Nat) : Prop :=
  t.rip.fenced = s.rip.fenced ++ [c] ∧ t.rip.last = coreCode c cause ∧ t.rip.fault = true ∧ t.rip.fenceNew = true
    ∧ t.rip.faults = cnt s.rip.faults 1 ∧ (t.core c).fenced = true
    ∧ (t.core c).sa.state ≠ .running ∧ (t.core c).sb.state ≠ .running ∧ (t.core c).credit = 0
    ∧ ({ code := 0x60, source := 0, arg := coreCode c cause } : EvMsg) ∈ t.knot.events
    ∧ t.keel = s.keel ∧ t.anc = s.anc ∧ t.host = s.host ∧ t.teth = s.teth


/-- Registers of the keel, envelope, anchor, rigging and host windows with their reset values (chapter 18). -/
def keelResets : List (Nat × Nat) :=
  [(0x000, 0), (0x100, 0x101), (0x108, 0), (0x200, 0), (0x204, 0x1A), (0x20C, 0x1A00), (0x210, 0x44C), (0x214, 0x44C),
   (0x218, 0x1D), (0x21C, 0x800A2004), (0x220, 0x80064), (0x224, 0), (0x228, 0x320A0A32), (0x22C, 0), (0x230, 0x1F00),
   (0x234, 0), (0x300, 0), (0x30C, 0), (0x310, 0x100), (0x314, 0xA0A0A), (0x32C, 0), (0x330, 0), (0x400, 0),
   (0x100000, 0x40), (0x100008, 0), (0x10000C, 0), (0x200000, 0), (0x200008, 0xFF0000), (0x20000C, 0), (0x200010, 0x64),
   (0x200014, 0), (0x200040, 0xFF), (0x300000, 0), (0x300004, 0x140A0003), (0x300008, 0), (0x300040, 0),
   (0x4C000C, 0), (0x4C0010, 0), (0x4D0004, 1), (0x4F0008, 0), (0xF00000, 0), (0xF00010, 0)]

/-- Registers of a tether port with their reset values. -/
def portResets : List (Nat × Nat) := [(0x0, 0), (0x4, 0), (0x8, 0xFFFF), (0x10, 0), (0x38, 0)]

/-- Registers of a transfer context with their reset values. -/
def ctxResets : List (Nat × Nat) := [(0x0, 0x64), (0x4, 0xFFFE0000), (0xC, 0)]

/-- Registers of a stack window with their reset values. -/
def stackResets : List (Nat × Nat) :=
  [(0x0, 0), (0x4, 1), (0x8, 0), (0x20, 0), (0x24, 0), (0x28, 0), (0x30, 8), (0x34, 0), (0x40, 0), (0x50, 0), (0x1000, 0),
   (0x1008, 0), (0x100C, 0), (0x1010, 0), (0x1018, 0), (0x1020, 0), (0x1028, 0), (0x1040, 0)]

/-- Registers of a core window with their reset values. -/
def coreResets : List (Nat × Nat) :=
  [(0x0, 0), (0x4, 0), (0x8, 0), (0xC, 0), (0x10, 0), (0x18, 0), (0x20, 0x121), (0x30, 0), (0x34, 0x10000), (0x38, 0),
   (0x100, 0), (0x200, 0), (0x204, 0), (0x208, 0), (0x4000, 0), (0x4004, 0x219A0298), (0x4008, 0), (0x400C, 0),
   (0x4010, 0x3FFFF000), (0x4014, 0), (0x4018, 0), (0x4020, 0), (0x4100, 0), (0x4104, 0), (0x4110, 0), (0x4120, 0),
   (0x4200, 0), (0x4214, 0), (0x4218, 0), (0x4800, 0), (0x5000, 0), (0x5004, 0), (0x6000, 0), (0x6004, 0), (0x6008, 0),
   (0x6010, 0), (0x6100, 0), (0x7000, 0), (0x7004, 0), (0x7008, 0), (0x7010, 1), (0x7014, 0)]

end Sys2Proof.Machine

/-- A step runs the command at the front of the queue. For every command i and state s whose queue is i followed by rest,
step s is exec i on s with the queue rest. (01_device_outline.md) -/
def Obligations.StepRunsTheFrontCommand : Prop :=
  ∀ (s : State) (i : Instr) (rest : List Instr), s.pending = i :: rest → step s = exec i { s with pending := rest }

/-- No command changes the queue. Whatever a command does, the commands that wait behind it stay as they are. The queue is
the model's (log entry 1). (01_device_outline.md) -/
def Obligations.ExecLeavesTheQueueAlone : Prop :=
  ∀ (i : Instr) (s t : State), exec i s = .next t → t.pending = s.pending

/-- No command ends in a fault or a refusal. exec answers a next state for every command in every state: what each one's
next state holds, the other statements say. (01_device_outline.md) -/
def Obligations.EveryCommandAnswersANextState : Prop :=
  ∀ (i : Instr) (s : State), ∃ t, exec i s = .next t

/-- With an empty queue one keel tick passes. With nothing waiting, outside OFF and with no interval boundary on the next
tick, a step counts one keel tick modulo 2^64 and leaves the keel domain, the rigging unit, the anchor, the stacks and
the ports as they are. That time passes on an empty queue is the model's choice (log entry 1). (R442) -/
def Obligations.AnEmptyQueueLetsOneKeelTickPass : Prop :=
  ∀ s : State, s.pending = [] → s.keel.state ≠ .off → ((s.env.ticks + 1) % 2 ^ 64) % 500 ≠ 0 →
    ∃ t, step s = .next t ∧ t.env.ticks = (s.env.ticks + 1) % 2 ^ 64 ∧ t.keel = s.keel ∧ t.rig = s.rig ∧ t.anc = s.anc
      ∧ t.stks = s.stks ∧ t.teth = s.teth ∧ t.knot = s.knot ∧ t.pending = []

/-- The device stays in a legal mode. From every state whose STATE and TARGET name a state of the device or a transition
of R27, whose boot ROM runs exactly while the device rises from KEEL and has stopped only in KEEL, every step leads to
a state of which the same holds. (R26, R27) -/
def Obligations.EveryStepKeepsALegalMode : Prop :=
  ∀ s t : State, s.keel.ok = true → step s = .next t → t.keel.ok = true

/-- The state after reset is in a legal mode, and its stores are canonical. State.reset is in KEEL with no transition in
progress, and every store of bytes is in its canonical form. (R26) -/
def Obligations.ResetIsInALegalMode : Prop :=
  State.reset.keel.ok = true ∧ State.reset.memOk ∧ State.reset.keel.state = .keel ∧ State.reset.pending = []

/-- Scalar, address and predicate registers. A scalar register reads the value last written to it, and the others keep
theirs; s0 reads as 0 and a write to it is discarded; p0 reads as 1 and a write to it is discarded; an address
register reads what was written. (R69, R70) -/
def Obligations.RegisterFilesReadWhatWasWritten : Prop :=
  ∀ (t : StreamSt) (r q : Nat) (v : W64) (b : Bool),
    (t.setS r v).getS q = (if q = 0 then 0 else if q = r then v else t.getS q)
    ∧ (t.setS r v).a = t.a ∧ (t.setS r v).p = t.p
    ∧ (t.setP r b).getP q = (if q = 0 then true else if q = r then b else t.getP q)
    ∧ (t.setP r b).s = t.s ∧ (t.setP r b).a = t.a
    ∧ (t.setA r v).getA q = (if q = r then v else t.getA q) ∧ (t.setA r v).s = t.s ∧ (t.setA r v).p = t.p

/-- Instructions whose predicate is off, and instructions outside scratch. Any scalar, memory, reel, credit or knot
instruction that its stream can issue has no effect but to go on at PC + 8 when its predicate does not let it act, and
raises FETCH_FAULT when its address is outside scratch; one with a reserved opcode raises ILLEGAL_OP. No fetch from
the span of a stale guard is stated. On a stream that cannot issue it, nothing changes. (R72, R74, R76, R86) -/
def Obligations.PredicatedOffAndFaultyFetches : Prop :=
  ∀ i ∈ scalarInsns, ∀ (c : Nat) (x : Stream) (w : InsnW) (s : State),
    let u := (s.core c).st x
    (s.canIssue c x = true → u.pc < 0x400000 → (s.core c).readStalls (s.scrAddr c u.pc) 8 = false →
      (u.predOn w = false → exec (i c x w) s = .next (s.withStream c x (u.ended (u.pc + 8))))
      ∧ (u.predOn w = true → reservedOp w.op.toNat = true → exec (i c x w) s = .next (s.raise c x 0x01)))
    ∧ (s.canIssue c x = true → 0x400000 ≤ u.pc → exec (i c x w) s = .next (s.raise c x 0x08))
    ∧ (s.canIssue c x = false → exec (i c x w) s = .next s)

/-- What raising an exception does. An instruction that raises an exception leaves every register, predicate and address
register of its stream and its pc as they are; the stream is in EXCEPTION, SEQ_EXC holds the code and the address, the
runtime is told, and with HALT_BOTH the other stream, when it runs, halts. No store and no other core changes. (R86, R87) -/
def Obligations.ExceptionsStopTheStream : Prop :=
  ∀ (c : Nat) (x : Stream) (code : Nat) (s : State),
    let t := s.raise c x code
    let u := (t.core c).st x
    let v := (s.core c).st x
    u.state = .exception ∧ u.excCode = code ∧ u.excPc = v.pc ∧ u.pc = v.pc ∧ u.s = v.s ∧ u.a = v.a ∧ u.p = v.p
    ∧ ((s.core c).haltBoth = false → (t.core c).st (sOther x) = (s.core c).st (sOther x))
    ∧ ((s.core c).haltBoth = true → ((s.core c).st (sOther x)).state = .running →
        ((t.core c).st (sOther x)).state = .halted)
    ∧ t.knot.events = s.knot.events ++ [{ code := 0x02, source := s.logNum c, arg := sNum x * 0x10000 + code }]
    ∧ (t.core c).scratch = (s.core c).scratch ∧ (∀ j, j ≠ c → t.core j = s.core j)
    ∧ t = { s with cores := t.cores, knot := t.knot }

/-- The SALU and SALUI instructions: results, DIV0 and frame. Each of the 21 scalar instructions that acts, in either
form, writes the value of R82 to sD, a divisor of 0 sets DIV0, and the stream goes on at PC + 8. Nothing else of the
device changes but the core's watchdog and idle counts. MOV needs A = 0, and MOVH exists in its immediate form with A
equal to D. (R82) -/
def Obligations.ScalarArithmeticAndMoves : Prop :=
  ((∀ r ∈ aluRows, ∀ (c : Nat) (x : Stream) (imm : Bool) (w : InsnW) (s : State), s.Acts c x w (iA w :: srcB imm w) →
      fmtRI imm w = true →
      let u := (s.core c).st x
      exec (r.1 c x imm w) s
        = .next (s.withStream c x ((u.setS (iD w) (r.2 (u.getS (iA w)) (u.opB imm w))).ended (u.pc + 8))))
  ∧ ∀ r ∈ divRows, ∀ (c : Nat) (x : Stream) (imm : Bool) (w : InsnW) (s : State), s.Acts c x w (iA w :: srcB imm w) →
      fmtRI imm w = true →
      let u := (s.core c).st x
      exec (r.1 c x imm w) s
        = .next (s.withStream c x ((({ u with div0 := u.div0 || u.opB imm w == 0 } : StreamSt).setS (iD w)
            (r.2 (u.getS (iA w)) (u.opB imm w))).ended (u.pc + 8))))
  ∧ ∀ (c : Nat) (x : Stream) (w : InsnW) (s : State),
    let u := (s.core c).st x
    (∀ imm : Bool, s.Acts c x w (srcB imm w) → fmtRI imm w = true → iA w = 0 →
      exec (.mov c x imm w) s = .next (s.withStream c x ((u.setS (iD w) (u.opB imm w)).ended (u.pc + 8))))
    ∧ (s.Acts c x w [iD w] → fmtI w = true → iA w = iD w →
      ∃ v : W64, exec (.movh c x true w) s = .next (s.withStream c x ((u.setS (iD w) v).ended (u.pc + 8)))
        ∧ v.toNat / 2 ^ 32 = iImmU w ∧ v.toNat % 2 ^ 32 = (u.getS (iD w)).toNat % 2 ^ 32)

/-- The SCMP and ADDR instructions. A comparison of either form writes pD, signed or unsigned as its name says; the
predicate logic writes its function of pA and pB. ADDA and ADDAI add to the offset of aA modulo 2^44, keep bits
[63:44], and set AOVF when the sum leaves 0 to 2^44 - 1; MOVA and MOVS copy; SETDEV, SETSP and SELF replace a field
and keep the rest. The stream goes on at PC + 8, and nothing else changes. That ADDA reads sB as a signed number is
log entry 12. (R83) -/
def Obligations.ComparisonsPredicatesAndAddresses : Prop :=
  ((∀ r ∈ cmpRows, ∀ (c : Nat) (x : Stream) (w : InsnW) (s : State),
      let u := (s.core c).st x
      (s.Acts c x w [iA w, iB w] → fmtR w = true → iD w < 8 →
        exec (r.1 c x w) s
          = .next (s.withStream c x ((u.setP (iD w) (r.2.2 (u.getS (iA w)) (u.getS (iB w)))).ended (u.pc + 8))))
      ∧ (s.Acts c x w [iA w] → fmtI w = true → iD w < 8 →
        exec (r.2.1 c x w) s
          = .next (s.withStream c x ((u.setP (iD w) (r.2.2 (u.getS (iA w)) (BitVec.ofInt 64 (iImm w)))).ended (u.pc + 8)))))
  ∧ ∀ r ∈ predRows, ∀ (c : Nat) (x : Stream) (w : InsnW) (s : State), s.Acts c x w [] → fmtR w = true → iD w < 8 →
      iA w < 8 → iB w < 8 →
      let u := (s.core c).st x
      exec (r.1 c x w) s = .next (s.withStream c x ((u.setP (iD w) (r.2 (u.getP (iA w)) (u.getP (iB w)))).ended (u.pc + 8))))
  ∧ ∀ (c : Nat) (x : Stream) (w : InsnW) (s : State),
    let u := (s.core c).st x
    let a := (u.getA (iA w)).toNat
    (∀ (i : Int) (e : Instr), (e = .adda c x w ∧ i = (u.getS (iB w)).toInt ∧ s.Acts c x w [iB w] ∧ fmtR w = true
          ∨ e = .addai c x w ∧ i = iImm w ∧ s.Acts c x w [] ∧ fmtI w = true) → iD w < 16 → iA w < 16 →
      ∃ v : W64, exec e s = .next (s.withStream c x
          ((({ u with aovf := u.aovf || decide ((a : Int) % 2 ^ 44 + i < 0 ∨ 2 ^ 44 ≤ (a : Int) % 2 ^ 44 + i) } : StreamSt).setA
            (iD w) v).ended (u.pc + 8)))
        ∧ v.toNat / 2 ^ 44 = a / 2 ^ 44 ∧ ((v.toNat % 2 ^ 44 : Nat) : Int) = ((a : Int) + i) % 2 ^ 44)
    ∧ (s.Acts c x w [iA w] → iw w 37 0 = 0 → iD w < 16 →
      exec (.mova c x w) s = .next (s.withStream c x ((u.setA (iD w) (u.getS (iA w))).ended (u.pc + 8))))
    ∧ (s.Acts c x w [] → iw w 37 0 = 0 → iA w < 16 →
      exec (.movs c x w) s = .next (s.withStream c x ((u.setS (iD w) (u.getA (iA w))).ended (u.pc + 8))))
    ∧ (s.Acts c x w [] → iD w < 16 → iA w < 16 →
      (fmtI w = true → iw w 31 16 = 0 → ∃ v : W64,
        exec (.setdev c x w) s = .next (s.withStream c x ((u.setA (iD w) v).ended (u.pc + 8)))
          ∧ v.toNat / 2 ^ 48 = iw w 15 0 ∧ v.toNat % 2 ^ 48 = a % 2 ^ 48)
      ∧ (fmtI w = true → iw w 31 4 = 0 → ∃ v : W64,
        exec (.setsp c x w) s = .next (s.withStream c x ((u.setA (iD w) v).ended (u.pc + 8)))
          ∧ v.toNat / 2 ^ 48 = a / 2 ^ 48 ∧ v.toNat / 2 ^ 44 % 16 = iw w 3 0 ∧ v.toNat % 2 ^ 44 = a % 2 ^ 44)
      ∧ (iw w 37 0 = 0 → s.teth.self < 2 ^ 16 → ∃ v : W64,
        exec (.self c x w) s = .next (s.withStream c x ((u.setA (iD w) v).ended (u.pc + 8)))
          ∧ v.toNat / 2 ^ 48 = s.teth.self ∧ v.toNat % 2 ^ 48 = a % 2 ^ 48))

/-- The CTRL instructions. NOP and SYNCI go on at PC + 8. HALT stops the stream with pc = PC + 8. EVENT sends a USER
event. BR and CALL go to PC + 8 times the immediate, and CALL writes PC + 8 to s31; JR goes to sA. A target that is
not an instruction in scratch raises FETCH_FAULT. TWAIT, RWAIT and FENCE go on at PC + 8 once what they wait for
holds, and TWAIT and RWAIT are WAITING before. Nothing else changes. (R81, R73, R104) -/
def Obligations.ControlInstructions : Prop :=
  (∀ (c : Nat) (x : Stream) (w : InsnW) (s : State),
    let u := (s.core c).st x
    let tg : Int := (u.pc : Int) + 8 * iImm w
    (s.Acts c x w [] → iw w 47 0 = 0 →
      exec (.nop c x w) s = .next (s.withStream c x (u.ended (u.pc + 8)))
      ∧ exec (.synci c x w) s = .next (s.withStream c x (u.ended (u.pc + 8)))
      ∧ exec (.halt c x w) s = .next (s.withStream c x { u.ended (u.pc + 8) with state := .halted }))
    ∧ (s.Acts c x w [] → iw w 47 16 = 0 →
      exec (.event c x w) s
        = .next ((s.event 0x01 (s.logNum c) (sNum x * 0x10000 + iw w 15 0)).withStream c x (u.ended (u.pc + 8))))
    ∧ (s.Acts c x w [] → iw w 47 32 = 0 → 0 ≤ tg → tg < 0x400000 → tg % 8 = 0 →
      exec (.br c x w) s = .next (s.withStream c x (u.ended tg.toNat))
      ∧ exec (.call c x w) s = .next (s.withStream c x ((u.setS 31 (BitVec.ofNat 64 (u.pc + 8))).ended tg.toNat)))
    ∧ (s.Acts c x w [iA w] → fmtR w = true → iD w = 0 → iB w = 0 → (u.getS (iA w)).toNat < 0x400000 →
        (u.getS (iA w)).toNat % 8 = 0 →
      exec (.jr c x w) s = .next (s.withStream c x (u.ended (u.getS (iA w)).toNat)))
    ∧ (s.Acts c x w [] → iw w 47 32 = 0 → tg < 0 ∨ 0x400000 ≤ tg ∨ tg % 8 ≠ 0 →
      exec (.br c x w) s = .next (s.raise c x 0x08) ∧ exec (.call c x w) s = .next (s.raise c x 0x08))
    ∧ (s.Acts c x w [iA w] → fmtR w = true → iD w = 0 → iB w = 0 →
        0x400000 ≤ (u.getS (iA w)).toNat ∨ (u.getS (iA w)).toNat % 8 ≠ 0 →
      exec (.jr c x w) s = .next (s.raise c x 0x08)))
  ∧ ∀ (c : Nat) (x : Stream) (w : InsnW) (s : State),
    let u := (s.core c).st x
    (s.Acts c x w [] → iw w 47 32 = 0 → iImmU w ≤ 7 →
      exec (.twait c x w) s = .next (if (s.core c).arr.inFlight x ≤ iImmU w then s.withStream c x (u.ended (u.pc + 8))
        else s.waitFor c x .twait))
    ∧ (s.Acts c x w [] → iw w 47 32 = 0 → iw w 31 17 = 0 → iw w 15 9 = 0 →
      exec (.rwait c x w) s = .next (if ((s.core c).reel (iw w 16 16)).pending ≤ iw w 8 0
        then s.withStream c x (u.ended (u.pc + 8)) else s.waitFor c x .rwait))
    ∧ (s.Acts c x w [] → iw w 47 32 = 0 → iw w 31 5 = 0 →
        (∀ b < 5, (iImmU w).testBit b = true → s.fenceOk c x b = true) →
      exec (.fence c x w) s = .next (s.withStream c x (u.ended (u.pc + 8))))

/-- CRD.GET, CRD.WAIT and CRD.GIVE. CRD.GET writes the balance to sD. CRD.WAIT goes on once the balance reaches sA, is
WAITING before, and above the cap raises CREDIT_CAP. CRD.GIVE takes the lesser of sA and the balance from the balance
and sends it as one credit return, with the core's logical number, to the envelope controller. The stream goes on at
PC + 8; no other core, and no store, changes. A nonzero A or IMM of CRD.GET raises ILLEGAL_OP, and so does a nonzero D
or B of CRD.WAIT or CRD.GIVE, which is the model's choice (log entry 106). (R99, R100, R454, R97) -/
def Obligations.CreditInstructions : Prop :=
  (∀ (c : Nat) (x : Stream) (w : InsnW) (s : State),
    let u := (s.core c).st x
    (s.Acts c x w [] → fmtI w = true → iA w = 0 → iImmU w = 0 →
      exec (.crdGet c x w) s
        = .next (s.withStream c x ((u.setS (iD w) (BitVec.ofNat 64 (s.core c).credit)).ended (u.pc + 8))))
    ∧ (s.Acts c x w [iA w] → fmtR w = true → iD w = 0 → iB w = 0 →
      let n := Nat.min (u.getS (iA w)).toNat (s.core c).credit
      ∃ t, exec (.crdGive c x w) s = .next t
        ∧ (t.core c).credit = (s.core c).credit - n
        ∧ t.env = { s.env with msgs := s.env.msgs ++ [.give (s.logNum c) n] }
        ∧ (t.core c).st x = u.ended (u.pc + 8) ∧ (t.core c).st (sOther x) = (s.core c).st (sOther x)
        ∧ (t.core c).scratch = (s.core c).scratch
        ∧ (∀ j, j ≠ c → t.core j = s.core j) ∧ t = { s with cores := t.cores, env := t.env })
    ∧ (s.Acts c x w [] → fmtI w = false ∨ iA w ≠ 0 ∨ iImmU w ≠ 0 → exec (.crdGet c x w) s = .next (s.raise c x 0x01))
    ∧ (s.Acts c x w [] → fmtR w = false ∨ iD w ≠ 0 ∨ iB w ≠ 0 →
      exec (.crdWait c x w) s = .next (s.raise c x 0x01) ∧ exec (.crdGive c x w) s = .next (s.raise c x 0x01)))
  ∧ ∀ (c : Nat) (x : Stream) (w : InsnW) (s : State),
    let u := (s.core c).st x
    s.Acts c x w [iA w] → fmtR w = true → iD w = 0 → iB w = 0 →
      exec (.crdWait c x w) s = .next (if (s.core c).cap < (u.getS (iA w)).toNat then s.raise c x 0x06
        else if (u.getS (iA w)).toNat ≤ (s.core c).credit then s.withStream c x (u.ended (u.pc + 8))
        else s.waitFor c x .crdWait)

/-- LD8U to LD32S from the own device, and their return. A load that acts, of an address that R84 and R34 allow on the own
device, with no stale guard on its span, no earlier vector write of it to come, no error in the word read and a stack
that can serve it, reads its bytes little-endian, zero- or sign-extended. From the core's own stores it writes sD and
goes on at PC + 8. From elsewhere it goes on at PC + 8 with sD on its way, and SCALAR_LOAD_RETURN writes that value to
sD unless a later write came first. No store changes. (R84, R78, R103, R312) -/
def Obligations.ScalarLoadsOfThePackage : Prop :=
  (∀ r ∈ loadRows, ∀ (c : Nat) (x : Stream) (w : InsnW) (s : State),
      let u := (s.core c).st x
      let g := (offAdd (u.getA (iA w)) (iImm w)).toNat
      let l := s.locate g
      let n := r.2.1
      let v := ldVal n r.2.2 (s.bytesAt l n)
      s.Acts c x w [] → fmtM w = true → s.scalarFault (u.getA (iA w)) (iImm w) n = none → aDev g = s.teth.self →
        (s.core c).readStalls g n = false → s.vecAhead c x false g n = false → s.clean l = true →
        s.canServe (.core (s.logNum c)) false l = true →
      (l.core = some c →
        exec (r.1 c x w .ok) s = .next (s.withStream c x ((u.setS (iD w) v).ended (u.pc + 8))))
      ∧ (l.core ≠ some c →
        ∃ t, exec (r.1 c x w .ok) s = .next t
          ∧ (t.core c).loads = (s.core c).loads ++ [{ x, d := iD w, ticket := (s.core c).nextTicket, v }]
          ∧ (t.core c).st x = (u.await (iD w) (s.core c).nextTicket).ended (u.pc + 8)
          ∧ (∀ q, t.cell q = s.cell q) ∧ ∀ j, j ≠ c → t.core j = s.core j))
  ∧ ∀ (c k : Nat) (s : State) (l : LoadRet), (s.core c).loads[k]? = some l →
      ∃ t, exec (.scalarLoadReturn c k) s = .next t ∧ (t.core c).loads = (s.core c).loads.eraseIdx k
        ∧ (t.core c).st l.x = ((s.core c).st l.x).deliver l.d l.ticket l.v
        ∧ (t.core c).st (sOther l.x) = (s.core c).st (sOther l.x)
        ∧ (∀ q, t.cell q = s.cell q) ∧ ∀ j, j ≠ c → t.core j = s.core j

/-- ST8 to ST64 on the own device: the bytes stored and every byte left alone. A store that acts, of an address that R84
and R34 allow on the own device and that the firmware's span does not keep out, with no earlier vector access to its
bytes to come and a stack that can serve it, goes on at PC + 8. The low bytes of sD stand little-endian at its
address, where a stack neither is in FAULT nor holds an error in that codeword, and every other byte of every store is
as before, when no upset stands in that codeword. No register changes. (R84, R103, R310, R312) -/
def Obligations.ScalarStoresOfThePackage : Prop :=
  ∀ r ∈ storeRows, ∀ (c : Nat) (x : Stream) (w : InsnW) (s : State),
    let u := (s.core c).st x
    let g := (offAdd (u.getA (iA w)) (iImm w)).toNat
    let l := s.locate g
    let n := r.2
    s.Acts c x w [iD w] → fmtM w = true → s.scalarFault (u.getA (iA w)) (iImm w) n = none → aDev g = s.teth.self →
      s.fwGuards {} g n = false → s.vecAhead c x true g n = false → s.canServe (.core (s.logNum c)) true l = true →
    ∃ t, exec (r.1 c x w) s = .next t
      ∧ (t.core c).st x = u.ended (u.pc + 8) ∧ (t.core c).st (sOther x) = (s.core c).st (sOther x)
      ∧ (s.clean l = true → t.bytesAt l n = leBytes n (u.getS (iD w)).toNat)
      ∧ (s.upset l = false → ∀ q, (∀ i < n, q ≠ l.shift i) → t.cell q = s.cell q)
      ∧ ∀ j, j ≠ c → (t.core j).st .a = (s.core j).st .a ∧ (t.core j).st .b = (s.core j).st .b

/-- Scalar loads and stores whose address R84 and R85 refuse. A scalar load or store that acts raises ADDR_FAULT when the
sum of the offset and the immediate leaves 0 to 2^44 - 1, else ALIGN when the address is no multiple of its size, else
ADDR_FAULT when the address names device 0xFFFF or space 0xF; and it has no other effect. (R84, R85, R34) -/
def Obligations.ScalarAccessesThatTrap : Prop :=
  ∀ (c : Nat) (x : Stream) (w : InsnW) (s : State) (n : Nat) (e : Instr),
    (e ∈ loadRows.filterMap (fun r => if r.2.1 = n then some (r.1 c x w .ok) else none) ∧ s.Acts c x w []
      ∨ e ∈ storeRows.filterMap (fun r => if r.2 = n then some (r.1 c x w) else none) ∧ s.Acts c x w [iD w]) →
    fmtM w = true →
    let a := ((s.core c).st x).getA (iA w)
    let o : Int := (aOff a.toNat : Int) + iImm w
    let g := (offAdd a (iImm w)).toNat
    (o < 0 ∨ 2 ^ 44 ≤ o → exec e s = .next (s.raise c x 0x02))
    ∧ (0 ≤ o → o < 2 ^ 44 → g % n ≠ 0 → exec e s = .next (s.raise c x 0x03))
    ∧ (0 ≤ o → o < 2 ^ 44 → g % n = 0 → aDev g = 0xFFFF ∨ aSpace g = 15 → exec e s = .next (s.raise c x 0x02))

/-- START_A, START_B, STOP_A and STOP_B. A write of SEQ_CTRL with one of the four bits set reaches the core's window when
the window can be written: a HALTED stream whose START is set and STOP clear runs from its pc, one in EXCEPTION does
so with its exception cleared, a RUNNING stream whose STOP is set is HALTED, a stream that runs or waits ignores
START, and HALT_BOTH takes bit 7. Registers and pcs stay, and nothing but that core changes. While a commit holds
starts back, the START of a stream that could take it is kept. (R111, R488) -/
def Obligations.SequencerControlWrites : Prop :=
  ∀ r ∈ seqCtrlRows, ∀ (c : Nat) (v : W32) (s : State), s.coreWin c = true → v.toNat.testBit r.2 = true →
    ∃ t, exec (r.1 c v) s = .next t ∧ (t.core c).haltBoth = v.toNat.testBit 7
      ∧ (∀ x : Stream,
          let u := (s.core c).st x
          let u' := (t.core c).st x
          let start := v.toNat.testBit (sNum x)
          let stop := v.toNat.testBit (sNum x + 2)
          u'.s = u.s ∧ u'.a = u.a ∧ u'.p = u.p ∧ u'.pc = u.pc
          ∧ (stop = false → start = true → (s.core c).startHold = false → u.state = .halted ∨ u.state = .exception →
              u'.state = .running)
          ∧ (stop = false → start = true → (s.core c).startHold = false → u.state = .exception → u'.excCode = 0 ∧ u'.excPc = 0)
          ∧ (stop = false → start = true → (s.core c).startHold = true → u'.state = u.state
              ∧ (u.state = .halted ∨ u.state = .exception → u'.startReq = true)
              ∧ (u.state = .running ∨ u.state = .waiting → u' = u))
          ∧ (stop = false → start = true → (s.core c).startHold = false → u.state = .running ∨ u.state = .waiting → u' = u)
          ∧ (stop = true → u.state = .running → u'.state = .halted)
          ∧ (stop = false → start = false → u' = u))
      ∧ (t.core c).scratch = (s.core c).scratch ∧ (∀ j, j ≠ c → t.core j = s.core j) ∧ t = { s with cores := t.cores }

/-- Writes of SEQ_PC, SEQ_REELr_RING, SEQ_CREDIT_CAP, SEQ_ARB and SEQ_REELr_RESUME. SEQ_PC takes bits [21:3] while its
stream neither runs nor waits, SEQ_REELr_RING its fields while nothing is pending, and otherwise WR_IGN is set; a cap
below the balance lowers the balance to it and counts what is lost; a weight of 0 stores 1; FLUSH empties the ring,
and SKIP passes the failed descriptor of a stopped reel. Nothing but that core changes, but for the watch ranges of
copies that FLUSH discards. (R113, R114, R115, R116, R96) -/
def Obligations.SequencerRegisterWrites : Prop :=
  ∀ (c : Nat) (v : W32) (s : State), s.coreWin c = true →
    let k := s.core c
    let n := v.toNat
    (∀ x : Stream, ∃ t, exec (.seqPcWrite c x v) s = .next t ∧ t = { s with cores := t.cores }
      ∧ (∀ j, j ≠ c → t.core j = s.core j)
      ∧ (if (k.st x).state = .running ∨ (k.st x).state = .waiting then (t.core c).wrIgn = true ∧ (t.core c).st x = k.st x
         else (t.core c).st x = { k.st x with pc := n / 8 % 2 ^ 19 * 8 } ∧ (t.core c).wrIgn = k.wrIgn))
    ∧ (∀ r < 2, ∃ t, exec (.seqReelRingWrite c r v) s = .next t ∧ t = { s with cores := t.cores }
      ∧ (∀ j, j ≠ c → t.core j = s.core j)
      ∧ (if (k.reel r).pending ≠ 0 then (t.core c).wrIgn = true ∧ (t.core c).reel r = k.reel r
         else (t.core c).reel r = { k.reel r with sizeM1 := n / 2 ^ 24, base := n / 64 % 2 ^ 16 }))
    ∧ (∃ t, exec (.seqCreditCapWrite c v) s = .next t ∧ t = { s with cores := t.cores } ∧ (t.core c).cap = n
      ∧ (t.core c).credit = Nat.min k.credit n ∧ (k.lost ≤ 0xFFFFFFFF → (t.core c).lost = Nat.min (k.lost + (k.credit - n)) 0xFFFFFFFF)
      ∧ (∀ j, j ≠ c → t.core j = s.core j))
    ∧ (∃ t, exec (.seqArbWrite c v) s = .next t ∧ t = { s with cores := t.cores }
      ∧ (t.core c).wa = Nat.max 1 (n % 16) ∧ (t.core c).wb = Nat.max 1 (n / 16 % 16) ∧ (t.core c).arbFirst = n.testBit 8
      ∧ (t.core c).sa = k.sa ∧ (t.core c).sb = k.sb ∧ (∀ j, j ≠ c → t.core j = s.core j))
    ∧ (∀ r < 2, n.testBit 1 = true → ∃ t, exec (.reelResumeFlush c r v) s = .next t
      ∧ (let q := (t.core c).reel r
         q.pending = 0 ∧ q.head = (k.reel r).tail ∧ q.tail = (k.reel r).tail ∧ q.stopped = false ∧ q.prog = [])
      ∧ (∀ j, j ≠ c → t.core j = s.core j) ∧ ∀ p, t.cell p = s.cell p)
    ∧ ∀ r < 2, n.testBit 0 = true → n.testBit 1 = false → (k.reel r).stopped = true →
      ∃ t, exec (.reelResumeSkip c r v) s = .next t
        ∧ (let q := (t.core c).reel r
           q.pending = (k.reel r).pending - 1 ∧ q.head = ((k.reel r).head + 1) % ((k.reel r).sizeM1 + 1)
             ∧ q.tail = (k.reel r).tail ∧ q.stopped = false ∧ q.err = 0)
        ∧ (∀ j, j ≠ c → t.core j = s.core j) ∧ ∀ p, t.cell p = s.cell p

/-- REEL.GO and REEL.STAT. REEL.GO makes the next n descriptors of the ring pending, raises REEL_FULL when they do not fit
beside those pending, and BAD_DESC when the ring does not lie within scratch (which of the two comes first is the
model's choice, log entry 106); REEL.STAT writes SEQ_REELr_HEAD to sD; the stream goes on at PC + 8 and nothing else
changes. An IMM bit, an A field or a count that R94 does not allow raises ILLEGAL_OP. (R94, R116, R76) -/
def Obligations.ReelInstructions : Prop :=
  ∀ (c : Nat) (x : Stream) (w : InsnW) (s : State),
    let u := (s.core c).st x
    let r := iw w 16 16
    let q := (s.core c).reel r
    let n := iw w 8 0
    let size := q.sizeM1 + 1
    (s.Acts c x w [] → iw w 47 32 = 0 → iw w 31 17 = 0 → iw w 15 9 = 0 → 1 ≤ n → n ≤ 256 →
        q.base * 64 + 64 * size ≤ 0x400000 →
      (q.pending + n ≤ size → ∃ t, exec (.reelGo c x w) s = .next t
        ∧ (t.core c).reel r = { q with tail := (q.tail + n) % size, pending := q.pending + n,
                                       owners := q.owners ++ List.replicate n x }
        ∧ (t.core c).reel (1 - r) = (s.core c).reel (1 - r) ∧ (t.core c).st x = u.ended (u.pc + 8)
        ∧ (t.core c).st (sOther x) = (s.core c).st (sOther x) ∧ (∀ j, j ≠ c → t.core j = s.core j)
        ∧ t = { s with cores := t.cores } ∧ ∀ p, t.cell p = s.cell p)
      ∧ (size < q.pending + n → exec (.reelGo c x w) s = .next (s.raise c x 0x07)))
    ∧ (s.Acts c x w [] → fmtI w = true → iA w = 0 → iw w 31 17 = 0 → iw w 15 0 = 0 →
      exec (.reelStat c x w) s
        = .next (s.withStream c x ((u.setS (iD w) (BitVec.ofNat 64 (q.pending * 0x10000 + q.tail * 0x100 + q.head))).ended
            (u.pc + 8))))
    ∧ (s.Acts c x w [] → iw w 47 32 = 0 → iw w 31 17 = 0 → iw w 15 9 = 0 → 1 ≤ n → n ≤ 256 →
        0x400000 < q.base * 64 + 64 * size → exec (.reelGo c x w) s = .next (s.raise c x 0x05))
    ∧ (s.Acts c x w [] → iw w 47 32 ≠ 0 ∨ iw w 31 17 ≠ 0 ∨ iw w 15 9 ≠ 0 ∨ n = 0 ∨ 256 < n →
      exec (.reelGo c x w) s = .next (s.raise c x 0x01))
    ∧ (s.Acts c x w [] → iw w 37 32 ≠ 0 ∨ iA w ≠ 0 ∨ iw w 31 17 ≠ 0 ∨ iw w 15 0 ≠ 0 →
      exec (.reelStat c x w) s = .next (s.raise c x 0x01))

/-- REEL_DESC_START, REEL_DESC_COMPLETE and REEL_DESC_FAIL. A reel that can start its next descriptor, in the span of no
stale guard, takes it in progress: with the code of the check it fails, CREDIT_CAP among them, and no charge; without
a code and charged, once the balance covers its cost; before that it waits for credit. A descriptor in progress
without a code completes when all that it waits for is answered and applied: a BALLAST descriptor once its segments
are applied, one whose remote writes are acknowledged, or one whose rows all move within the package. HEAD then
advances, PENDING falls by one, and the descriptor's arrive and event leave. One that has failed stops the reel with
its code and ring index, leaves the rest pending, sends an event and signals its knot with the error flag. (R95, R96, R97, R98, R323) -/
def Obligations.ReelDescriptors : Prop :=
  ∀ (c r : Nat) (s : State), r < 2 → s.coreRuns c = true →
    let k := s.core c
    let q := k.reel r
    let idx := (q.head + q.prog.length) % (q.sizeM1 + 1)
    let at' := q.base * 64 + 64 * idx
    let b := k.scr at' 64
    let n := s.rdescCost c (rdesc b)
    let takes (t : State) (code : Nat) : Prop :=
      ∃ p, ((t.core c).reel r).prog = q.prog ++ [p] ∧ p.idx = idx ∧ p.desc = b ∧ p.code = code
    let alone (t : State) : Prop := t = { s with cores := t.cores } ∧ (t.core c).credit = k.credit
      ∧ (∀ j, j ≠ c → t.core j = s.core j) ∧ ∀ p, t.cell p = s.cell p
    let arrives (t : State) (d : RDesc) (err : Bool) : Prop :=
      ∃ m, (m ∈ t.knot.ops ∨ m ∈ t.knot.heldOps) ∧ m.knot = d.knot ∧ m.op = .arrive ∧ m.arg = 1 ∧ m.err = err
    (s.reelCanStart c r = true → k.readStalls (s.scrAddr c at') 64 = false →
      (∀ code, s.rdescCheck c b = some code → ∃ t, exec (.reelDescStart c r) s = .next t ∧ takes t code ∧ alone t)
      ∧ (s.rdescCheck c b = none →
        (k.cap < n → ∃ t, exec (.reelDescStart c r) s = .next t ∧ takes t 0x06 ∧ alone t)
        ∧ (n ≤ k.cap → k.credit < n → ∃ t, exec (.reelDescStart c r) s = .next t
            ∧ (t.core c).reel r = { q with waitCost := n } ∧ alone t)
        ∧ (n ≤ k.cap → n ≤ k.credit → ∃ t, exec (.reelDescStart c r) s = .next t ∧ takes t 0
            ∧ (t.core c).credit = k.credit - n)))
    ∧ ∀ p rest, q.prog = p :: rest →
      let d := rdesc p.desc
      let rq := s.reqsOf p.reqs
      let own : State := { s with acc := { src := .core (s.logNum c), core := some c } }
      let m := (own.dropReqs p.reqs).rowsMove c r p.gen d { copy := p.guard.map (fun g => (c, g)) } (farBytes rq) 0 d.rows
      (p.code = 0 → rq.any (fun q => !q.done) = false →
          (d.op = 3 ∧ p.segs = d.rows ∧ p.segIds = []
            ∨ d.op ≠ 3 ∧ reqFault rq = 0 ∧ (p.moved = true ∨ m.1.acc.stop = none ∧ m.2 = (0, []))) →
        ∃ t, exec (.reelDescComplete c r .ok) s = .next t ∧ ((t.core c).reel r).head = (q.head + 1) % (q.sizeM1 + 1)
          ∧ ((t.core c).reel r).pending = q.pending - 1 ∧ ((t.core c).reel r).prog = rest
          ∧ (d.knotEn = true → arrives t d false)
          ∧ (d.ev = true → ({ code := 0x03, source := s.logNum c, arg := r * 0x10000 + p.idx } : EvMsg) ∈ t.knot.events))
      ∧ (p.code ≠ 0 → ∃ t, exec (.reelDescFail c r) s = .next t ∧ ((t.core c).reel r).stopped = true
          ∧ ((t.core c).reel r).err = p.code ∧ ((t.core c).reel r).errIdx = p.idx ∧ ((t.core c).reel r).prog = []
          ∧ ((t.core c).reel r).pending = q.pending ∧ ((t.core c).reel r).head = q.head
          ∧ ({ code := 0x04, source := s.logNum c, arg := r * 0x10000 + p.code * 0x100 + p.idx } : EvMsg) ∈ t.knot.events
          ∧ (d.knotEn = true → s.knotCheck .arrive d.knot (some (s.logNum c)) = none → arrives t d true)
          ∧ (∀ j, j ≠ c → t.core j = s.core j) ∧ ∀ p, t.cell p = s.cell p)

/-- CREDIT_DEAL, STALE_NOTICE, CORE_SLEEP and CORE_WAKE. A deal that no earlier deal to its core is before adds to the
balance of the core up to the cap and counts what the cap drops; a stale notice marks a watched guard stale; both
leave their queue and wake a sleeping core. An idle core sleeps after 50 keel ticks, and one that an event has reached
wakes. (R97, R99, R322, R386, R446) -/
def Obligations.MessagesThatReachCores : Prop :=
  (∀ (k c n a b : Nat) (s : State), s.env.msgs[k]? = some (.deal c n a b) →
      (s.env.msgs.take k).any (fun m => m.dealTo c) = false → (s.core c).fenced = false → s.dieOut (dieOfCore c) = false →
      ∃ t, exec (.creditDeal k) s = .next t ∧ t.env.msgs = s.env.msgs.eraseIdx k
        ∧ (t.core c).credit = Nat.min ((s.core c).credit + n) (s.core c).cap
        ∧ (t.core c).lost = (if (s.core c).cap < (s.core c).credit + n
            then cnt (s.core c).lost ((s.core c).credit + n - (s.core c).cap) else (s.core c).lost)
        ∧ (t.core c).sa = (s.core c).sa ∧ (t.core c).sb = (s.core c).sb ∧ (∀ j, j ≠ c → t.core j = s.core j)
        ∧ ((s.core c).asleep = true → (t.core c).waking = true) ∧ ∀ p, t.cell p = s.cell p)
  ∧ (∀ (k c g : Nat) (s : State), s.stale[k]? = some (c, g) → (s.core c).fenced = false → s.dieOut (dieOfCore c) = false →
      ∃ t, exec (.staleNotice k) s = .next t ∧ t.stale = s.stale.eraseIdx k
        ∧ (∀ p ∈ (t.core c).guards, p.2.uid = g → p.2.unwatched = false → p.2.stale = true)
        ∧ ((s.core c).asleep = true → (t.core c).waking = true)
        ∧ (∀ j, j ≠ c → t.core j = s.core j) ∧ ∀ p, t.cell p = s.cell p)
  ∧ (∀ (c : Nat) (s : State), s.coreRuns c = true → (s.core c).idle = true → 50 ≤ (s.core c).idleTicks →
      ∃ t, exec (.coreSleep c) s = .next t ∧ (t.core c).asleep = true ∧ (∀ j, j ≠ c → t.core j = s.core j)
        ∧ (t.core c).sa = (s.core c).sa ∧ (t.core c).sb = (s.core c).sb ∧ ∀ p, t.cell p = s.cell p)
  ∧ ∀ (c : Nat) (s : State), s.keel.state = .aloft → (s.core c).asleep = true → (s.core c).waking = true →
      (s.core c).fenced = false →
      ∃ t, exec (.coreWake c) s = .next t ∧ (t.core c).asleep = false ∧ (∀ j, j ≠ c → t.core j = s.core j)
        ∧ (t.core c).sa = (s.core c).sa ∧ (t.core c).sb = (s.core c).sb ∧ ∀ p, t.cell p = s.cell p

/-- ARR.FWD, IG, WG, DIST and SPILL at issue. An array instruction that acts, whose descriptors are in no stale guard's
span, and that fails a check of R151 raises its code and has no other effect; one that passes waits while its stream's
tile queue holds four, and otherwise takes the last place in that queue and goes on at PC + 8. Nothing is charged at
issue, and an instruction that names no loft entry changes nothing else. (R148, R151, R24, R323) -/
def Obligations.ArrayInstructionsQueueTheirTile : Prop :=
  ∀ r ∈ tileRows, ∀ (c : Nat) (x : Stream) (m : BitVec 6) (w : InsnW) (s : State),
    let u := (s.core c).st x
    let addr := offAdd (u.getA (iA w)) (iImm w)
    let out := offOut (offSum (u.getA (iA w)) (iImm w))
    let chk := if r.2 = .spill then s.spillCheck c x m.toNat addr out else s.tileCheck c x r.2 m.toNat addr out
    s.Acts c x w [] → fmtM w = true → iD w = 0 → minorOk r.2 m.toNat = true →
      s.coreServed c (fun s => s.touchAll c (s.tileReads c r.2 addr)) = true →
    (∀ code, chk = .error code → exec (r.1 c x m w) s = .next (s.raise c x code))
    ∧ ∀ q, chk = .ok q →
      (4 ≤ ((s.core c).arr.tq x).length → exec (r.1 c x m w) s = .next (s.waitFor c x .tileQueue))
      ∧ (((s.core c).arr.tq x).length < 4 →
        ∃ t, exec (r.1 c x m w) s = .next t
          ∧ (t.core c).arr.tq x = (s.core c).arr.tq x ++ [{ q with id := (s.core c).nextTicket }]
          ∧ (t.core c).arr.tq (sOther x) = (s.core c).arr.tq (sOther x) ∧ (t.core c).credit = (s.core c).credit
          ∧ (t.core c).st x = u.ended (u.pc + 8) ∧ (t.core c).st (sOther x) = (s.core c).st (sOther x)
          ∧ (q.loftEntries = [] → (t.core c).scratch = (s.core c).scratch ∧ (∀ j, j ≠ c → t.core j = s.core j)
              ∧ t = { s with cores := t.cores }))

/-- ARB_GRANT, TILE_START, TILE_COMPLETE, SPILL_START and SPILL_COMPLETE. When nothing granted waits, the head of the
turn's queue, or of the other queue when that one has no eligible head, is granted: it leaves its queue alone and is
charged the lesser of its cost and the balance. The tile granted first starts, unless a spill granted before it is to
come; the tile started first completes and leaves; the spill granted first starts once no weight-gradient tile granted
before it is left, but one that streams while the spill is forced; and it completes after the drains that must come
before it. Accesses to memory are served at once, and the checks find no mismatch. (R97, R98, R101, R129, R140, R143, R146, R147) -/
def Obligations.TilesAreGrantedStartedAndDrained : Prop :=
  ∀ (c : Nat) (s : State), s.coreRuns c = true →
    let k := s.core c
    let a := k.arr
    (∀ x q, k.grantHold = false → a.halted = false → a.granted = [] → (a.paused && a.streams) = false →
        (x = k.turn ∨ k.elig k.turn = none ∧ x = sOther k.turn) → k.elig x = some q →
      ∃ t, exec (.arbGrant c) s = .next t ∧ (t.core c).credit = k.credit - Nat.min (k.tileCost q) k.credit
        ∧ (t.core c).arr.tq x = (a.tq x).drop 1 ∧ (t.core c).arr.tq (sOther x) = a.tq (sOther x)
        ∧ (if q.kind = .spill then (t.core c).arr.granted = [] ∧ (t.core c).arr.spills.length = a.spills.length + 1
           else ∃ g, (t.core c).arr.granted = [g] ∧ g.kind = q.kind ∧ g.desc = q.desc ∧ (t.core c).arr.spills = a.spills)
        ∧ (∀ j, j ≠ c → t.core j = s.core j) ∧ t = { s with cores := t.cores })
    ∧ (∀ q rest, a.granted = q :: rest → (q.kind = .wg → a.spillBefore q = false) → (a.paused && a.streams) = false →
        s.coreServed c (fun s => s.tileBegin c q) = true →
      ∃ t r, exec (.tileStart c .ok) s = .next t ∧ r.tile = q ∧ r.seq = a.tileSeq ∧ (t.core c).arr.granted = rest
        ∧ (t.core c).arr.running = a.streamed.running ++ [r] ∧ (t.core c).arr.tileSeq = (a.tileSeq + 1) % 2 ^ 32)
    ∧ (∀ r rest, a.running = r :: rest → (a.paused && r.tile.kind == .wg && r.left != 0) = false →
        a.openSpills.any r.tile.after = false → r.mismatch none = none → s.coreServed c (fun s => s.tileDone c r none) = true →
      ∃ t, exec (.tileComplete c none false) s = .next t ∧ (t.core c).arr.running = rest ∧ (t.core c).fenced = k.fenced
        ∧ (t.core c).arr.halted = a.halted)
    ∧ (∀ q rest, a.spills = q :: rest → a.spilling = none →
        (∀ p ∈ a.granted, p.kind = .wg → p.gid < q.gid → q.forced = true) →
        (∀ r ∈ a.running, r.tile.kind = .wg → r.tile.gid < q.gid → q.forced = true ∧ r.left ≠ 0) →
      ∃ t, exec (.spillStart c) s = .next t ∧ (t.core c).arr.spilling = some (q, a.tileSeq) ∧ (t.core c).arr.spills = rest
        ∧ (t.core c).arr.tileSeq = (a.tileSeq + 1) % 2 ^ 32 ∧ (∀ j, j ≠ c → t.core j = s.core j) ∧ ∀ p, t.cell p = s.cell p)
    ∧ (∀ q n, a.spilling = some (q, n) → (a.granted ++ a.running.map (·.tile)).any q.after = false → a.accInj = none →
        a.accMismatch = none → s.coreServed c (fun s => s.spillDone c q n none) = true →
      ∃ t, exec (.spillComplete c none false) s = .next t ∧ (t.core c).arr.spilling = none ∧ (t.core c).arr.chkTimer = 0
        ∧ (t.core c).arr.paused = false ∧ (a.granted = [] → a.running = [] → (t.core c).arr.unchecked = false)
        ∧ (t.core c).fenced = k.fenced ∧ (q.checkOnly = false → (t.core c).arr.acc = []))

/-- FORCE_CHECK, ARR_CHK_TIMER_EXPIRY, ARR_INJECT_ARM, ARR_INJECT_CANCEL, ARR_TOPK_ARM and ARRAY_ACCESS_FAIL. FORCE_CHECK,
and the timer at 1,800 keel ticks while accumulators are unchecked, put one check-only spill behind the granted
spills; arming copies the staged injection, and cancelling disarms; TOPK_ARM stages its pair, with the emptying of its
records when CLEAR is set, or sets WR_IGN when its records leave scratch; a read or a write of a running tile that
fails is recorded and reported. (R143, R159, R160, R187, R595) -/
def Obligations.ArrayChecksAndRegisters : Prop :=
  ∀ (c : Nat) (v : W32) (s : State),
    let k := s.core c
    let a := k.arr
    (s.coreWin c = true → v.toNat.testBit 0 = true →
      (a.checkComing = false → a.halted = false → ∃ t q, exec (.forceCheck c v) s = .next t
        ∧ (t.core c).arr.spills = a.spills ++ [q] ∧ q.checkOnly = true ∧ q.kind = .spill ∧ (t.core c).arr.chkTimer = 0
        ∧ (∀ j, j ≠ c → t.core j = s.core j))
      ∧ (∃ t, exec (.arrInjectArm c v) s = .next t
        ∧ (t.core c).arr = { a with armed := true, armRow := a.injRow, armCol := a.injCol, armBit := a.injBit }
        ∧ (∀ j, j ≠ c → t.core j = s.core j))
      ∧ (∃ t, exec (.arrTopkArm c v) s = .next t ∧ (∀ j, j ≠ c → t.core j = s.core j)
        ∧ (if 0x400000 < topkEnd a.tkCfg a.tkBase then (t.core c).wrIgn = true ∧ (t.core c).arr = a
           else (t.core c).arr = { a with tkNextCfg := some (a.tkCfg, a.tkBase),
                                             tkClears := (if v.toNat.testBit 1 then a.tkClears ++ [(a.tkCfg, a.tkBase)]
                                               else a.tkClears) })))
    ∧ (s.coreWin c = true → v.toNat.testBit 0 = false →
      ∃ t, exec (.arrInjectCancel c v) s = .next t ∧ (t.core c).arr = { a with armed := false }
        ∧ (∀ j, j ≠ c → t.core j = s.core j))
    ∧ (s.coreRuns c = true → a.unchecked = true → 1800 ≤ a.chkTimer → a.spillComing = false → a.halted = false →
      ∃ t q, exec (.arrChkTimerExpiry c) s = .next t ∧ (t.core c).arr.spills = a.spills ++ [q] ∧ q.checkOnly = true
        ∧ (∀ j, j ≠ c → t.core j = s.core j))
    ∧ (∀ (n : Nat) (b : W64) (r : RunTile), a.running.find? (fun q => q.seq == n) = some r → s.failsAt b.toNat = true →
        r.tile.outMeets b.toNat = true → r.wfail.contains b.toNat = false →
      ∃ t, exec (.arrayAccessFail c n true b) s = .next t ∧ (t.core c).arr.xfault = true
        ∧ t.knot.events = s.knot.events ++ [{ code := 0x06, source := s.logNum c, arg := n % 4096 }]
        ∧ (∀ j, j ≠ c → t.core j = s.core j) ∧ ∀ p, t.cell p = s.cell p)
    ∧ ∀ (n : Nat) (b : W64) (r : RunTile), a.running.find? (fun q => q.seq == n) = some r → s.failsAt b.toNat = true →
        r.tile.spans.any (fun p => meets256 b.toNat p.1 p.2) = true →
      ∃ t, exec (.arrayAccessFail c n false b) s = .next t ∧ (t.core c).arr.xfault = true
        ∧ t.knot.events = s.knot.events ++ [{ code := 0x06, source := s.logNum c, arg := n % 4096 }]
        ∧ (∀ j, j ≠ c → t.core j = s.core j) ∧ ∀ p, t.cell p = s.cell p

/-- COR.PROJ, COR.EXPAND and COR_OP_COMPLETE. A lane operation that acts, whose descriptors are in no stale guard's span,
and that fails a check of R594 raises its code, CREDIT_CAP last. One that passes, with room among the lane's four and
its cost covered, is charged and takes the last place, and the stream goes on at PC + 8. The operation at the front,
with its reads and writes served, completes and leaves the queue. (R97, R195, R200, R203, R323, R594) -/
def Obligations.LaneOperations : Prop :=
  ∀ (c : Nat) (x : Stream) (w : InsnW) (s : State),
    let k := s.core c
    let u := k.st x
    let addr := offAdd (u.getA (iA w)) (iImm w)
    (∀ (ex : Bool) (i : Instr), (ex = false ∧ i = .corProj c x w ∨ ex = true ∧ i = .corExpand c x w) → s.Acts c x w [] →
        fmtM w = true → iD w = 0 → s.coreServed c (fun s => s.touchAll c (s.corReads c ex addr)) = true →
      let chk := s.corCheck c x ex addr (offOut (offSum (u.getA (iA w)) (iImm w)))
      (∀ code, chk = .error code → exec i s = .next (s.raise c x code))
      ∧ ∀ q, chk = .ok q →
        let n := k.cost' 6 (ldesc q.desc).m 64
        (k.cap < n → exec i s = .next (s.raise c x 0x06))
        ∧ (n ≤ k.cap → 4 ≤ k.lane.queue.length → exec i s = .next (s.waitFor c x .tileQueue))
        ∧ (n ≤ k.cap → n ≤ k.credit → k.lane.queue.length < 4 →
          ∃ t, exec i s = .next t ∧ (t.core c).lane.queue = k.lane.queue ++ [{ q with id := k.nextTicket }]
            ∧ (t.core c).credit = k.credit - n ∧ (t.core c).st x = u.ended (u.pc + 8)
            ∧ (t.core c).st (sOther x) = k.st (sOther x) ∧ (∀ j, j ≠ c → t.core j = s.core j) ∧ t = { s with cores := t.cores }))
    ∧ (∀ o rest, k.lane.queue = o :: rest → s.coreRuns c = true → k.lane.chkFail = false →
        s.coreServed c (fun s => s.corRun c o) = true →
      ∃ t, exec (.corOpComplete c .ok false) s = .next t ∧ (t.core c).lane.queue = rest
        ∧ (t.core c).lane.busy = cnt k.lane.busy o.cycles)

/-- WATCH.NORM, CLOSE, LOAD, VERDICT and STEP, WATCH_BASE_WRITE and WATCH_MERGE. NORM with a slot of 0 raises its code,
and otherwise the stream goes on. Without a valid table CLOSE, LOAD, VERDICT and STEP raise WATCH_TABLE. LOAD copies
the 512 fall-back bytes; VERDICT sends its arrive and keeps its reply outstanding; STEP without a verdict raises its
code, and otherwise waits for a knot. CLOSE waits while something issued before it is in progress, then sends every
held slot's merge, and goes on once every merge is acknowledged. A base write with held slots sets WR_IGN. A merge
leaves its queue, its core counts one fewer outstanding, and its record takes its counts, or without a table its core
records them as lost. Accesses to memory are served at once. (R209, R210, R217, R219, R220, R221, R223, R226) -/
def Obligations.PrecisionWatchInstructions : Prop :=
  ∀ (c : Nat) (x : Stream) (w : InsnW) (s : State),
    let k := s.core c
    let u := k.st x
    let own : State := { s with acc := { src := .core (s.logNum c), core := some c } }
    (s.Acts c x w [iA w] → fmtI w = true → iD w = 0 →
      (iw w 11 0 = 0 → exec (.watchNorm c x w) s = .next (s.raise c x 0x32))
      ∧ (iw w 11 0 ≠ 0 → iw w 31 13 = 0 → s.coreServed c (fun s => s.takeSlot c (iw w 11 0)) = true →
        ∃ t, exec (.watchNorm c x w) s = .next t ∧ (t.core c).st x = u.ended (u.pc + 8)
          ∧ (∃ h ∈ (t.core c).watch.held, h.slot = iw w 11 0) ∧ (∀ j, j ≠ c → t.core j = s.core j)))
    ∧ (s.Acts c x w [] → iw w 47 0 = 0 → k.watch.valid = false → u.closeAt = none →
      exec (.watchClose c x w) s = .next (s.raise c x 0x33) ∧ exec (.watchLoad c x w) s = .next (s.raise c x 0x33)
      ∧ exec (.watchVerdict c x w) s = .next (s.raise c x 0x33) ∧ exec (.watchStep c x w) s = .next (s.raise c x 0x33))
    ∧ (s.Acts c x w [] → iw w 47 0 = 0 → k.watch.valid = true →
      (let q := u.closeAt.getD (s.closeSet c)
       (u.closed = false → s.closeBusy c q = true → ∃ t, exec (.watchClose c x w) s = .next t
          ∧ (t.core c).st x = { u with closeAt := some q } ∧ (t.core c).watch = k.watch ∧ t = { s with cores := t.cores })
       ∧ (u.closed = false → s.closeBusy c q = false → k.watch.held = [] → k.watch.unacked = 0 →
          ∃ t, exec (.watchClose c x w) s = .next t ∧ (t.core c).st x = u.ended (u.pc + 8) ∧ (t.core c).watch = k.watch)
       ∧ (u.closed = false → s.closeBusy c q = false → k.watch.held ≠ [] → ∃ t, exec (.watchClose c x w) s = .next t
          ∧ (t.core c).st x = { u with closeAt := some q, closed := true } ∧ (t.core c).watch.held = []
          ∧ (t.core c).watch.unacked = k.watch.unacked + k.watch.held.length
          ∧ t.merges = s.merges ++ k.watch.held.map (fun h => { core := c, base := k.watch.base, held := h }))
       ∧ (u.closed = true → k.watch.unacked = 0 → exec (.watchClose c x w) s = .next (s.withStream c x (u.ended (u.pc + 8)))))
      ∧ (s.coreServed c (fun s => (s.readBytes (k.watch.base + 64) 512).1) = true →
        ∃ t, exec (.watchLoad c x w) s = .next t ∧ (t.core c).st x = u.ended (u.pc + 8)
          ∧ (t.core c).watch.fb = ofLe (own.readBytes (k.watch.base + 64) 512).2)
      ∧ (let n := ofLe (own.readBytes (k.watch.base + 20) 4).2 % 2 ^ 18
         s.coreServed c (fun s => (s.readBytes (k.watch.base + 20) 4).1) = true →
         s.knotCheck .arrive n (some (s.logNum c)) = none →
        ∃ t m, exec (.watchVerdict c x w) s = .next t ∧ (t.core c).watch.verdictOut = true ∧ (t.core c).watch.stepOvf = false
          ∧ (t.core c).watch.verdictKnot = n ∧ (t.core c).st x = u.ended (u.pc + 8)
          ∧ (m ∈ t.knot.ops ∨ m ∈ t.knot.heldOps) ∧ m.knot = n ∧ m.op = .arrive ∧ m.arg = 1 ∧ m.err = k.watch.stepOvf)
      ∧ (k.watch.verdict = none → k.watch.verdictOut = false → exec (.watchStep c x w) s = .next (s.raise c x 0x34))
      ∧ (k.watch.verdict.isSome = true ∨ k.watch.verdictOut = true →
        ∃ t, exec (.watchStep c x w) s = .next t ∧ ((t.core c).st x).state = .waiting ∧ ((t.core c).st x).wait = .knot
          ∧ ((t.core c).st x).pc = u.pc ∧ (k.watch.verdictOut = false → ∃ m, (m ∈ t.knot.ops ∨ m ∈ t.knot.heldOps)
              ∧ m.knot = k.watch.verdictKnot ∧ m.op = .wait ∧ m.arg = k.watch.verdict.getD 0)))
    ∧ (∀ (hi : Bool) (v : W32), s.coreWin c = true → ∃ t, exec (.watchBaseWrite c hi v) s = .next t
        ∧ (∀ j, j ≠ c → t.core j = s.core j)
        ∧ (if k.watch.held = [] then (t.core c).watch.base = (if hi then v.toNat * 2 ^ 32 + k.watch.base % 2 ^ 32
             else k.watch.base / 2 ^ 32 * 2 ^ 32 + v.toNat / 1024 * 1024)
             ∧ (t.core c).watch.valid = s.tableOk (t.core c).watch.base
           else (t.core c).wrIgn = true ∧ (t.core c).watch = k.watch))
    ∧ ∀ (n : Nat) (m : Merge), s.merges[n]? = some m →
        (s.tableOk m.base = true → s.coreServed m.core (fun s => (s.mergeTold n m).mergeSlot m) = true) → ∃ t, exec (.watchMerge n) s = .next t
        ∧ t.merges = s.merges.eraseIdx n ∧ (t.core m.core).watch.unacked = (s.core m.core).watch.unacked - 1
        ∧ (s.tableOk m.base = false → (t.core m.core).watch.lost = true ∧ ∀ p, t.cell p = s.cell p)

/-- The vector instructions at issue. A vector instruction that acts, whose tensor descriptor is in no stale guard's span,
and that fails a check raises its code, CREDIT_CAP last, and has no other effect. One that passes, while the engine is
not clearing and fewer than eight wait, is charged its cost and takes the last place in the engine's queue with the
operands it read; one that returns a scalar leaves sD on its way; the stream goes on at PC + 8, and the vector store
stays as it is. (R87, R88, R97, R234, R235, R236, R323) -/
def Obligations.VectorInstructionsIssue : Prop :=
  ∀ r ∈ vecRows, ∀ (c : Nat) (x : Stream) (w : InsnW) (s : State),
    let k := s.core c
    let u := k.st x
    let n := match vCost r.2 w with
      | some q => k.cost' q.1 q.2.1 q.2.2
      | none => 0
    s.Acts c x w (vSrcs r.2 w) → s.coreServed c (fun s => s.vTouch c u r.2 w) = true →
    (vIll r.2 x w = true → exec (r.1 c x w) s = .next (s.raise c x 0x01))
    ∧ (vIll r.2 x w = false →
      (∀ e, s.vDesc c x r.2 w = .error e → exec (r.1 c x w) s = .next (s.raise c x e))
      ∧ ∀ d, s.vDesc c x r.2 w = .ok d →
        (∀ e, (s.vPre c x r.2 w d).or (u.vTable r.2 w d) = some e → exec (r.1 c x w) s = .next (s.raise c x e))
        ∧ ((s.vPre c x r.2 w d).or (u.vTable r.2 w d) = none → k.cap < n → exec (r.1 c x w) s = .next (s.raise c x 0x06))
        ∧ ((s.vPre c x r.2 w d).or (u.vTable r.2 w d) = none → n ≤ k.cap → n ≤ k.credit → k.vec.clearing = false →
            (k.vec.queue.filter (fun i => !i.started)).length < 8 →
          ∃ t, exec (r.1 c x w) s = .next t
            ∧ (t.core c).vec.queue = k.vec.queue ++ [vAccept u x k.nextTicket (k.ctx x) (s.ctx (k.ctx x)).gen
                (s.loftAddr c 0x300000) r.2 w d]
            ∧ (t.core c).vec.store = k.vec.store ∧ (t.core c).credit = k.credit - n
            ∧ (t.core c).st x = (if r.2.toScalar then u.await (iD w) k.nextTicket else u).ended (u.pc + 8)
            ∧ (t.core c).st (sOther x) = k.st (sOther x) ∧ (t.core c).scratch = k.scratch
            ∧ (∀ j, j ≠ c → t.core j = s.core j) ∧ t = { s with cores := t.cores }))

/-- VADD, VSUB, VMUL and the logic operations on integer elements. Without saturation the sum, difference and product of
two integer elements of w bits are taken modulo 2^w and set no flag, and VAND, VOR and VXOR act on the bits. (R243, R43) -/
def Obligations.VectorIntegerArithmeticWraps : Prop :=
  ∀ t : Nat, 2 ≤ t → t ≤ 5 → ∀ a b : Nat, a < 2 ^ ebits t → b < 2 ^ ebits t →
    vInt .add t false a b = ((a + b) % 2 ^ ebits t, 0)
    ∧ vInt .sub t false a b = ((a + 2 ^ ebits t - b) % 2 ^ ebits t, 0)
    ∧ vInt .mul t false a b = (a * b % 2 ^ ebits t, 0)
    ∧ vInt .and t false a b = (a &&& b, 0) ∧ vInt .or t false a b = (a ||| b, 0) ∧ vInt .xor t false a b = (a ^^^ b, 0)

/-- VEC_INSTR_START, VEC_INSTR_COMPLETE, VEC_ACCESS_FAIL, VEC_SR_STATE_WRITE, CLEAR and VEC_CLEAR_DONE. The first
instruction that has not started, and depends on none before it, starts. A started one whose remote accesses are
answered completes: its results are in the vector store and it leaves the queue. An access that fails is marked.
Accesses to memory are served at once. A write of VEC_SR_STATE stores 1 for 0, and waits while a stochastic quantise
is in flight. CLEAR zeroes the store when both streams are stopped and the queue is empty, and otherwise sets WR_IGN. (R238, R239, R242, R61, R62, R264) -/
def Obligations.VectorEngineCompletions : Prop :=
  ∀ (c : Nat) (s : State),
    let k := s.core c
    let own : State := { s with acc := { src := .core (s.logNum c), core := some c } }
    (∀ i before, nextInsn [] k.vec.queue = some (i, before) → s.coreRuns c = true → k.vec.clearing = false →
        before.any i.dependsOn = false → s.coreServed c (fun s => s.vecBegin c i) = true →
      ∃ t, exec (.vecInstrStart c .ok) s = .next t ∧ (t.core c).vec.queue.map (·.id) = k.vec.queue.map (·.id)
        ∧ ∀ j ∈ (t.core c).vec.queue, j.id = i.id → j.started = true)
    ∧ (∀ i id, k.vec.queue.find? (fun i => i.id == id) = some i → s.coreRuns c = true → i.started = true →
        (s.reqsOf i.reqs).any (fun q => !q.done) = false → s.coreServed c (fun s => (s.vecResult c i).1) = true →
      ∃ t, exec (.vecInstrComplete c id false) s = .next t ∧ (∀ q ∈ (t.core c).vec.queue, q.id ≠ id)
        ∧ (t.core c).vec.store = mwrite k.vec.store i.dOff (own.vecResult c i).2.1.bytes)
    ∧ (∀ i id (b : W64), k.vec.queue.find? (fun i => i.id == id) = some i →
        (i.started && (i.op == .st || i.op == .quant)) = false →
        (k.vec.queue.takeWhile (fun j => j.id ≠ id)).any (fun j => j.op == .flags && j.x == i.x) = false →
        i.fails.contains b.toNat = false → s.failsAt b.toNat = true → aDev b.toNat = s.teth.self →
        i.runs.any (fun r => meets256 b.toNat r.addr r.len) = true →
      ∃ t, exec (.vecAccessFail c id b) s = .next t ∧ (∀ j ∈ (t.core c).vec.queue, j.id = id → b.toNat ∈ j.fails)
        ∧ (∀ p, t.cell p = s.cell p) ∧ ∀ j, j ≠ c → t.core j = s.core j)
    ∧ (∀ v : W32, s.coreWin c = true →
      (∃ t, exec (.vecSrStateWrite c v) s = .next t ∧ (∀ j, j ≠ c → t.core j = s.core j)
        ∧ (k.vec.srBusy = false → (t.core c).vec.srState = (if v.toNat = 0 then 1 else v.toNat) ∧ (t.core c).vec.srWrite = none)
        ∧ (k.vec.srBusy = true → (t.core c).vec.srState = k.vec.srState
            ∧ (t.core c).vec.srWrite = some (if v.toNat = 0 then 1 else v.toNat)))
      ∧ (v.toNat.testBit 0 = true → ∃ t, exec (.clear c v) s = .next t ∧ (∀ j, j ≠ c → t.core j = s.core j)
        ∧ (if k.sa.idle && k.sb.idle && k.vec.queue.isEmpty then (t.core c).vec.store = [] ∧ (t.core c).vec.clearing = true
           else (t.core c).wrIgn = true ∧ (t.core c).vec = k.vec)))
    ∧ (s.coreRuns c = true → k.vec.clearing = true → ∃ t, exec (.vecClearDone c) s = .next t
        ∧ (t.core c).vec = { k.vec with clearing := false } ∧ (∀ j, j ≠ c → t.core j = s.core j))

/-- Requests of the device's states, and requests that name no transition. A write of KEEL_STATE_REQ that reaches the keel
domain is decided at once. From MOORED stow enters KEEL, from RIGGED unrig enters MOORED with the stacks' contents
lost and launch enters ALOFT, and from ALOFT land sets TARGET to RIGGED. Any other request, or one while TARGET
differs from STATE, is answered BAD_STATE and changes nothing else; a STOW frame of the board is then acknowledged
with status 1. (R28) -/
def Obligations.StateRequests : Prop :=
  ∀ s : State,
    (∀ r ∈ requestRows, ∀ w : Who, s.ctrlUp = true → s.whoOk w = true →
      ∃ t, exec (r.1 w) s = .next t ∧ t.keel.resDone = true ∧ t.keel.resTo = r.2
        ∧ match (if s.keel.target = s.keel.state then transition s.keel.state r.2 else none) with
          | none => t.keel.resStatus = 2 ∧ t.keel.state = s.keel.state ∧ t.keel.target = s.keel.target
              ∧ t = { s with keel := t.keel }
          | some p => t.keel.resStatus = 0 ∧ t.keel.state = p.1 ∧ t.keel.target = p.2
              ∧ (3 ≤ r.2 → t = { s with keel := t.keel, env := t.env })
              ∧ (r.2 ≤ 2 → t.stks = [] ∧ t.teth = {} ∧ t.rig.live = {} ∧ t.anc.owner = s.anc.owner))
    ∧ ∀ (seq : Nat) (v : W16) (d : W32), s.keel.state ≠ .off → s.env.boardSeq ≠ some (seq % 256) →
        s.keel.state ≠ .moored ∨ s.keel.target ≠ .moored →
      exec (.rcStow seq v d) s = .next (s.acked (seq % 256) 1)

/-- KEEL_POWER_ON, KEEL_RAIL_LOST, BOOT_ROM_COMPLETE, ENTROPY_HEALTH_FAIL, RIGGED_REACHED, LAND_COMPLETE and the host
link. Power-on enters KEEL with the straps sampled, and the loss of the keel rail enters OFF. The boot ROM ends in
MOORED with the ROM record alone in the log, or stops in KEEL with its test's code latched. Bring-up ends in RIGGED
with each stack ready or, where it failed to train, in FAULT. A land ends in RIGGED once nothing is left to do. The
host link rises from training and falls back to it. (R27, R494, R498, R499, R517, R580) -/
def Obligations.PowerAndBringUp : Prop :=
  ∀ s : State,
    (∀ en quad : Bool, s.keel.state = .off → ∃ t, exec (.keelPowerOn en quad) s = .next t ∧ t.keel.state = .keel
      ∧ t.keel.target = .keel ∧ t.keel.flashEn = en ∧ t.keel.flashQuad = quad ∧ t = { s with keel := t.keel, env := t.env })
    ∧ (∃ t, exec .keelRailLost s = .next t ∧ t.keel.state = .off ∧ t.keel.target = .off ∧ t.cores = [] ∧ t.stks = []
      ∧ t.teth = {} ∧ t.knot = {} ∧ t.rig = {} ∧ t.rip = {} ∧ t.anc.owner = none ∧ t.env.ticks = 0)
    ∧ (s.keel.state = .keel → s.keel.booting = true →
      (∀ gon0 : Bool, ∃ t, exec (.bootRomComplete true true true gon0) s = .next t ∧ t.keel.state = .moored
        ∧ t.keel.target = .moored ∧ t.keel.booting = false ∧ t.anc.log.length = 1 ∧ t.anc.owner = s.anc.owner
        ∧ t.host.link = .training ∧ t.stks = s.stks ∧ t.cores = s.cores ∧ (gon0 = true → (t.gon 0).mode = 1))
      ∧ (∀ kat puf entropy gon0 : Bool, (kat && puf && entropy) = false →
        ∃ t, exec (.bootRomComplete kat puf entropy gon0) s = .next t ∧ t.keel.state = .keel ∧ t.keel.target = .keel
          ∧ t.keel.stopped = true ∧ t.keel.booting = false
          ∧ (s.rip.code = 0 →
              t.rip.code = (if kat then (if entropy then 0x01010102 else 0x01010103) else 0x01010101))))
    ∧ (s.ctrlUp = true → ∃ t, exec .entropyHealthFail s = .next t ∧ s.ResetTo t 0x01010103)
    ∧ (∀ bad : List Nat, s.keel.state = .moored → s.keel.target = .rigged →
        s.served (.gondola 0) none (fun s => s.reachRigged bad) = true → ∃ t, exec (.riggedReached bad) s = .next t
      ∧ t.keel.state = .rigged ∧ t.keel.target = .rigged
      ∧ (s.rig.flashOk = false → ∀ st < 16, (t.stk st).state = (if bad.contains st then .fault else .ready)
          ∧ (bad.contains st = false → (t.stk st).mem = [])))
    ∧ (s.keel.state = .aloft → s.keel.target = .rigged → s.cores.all (fun p => p.2.landed) = true →
      ∃ t, exec .landComplete s = .next t ∧ t.keel.state = .rigged ∧ t.keel.target = .rigged
        ∧ (∀ l c, s.phys l = some c → (s.core c).fenced = false → (t.core c).asleep = true)
        ∧ t = { s with keel := t.keel, env := t.env, cores := t.cores })
    ∧ (s.host.link = .training → ∃ t, exec .hostLinkUp s = .next t ∧ t.host.link = .up ∧ t = { s with host := t.host })
    ∧ (s.host.link = .up →
      exec .hostLinkDown s = .next { s with host := { s.host with link := .training } })

/-- RAILS_GOOD, BUDGET, ENERGY, SET_OK, ALERT, RESET, STOW, STATUS_TIMER and RC_BAD_FRAME. A frame with the number of the
last one accepted is acknowledged again and not acted on. Another is acknowledged and acts: all rails good starts the
rise from KEEL, BUDGET and ALERT are stored, SET_OK of the requested value lets the burners step, RESET with its word
resets the package, STOW in MOORED enters KEEL, and an unknown type or a wrong word is answered with status 2. ENERGY
is stored and not acknowledged. The status timer sends a STATUS frame. (R449, R451, R460, R575, R579, R584, R585, R586) -/
def Obligations.BoardFrames : Prop :=
  ∀ (seq : Nat) (v : W16) (d : W32) (s : State), s.keel.state ≠ .off →
    let q := seq % 256
    (s.env.boardSeq = some q → ∀ i ∈ ([.railsGood seq v d, .budget seq v d, .setOk seq v d, .alert seq v d, .rcReset seq v d,
        .rcStow seq v d] : List Instr), exec i s = .next (s.sendRc 0x81 s.env.boardStatus q))
    ∧ (s.env.boardSeq ≠ some q →
      let a := s.acked q 0
      (v.toNat % 256 = 255 → s.keel.state = .keel → s.keel.target = .keel → s.keel.stopped = false →
        ∃ t, exec (.railsGood seq v d) s = .next t ∧ t.keel.state = .keel ∧ t.keel.target = .moored ∧ t.keel.booting = true
          ∧ t = { s with keel := t.keel, env := t.env })
      ∧ (v.toNat % 256 ≠ 255 → exec (.railsGood seq v d) s = .next a)
      ∧ exec (.budget seq v d) s = .next { a with env := { a.env with budgetRail := v.toNat, budgetMs := d.toNat } }
      ∧ exec (.alert seq v d) s = .next { a with env := { a.env with alerts := v.toNat % 256 } }
      ∧ (∀ g, s.env.phase = .waitSet g → exec (.setOk seq v d) s
          = .next (if v.toNat = s.env.setReq then { a with env := { a.env with phase := .stepping g } } else a))
      ∧ (d = 0x5A5A5A5A → ∃ t, exec (.rcReset seq v d) s = .next t ∧ s.ResetTo t 0x01040302)
      ∧ (d ≠ 0x5A5A5A5A → exec (.rcReset seq v d) s = .next (s.acked q 2))
      ∧ (s.keel.state = .moored → s.keel.target = .moored →
          ∃ t, exec (.rcStow seq v d) s = .next t ∧ t.keel.state = .keel ∧ t.keel.target = .keel)
      ∧ ∀ type : Nat, type = 0 ∨ 7 < type → exec (.rcBadFrame type seq v d) s = .next (s.acked q 2))
    ∧ exec (.energy seq v d) s = .next { s with env := { s.env with energyNew := some d.toNat, energyAt := s.env.ticks } }
    ∧ exec .statusTimer s = .next s.sendStatus

/-- ENVELOPE_INTERVAL, CORE_REPORT, CREDIT_RETURN, SAG_WARNING, SUPPLY_SAG_RESET and THERMAL_TRIP. The interval boundary
comes on the next multiple of 500 keel ticks, with the readings sampled; a reading of 105 °C or more resets the
package. A credit return is counted, and a report is kept until the last has come, which ends the boundary's work. A
sag warning holds the target at the sag point or below. A supply sag or a thermal trip resets the package with its
code. (R443, R452, R453, R454, R459, R461, R462) -/
def Obligations.EnvelopeIntervals : Prop :=
  ∀ s : State,
    (∀ x : EnvSample, s.keel.state ≠ .off → x.junction.length = 64 → x.logic.length = 16 →
      ∃ t, exec (.envelopeInterval x) s = .next t ∧ t.env.ticks = (s.env.ticks + (500 - s.env.ticks % 500)) % 2 ^ 64
        ∧ ((∀ v ∈ x.junction ++ x.logic, v < 105) → t.keel = s.keel
            ∧ ∀ i < 64, sget 0 t.env.junction i = x.junction.getD i 0)
        ∧ ((∃ v ∈ x.junction ++ x.logic, 105 ≤ v) → t.keel.state = .keel ∧ t.keel.target = .keel))
    ∧ (∀ (k c n : Nat), s.env.msgs[k]? = some (.give c n) →
      exec (.creditReturn k) s
        = .next { s with env := { s.env with msgs := s.env.msgs.eraseIdx k, given := s.env.given + n } })
    ∧ (∀ (k : Nat) (r : CoreReport), s.env.msgs[k]? = some (.report r) →
      (s.env.due = none ∨ (s.env.msgs.eraseIdx k).any EnvMsg.isReport = true →
        exec (.coreReport k) s
          = .next { s with env := { s.env with msgs := s.env.msgs.eraseIdx k, reports := s.env.reports ++ [r] } })
      ∧ (s.env.due.isSome = true → (s.env.msgs.eraseIdx k).any EnvMsg.isReport = false →
        ∃ t, exec (.coreReport k) s = .next t ∧ t.env.due = none ∧ t.env.reports = [] ∧ t.keel = s.keel ∧ t.stks = s.stks))
    ∧ (∀ rail mv : Nat, rail < 8 → s.railsOn = true → mv * 100 < 96 * s.env.setPoint rail →
      ∃ t, exec (.sagWarning rail mv) s = .next t ∧ t.env.sagHold = true ∧ t.env.sagClean = 0
        ∧ t.env.target = Nat.min s.env.target s.env.sagPoint ∧ t.keel = s.keel
        ∧ ({ code := 0x41, source := rail, arg := mv } : EvMsg) ∈ t.knot.events)
    ∧ (∀ rail mv : Nat, rail < 8 → s.railsOn = true → mv * 100 < 92 * s.env.setPoint rail →
      ∃ t, exec (.supplySagReset rail mv) s = .next t ∧ s.ResetTo t (0x01100202 + rail * 0x10000))
    ∧ (∀ n celsius : Nat, s.keel.state ≠ .off → 105 ≤ celsius →
      (n < 64 → ∃ t, exec (.thermalTrip false n celsius) s = .next t
        ∧ s.ResetTo t (0x10600201 + n / 16 * 0x1000000 + n % 16 * 0x10000))
      ∧ (n < 16 → ∃ t, exec (.thermalTrip true n celsius) s = .next t
        ∧ s.ResetTo t (0x10700201 + n / 4 * 0x1000000 + n % 4 * 0x10000)))

/-- BURNER_STEP, RAIL_RAISE_TIMEOUT, ENV_ARM, ENV_PACE_WRITE, SLACK_NOTICE, RESUME_NOTICE, NOTICE_EXPIRY and latched
reads. The burners move by one point toward the one they step to. A raise without SET_OK is given up: RAIL_SLOW is
set, the set point is again the one before it, and no raise is tried for 1 ms. ENV_ARM takes the staged mode unless a
fixed point is above 26. A notice of the own group from another device is held, a resume of it ends it, and an expired
one goes. A read of a low half latches the high half. (R444, R445, R449, R456, R468) -/
def Obligations.EnvelopeControl : Prop :=
  ∀ s : State,
    (∀ g, s.env.phase = .stepping g → ∃ t, exec .burnerStep s = .next t
      ∧ t.env.cur = (if s.env.cur < g then s.env.cur + 1 else if g < s.env.cur then s.env.cur - 1 else s.env.cur)
      ∧ (t.env.cur ≠ g → t.env.phase = .stepping g ∧ t.cores = s.cores) ∧ t.keel = s.keel ∧ t.stks = s.stks)
    ∧ (∀ g, s.env.phase = .waitSet g → ∃ t, exec .railRaiseTimeout s = .next t ∧ t.env.railSlow = true
      ∧ t.env.raiseBarred = s.env.ticks + 50000 ∧ t.env.phase = .idle ∧ t.env.cur = s.env.cur
      ∧ t.env.setReq = s.env.setWas ∧ (s.tables = true → t.env.costPt = s.env.cur) ∧ t.keel = s.keel ∧ t.stks = s.stks)
    ∧ (∀ v : W32, s.ctrlUp = true → ∃ t, exec (.envArm v) s = .next t ∧ t = { s with env := t.env }
      ∧ (v.toNat.testBit 0 = false → t = s)
      ∧ (v.toNat.testBit 0 = true → s.env.modeFixed = true → 26 < s.env.modePt → t.env = { s.env with wrIgn := true })
      ∧ (v.toNat.testBit 0 = true → s.env.modeFixed = false ∨ s.env.modePt ≤ 26 →
          t.env = { s.env with fixed := s.env.modeFixed, fixedPt := s.env.modePt }))
    ∧ (∀ v : W32, s.ctrlUp = true → ∃ t, exec (.envPaceWrite v) s = .next t ∧ t = { s with env := t.env }
      ∧ t.env.paceGroup = v.toNat % 65536 ∧ t.env.paceMatch = v.toNat.testBit 31 ∧ t.env.paceSend = v.toNat.testBit 30
      ∧ t.env.held = (if v.toNat % 65536 = s.env.paceGroup then s.env.held else []))
    ∧ (∀ k m, s.pace[k]? = some m →
      let ok := s.env.paceGroup ≠ 0 ∧ m.group = s.env.paceGroup ∧ m.src ≠ s.teth.self
      let i : Instr := if m.resume then .resumeNotice k else .slackNotice k
      (¬ok → exec i s = .next { s with pace := s.pace.eraseIdx k })
      ∧ (ok → ∃ t, exec i s = .next t ∧ t.pace = s.pace.eraseIdx k
          ∧ t.knot.events = s.knot.events
              ++ [{ code := if m.resume then 0x44 else 0x43, source := m.src, arg := m.reason * 256 + m.rate }]
          ∧ (m.resume = false → ∃ h ∈ t.env.held, h.src = m.src ∧ h.seq = m.seq ∧ h.rate = m.rate
              ∧ h.expiry = s.env.ticks + m.duration)
          ∧ (m.resume = true → ∀ h ∈ t.env.held, h.src = m.src → h.seq ≠ m.seq)
          ∧ t.cores = s.cores ∧ t.stks = s.stks ∧ t.keel = s.keel))
    ∧ (∀ src : Nat, exec (.noticeExpiry src) s = .next { s with env := { s.env with
        held := s.env.held.filter (fun h => !(h.src == src && decide (h.expiry ≤ s.env.ticks))) } })
    ∧ (∀ w : Who, s.ctrlUp = true → s.whoOk w = true → s.env.ticks < 2 ^ 64 → s.env.energyMj < 2 ^ 64 →
      exec (.keelTicksRead w) s = .next { s with env := { s.env with ticksHi := s.env.ticks / 2 ^ 32 },
                                                 lastRead := s.env.ticks % 2 ^ 32 }
      ∧ exec (.envWsEnergyRead w) s = .next { s with env := { s.env with energyHi := s.env.energyMj / 2 ^ 32 },
                                                     lastRead := s.env.energyMj % 2 ^ 32 })

/-- LOFT_SPILL_DONE, LOFT_RECALL_START, LOFT_RECALL_DONE, LOFT_RELEASE, LOFT_RELEASE_ALL and LOFT_CONFIG_WRITE. A spill
that finishes leaves its entry in OVERFLOW at the pages of its copy. The first recall that waits and finds a run
begins; one that finishes leaves its entry in the loft with the bytes read. Accesses to memory are served at once. A
release empties the named entries that are in the loft, in overflow or dropped, but not pinned ones, which set WR_IGN
in whatever state they are; nothing outside the core's scratch changes its bytes. A configuration write is stored,
unless a live entry keeps it out. Other cores keep everything but guards that the write of the directory ends. (R271, R279, R281, R295, R296, R323) -/
def Obligations.LoftManager : Prop :=
  ∀ (c : Nat) (s : State),
    let k := s.core c
    let own : State := { s with acc := { src := .core (s.logNum c), core := some c } }
    (∀ (e : Nat) (p : LoftCopy), s.coreRuns c = true → k.loftM.waitAlloc = [] → k.loftM.waitRecall = [] →
        k.loftM.copies.find? (fun p => p.entry == e && !p.isRecall) = some p →
        s.coreServed c (fun s => s.spillCopy c e p) = true →
      ∃ t, exec (.loftSpillDone c e) s = .next t ∧ (t.core c).entState e = 4 ∧ (t.core c).entLoc e = p.ovf % 0x100000
        ∧ (∀ q ∈ (t.core c).loftM.copies, q.entry ≠ e) ∧ (t.core c).loftM.spills = cnt k.loftM.spills 1
        ∧ ∀ st, (t.stk st).mem = ((own.writeBytes {} (k.loftM.ovfPage p.ovf)
            (mread k.loft (p.page * 4096) (k.entPages e * 4096))).1.stk st).mem)
    ∧ (∀ (i p : Nat) (rest : List Nat), s.coreRuns c = true → k.loftM.waitRecall = i :: rest →
        k.loftRun (k.entPages i) = some p →
      ∃ t, exec (.loftRecallStart c) s = .next t ∧ (t.core c).entState i = 5 ∧ (t.core c).loftM.waitRecall = rest
        ∧ (t.core c).loftM.copies = k.loftM.copies ++ [{ entry := i, ovf := k.entLoc i, page := p, isRecall := true }]
        ∧ (t.core c).loft = k.loft ∧ ∀ st, (t.stk st).mem = (s.stk st).mem)
    ∧ (∀ (e : Nat) (p : LoftCopy), s.coreRuns c = true →
        k.loftM.copies.find? (fun p => p.entry == e && p.isRecall) = some p →
        s.coreServed c (fun s => s.recallCopy c e p) = true →
      ∃ t, exec (.loftRecallDone c e) s = .next t ∧ (t.core c).entState e = 2 ∧ (t.core c).entLoc e = p.page % 0x100000
        ∧ (∀ q ∈ (t.core c).loftM.copies, q.entry ≠ e) ∧ (t.core c).loftM.recalls = cnt k.loftM.recalls 1
        ∧ (t.core c).loft = mwrite k.loft (p.page * 4096)
            (own.readBytes (k.loftM.ovfPage p.ovf) (k.entPages e * 4096)).2)
    ∧ (∀ v : W32, s.coreWin c = true → k.loftM.waitAlloc = [] → k.loftM.waitRecall = [] →
      let all := v.toNat.testBit 8
      let i : Instr := if all then .loftReleaseAll c v else .loftRelease c v
      let named (e : Nat) : Prop := all = true ∨ e = v.toNat % 256
      let full (e : Nat) : Prop := k.entState e = 2 ∨ k.entState e = 4 ∨ k.entState e = 6
      ∃ t, exec i s = .next t
        ∧ (∀ e < 256, named e → full e → k.pinned e = false → (t.core c).entState e = 0)
        ∧ (∀ e < 256, ¬named e ∨ ¬full e ∨ k.pinned e = true → (t.core c).entState e = k.entState e)
        ∧ ((∃ e < 256, named e ∧ k.pinned e = true) → (t.core c).wrIgn = true)
        ∧ ((∀ e < 256, named e → k.pinned e = false) → (t.core c).wrIgn = k.wrIgn)
        ∧ (t.core c).sa = k.sa ∧ (t.core c).sb = k.sb ∧ (∀ p, (∀ o, p ≠ .scratch c o) → t.cell p = s.cell p)
        ∧ ∀ j, j ≠ c → t.core j = { s.core j with guards := (t.core j).guards })
    ∧ ∀ off ∈ [0x4200, 0x4204, 0x4208, 0x420C, 0x4210], ∀ v : W32, s.coreWin c = true →
      ∃ t, exec (.loftConfigWrite c off v) s = .next t ∧ t = { s with cores := t.cores }
        ∧ (∀ j, j ≠ c → t.core j = s.core j) ∧ (t.core c).scratch = k.scratch
        ∧ (if k.loftLive then (t.core c).wrIgn = true ∧ (t.core c).loftM = k.loftM
           else (t.core c).wrIgn = k.wrIgn ∧ (t.core c).loftM.copies = k.loftM.copies
             ∧ (off = 0x4200 → (t.core c).loftM.dirBase = v.toNat / 64 % 2 ^ 16 ∧ (t.core c).loftM.en = v.toNat.testBit 0)
             ∧ (off = 0x4204 → (t.core c).loftM.page0 = v.toNat % 2 ^ 10)
             ∧ (off = 0x4208 → (t.core c).loftM.ovf = k.loftM.ovf / 2 ^ 32 * 2 ^ 32 + v.toNat / 4096 * 4096)
             ∧ (off = 0x420C → (t.core c).loftM.ovf = v.toNat * 2 ^ 32 + k.loftM.ovf % 2 ^ 32)
             ∧ (off = 0x4210 → (t.core c).loftM.ovfPages = v.toNat % 2 ^ 20))

/-- STACK_REQUEST, BANK_OPEN and STACK_WRITE_ACK. A request beyond its source's limits, behind another of its source for
its bank, or held back by a commit of the interleave frame waits in its source. Otherwise it wakes a sleeping stack;
behind others in the mesh, with all slots full, or while the link retrains it waits in the mesh; a full bank turns it
back with BANK_HOLD and keeps it with its source's name; a stale generation drops it and counts it; a stack in FAULT
answers it, a read with poison; and else it holds a slot, and a write is acknowledged when no watch range holds its
block and no guarded read may yet put it into one. BANK_OPEN leaves its list, and its source's held requests for the
bank go again; an acknowledgement leaves once its stale notices have been accepted. Memory does not change. A stack
that is off takes nothing. (R306, R312, R313, R314, R316, R317, R325, R328, R488) -/
def Obligations.StackRequests : Prop :=
  ∀ (st : Nat) (s : State), st < 16 →
    let u := s.stk st
    let room (q : StackReq) : Prop := (u.bankSlots (blkBank q.block)).length < 48
    let fresh (q : StackReq) : Prop := q.ctx = 0xFFF ∨ sget 0 u.gens q.ctx = q.gen
    let rest (t : State) : Prop := (t.stk st).mem = u.mem ∧ (∀ j, j ≠ st → t.stk j = s.stk j) ∧ t.cores = s.cores
    let waits (q : StackReq) : Bool := s.rig.holds.ileave || !(s.mayAsk st q.src (blkBank q.block))
      || u.srcQ.any (fun r => r.src == q.src && blkBank r.block == blkBank q.block)
    (∀ q : StackReq, q.block < stackBlocks →
      (u.powered = false → exec (.stackRequest st q) s = .next s)
      ∧ (u.powered = true → waits q = true →
        exec (.stackRequest st q) s = .next (s.setStk st { u with srcQ := u.srcQ ++ [q] }))
      ∧ (u.powered = true → waits q = false →
        (u.meshQ ≠ [] ∨ u.state = .retraining ∨ 6144 ≤ u.slots.length ∧ u.state ≠ .fault →
          ∃ t, exec (.stackRequest st q) s = .next t ∧ rest t ∧ (t.stk st).meshQ = u.meshQ ++ [q]
            ∧ (t.stk st).slots = u.slots ∧ (t.stk st).responses = u.responses)
        ∧ (u.meshQ = [] → u.state = .fault → exec (.stackRequest st q) s = .next (s.setStk st { u with responses := u.responses
            ++ [if q.write then .ack q.src q.tag [] else .data q.src q.tag (List.replicate 256 0xFF) (List.replicate 4 true)] }))
        ∧ (u.meshQ = [] → u.state = .ready ∨ u.state = .selfRefresh → u.slots.length < 6144 →
          (room q → fresh q →
            ∃ t, exec (.stackRequest st q) s = .next t ∧ rest t ∧ (t.stk st).state = .ready
              ∧ (t.stk st).slots = u.slots ++ [{ req := q, at' := s.env.ticks, acked := q.write && u.ackNow q.block }]
              ∧ (t.stk st).occPeak = Nat.max u.occPeak (u.slots.length + 1)
              ∧ (t.stk st).responses = u.responses ++ (if q.write && u.ackNow q.block then [.ack q.src q.tag []] else []))
          ∧ (¬room q →
            ∃ t, exec (.stackRequest st q) s = .next t ∧ rest t ∧ (t.stk st).slots = u.slots
              ∧ (t.stk st).responses = u.responses ++ [.hold q.src q.tag (blkBank q.block)]
              ∧ (t.stk st).heldReqs = u.heldReqs ++ [q] ∧ (blkBank q.block, q.src) ∈ (t.stk st).waiters
              ∧ (t.stk st).bankHolds = cnt u.bankHolds 1)
          ∧ (room q → ¬fresh q →
            ∃ t, exec (.stackRequest st q) s = .next t ∧ rest t
              ∧ t.stk st = { u with state := .ready, genDrops := cnt u.genDrops 1 }
              ∧ (t.ctx q.ctx).drops = cnt (s.ctx q.ctx).drops 1))))
    ∧ (∀ (k bank : Nat) (src : ReqSrc), u.bankOpens[k]? = some (bank, src) →
      let mine := u.heldReqs.filter (fun q => q.src == src && blkBank q.block == bank)
      ∃ t, exec (.bankOpen st k) s = .next t ∧ rest t ∧ (t.stk st).bankOpens = u.bankOpens.eraseIdx k
        ∧ (u.meshQ = [] → u.srcQ = [] → mine = [] → (t.stk st).slots = u.slots)
        ∧ ∀ q, mine = [q] → u.meshQ = [] → u.srcQ = [] → u.state = .ready → u.slots.length < 6144 → room q → fresh q →
            (t.stk st).slots = u.slots ++ [{ req := q, at' := s.env.ticks, acked := q.write && u.ackNow q.block }]
            ∧ q ∉ (t.stk st).heldReqs)
    ∧ ∀ (k tag : Nat) (src : ReqSrc) (notes : List (Nat × Nat)), u.responses[k]? = some (.ack src tag notes) →
      exec (.stackWriteAck st k) s = .next (if notes.any (fun n => s.stale.contains n) then s
        else s.setStk st { u with responses := u.responses.eraseIdx k })

/-- STACK_REQUEST_SERVICE and GUARD_RECOPY_DONE. The request the sorter picks is served, in a stack with no upset or
poisoned codeword and nothing waiting in the mesh or in sources. A write stores its bytes from its offset in its
block, or poisons their codewords, sends the notices of the ranges that hold its block, leaves its slot, and is
acknowledged with them if it was not at admission; a bank that falls to 40 is opened to its waiters. A read, with
those merged with it, answers with the 256 bytes of its block, puts the block into the range of the guard it carries
when there is room, and leaves memory as it is. A re-copy, its accesses served at once, with no notice since it began
leaves its guard clean; with a notice it runs again, and the eighth in succession ends the guard and reports it. (R309, R310, R313, R315, R316, R317, R320, R322, R323) -/
def Obligations.StackService : Prop :=
  (∀ (st bank : Nat) (s : State) (q : Slot) (urg : Bool), st < 16 → (s.stk st).state = .ready →
      (s.stk st).pick bank s.env.ticks = some (q, urg) → (s.stk st).poisoned = [] → (s.stk st).upsets = [] →
      (s.stk st).meshQ = [] → (s.stk st).srcQ = [] →
      let u := s.stk st
      let b := q.req.block
      let bytes := q.req.data.take (256 - q.req.off)
      let merged := mergedReads b (u.slots.dropWhile (fun p => p ≠ q))
      (q.req.write = true → ∃ t, exec (.stackRequestService st bank []) s = .next t
        ∧ (t.stk st).slots = u.slots.erase q ∧ (∀ j, j ≠ st → t.stk j = s.stk j) ∧ t.cores = s.cores
        ∧ t.stale = s.stale ++ u.notesFor b
        ∧ (t.stk st).responses = u.responses ++ (if q.acked then [] else [.ack q.req.src q.req.tag (u.notesFor b)])
        ∧ (q.req.poison = false → (t.stk st).mem = mwrite u.mem (b * 256 + q.req.off) bytes ∧ (t.stk st).poisoned = [])
        ∧ (q.req.poison = true → (t.stk st).mem = u.mem
            ∧ ∀ i < bytes.length, (b * 256 + q.req.off + i) / 64 ∈ (t.stk st).poisoned)
        ∧ ((u.bankSlots bank).length = 41 → ∀ w ∈ u.waiters, w.1 = bank → w ∈ (t.stk st).bankOpens))
      ∧ (q.req.write = false → ∃ t, exec (.stackRequestService st bank []) s = .next t
        ∧ (t.stk st).mem = u.mem ∧ (t.stk st).poisoned = [] ∧ (t.stk st).slots = u.slots.filter (fun p => !(merged.contains p))
        ∧ q ∉ (t.stk st).slots ∧ (∀ j, j ≠ st → t.stk j = s.stk j)
        ∧ (∀ p ∈ merged, p.req.src ≠ .scrub →
            .data p.req.src p.req.tag (mread u.mem (b * 256) 256) (List.replicate 4 false) ∈ (t.stk st).responses)
        ∧ ∀ p ∈ merged, ∀ c g h, p.req.guard = some (c, g) → (s.core c).guard g = some h →
            u.ranges.length + merged.length ≤ 1024 →
            ∃ r ∈ (t.stk st).ranges, r.core = c ∧ r.guard = h.uid ∧ r.lo ≤ b ∧ b ≤ r.hi))
  ∧ ∀ (c g : Nat) (q : Guard) (s : State), (s.core c).guards.find? (fun p => p.1 == g) = some (g, q) → q.copying = true →
      q.first = false → s.coreRuns c = true → s.coreServed c (fun s => s.recopied c g q) = true →
      ∃ t, exec (.guardRecopyDone c g) s = .next t ∧ (t.core c).credit = (s.core c).credit
        ∧ (q.again = false → ∀ p ∈ (t.core c).guards, p.1 = g → p.2.stale = false ∧ p.2.copying = false ∧ p.2.recopies = 0)
        ∧ (q.again = true → q.recopies < 7 → ∀ p ∈ (t.core c).guards, p.1 = g → p.2.again = false)
        ∧ (q.again = true → 7 ≤ q.recopies → (∀ p ∈ (t.core c).guards, p.1 ≠ g)
            ∧ ({ code := 0x21, source := s.logNum c, arg := q.reel * 0x10000 + q.ringIdx } : EvMsg) ∈ t.knot.events)

/-- The stack link, SCRUB_READ, REFRESH and SELF_REFRESH_ENTRY. A new frame goes behind those on their way, and the oldest
of these comes in. The receiver takes the frame it expects when its CRC checks, and acts on it: read data leaves for
its source, and write data that was awaited reaches the sorter. When the frame it expects fails, it asks for that
frame and those after it again; the eighth failure in succession retrains the link. A frame out of turn asks for the
expected one, once. After 2 us all kept frames go again. A retrain that succeeds makes the stack ready, the third that
fails in succession, or the eighth within a second, leaves it in FAULT. The scrub of a bank without requests moves on
by one codeword and records what the code finds; a refresh closes a row; an idle stack sleeps when it may. (R303, R304, R305, R306, R307, R308, R309, R311, R327, R328) -/
def Obligations.StackLinkAndUpkeep : Prop :=
  ∀ (st : Nat) (s : State), st < 16 →
    let u := s.stk st
    (∀ (d send : Bool) (f : LinkFrame) (ups : List (Nat × Nat)) (e : LinkEnd) (seq : Nat) (w : List Nat) (g : LinkFrame),
      u.linkUp = true → (if send then (u.lane d).send f else u.lane d) = e → e.wire = seq :: w →
      e.held.find? (fun p => p.1 == seq) = some (seq, g) → seq < 256 →
      let bs := upsetBytes (linkBytes seq g) ups
      let again := (e.held.map (·.1)).dropWhile (fun x => x ≠ e.expect)
      (seq = e.expect → ups = [] → ∃ t, exec (.stackLinkFrame st d send f ups) s = .next t ∧ (t.stk st).mem = u.mem
        ∧ ((t.stk st).lane d).expect = (seq + 1) % 256 ∧ ((t.stk st).lane d).fails = 0 ∧ ((t.stk st).lane d).naked = false
        ∧ ((t.stk st).lane d).wire = w ∧ ((t.stk st).lane d).owed = (if 7 ≤ e.owed then 0 else e.owed + 1)
        ∧ (t.stk st).lane (!d) = u.lane (!d) ∧ (t.stk st).state ≠ .retraining ∧ (∀ j, j ≠ st → t.stk j = s.stk j)
        ∧ (d = false → linkFields (linkBytes seq g) = g → g.kind = 3 → ∀ tag bytes ps,
            u.responses = [.data (srcOf g.src) tag bytes ps] → tag = g.tag → (t.stk st).responses = [])
        ∧ (d = true → linkFields (linkBytes seq g) = g → g.kind = 2 → ∀ r : StackReq, u.awaitData = [r] → r.write = true →
            r.src = srcOf g.src → r.tag = g.tag → r.block = g.block → r.ctx = 0xFFF → u.meshQ = [] → u.slots = [] →
            (t.stk st).awaitData = [] ∧ ∃ x, (t.stk st).slots = [x]
              ∧ x.req = { r with data := g.payload, poison := g.flags.testBit 15 }))
      ∧ (seq = e.expect → linkCrcOk bs = false → ∃ t, exec (.stackLinkFrame st d send f ups) s = .next t
        ∧ ((t.stk st).lane d).expect = seq ∧ (t.stk st).mem = u.mem ∧ (∀ j, j ≠ st → t.stk j = s.stk j) ∧ t.cores = s.cores
        ∧ (if 7 ≤ e.fails then (t.stk st).state = .retraining ∧ ((t.stk st).lane d).fails = 0
             ∧ ((t.stk st).lane d).held = e.held ∧ ((t.stk st).lane d).wire = []
           else (t.stk st).state = u.state ∧ ((t.stk st).lane d).fails = e.fails + 1 ∧ ((t.stk st).lane d).naked = true
             ∧ ((t.stk st).lane d).wire = w ++ again ∧ (t.stk st).resends = cnt u.resends again.length
             ∧ (t.stk st).lane (!d) = u.lane (!d)))
      ∧ (seq ≠ e.expect → ups = [] → exec (.stackLinkFrame st d send f ups) s = .next (s.setStk st
          (if e.naked then u.setLane d { e with wire := w }
           else { (u.setLane d { e with wire := w ++ again, naked := true }) with resends := cnt u.resends again.length }))))
    ∧ (∀ d : Bool, u.linkUp = true →
      let k := (u.lane d).ack
      exec (.stackLinkResendTimeout st d) s = .next (s.setStk st
        (if k.held = [] then u.setLane d k
         else { (u.setLane d { k with wire := k.wire ++ k.held.map (·.1) }) with resends := cnt u.resends k.held.length })))
    ∧ (u.state = .retraining →
      let recent := u.retrainTimes.filter (fun x => decide (s.env.ticks < x + 50000000))
      (∃ t, exec (.stackLinkRetrainDone st true) s = .next t ∧ (t.stk st).retrains = cnt u.retrains 1
        ∧ (t.stk st).retrained = true ∧ (t.stk st).mem = u.mem ∧ (t.stk st).retrainFails = 0
        ∧ (∀ d, ((t.stk st).lane d).held = (u.lane d).ack.held)
        ∧ (recent.length < 7 → (t.stk st).state = .ready ∧ (u.meshQ = [] → u.srcQ = [] → (t.stk st).slots = u.slots))
        ∧ (7 ≤ recent.length → (t.stk st).state = .fault ∧ (t.stk st).slots = []))
      ∧ (∃ t, exec (.stackLinkRetrainDone st false) s = .next t ∧ (t.stk st).retrains = cnt u.retrains 1
        ∧ (t.stk st).mem = u.mem
        ∧ (if u.retrainFails < 2 then (t.stk st).state = .retraining ∧ (t.stk st).retrainFails = u.retrainFails + 1
           else (t.stk st).state = .fault ∧ (t.stk st).slots = [] ∧ t.rip.last = 0x10102002 + st / 4 * 0x1000000 + st % 4 * 0x10000
             ∧ t.rip.fault = true)))
    ∧ (∀ ups : List (Nat × Nat × Nat), u.linkUp = true → u.scrubPeriod ≠ 0 →
      let cw := u.scrubPos
      let found := (u.strike ups).sense cw
      (u.bankSlots (blkBank (cw / 4)) ≠ [] → exec (.scrubRead st ups) s = .next s)
      ∧ (u.bankSlots (blkBank (cw / 4)) = [] → ∃ t, exec (.scrubRead st ups) s = .next t
        ∧ (t.stk st).scrubPos = (cw + 1) % 805306368 ∧ (∀ j, j ≠ st → t.stk j = s.stk j) ∧ t.cores = s.cores
        ∧ (∀ a, a / 64 ≠ cw → sget 0 (t.stk st).mem a = sget 0 u.mem a) ∧ sget [] (t.stk st).upsets cw = []
        ∧ (found = .none → (t.stk st).eccCe = u.eccCe ∧ (t.stk st).eccUe = u.eccUe ∧ (t.stk st).poisoned = u.poisoned)
        ∧ (∀ k v, found = .one k v →
            (t.stk st).eccCe = cnt u.eccCe 1 ∧ (t.stk st).ce = true ∧ (t.stk st).poisoned = u.poisoned)
        ∧ (found = .many → (t.stk st).eccUe = cnt u.eccUe 1 ∧ (t.stk st).ue = true ∧ cw ∈ (t.stk st).poisoned
            ∧ (u.ue = false → (t.stk st).logAddr = cw ∧ (t.stk st).logKind = 2))))
    ∧ (∀ bank < 512, u.powered = true → ∃ t, exec (.refresh st bank) s = .next t
      ∧ sget 0 (t.stk st).openRow bank = 0 ∧ sget 0 (t.stk st).hits bank = 0
      ∧ sget 0 (t.stk st).refreshes bank = cnt (sget 0 u.refreshes bank) 1 ∧ (t.stk st).mem = u.mem
      ∧ (t.stk st).slots = u.slots ∧ t = { s with stks := t.stks } ∧ ∀ j, j ≠ st → t.stk j = s.stk j)
    ∧ (u.srEn = true → u.state = .ready → u.slots = [] → u.meshQ = [] →
      exec (.selfRefreshEntry st) s = .next (s.setStk st { u with state := .selfRefresh }))

/-- BAL_STEP_WRITE, BAL_SNAP_MAP_WRITE, ARM, LOAD and BAL_LOAD_DONE. A write that the engine's work keeps out sets WR_IGN.
Otherwise STEP takes the value, the map base takes its bits with VALID telling whether the map fits the stack and the
parity cleared, ARM arms a snapshot when VALID is 1, and LOAD starts a load from the address BAL_TABLE holds then. A
load that is done, its reads served at once, installs the tables it read, or records the first check they fail; cores
keep their registers, and no byte outside codewords with upsets changes. (R339, R340, R358, R364, R365) -/
def Obligations.BallastRegisters : Prop :=
  ∀ (st : Nat) (v : W32) (s : State),
    let u := s.stk st
    let b := u.bal
    (s.stkWin st = true →
      exec (.balStepWrite st v) s = .next (s.setStk st { u with bal :=
        if b.state ≠ .idle ∨ b.input ≠ [] ∨ b.prog ≠ [] ∨ b.armed = true ∨ b.active = true then { b with wrIgn := true }
        else { b with step := v.toNat } })
      ∧ exec (.balSnapMapWrite st v) s = .next (s.setStk st { u with bal :=
        if b.state ≠ .idle ∨ b.input ≠ [] ∨ b.prog ≠ [] ∨ b.armed = true ∨ b.active = true then { b with wrIgn := true }
        else { b with mapBase := v.toNat % 2 ^ 20,
                      mapOk := decide (v.toNat % 2 ^ 20 * 65536 + 25165824 ≤ 0xC00000000), parity := false } })
      ∧ (v.toNat.testBit 0 = true →
        exec (.arm st v) s = .next (s.setStk st { u with bal :=
          if b.mapOk = false ∨ b.armed = true ∨ b.active = true ∨ b.input ≠ [] ∨ b.prog ≠ []
          then { b with wrIgn := true } else { b with armed := true } })
        ∧ exec (.load st v) s = .next (s.setStk st { u with bal :=
          if b.input ≠ [] ∨ b.prog ≠ [] ∨ b.armed = true ∨ b.active = true then { b with wrIgn := true }
          else { b with loading := true, loadAt := b.table } })))
    ∧ (st < 16 → b.loading = true →
      let r := ({ s with acc := { src := .ballast st } } : State).readBytes b.loadAt balBytes
      let m := mwrite [] 0 r.2
      (s.ownSpan b.loadAt balBytes = false → exec (.balLoadDone st) s = .next (s.setStk st { u with bal :=
        { b.logErr 0x10 0 with loadErr := true, loading := false } }))
      ∧ (s.ownSpan b.loadAt balBytes = true → s.served (.ballast st) none (fun s => (s.readBytes b.loadAt balBytes).1) = true →
        ∃ t, exec (.balLoadDone st) s = .next t ∧ (t.stk st).bal.loading = false
        ∧ (∀ p, s.upset p = false → t.cell p = s.cell p) ∧ t.cores = s.cores
        ∧ match r.1.tablesCode m 4096 with
          | some (code, g) => (t.stk st).bal.loadErr = true ∧ (t.stk st).bal.copy = b.copy
              ∧ (b.segErr = false → b.loadErr = false → (t.stk st).bal.errCode = code ∧ (t.stk st).bal.errGroup = g)
          | none => (t.stk st).bal.copy = m ∧ (t.stk st).bal.loaded = true ∧ (t.stk st).bal.state = .idle
              ∧ (t.stk st).bal.loadErr = b.loadErr))

/-- OPEN_SEGMENT, RUN_SEGMENT, LIST_SEGMENT, BAL_SEGMENT_FORWARDED, BAL_SEGMENT_COMPLETE and SNAP_SWEEP. Accesses to
memory are served at once. A segment that fails a check of R344 marks its descriptor and its engine and stores
nothing. One that passes counts as sent: an engine that skips counts a skip, a frozen group counts its rows, and
neither stores anything; an accepted RUN or LIST joins the input of every other holder, and its own engine applies it
while fewer than four are in progress; an OPEN starts a step in every engine with nothing before it, and its armed
snapshot, or makes it skip. While a holder has no room the segment waits. An engine takes the front of its queue; a
residue mismatch halts it and puts its stack in FAULT. A complete segment leaves every engine and descriptor. A sweep
ends, or moves on by one chunk. (R343, R344, R345, R346, R347, R348, R351, R354, R358, R360, R542) -/
def Obligations.BallastSegments : Prop :=
  (∀ row ∈ segmentRows, ∀ (c r i st : Nat) (residue : Bool) (p : ReelProg) (bs : List Byte) (s : State),
      s.SendsSegment c r row.2 i p bs st residue →
      let e := (s.stk st).bal
      let ck := s.segCheck st bs
      let holders := s.segHolders st bs
      let room : Prop := ∀ h ∈ holders, h ≠ st → (s.stk h).bal.takes = true
      let same (t : State) : Prop := ∀ p, s.upset p = false → t.cell p = s.cell p
      let done (t : State) : Prop := (((t.core c).reel r).prog[i]?).map (·.segs) = some (p.segs + 1)
      (ck.1 ≠ 0 → ∃ t, exec (row.1 c r residue) s = .next t ∧ (t.stk st).bal.segErr = true ∧ (t.stk st).bal.input = []
        ∧ (((t.core c).reel r).prog[i]?).map (·.code) = some 5
        ∧ (e.segErr = false → e.loadErr = false → (t.stk st).bal.errCode = ck.1 ∧ (t.stk st).bal.errGroup = ck.2)
        ∧ same t)
      ∧ (ck.1 = 0 → row.2 ≠ 1 → e.state = .skip → ∃ t, exec (row.1 c r residue) s = .next t ∧ done t
          ∧ (t.stk st).bal.ovfSkips = cnt e.ovfSkips 1 ∧ same t)
      ∧ (ck.1 = 0 → row.2 ≠ 1 → e.state ≠ .skip →
          let g := groupOf e.copy (segGroup bs)
          (g.freeze = true ∨ e.step ≤ g.t0 → ∃ t, exec (row.1 c r residue) s = .next t ∧ done t
            ∧ (t.stk st).bal.frozenSkips = cnt e.frozenSkips (segNr bs) ∧ same t
            ∧ (g.strict = true → ({ code := 0x22, source := segGroup bs, arg := segRow bs 0 } : EvMsg) ∈ t.knot.events))
          ∧ (g.freeze = false → g.t0 < e.step → room → st ∈ holders →
            ∃ t, exec (row.1 c r residue) s = .next t ∧ done t
              ∧ (∀ h ∈ holders, h ≠ st → ∃ x, (t.stk h).bal.input = (s.stk h).bal.input ++ [x] ∧ x.bytes = bs)
              ∧ (e.prog.length < 4 → residue = false → (t.stk st).bal.segments = cnt e.segments 1 ∧ (t.stk st).bal.input = []
                  ∧ ∃ x, (t.stk st).bal.prog = e.prog ++ [x] ∧ x.bytes = bs)
              ∧ (4 ≤ e.prog.length → ∃ x, (t.stk st).bal.input = [x] ∧ x.bytes = bs))
          ∧ (g.freeze = false → g.t0 < e.step → ¬room → ∃ t x, exec (row.1 c r residue) s = .next t
              ∧ (t.stk st).bal.input = [x] ∧ x.bytes = bs ∧ (((t.core c).reel r).prog[i]?).map (·.segs) = some p.segs ∧ same t))
      ∧ (ck.1 = 0 → row.2 = 1 → room →
          let hd := (({ s.sentSegment c r row.2 with acc := { src := .ballast st } } : State).readBytes e.watch 11).2
          ∃ t, exec (row.1 c r residue) s = .next t ∧ done t
          ∧ ∀ h < 16, (s.stk h).bal.input = [] → (s.stk h).bal.prog = [] → (s.stk h).bal.loading = false →
              (t.stk h).bal.input = []
              ∧ ((s.stk h).bal.armed = true → (t.stk h).bal.armed = false ∧ (t.stk h).bal.active = true
                  ∧ (t.stk h).bal.parity = !(s.stk h).bal.parity)
              ∧ (if (leAt hd 10 1).testBit 0 then (t.stk h).bal.state = .skip
                else (t.stk h).bal.state = .apply ∧ (t.stk h).bal.step = ((s.stk h).bal.step + 1) % 2 ^ 32
                  ∧ (t.stk h).bal.kappa = leAt bs 4 4 ∧ (t.stk h).bal.lsPrev = leAt hd 3 1)))
  ∧ (∀ (st : Nat) (q : Seg) (rest : List Seg) (s : State), st < 16 → (s.stk st).bal.input = q :: rest → q.reel = none →
      (s.stk st).bal.loading = false → (s.stk st).bal.halted = false →
      let e := (s.stk st).bal
      (leAt q.bytes 0 1 = 1 → e.prog = [] → ∀ residue, exec (.balSegmentForwarded st residue) s
        = .next (s.setStk st { s.stk st with bal := { e.openStep q with input := rest } }))
      ∧ (leAt q.bytes 0 1 ≠ 1 → e.prog.length < 4 → (s.stk st).state ≠ .fault →
        (s.served (.ballast st) none (fun s => s.balNext st false) = true →
          ∃ t, exec (.balSegmentForwarded st false) s = .next t ∧ (t.stk st).bal.input = rest
          ∧ (t.stk st).bal.prog = e.prog ++ [q] ∧ (t.stk st).bal.segments = cnt e.segments 1)
        ∧ ∃ t, exec (.balSegmentForwarded st true) s = .next t ∧ (t.stk st).bal.halted = true ∧ (t.stk st).state = .fault
          ∧ (t.stk st).mem = (s.stk st).mem ∧ t.rip.fault = true))
  ∧ (∀ (id : Nat) (s : State), s.segWaits id = false → ∃ t, exec (.balSegmentComplete id) s = .next t
      ∧ (∀ st, ∀ q ∈ (t.stk st).bal.prog, q.id ≠ id)
      ∧ (∀ c r, ∀ p ∈ ((t.core c).reel r).prog, ∀ n ∈ p.segIds, n ≠ id)
      ∧ t = { s with stks := t.stks, cores := t.cores })
  ∧ ∀ (st : Nat) (s : State), st < 16 → (s.stk st).bal.active = true → s.served (.ballast st) none (fun s => s.sweepStep st) = true →
      let e := (s.stk st).bal
      let w := ({ s with acc := { src := .ballast st } } : State).sweepGroups st (4096 - e.sweepGroup) e.sweepGroup e.sweepChunk
      (w.2 = none → ∃ t, exec (.snapSweep st) s = .next t ∧ (t.stk st).bal.active = false ∧ (t.stk st).bal.done = true
        ∧ ({ code := 0x23, source := st, arg := 0 } : EvMsg) ∈ t.knot.events ∧ ∀ p, s.upset p = false → t.cell p = s.cell p)
      ∧ ∀ g h a, w.2 = some (g, h, a) → ∃ t, exec (.snapSweep st) s = .next t ∧ (t.stk st).bal.sweepGroup = g
        ∧ (t.stk st).bal.sweepChunk = h + 1 ∧ (t.stk st).bal.snapCopies = cnt e.snapCopies 1

/-- KN.ARRIVE, KN.WAIT, KN.GIVE, KN.TAKE, KN.SET, KN.STORE, KN.READ and KN.ABORT at issue. A knot instruction that a check
of R378 refuses raises its code. Otherwise it sends its operation on the knot that the instruction names, with the low
half of sA as its operand, or a commit holds it back. KN.WAIT and KN.TAKE leave the stream WAITING for a knot; the
others go on at PC + 8 with sD on its way. Nothing else of the core's streams, credit or scratch changes, and no other
core. (R371, R378, R105, R106) -/
def Obligations.KnotInstructions : Prop :=
  ∀ row ∈ knRows, ∀ (c : Nat) (x : Stream) (w : InsnW) (s : State),
    let k := s.core c
    let u := k.st x
    let n := iw w 17 0
    s.Acts c x w (if row.2.2 then [iA w] else []) → fmtI w = true → iw w 31 18 = 0 →
    (∀ code, s.knotCheck row.2.1 n (some (s.logNum c)) = some code → exec (row.1 c x w) s = .next (s.raise c x code))
    ∧ (s.knotCheck row.2.1 n (some (s.logNum c)) = none →
      ∃ t m, exec (row.1 c x w) s = .next t ∧ m.knot = n ∧ m.op = row.2.1 ∧ m.arg = (u.getS (iA w)).toNat % 2 ^ 32
        ∧ m.node = c
        ∧ (if s.knotHeld n then t.knot.heldOps = s.knot.heldOps ++ [m] ∧ t.knot.ops = s.knot.ops
           else t.knot.ops = s.knot.ops ++ [m] ∧ t.knot.heldOps = s.knot.heldOps)
        ∧ (if row.2.1 = .wait ∨ row.2.1 = .take then
             ((t.core c).st x).state = .waiting ∧ ((t.core c).st x).wait = .knot ∧ ((t.core c).st x).pc = u.pc
               ∧ ((t.core c).st x).s = u.s
           else (t.core c).st x = (u.await (iD w) k.nextTicket).ended (u.pc + 8))
        ∧ (t.core c).st (sOther x) = k.st (sOther x) ∧ (t.core c).credit = k.credit ∧ (t.core c).scratch = k.scratch
        ∧ (∀ j, j ≠ c → t.core j = s.core j) ∧ t = { s with cores := t.cores, knot := t.knot })

/-- KNOT_OP_AT_HOME. An operation that reaches its knot, with no one waiting there, has the meaning of R371: an arrive
counts, and completes a barrier's phase that reaches its limit; a give adds up to the limit; a take subtracts, or
waits; a set counts; a store replaces; an abort sets ABORTED; and an aborted knot is changed by none of them. The
reply, when its sender on this device awaits one, carries the status. An entry that cannot be corrected aborts the
knot and is reported; a double-bit error in the message on a die's link loses it, is counted and puts the die out. No
bucket of the reduction unit is armed here. (R371, R372, R373, R374, R375, R376, R377, R387, R541) -/
def Obligations.KnotOperationsAtTheirHome : Prop :=
  ∀ (k : Nat) (m : KMsg) (r : KRange) (s : State), s.knot.ops[k]? = some m → s.canArrive m s.knot.ops = true →
    s.dieOut (m.knot / 65536) = false → s.rangeOf m.knot = some r → s.teth.armed = [] → (s.kn m.knot).waiters = [] →
    let e := s.kn m.knot
    let v := m.arg % 2 ^ 32
    let w : Waiter := { who := m.who, take := m.op == .take, arg := m.arg }
    (∀ ecc : Ecc, ecc ≠ .double → ∃ t, exec (.knotOpAtHome [k] { entry := ecc }) s = .next t ∧ t.knot.ops = s.knot.ops.erase m
      ∧ t.cores = s.cores ∧ t.stks = s.stks ∧ (∀ j, j ≠ m.knot → t.kn j = s.kn j)
      ∧ t.rip.corrected = (if ecc = .corrected then cnt s.rip.corrected 1 else s.rip.corrected)
      ∧ (e.aborted = true → m.op ≠ .abort → t.kn m.knot = e)
      ∧ (e.aborted = false →
          (m.op = .arrive → r.kind = 0 → r.scope ≠ 2 →
            let n := Nat.min (e.value + 1) 0xFFFFFFFF
            t.kn m.knot = if e.limit ≠ 0 ∧ e.limit ≤ n then
                { e with value := 0, phase := (e.phase + 1) % 65536, lastErr := e.err || m.err, err := false, childIn := 0,
                         upSent := false }
              else { e with value := n, err := e.err || m.err })
          ∧ (m.op = .arrive → r.kind ≠ 0 →
              t.kn m.knot = { e with value := Nat.min (e.value + v) 0xFFFFFFFF, err := e.err || m.err })
          ∧ (m.op = .give → t.kn m.knot = { e with value := Nat.min (e.value + v) e.limit }
              ∧ (e.limit < e.value + v → t.knot.semaOvf = true ∧ t.knot.semaOvfN = cnt s.knot.semaOvfN 1))
          ∧ (m.op = .take → t.kn m.knot = if v ≤ e.value then { e with value := e.value - v } else { e with waiters := [w] })
          ∧ (m.op = .wait → t.kn m.knot = if e.holds r.kind m.arg then e else { e with waiters := [w] })
          ∧ (m.op = .set → t.kn m.knot = { e with value := (e.value + 1) % 2 ^ 32 })
          ∧ (m.op = .store → t.kn m.knot = { e with value := v, err := false })
          ∧ (m.op = .read → t.kn m.knot = e))
      ∧ (m.op = .abort → t.kn m.knot = { e with aborted := true } ∧ t.knot.aborts = cnt s.knot.aborts 1)
      ∧ ((∀ d n, m.who ≠ .far d n) → t.knot.replies = s.knot.replies ++
          (if m.who.replies m.op = true ∧ (t.kn m.knot).waiters = [] then
            [{ knot := m.knot, who := m.who, op := m.op,
               status := if m.op = .arrive ∧ r.kind = 0 then e.status 0 else (t.kn m.knot).status r.kind }]
           else [])))
    ∧ (∃ t, exec (.knotOpAtHome [k] { entry := .double }) s = .next t ∧ t.knot.ops = s.knot.ops.erase m
      ∧ (t.kn m.knot).aborted = true ∧ t.rip.last = 0x10504201 + m.knot / 65536 * 0x1000000 ∧ t.rip.fault = true)
    ∧ ∀ (ecc : Ecc) (n : Nat), n < 4 → ∃ t, exec (.knotOpAtHome [k] { entry := ecc, bad := some n }) s = .next t
      ∧ t.knot.knots = s.knot.knots ∧ t.knot.bridleErr = cnt s.knot.bridleErr 1
      ∧ (∀ x ∈ t.knot.ops, x ∈ s.knot.ops.erase m ∨ x ∈ s.knot.heldOps)
      ∧ t.rip.last = 0x10314001 + n * 0x1000000 ∧ t.dieOut n = true

/-- KNOT_REPLY, TREE_ARRIVE, TREE_DONE and TREE_ABORT. A reply that none from its home to its node comes before reaches
its stream, whose register takes the status and which goes on when it waited, or loads its operation pair, or gives
its core's verdict, or, its table's accesses served at once, lets its WATCH.STEP go on; one with a double-bit error is
lost and counted. A tree message of a stale generation, for no group knot or of another phase is counted and changes
no knot. Otherwise, whether or not the instance is aborted, an arrive counts a child and the error flag, and the last
one at the root completes the phase; a done completes the phase; and an abort aborts the instance. (R221, R371, R372, R376, R380, R381, R382, R387, R389) -/
def Obligations.KnotRepliesAndTrees : Prop :=
  (∀ (k : Nat) (r : KReply) (s : State), s.knot.replies[k]? = some r →
      (s.knot.replies.take k).any (fun q => q.who.node == r.who.node && homeOf q.knot == homeOf r.knot) = false →
      (∀ c x d ticket stop, r.who = .stream c x d ticket stop →
        let u := (s.core c).st x
        let v := u.deliver d ticket (BitVec.ofNat 64 r.status)
        ∃ t, exec (.knotReply { k }) s = .next t ∧ t.knot.replies = s.knot.replies.eraseIdx k
          ∧ (t.core c).st x = (if stop = true ∧ u.state = .waiting ∧ u.wait = .knot then
              (if u.stopReq then { v.ended (u.pc + 8) with state := .halted, stopReq := false } else v.ended (u.pc + 8))
             else v)
          ∧ (t.core c).st (sOther x) = (s.core c).st (sOther x) ∧ (∀ j, j ≠ c → t.core j = s.core j)
          ∧ t = { s with cores := t.cores, knot := t.knot })
      ∧ (∀ g n, r.who = .pair g n → (s.pair g).serial = n → ∃ t, exec (.knotReply { k }) s = .next t
          ∧ t.knot.replies = s.knot.replies.eraseIdx k
          ∧ t.pair g = { s.pair g with waiting := false, resValid := true, resAborted := r.status.testBit 63,
                                       resErr := r.status.testBit 62, resValue := r.status % 2 ^ 29 }
          ∧ t.cores = s.cores)
      ∧ (∀ c n, r.who = .verdict c n → (s.core c).watch.verdictOut = true → (s.core c).watch.verdictId = n →
          ∃ t, exec (.knotReply { k }) s = .next t ∧ t.knot.replies = s.knot.replies.eraseIdx k
            ∧ (t.core c).watch.verdict = some (r.status % 65536) ∧ (t.core c).watch.verdictOut = false)
      ∧ (∀ c x n, r.who = .step c x n → s.coreServed c (fun s => s.replyIn k r none) = true →
          let u := (s.core c).st x
          ∃ t, exec (.knotReply { k }) s = .next t ∧ t.knot.replies = s.knot.replies.eraseIdx k
            ∧ (t.core c).watch.verdict = none
            ∧ (r.status.testBit 63 = true → ((t.core c).st x).state = .exception ∧ ((t.core c).st x).excCode = 0x35)
            ∧ (r.status.testBit 63 = false → (s.core c).watch.valid = true → u.stopReq = false →
                (t.core c).st x = u.ended (u.pc + 8)))
      ∧ ∀ n < 4, ∃ t, exec (.knotReply { k, bad := some n }) s = .next t
          ∧ t.knot.bridleErr = cnt s.knot.bridleErr 1 ∧ t.rip.last = 0x10314001 + n * 0x1000000 ∧ t.dieOut n = true
          ∧ ∀ q ∈ t.knot.replies, q ∈ s.knot.replies.eraseIdx k)
  ∧ ∀ (k : Nat) (m : TreeMsg) (s : State), s.knot.tree[k]? = some m → (s.knot.tree.take k).any (fun q => q.src == m.src) = false →
      let i : Instr := match m.kind with
        | .arrive => .treeArrive k
        | .done => .treeDone k
        | .abort => .treeAbort k
      let e := s.kn m.knot
      let tr := s.treeOf e
      (s.rangeOf m.knot = none → ∃ t, exec i s = .next t ∧ t.knot.stale = true ∧ t.knot.phaseDrops = cnt s.knot.phaseDrops 1
        ∧ t.knot.knots = s.knot.knots ∧ t = { s with knot := t.knot })
      ∧ ∀ r, s.rangeOf m.knot = some r →
        (r.scope ≠ 2 → ∃ t, exec i s = .next t ∧ t.knot.phaseDrops = cnt s.knot.phaseDrops 1 ∧ t.knot.knots = s.knot.knots)
        ∧ (r.scope = 2 → m.gen ≠ s.rangeGen r → ∃ t, exec i s = .next t ∧ t.knot.staleDrops = cnt s.knot.staleDrops 1
            ∧ t.knot.stale = true ∧ t.knot.knots = s.knot.knots)
        ∧ (r.scope = 2 → m.gen = s.rangeGen r → e.waiters = [] →
            let keep (t : State) : Prop := t.cores = s.cores ∧ t.stks = s.stks
            (m.kind = .arrive → m.phase ≠ e.phase → ∃ t, exec i s = .next t ∧ t.knot.phaseDrops = cnt s.knot.phaseDrops 1
              ∧ t.knot.knots = s.knot.knots)
            ∧ (m.kind = .arrive → m.phase = e.phase → e.value ≠ e.limit → ∃ t, exec i s = .next t
              ∧ t.kn m.knot = { e with childIn := e.childIn + 1, err := e.err || m.err } ∧ keep t)
            ∧ (m.kind = .arrive → m.phase = e.phase → e.value = e.limit → e.childIn + 1 = tr.children.length →
              e.upSent = false →
              (tr.parent = 0xFFFF → ∃ t, exec i s = .next t ∧ keep t
                ∧ t.kn m.knot = { e with lastErr := e.err || m.err, err := false, value := 0, phase := (e.phase + 1) % 65536,
                                         childIn := 0, upSent := false })
              ∧ (tr.parent ≠ 0xFFFF → ∃ t, exec i s = .next t ∧ keep t
                ∧ t.kn m.knot = { e with childIn := e.childIn + 1, err := e.err || m.err, upSent := true }))
            ∧ (m.kind = .done → m.phase = (e.phase + 1) % 65536 → e.limit ≠ 0 ∨ tr.children ≠ [] → ∃ t, exec i s = .next t
              ∧ t.kn m.knot = { e with lastErr := m.err, err := false, value := 0, phase := m.phase, childIn := 0,
                                       upSent := false } ∧ keep t)
            ∧ (m.kind = .abort → ∃ t, exec i s = .next t ∧ t.kn m.knot = { e with aborted := true }
              ∧ t.knot.aborts = cnt s.knot.aborts 1 ∧ keep t))

/-- The KNT_OP writes, KNT_NOTIFY_WRITE, the entry writes, the heartbeats of the package and EVENT_MESSAGE. KNT_OP sends
its operation and clears the last result, or sets WR_IGN when the pair waits or R378 refuses. A notify record takes
its fields. The words of an entry are staged, and the last one replaces the entry, unless VALID is 0 or the knot is
not allocated. A heartbeat that arrives is noted, or lost and counted when it has a double-bit error; a silent link is
declared lost and reported. The first event of its agent goes to the ring, its write served at once, or is counted as
lost when the ring is full. (R370, R378, R379, R386, R387, R388, R389, R390, R562) -/
def Obligations.KnotRegistersAndEvents : Prop :=
  ∀ s : State,
    (∀ row ∈ kntRows, ∀ (g : Nat) (n : BitVec 18), s.pairOk g = true →
      let p := s.pair g
      (p.waiting = true → exec (row.1 g n) s = .next { s with knot := { s.knot with wrIgn := true } })
      ∧ (p.waiting = false →
        ((s.knotCheck row.2 n.toNat none).isSome = true → ∃ t, exec (row.1 g n) s = .next t ∧ t.knot.wrIgn = true
          ∧ t.pair g = { p with serial := p.serial + 1, resValid := true, resAborted := false, resErr := false, resValue := 0 }
          ∧ t.knot.ops = s.knot.ops ∧ t = { s with knot := t.knot })
        ∧ (s.knotCheck row.2 n.toNat none = none → ∃ t m, exec (row.1 g n) s = .next t ∧ m.op = row.2 ∧ m.knot = n.toNat
          ∧ m.arg = p.arg ∧ m.who = .pair g (p.serial + 1) ∧ m.node = pairNode g
          ∧ (if s.knotHeld n.toNat then t.knot.heldOps = s.knot.heldOps ++ [m] else t.knot.ops = s.knot.ops ++ [m])
          ∧ t.pair g = { p with serial := p.serial + 1, resValid := false, resAborted := false, resErr := false, resValue := 0,
                                waiting := row.2 == .wait || row.2 == .take }
          ∧ t = { s with knot := t.knot })))
    ∧ (∀ (n : Nat) (v : W32), s.diesUp = true →
      let q : Notify := { en := v.toNat.testBit 31, gon := v.toNat / 2 ^ 18 % 16, knot := v.toNat % 2 ^ 18 }
      let d := if 256 ≤ n then { s.knot with wrIgn := true } else { s.knot with notify := sset {} s.knot.notify n q }
      exec (.kntNotifyWrite n v) s = .next { s with knot := d })
    ∧ (∀ (w : Who) (n i : Nat) (v : W32), s.whoOk w = true → s.knotWin n = true →
      let g := match w with
        | .gon g => g
        | .owner => 16
      let p := s.pair g
      (∃ t, exec (.knotEntryStage w n i v) s = .next t ∧ t = { s with knot := t.knot }
        ∧ (i = 0 → t.pair g = { p with stage0 := v.toNat }) ∧ (i = 1 → t.pair g = { p with stage1 := v.toNat })
        ∧ (i = 2 → t.pair g = { p with stage2 := v.toNat }) ∧ t.knot.knots = s.knot.knots)
      ∧ (p.stage2.testBit 31 = false ∨ s.rangeOf n = none →
        exec (.knotEntryReplace w n v) s = .next { s with knot := { s.knot with wrIgn := true } })
      ∧ (p.stage2.testBit 31 = true → (s.rangeOf n).isSome = true → (s.kn n).waiters = [] → s.teth.armed = [] →
        (∀ r, s.rangeOf n = some r → r.scope = 2 → r.kind = 0 → p.stage0 ≠ p.stage1) →
        ∃ t, exec (.knotEntryReplace w n v) s = .next t ∧ t.pair g = p ∧ t.cores = s.cores
          ∧ t.kn n = { value := p.stage0, limit := p.stage1, phase := p.stage2 % 65536, childIn := p.stage2 / 65536 % 256,
                       valid := true, aborted := false, err := p.stage2.testBit 29, lastErr := p.stage2.testBit 28,
                       upSent := p.stage2.testBit 27, tree := v.toNat % 4096, waiters := [] }))
    ∧ (∀ n ∈ s.knot.beats, exec (.heartbeat false { k := n }) s = .next { s with knot :=
        { s.knot with beats := s.knot.beats.erase n, heard := sset 0 s.knot.heard n s.env.ticks } })
    ∧ (∀ n ∈ s.knot.beats, n < 4 → ∃ t, exec (.heartbeat false { k := n, bad := some n }) s = .next t ∧ t.knot.beats = s.knot.beats.erase n
        ∧ t.knot.bridleErr = cnt s.knot.bridleErr 1 ∧ t.knot.heard = s.knot.heard
        ∧ t.rip.last = 0x10314001 + n * 0x1000000 ∧ t.dieOut n = true)
    ∧ (∀ n : Nat, s.diesUp = true →
      exec (.bridleHeartbeatTimer false n) s = .next { s with knot := { s.knot with beats := s.knot.beats ++ [n] } })
    ∧ (∀ n : Nat, s.diesUp = true → n ≤ 7 → n ∉ s.knot.lostLinks → sget 0 s.knot.heard n + 50000 ≤ s.env.ticks →
      ∃ t, exec (.bridleLinkLost false n) s = .next t
        ∧ (n < 4 → t.knot.linkLost = true ∧ n ∈ t.knot.lostLinks ∧ t.rip.last = 0x10314002 + n * 0x1000000
            ∧ t.dieOut n = true)
        ∧ (4 ≤ n → s.ResetTo t (0x01204002 + (n - 4) * 0x10000)))
    ∧ ∀ (k : Nat) (m : EvMsg), s.knot.events[k]? = some m → (s.knot.events.take k).any (fun e => e.agent == m.agent) = false →
      s.diesUp = true → s.rip.evtBaseSet = true →
      let full := (s.rip.head + 1) % 4096 = s.rip.tail
      let q : State := { s with knot := { s.knot with events := s.knot.events.eraseIdx k }, acc := { src := .gondola 0 } }
      let w := q.writeBytes {} (s.rip.evtBase + 16 * s.rip.head) (q.eventBytes m)
      (full → ∃ t, exec (.eventMessage k) s = .next t ∧ t.rip.evtLost = true ∧ t.rip.evtLostN = cnt s.rip.evtLostN 1
        ∧ t.rip.head = s.rip.head ∧ t.knot.events = s.knot.events.eraseIdx k ∧ ∀ p, t.cell p = s.cell p)
      ∧ (¬full → q.inOwnMem (s.rip.evtBase + 16 * s.rip.head) 16 = true → w.2 = true →
        s.served (.gondola 0) none (fun s => s.eventIn k m) = true →
        ∃ t, exec (.eventMessage k) s = .next t ∧ t.rip.head = (s.rip.head + 1) % 4096 ∧ s.rip.evtGon ∈ t.rip.gonIrq
          ∧ t.rip.evtLostN = s.rip.evtLostN
          ∧ t.stks = w.1.stks)

/-- Received blocks: the CRC and order on a link, blocks for other devices, and the checks of R407. A block with a bad CRC
is counted and not taken; the eighth failure in succession of the block expected retrains the port. One with a number
the port does not expect is not taken: a NAK is out and the number expected stays. One that is expected moves the
number on; for another device it is forwarded, or counted when it has no hop left or no route; for this one it is
counted and has no other effect when it does not authenticate, when its number repeats, or when its context refuses
it. Only a bridle block is for 0xFFFF. No core, stack or knot changes. (R33, R396, R397, R398, R401, R404, R406, R407, R414) -/
def Obligations.BlocksOnALink : Prop :=
  ∀ row ∈ ([(.bridle, 0, 1), (.readReq, 2, 2), (.writeHdr, 2, 3), (.writeData, 2, 4), (.readData, 1, 5), (.writeAck, 1, 6),
      (.reduceHdr, 2, 7), (.reduceData, 2, 8)] : List ((Nat → Hop → Block → Nat → Instr) × Nat × Nat)),
    ∀ (p : Nat) (h : Hop) (b : Block) (crc : Nat) (s : State), b.cls = row.2.1 → b.kind = row.2.2 →
    s.portWin p = true → (s.port p).state = .up →
    let u := s.port p
    (crc32c (wireBody h b) ≠ crc → ∃ t, exec (row.1 p h b crc) s = .next t ∧ (t.port p).crcErr = cnt u.crcErr 1
      ∧ t = { s with teth := t.teth } ∧ (h.lseq = u.expect → s.FailedOn t p)
      ∧ (h.lseq ≠ u.expect → (t.port p).naked = true ∧ (t.port p).expect = u.expect))
    ∧ (crc32c (wireBody h b) = crc → h.lseq ≠ u.expect → ∃ t, exec (row.1 p h b crc) s = .next t ∧ (t.port p).naked = true
      ∧ (t.port p).expect = u.expect ∧ (t.port p).heard = u.heard ∧ t = { s with teth := t.teth })
    ∧ (s.Arrives p h b crc → ¬s.ForMe b → ∃ t, exec (row.1 p h b crc) s = .next t
      ∧ (t.port p).expect = (u.expect + 1) % 65536 ∧ t = { s with teth := t.teth }
      ∧ (b.hops = 0 → (t.port p).hopDrops = cnt u.hopDrops 1)
      ∧ (b.hops ≠ 0 → s.route b.dst b.src b.ctx = none → (t.port p).noRoute = cnt u.noRoute 1)
      ∧ (b.hops ≠ 0 → (s.route b.dst b.src b.ctx).isSome = true → (t.port p).fwdBlocks = cnt u.fwdBlocks 1))
    ∧ (s.Arrives p h b crc → s.ForMe b →
      (s.openRx p b = none → ∃ t, exec (row.1 p h b crc) s = .next t ∧ (t.port p).expect = (u.expect + 1) % 65536
        ∧ (t.port p).auth = true ∧ (t.port p).authFail = cnt u.authFail 1 ∧ t = { s with teth := t.teth })
      ∧ ∀ c, s.openRx p b = some c →
        (isReplay c (s.flowsFor p c) = true → ∃ t, exec (row.1 p h b crc) s = .next t
          ∧ (t.port p).expect = (u.expect + 1) % 65536 ∧ (t.port p).replay = cnt u.replay 1 ∧ t = { s with teth := t.teth })
        ∧ (isReplay c (s.flowsFor p c) = false → ¬s.CtxTakes c → ∃ t, exec (row.1 p h b crc) s = .next t
          ∧ (t.port p).expect = (u.expect + 1) % 65536 ∧ (t.ctx c.ctx).drops = cnt (s.ctx c.ctx).drops 1
          ∧ t = { s with teth := t.teth }))

/-- BRIDLE, READ_REQ, READ_DATA, WRITE_HDR, WRITE_DATA, WRITE_ACK, REDUCE_HDR and REDUCE_DATA that are accepted. A BRIDLE
block delivers its message. A read request changes no memory outside codewords with upsets, and one for control space
is refused and counted. The entries of a write header wait for their data, and each data block is written where its
entry says. Read data answers its load, whose stream goes on, is kept for its reel or vector instruction, or lets the
narrow write that waits for it leave; a failed read ends it, and an acknowledgement ends its store. A reduction header
is noted, or counted when it comes too late, and its data is written where it belongs. Accesses to memory are served
at once. (R384, R385, R395, R403, R407, R431, R432) -/
def Obligations.AcceptedBlocks : Prop :=
  ∀ (p : Nat) (h : Hop) (sealed : Block) (crc : Nat) (b : Block) (s : State), s.AcceptsBlock p h sealed crc b →
    let key := (b.src, b.ctx, b.cls)
    let served (body : State → Block → State) : Prop := s.served (.tether p) none (fun s => s.rxIn p h sealed crc body) = true
    let after (u : State) : Prop := u = { s with teth := u.teth, acc := { src := .tether p } } ∧ u.teth.self = s.teth.self
    (b.cls = 0 → b.kind = 1 → ∀ m : List Byte, m.length = 16 → b.payload = m ++ List.replicate 240 0 →
      ∃ t, exec (.bridle p h sealed crc) s = .next t ∧ t.cores = s.cores ∧ t.stks = s.stks
        ∧ (leAt m 0 1 = 1 → ∀ op, KOp.ofMinor (leAt m 8 4 / 2 ^ 28) = some op →
            s.knotCheck op (leAt m 8 4 % 2 ^ 18) none = none → s.knotHeld (leAt m 8 4 % 2 ^ 18) = false →
            ∃ x, t.knot.ops = s.knot.ops ++ [x] ∧ x.op = op ∧ x.knot = leAt m 8 4 % 2 ^ 18 ∧ x.arg = leAt m 12 4)
        ∧ (leAt m 0 1 = 3 → t.knot.tree = s.knot.tree ++ [treeOfBytes .arrive m])
        ∧ (leAt m 0 1 = 4 → t.knot.tree = s.knot.tree ++ [treeOfBytes .done m])
        ∧ (leAt m 0 1 = 5 → t.knot.tree = s.knot.tree ++ [treeOfBytes .abort m])
        ∧ (leAt m 0 1 = 6 → t.env.msgs = s.env.msgs ++ [EnvMsg.ofBytes m])
        ∧ (leAt m 0 1 = 7 → t.pace = s.pace ++ [paceOfBytes false m])
        ∧ (leAt m 0 1 = 8 → t.pace = s.pace ++ [paceOfBytes true m])
        ∧ (leAt m 0 1 = 9 → t.knot.events = s.knot.events ++ [{ code := leAt m 8 2, source := leAt m 10 2, arg := leAt m 12 4 }])
        ∧ (leAt m 0 1 = 0x0A → t = { s with teth := t.teth })
        ∧ (10 < leAt m 0 1 → t.knot.bridleErr = cnt s.knot.bridleErr 1))
    ∧ (b.cls = 2 → b.kind = 2 → served (State.readReqIn p) → ∃ t, exec (.readReq p h sealed crc) s = .next t
      ∧ (∀ q, s.upset q = false → t.cell q = s.cell q) ∧ (t.port p).expect = ((s.port p).expect + 1) % 65536
      ∧ (b.tag = 1 → b.payload.length = 256 → aDev (leAt b.payload 0 8) = s.teth.self → aSpace (leAt b.payload 0 8) = 15 →
          (t.port p).ctrlRefused = cnt (s.port p).ctrlRefused 1))
    ∧ (b.cls = 2 → b.kind = 3 → ∃ t, exec (.writeHdr p h sealed crc) s = .next t ∧ t = { s with teth := t.teth }
      ∧ t.teth.rxWrites = s.teth.rxWrites.filter (fun q => q.flow ≠ key)
          ++ [⟨key, (groups 16 (Nat.min b.tag 16) b.payload).map (fun e => (leAt e 0 8, leAt e 8 2, leAt e 10 2))⟩])
    ∧ (b.cls = 2 → b.kind = 4 → ∀ q a tag len rest, s.teth.rxWrites.find? (fun q => q.flow == key) = some q →
        q.entries = (a, tag, len) :: rest → aDev a = s.teth.self → aSpace a ≠ 15 → 4 ≤ len → a % 256 + len ≤ 256 →
        len % 4 = 0 → a % 4 = 0 → served (State.writeDataIn p) →
      ∃ (t u : State), exec (.writeData p h sealed crc) s = .next t ∧ after u
        ∧ t.stks = (u.writeMem {} a ((maskedBytes b).take len)).1.stks
        ∧ t.cores = (u.writeMem {} a ((maskedBytes b).take len)).1.cores)
    ∧ (b.cls = 1 → b.kind = 5 → ∀ q, s.reqFor b b.tag false = some q →
      let d := (((maskedBytes b).drop (q.addr % 256)).take q.len).map (·.1)
      (∀ c x r size signed, q.who = .load c x r size signed → ((s.core c).st x).state = .waiting → ((s.core c).st x).wait = .far →
        let u := (s.core c).st x
        let v := (u.setS r (ldVal size signed d)).ended (u.pc + 8)
        (b.fault = false → q.merge = [] → ∃ t, exec (.readData p h sealed crc) s = .next t
          ∧ (t.core c).st x = (if u.stopReq then { v with state := .halted, stopReq := false } else v)
          ∧ t.teth.reqs = s.teth.reqs.filter (fun o => o.tag ≠ q.tag) ∧ (∀ j, j ≠ c → t.core j = s.core j) ∧ t.stks = s.stks)
        ∧ (b.fault = true → ∃ t, exec (.readData p h sealed crc) s = .next t ∧ ((t.core c).st x).state = .exception
            ∧ ((t.core c).st x).excCode = 0x02 ∧ ((t.core c).st x).excPc = u.pc ∧ t.stks = s.stks))
      ∧ ((∃ c r, q.who = .reel c r) ∨ (∃ c x id, q.who = .vec c x id) → b.fault = false → q.merge = [] →
        ∃ t, exec (.readData p h sealed crc) s = .next t ∧ t = { s with teth := t.teth }
          ∧ ∃ r ∈ t.teth.reqs, r.tag = q.tag ∧ r.done = true ∧ r.fault = 0 ∧ r.data = d)
      ∧ (b.fault = false → q.merge ≠ [] → ∃ t, exec (.readData p h sealed crc) s = .next t ∧ t.cores = s.cores ∧ t.stks = s.stks
          ∧ ∃ r ∈ t.teth.reqs, r.tag = q.tag ∧ r.write = true ∧ r.merge = []))
    ∧ (b.cls = 1 → b.kind = 6 → ∀ q c x, b.tag = 1 → b.payload.length = 256 → leAt b.payload 2 1 = 0 →
        s.reqFor b (leAt b.payload 0 2) true = some q → q.who = .store c x → ((s.core c).st x).state = .waiting →
        ((s.core c).st x).wait = .far → ((s.core c).st x).stopReq = false →
      ∃ t, exec (.writeAck p h sealed crc) s = .next t ∧ (t.core c).st x = ((s.core c).st x).ended (((s.core c).st x).pc + 8)
        ∧ t.teth.reqs = s.teth.reqs.filter (fun o => o.tag ≠ q.tag) ∧ (∀ j, j ≠ c → t.core j = s.core j) ∧ t.stks = s.stks)
    ∧ (b.cls = 2 → b.kind = 7 → leAt b.payload 8 4 ≠ 0 →
      let a := s.redTakes (leAt b.payload 0 2) (leAt b.payload 2 2) (leAt b.payload 4 2) (leAt b.payload 6 1)
        (leAt b.payload 8 4) (leAt b.payload 12 4)
      ∃ t r, exec (.reduceHdr p h sealed crc) s = .next t ∧ t = { s with teth := t.teth }
        ∧ t.teth.rxReduces = s.teth.rxReduces.filter (fun q => q.flow ≠ key) ++ [r] ∧ r.flow = key
        ∧ r.left = leAt b.payload 8 4 ∧ r.drop = a.isNone
        ∧ t.teth.redLate = (if a.isNone then cnt s.teth.redLate 1 else s.teth.redLate))
    ∧ (b.cls = 2 → b.kind = 8 → ∀ q, s.teth.rxReduces.find? (fun q => q.flow == key) = some q → 1 < q.left →
        served State.reduceDataIn →
      ∃ (t u : State), exec (.reduceData p h sealed crc) s = .next t ∧ after u
        ∧ t.teth.rxReduces = s.teth.rxReduces.filter (fun r => r.flow ≠ key)
            ++ [{ q with left := q.left - 1, at' := q.at' + 256 }]
        ∧ t.stks = if q.drop then s.stks else (u.writeMem {} q.at' (maskedBytes b)).1.stks)

/-- HELLO, HELLO_REPLY and CONFIRM of a link and between two devices, and HANDSHAKE_RETRY. On a port in its handshake a
HELLO that is accepted makes this device its responder. A HELLO_REPLY to its own HELLO, and a CONFIRM of its own
reply, that are accepted bring the port up with the partner's ID. A block that is not accepted is refused and counted,
and the port stays in its handshake. Between devices an accepted HELLO makes this device the responder of its sender,
and an accepted HELLO_REPLY or CONFIRM makes the sender's entry UP; one that is not accepted is refused and counted. A
retry sends a new HELLO. (R408, R409, R410) -/
def Obligations.LinkHandshakes : Prop :=
  ∀ (p : Nat) (h : Hop) (b : Block) (crc : Nat) (s : State), s.portWin p = true → crc32c (wireBody h b) = crc →
    h.lseq = (s.port p).expect → b.cls = 0 →
    let pl := b.payload
    let d := hsDev pl
    let next := ((s.port p).expect + 1) % 65536
    let e := s.draw 32
    let n := e.1.draw 16
    let z := x25519 (ofLe e.2) (hsEph pl)
    let mine : Handshake := { initiator := false, peer := d, nonce := n.2, eph := ofLe e.2, got := pl, stage := 1 }
    let keep (t : State) : Prop := t.cores = s.cores ∧ t.stks = s.stks
    ((s.port p).state = .handshake → b.dst = 0xFFFF →
      (b.kind = 0x3C → d ≤ s.teth.self → ∃ t, exec (.hello p h { blk := b, crc }) s = .next t ∧
        if s.hsOk (some p) 0x3C pl none z then
          (t.port p).state = .handshake ∧ (t.port p).expect = next ∧ (t.port p).hs = some mine
            ∧ (t.port p).sent.length = (s.port p).sent.length + 1 ∧ keep t
        else s.RefusedOn t p)
      ∧ ∀ q, (s.port p).hs = some q →
        (b.kind = 0x3D → q.initiator = true → ∃ t, exec (.helloReply p h { blk := b, crc }) s = .next t ∧
          if s.hsOk (some p) 0x3D pl (some q.nonce) (x25519 q.eph (hsEph pl)) then
            (t.port p).state = .up ∧ (t.port p).peerDev = d ∧ (t.port p).expect = next ∧ (t.port p).hs = none ∧ keep t
          else s.RefusedOn t p)
        ∧ (b.kind = 0x3E → q.initiator = false → q.stage = 1 → ∃ t, exec (.confirm p h { blk := b, crc }) s = .next t ∧
          if s.hsOk (some p) 0x3E pl (some q.nonce) (x25519 q.eph (hsEph q.got)) && d == hsDev q.got then
            (t.port p).state = .up ∧ (t.port p).peerDev = d ∧ (t.port p).expect = next ∧ (t.port p).hs = none ∧ keep t
          else s.RefusedOn t p))
    ∧ ((s.port p).state = .up → b.dst = s.teth.self → b.dst ≠ 0xFFFF →
      (b.kind = 0x3C → ∃ t, exec (.hello p h { blk := b, crc }) s = .next t ∧ (t.port p).expect = next ∧
        if s.hsOk none 0x3C pl none z then mine ∈ t.teth.e2e ∧ keep t else s.RefusedOn t p)
      ∧ ∀ q, s.e2eOf d = some q →
        (b.kind = 0x3D → q.initiator = true → ∃ t, exec (.helloReply p h { blk := b, crc }) s = .next t ∧ (t.port p).expect = next ∧
          if s.hsOk none 0x3D pl (some q.nonce) (x25519 q.eph (hsEph pl)) then (t.peer d).state = .up ∧ keep t else s.RefusedOn t p)
        ∧ (b.kind = 0x3E → q.initiator = false → q.stage = 1 → ∃ t, exec (.confirm p h { blk := b, crc }) s = .next t
          ∧ (t.port p).expect = next ∧
          if s.hsOk none 0x3E pl (some q.nonce) (x25519 q.eph (hsEph q.got)) then (t.peer d).state = .up ∧ keep t
          else s.RefusedOn t p))
    ∧ ((s.port p).state = .handshake → ∃ t, exec (.handshakeRetry p) s = .next t ∧ (t.port p).state = .handshake
      ∧ (∃ q, (t.port p).hs = some q ∧ q.initiator = true) ∧ (t.port p).sent.length = (s.port p).sent.length + 1 ∧ keep t)

/-- LINK, TETHER_BAD_BLOCK, HEARTBEAT, the timers of a port, its training, and the writes of TTH_CTRL. A LINK block with a
bad CRC is counted; one that does not authenticate, or whose number repeats, is counted; and any other releases what
it acknowledges, brings the credits that its counts of freed buffers say, and sends again what its NAK names. A bad
CRC of the block expected is counted, a NAK goes out, and the eighth in succession retrains the port; a block of a
foreign KIND is counted and passed. A resend timeout sends every held block again. A trained port begins its
handshake; lost lock retrains it; a failed retrain is reported. A silent port loses its partner and begins again, and
a silent watched device is LOST. TTH_CTRL holds a port down, lets it train, or retrains it. (R388, R395, R397, R398, R399, R404, R410, R417, R438) -/
def Obligations.LinksAndTheirTimers : Prop :=
  ∀ (p : Nat) (s : State), s.portWin p = true →
    let u := s.port p
    let gone (t : State) : Prop := (u.peerRole ≠ 0 → (t.port p).lost = true ∧ (t.port p).peerDev = 0xFFFF)
      ∧ t.cores = s.cores ∧ t.stks = s.stks
    (u.state = .up →
      (∀ (h : Hop) (hd : Block) (data : List Byte) (crc : Nat),
        let b : Block := { hd with payload := data }
        b.cls = 3 → b.kind = 0x3F →
        (crc32c (wireBody h b) ≠ crc → exec (.link p h hd data crc) s = .next (s.updPort p (fun q => { q with crcErr := cnt q.crcErr 1 })))
        ∧ (crc32c (wireBody h b) = crc → s.openRx p b = none → exec (.link p h hd data crc) s
            = .next (s.updPort p (fun q => { q with authFail := cnt q.authFail 1, auth := true })))
        ∧ (crc32c (wireBody h b) = crc → ∀ c, s.openRx p b = some c →
          (isReplay c u.rxFlows = true → exec (.link p h hd data crc) s
            = .next (s.updPort p (fun q => { q with replay := cnt q.replay 1 })))
          ∧ (isReplay c u.rxFlows = false → u.waiting = [] →
            let pl := c.payload
            ∃ t, exec (.link p h hd data crc) s = .next t ∧ (t.port p).held = (u.acked h.lack).held
              ∧ (t.port p).credReq = u.credReq + (leAt pl 7 2 + 16384 - u.seenReq) % 16384
              ∧ (t.port p).credResp = u.credResp + (leAt pl 5 2 + 16384 - u.seenResp) % 16384
              ∧ (t.port p).credBridle = u.credBridle + (leAt pl 3 2 + 16384 - u.seenBridle) % 16384
              ∧ ((leAt pl 0 1).testBit 0 = true → leAt pl 1 2 = (u.acked h.lack).oldest →
                  (t.port p).sent.length = u.sent.length + (u.acked h.lack).held.length)
              ∧ ((leAt pl 0 1).testBit 0 = false → (t.port p).sent = u.sent)
              ∧ (t.port p).heard = s.env.ticks ∧ t = { s with teth := t.teth })))
      ∧ (∀ (h : Hop) (hd : Block) (data : List Byte) (crc : Nat),
        let b : Block := { hd with payload := data }
        b.cls ≠ 3 → h.lseq = u.expect →
        (crc32c (wireBody h b) ≠ crc → ∃ t, exec (.tetherBadBlock p h hd data crc) s = .next t ∧ (t.port p).crcErr = cnt u.crcErr 1
          ∧ s.FailedOn t p)
        ∧ (crc32c (wireBody h b) = crc → kindOk b.cls b.kind = false → ∃ t, exec (.tetherBadBlock p h hd data crc) s = .next t
          ∧ (t.port p).crcErr = cnt u.crcErr 1 ∧ (t.port p).expect = (u.expect + 1) % 65536 ∧ t = { s with teth := t.teth }))
      ∧ (∃ t, exec (.tetherResendTimeout p) s = .next t ∧ (t.port p).held = u.held
          ∧ (t.port p).sent.length = u.sent.length + u.held.length ∧ t = { s with teth := t.teth })
      ∧ (u.linkKey ≠ [] → ∃ t, exec (.linkBlockTimer p) s = .next t ∧ (t.port p).sent.length = u.sent.length + 1
          ∧ (t.port p).toldReq = u.retReq ∧ (t.port p).toldResp = u.retResp ∧ (t.port p).toldBridle = u.retBridle
          ∧ (t.port p).held = u.held ∧ t = { s with teth := t.teth })
      ∧ (∀ bad, exec (.heartbeat true { k := p, bad }) s = .next (s.updPort p (fun q => { q with heard := s.env.ticks })))
      ∧ (∃ t, exec (.bridleHeartbeatTimer true p) s = .next t ∧ t = { s with teth := t.teth }
          ∧ (u.waiting = [] → 0 < u.credBridle → u.held.length < 512 → (t.port p).sent.length = u.sent.length + 1))
      ∧ (u.heard + 50000 ≤ s.env.ticks → ∀ i ∈ ([.peerPortSilence p, .bridleLinkLost true p] : List Instr),
          ∃ t, exec i s = .next t ∧ (t.port p).state = .handshake ∧ gone t))
    ∧ (u.state = .training → ∃ t, exec (.tetherTrained p) s = .next t ∧ (t.port p).state = .handshake
        ∧ (t.port p).sent.length = u.sent.length + 1 ∧ t.cores = s.cores ∧ t.stks = s.stks)
    ∧ (u.state = .up ∨ u.state = .handshake → ∃ t, exec (.pmaLockLost p) s = .next t ∧ (t.port p).state = .retraining
        ∧ (t.port p).retrains = cnt u.retrains 1 ∧ gone t)
    ∧ (u.state = .retraining → ∀ long,
      (∃ t, exec (.tetherRetrainDone p true long) s = .next t ∧ (t.port p).state = .handshake ∧ (long = true → gone t))
      ∧ ∃ t, exec (.tetherRetrainDone p false long) s = .next t ∧ (t.port p).state = .training ∧ gone t
        ∧ t.rip.last = 0x10203001 + p / 3 * 0x1000000 + p % 3 * 0x10000)
    ∧ (∀ v : W32, ∀ i ∈ ([.tthRetrain p v, .tthDownWrite p v] : List Instr), ∃ t, exec i s = .next t
        ∧ (v.toNat.testBit 1 = true → (t.port p).down = true ∧ (t.port p).state = .off ∧ gone t)
        ∧ (v.toNat.testBit 1 = false → (t.port p).down = false ∧ t = { s with teth := t.teth }
            ∧ (v.toNat.testBit 0 = true → u.state = .up ∨ u.state = .handshake → (t.port p).state = .retraining)
            ∧ (v.toNat.testBit 0 = false → u.state ≠ .off → (t.port p).state = u.state)
            ∧ (u.state = .off → u.role ≠ .off → (t.port p).state = .training)))
    ∧ (∀ d : Nat, (s.peer d).state = .up → (s.peer d).flags.testBit 1 = true → (s.peer d).heard + 500000 ≤ s.env.ticks →
        ∃ t, exec (.peerWatchTimeout d) s = .next t ∧ (t.peer d).state = .lost ∧ t.cores = s.cores ∧ t.stks = s.stks)
    ∧ exec .peerHeartbeatTimer s
        = .next (s.beatPeers ((s.teth.peers.filter (fun q => q.2.state == .up && q.2.flags.testBit 1)).map (·.1)))

/-- PEER_ENTRY_STAGE, PEER_ENTRY_REPLACE, CTX_OPEN, CTX_CLOSE, CTX_DRAIN_END, CTX_RANGE_WRITE and CTX_GEN_WRITE. Bytes 0
to 27 of a directory entry are staged, and the last word replaces the entry, or sets WR_IGN when the device is UP or
this one or the state is neither ABSENT nor EXPECTED. A closed context opens; an open one drains; a command that its
state does not take is recorded. At the end of the drain the context is CLOSED with the next generation, which every
stack holds. Range and generation are written while it is closed. (R325, R326, R413, R422, R423, R424, R440) -/
def Obligations.DirectoryAndContexts : Prop :=
  ∀ s : State, s.diesUp = true →
    (∀ (d i : Nat) (v : W32), d < 65535 →
      (i < 7 → exec (.peerEntryStage d i v) s = .next { s with teth := { s.teth with
        peerStage := sset [] s.teth.peerStage d (putBytes (s.stagedPeer d) (4 * i) (leBytes 4 v.toNat)),
        peerOpen := sset 0 s.teth.peerOpen d (sget 0 s.teth.peerOpen d ||| 2 ^ i) } })
      ∧ (let b := s.stagedPeer d
         let e := s.peer d
         let st := leAt b 0 1 % 8
         (e.state = .up ∨ e.state = .self ∨ d = s.teth.self ∨ 1 < st →
            exec (.peerEntryReplace d v) s = .next { s with teth := { s.teth with
              peerWrIgn := true, peerOpen := sset 0 s.teth.peerOpen d 0 } })
         ∧ (e.state ≠ .up → e.state ≠ .self → d ≠ s.teth.self → st ≤ 1 → ∃ t, exec (.peerEntryReplace d v) s = .next t
            ∧ (t.peer d).state = (if st = 1 then .expected else .absent) ∧ (t.peer d).flags = leAt b 1 1 % 8
            ∧ (t.peer d).ports = leAt b 2 2 % 4096 ∧ (t.peer d).nextDev = leAt b 4 2
            ∧ (t.peer d).fp = slice b 16 12 ++ leBytes 4 v.toNat ∧ (t.peer d).appears = e.appears
            ∧ t.cores = s.cores ∧ t.stks = s.stks)))
    ∧ (∀ (v : W32), ∀ i ∈ ([.ctxOpen v, .ctxClose v] : List Instr),
      let c := v.toNat % 4096
      let op := v.toNat / 2 ^ 30
      c ≠ 0xFFF →
      (op = 1 → (s.ctx c).state = .closed → ∃ t, exec i s = .next t ∧ t.ctx c = { s.ctx c with state := .opened }
        ∧ t = { s with teth := t.teth })
      ∧ (op = 2 → (s.ctx c).state = .opened → ∃ t, exec i s = .next t
        ∧ t.ctx c = { s.ctx c with state := .draining, since := s.env.ticks } ∧ t = { s with teth := t.teth })
      ∧ (op = 1 ∨ op = 2 → (s.ctx c).state = .draining ∨ (op = 1 ∧ (s.ctx c).state = .opened) →
        exec i s = .next { s with teth := { s.teth with ctxBadState := true } }))
    ∧ (∀ c : Nat, (s.ctx c).state = .draining →
        s.outstanding c = [] ∨ (s.ctx c).since + (s.ctx c).drain * 50 ≤ s.env.ticks →
      ∃ t, exec (.ctxDrainEnd c) s = .next t ∧ (t.ctx c).state = .closed ∧ (t.ctx c).gen = ((s.ctx c).gen + 1) % 65536
        ∧ (∀ st < 16, sget 0 (t.stk st).gens c = ((s.ctx c).gen + 1) % 65536)
        ∧ ({ code := 0x33, source := c, arg := if s.outstanding c = [] then 1 else 0 } : EvMsg) ∈ t.knot.events
        ∧ ∀ st, (t.stk st).mem = (s.stk st).mem)
    ∧ ∀ (c : Nat) (v : W32), c < 0xFFF →
      ((s.ctx c).state = .closed →
        (∃ t, exec (.ctxRangeWrite c v) s = .next t
          ∧ t.ctx c = { s.ctx c with lo := v.toNat % 65536, hi := v.toNat / 65536 } ∧ t = { s with teth := t.teth })
        ∧ (∃ t, exec (.ctxGenWrite c v) s = .next t ∧ t.ctx c = { s.ctx c with gen := v.toNat % 65536 }
          ∧ (∀ st < 16, t.stk st = { s.stk st with gens := sset 0 (s.stk st).gens c (v.toNat % 65536) })
          ∧ t = { s with teth := t.teth, stks := t.stks }))
      ∧ ((s.ctx c).state ≠ .closed →
        exec (.ctxRangeWrite c v) s = .next { s with teth := { s.teth with ctxBadState := true } }
        ∧ exec (.ctxGenWrite c v) s = .next s)

/-- TTH_RED_ARM, PORT_ADDER_TAKE and PORT_ADDER_DONE. Accesses to memory are served at once. Arming a bucket whose records
pass the checks of R430 appends it to those armed with its sequence number one higher; one that fails is recorded, the
first since ERR was clear. The adder of the first port whose role is not OFF, from the bucket and part on, takes a
ready part whose owner is gone. When it finishes, the part is combined and counted and an arrive on PDONE_KNOT leaves;
on a residue mismatch the port is held and reported, and the next such port has the part. (R429, R430, R433, R434, R435, R542) -/
def Obligations.ReductionUnit : Prop :=
  ∀ s : State,
    (∀ v : W32, s.diesUp = true → s.served (.gondola 0) none (fun s => s.redArm (v.toNat % 1024)) = true →
      let b := v.toNat % 1024
      let a := (({ s with acc := { src := .gondola 0 } } : State).redRecord b).2
      (s.redCheck a = 0 → ∃ t, exec (.tthRedArm v) s = .next t
        ∧ t.teth.armed = s.teth.armed
            ++ [{ a with gen := (s.ctx a.ctx).gen, record := putBytes a.record 52 (leBytes 4 ((a.seq + 1) % 2 ^ 32)) }])
      ∧ (s.redCheck a ≠ 0 → ∃ t, exec (.tthRedArm v) s = .next t ∧ t.teth.armed = s.teth.armed ∧ t.teth.redErr = true
        ∧ (s.teth.redErr = false → t.teth.redCode = s.redCheck a ∧ t.teth.redBucket = b)
        ∧ (s.teth.redErr = true → t.teth.redCode = s.teth.redCode ∧ t.teth.redBucket = s.teth.redBucket)
        ∧ ∀ q, s.upset q = false → t.cell q = s.cell q))
    ∧ ∀ (b part : Nat) (a : Armed), s.armedOf b = some a →
      (∀ p, a.ready.contains part = true → a.taken.contains part = false → a.combined.contains part = false →
          s.ownerGone (a.owner part) = true → s.adderPort 12 (b + part) = some p →
        exec (.portAdderTake b part) s = .next ((s.updArmed b (fun a =>
          { a with taken := a.taken ++ [part], working := a.working ++ [(part, p)] })).event 0x34 b part))
      ∧ ∀ p, a.working.find? (fun q => q.1 == part) = some (part, p) →
        (s.served (.tether p) none (fun s => s.adderDone a b part p) = true →
          ∃ t m, exec (.portAdderDone b part false) s = .next t
          ∧ (∀ q ∈ t.teth.armed, q.bucket = b → part ∈ q.combined ∧ ∀ w ∈ q.working, w.1 ≠ part)
          ∧ t.teth.redTaken = cnt s.teth.redTaken 1 ∧ (m ∈ t.knot.ops ∨ m ∈ t.knot.heldOps) ∧ m.knot = a.knotAt 3
          ∧ m.op = .arrive ∧ m.arg = 1)
        ∧ ∃ t, exec (.portAdderDone b part true) s = .next t ∧ (t.port p).state = .off ∧ (t.port p).down = true
          ∧ t.rip.last = 0x10203002 + p / 3 * 0x1000000 + p % 3 * 0x10000
          ∧ t.teth.armed.map (·.combined) = s.teth.armed.map (·.combined)
          ∧ (∀ q ∈ t.teth.armed, q.bucket = b → ∀ w ∈ q.working, w.1 = part → w.2 = (s.adderPort 12 (p + 1)).getD p)
          ∧ ∀ q, t.cell q = s.cell q

/-- The aperture, VERIFY, COMMIT, ABORT, their completions and the serial-flash launch. An aperture write stores its bytes
and makes the state LOADING, or is ignored with WR_IGN while an image is verified or committed. VERIFY and COMMIT are
accepted in their states, and otherwise refused with BAD_STATE or BUSY. A verification ends in VERIFIED or LOADING
with its code. A commit whose rules hold and whose holds stand within RIG_QUIET_TO applies the image whole; one that
fails, is aborted or times out returns to VERIFIED with the live copy as it was. An image found in flash in MOORED is
verified at once. (R476, R485, R486, R487, R489, R490, R491, R494, R495) -/
def Obligations.RiggingCommands : Prop :=
  ∀ (w : Who) (s : State),
    (s.ctrlUp = true → s.whoOk w = true →
      (∀ (off : Nat) (v : W32), off < 0x80000 → off % 4 = 0 →
        if s.rig.state = .verifying ∨ s.rig.state = .committing then
          exec (.apertureWrite w off v) s = .next { s with rig := { s.rig with wrIgn := true } }
        else ∃ t, exec (.apertureWrite w off v) s = .next t
          ∧ t = { s with rig := { s.rig with state := .loading, src := Who.source w, shadow := t.rig.shadow } }
          ∧ ∀ a, sget 0 t.rig.shadow a = (let b := s.rig.page * 0x80000 + off
              if b ≤ a ∧ a < b + 4 then (leBytes 4 v.toNat).getD (a - b) 0 else sget 0 s.rig.shadow a))
      ∧ (s.flashBusy = true → ∀ i ∈ [Instr.verify w, .commit w], ∃ t, exec i s = .next t
          ∧ s.RigRejects t s.rig.state 0x22 0xFF 0 ∧ t = { s with rig := t.rig, knot := t.knot })
      ∧ (s.flashBusy = false → s.rig.state ≠ .loading → s.rig.state ≠ .verified → ∃ t, exec (.verify w) s = .next t
          ∧ s.RigRejects t s.rig.state 8 0xFF 0 ∧ t = { s with rig := t.rig, knot := t.knot })
      ∧ (s.flashBusy = false → s.rig.state = .loading ∨ s.rig.state = .verified → s.ancFree → exec (.verify w) s
          = .next { s with rig := { s.rig with state := .verifying }, anc := { s.anc with op := some .verify } })
      ∧ (s.flashBusy = false → s.rig.state ≠ .verified → ∃ t, exec (.commit w) s = .next t
          ∧ s.RigRejects t s.rig.state 8 0xFF 0 ∧ t = { s with rig := t.rig, knot := t.knot })
      ∧ (∀ e, s.flashBusy = false → s.rig.state = .verified → parseImage s.staged = .error e → ∃ t, exec (.commit w) s = .next t
          ∧ s.RigRejects t .verified e.1 e.2.1 e.2.2)
      ∧ (∀ m, s.flashBusy = false → s.rig.state = .verified → parseImage s.staged = .ok m →
          (∀ e, s.commitErr m = some e → ∃ t, exec (.commit w) s = .next t ∧ s.RigRejects t .verified e.1 e.2.1 e.2.2)
          ∧ (s.commitErr m = none → s.ancFree → ∃ t, exec (.commit w) s = .next t ∧ t.rig.state = .committing
              ∧ t.rig.live = s.rig.live ∧ t.anc.op = some .commit ∧ t.rig.commitAt = s.env.ticks
              ∧ (s.diesUp = true → t.rig.holds = { ileave := (m.frame 4).isSome, knots := m.allKnots,
                                                   treeLo := m.trees.1, treeHi := m.trees.2 })
              ∧ t = { s with rig := t.rig, anc := t.anc, cores := t.cores }))
      ∧ (s.rig.state = .committing → ∃ t, exec (.abort w) s = .next t ∧ s.RigRejects t .verified 0x23 0xFF 0)
      ∧ (s.rig.state = .verifying → ∃ t, exec (.abort w) s = .next t ∧ t.rig.state = .loading
          ∧ t.rig.rejects = s.rig.rejects ∧ (s.anc.op = some .verify → s.anc.waiting = [] → t.anc.op = none))
      ∧ (s.rig.state ≠ .committing → s.rig.state ≠ .verifying → exec (.abort w) s
          = .next { s with rig := { s.rig with code := 8, frame := 0xFF, detail := 0 } }))
    ∧ (s.rig.state = .verifying → s.anc.op = some .verify →
      ∃ t, exec .rigVerifyDone s = .next t ∧ match s.verifyStaged with
        | .error e => s.RigRejects t .loading e.1 e.2.1 e.2.2
        | .ok _ => s.rig.flashRun = false →
            t.rig = { s.rig with state := .verified, code := 0, frame := 0xFF, detail := 0 } ∧ t.keel = s.keel
              ∧ (s.diesUp = true → ({ code := 0x50, source := 0, arg := 0xFF0000 } : EvMsg) ∈ t.knot.events))
    ∧ (∀ m, s.rig.state = .committing → parseImage s.staged = .ok m →
      (s.quietOver = true → (∃ t, exec .rigQuietTimeout s = .next t ∧ s.RigRejects t .verified 0x20 0xFF 0)
        ∧ exec .rigApply s = .next s)
      ∧ (s.quietOver = false → exec .rigQuietTimeout s = .next s)
      ∧ (s.holdsStand m = false → exec .rigApply s = .next s)
      ∧ (s.anc.op = some .commit → s.quietOver = false → s.holdsStand m = true →
        (∀ e, s.commitErr m = some e → ∃ t, exec .rigApply s = .next t ∧ s.RigRejects t .verified e.1 e.2.1 e.2.2)
        ∧ (s.commitErr m = none → ∃ t, exec .rigApply s = .next t ∧ t.rig.state = .empty ∧ t.rig.code = 0
            ∧ t.rig.serial = m.serial ∧ t.rig.commits = cnt s.rig.commits 1 ∧ t.rig.holds = {}
            ∧ t.rig.live = s.rig.live.after m ∧ t.keel.state = s.keel.state
            ∧ t.keel.target = (if s.keel.state = .moored then .rigged else s.keel.target)
            ∧ t.anc.owner = (if m.full && s.anc.owner.isNone then some m.signer else s.anc.owner)
            ∧ (s.diesUp = true → ({ code := 0x50, source := 0, arg := 0xFF0000 } : EvMsg) ∈ t.knot.events))))
    ∧ ∀ (img fw : List Byte), s.keel.state = .moored → s.keel.target = .moored → s.keel.flashEn = true →
        s.rig.flashRead = false → s.rig.state ≠ .verifying → s.rig.state ≠ .committing →
      (∀ n, headerCheck (img ++ List.replicate (128 - img.length) 0xFF) = .ok n → s.ancFree →
        exec (.flashImageLoaded img fw) s = .next { s with
          rig := { s.rig with flashRead := true, flashSeen := true, flashOk := false, flashRun := true, flashFw := fw,
                              src := .flash, shadow := mwrite s.rig.shadow 0 (img.take n), state := .verifying },
          anc := { s.anc with op := some .verify } })
      ∧ (∀ e, headerCheck (img ++ List.replicate (128 - img.length) 0xFF) = .error e → exec (.flashImageLoaded img fw) s
          = .next { s with rig := { s.rig with flashRead := true, flashSeen := false, flashOk := false } })

/-- QUOTE, EXTEND, CHALLENGE, TOKEN, FIRMWARE, DEBUG_CLOSE and the end of an operation of the anchor. A command written
while the anchor is busy is refused with BUSY, sets ERR and is counted. Otherwise QUOTE, TOKEN and FIRMWARE become the
operation in progress, EXTEND extends its register or is refused with BAD_MR, CHALLENGE draws a new challenge and
DEBUG_CLOSE closes every scope. At its end a quote is a signed report and is counted, a quote whose signature does not
verify resets the package, a token has its effect or its failure code and spends the challenge, and firmware that is
signed for the device runs. (R504, R507, R508, R509, R513, R514, R515, R516, R540) -/
def Obligations.AnchorCommands : Prop :=
  ∀ (w : Who) (s : State),
    (s.ctrlUp = true → s.whoOk w = true →
      (∀ mr : BitVec 3, s.anc.op.isSome = true →
        ∀ r ∈ [(Instr.quote w, 1), (.extend w mr, 2), (.challenge w, 3), (.token w, 4), (.firmware w, 5), (.debugClose w, 6)],
          exec r.1 s = .next (s.ancFails r.2 1))
      ∧ (s.ancFree →
        exec (.quote w) s = .next { s with anc := { s.anc with op := some (.quote (s.reportBody s.anc.nonce)) } }
        ∧ (∀ mr : BitVec 3, mr.toNat < 5 → exec (.extend w mr) s = .next (s.ancFails 2 9))
        ∧ (∀ mr : BitVec 3, 5 ≤ mr.toNat → exec (.extend w mr) s = .next { s with anc :=
            { s.anc.extend mr.toNat 8 0 (List.replicate 16 0) s.anc.ext with resCode := 0, resOp := 2 } })
        ∧ exec (.challenge w) s = .next { s with anc := { s.anc with
            draws := s.anc.draws + 1, challenge := (List.range 16).map (Config.entropyByte s.anc.draws),
            challengeUsed := false, resCode := 0, resOp := 3 } }
        ∧ exec (.token w) s = .next { s with anc := { s.anc with op := some (.token s.anc.token) } }
        ∧ (s.fwAllowed = true →
            exec (.firmware w) s = .next { s with anc := { s.anc with op := some (.firmware s.anc.fwAddr) } })
        ∧ (s.fwAllowed = false → exec (.firmware w) s = .next (s.ancFails 5 2))
        ∧ exec (.debugClose w) s = .next { s with anc := { s.anc with debug := 0, resCode := 0, resOp := 6 } }))
    ∧ (∀ b, s.anc.op = some (.quote b) →
      (∃ t, exec (.anchorOpDone false) s = .next t ∧ t.anc.report = b ++ edSign idSeed b ∧ t.anc.resCode = 0
        ∧ t.anc.resOp = 1 ∧ t.anc.quotes = cnt s.anc.quotes 1 ∧ t = { s with anc := t.anc }
        ∧ (s.anc.waiting = [] → t.anc.op = none))
      ∧ ∃ t, exec (.anchorOpDone true) s = .next t ∧ s.ResetTo t 0x01010104)
    ∧ (∀ b sig, s.anc.op = some (.token b) → ∃ t, exec (.anchorOpDone sig) s = .next t ∧ t.anc.challengeUsed = true
      ∧ t.anc.resOp = 4
      ∧ (let code := if !(s.anc.tokenOk b) then 6 else if !(s.anc.tokenSig b) then 3
            else if leAt b 4 1 = 1 then (if s.debugOk then 0 else 7) else if s.keel.state = .moored then 0 else 2
         t.anc.resCode = code ∧ t.anc.fails = (if code = 0 then s.anc.fails else cnt s.anc.fails 1)
          ∧ t.anc.debug = (if code ≠ 0 then s.anc.debug else if leAt b 4 1 = 1 then s.anc.debug ||| leAt b 5 1 else 0)
          ∧ t.anc.owner = (if code = 0 ∧ leAt b 4 1 ≠ 1 then none else s.anc.owner)
          ∧ (code = 0 → leAt b 4 1 ≠ 1 → ∀ n ∈ [1, 2, 3, 4], (t.sess n).isOpen = false)))
    ∧ ∀ (a : Nat) (sig : Bool) (s1 s2 : State) (h b : List Byte), s.anc.op = some (.firmware a) → s.anc.waiting = [] →
        s.fwAllowed = true → s.inOwnMem a 192 = true → ({ s with acc := { src := .gondola 0 } } : State).readBytes a 128 = (s1, h) →
        s.served (.gondola 0) none (fun s => (s.runFirmware a).ancEnd) = true →
        (fwHeaderOk h = false → ∃ t, exec (.anchorOpDone sig) s = .next t ∧ t.anc.resCode = 8 ∧ t.anc.resOp = 5
          ∧ t.anc.err = true ∧ t.anc.fwRun = false)
        ∧ (fwHeaderOk h = true → s1.inOwnMem a (leAt h 8 4) = true →
            s1.inOwnMem (leAt h 72 8) (leAt h 8 4 - 192) = true → zeros (slice h 24 16) 0 16 = true →
            s1.anc.signerOk (slice h 40 32) = true → s1.readBytes a (leAt h 8 4) = (s2, b) →
          ∃ t, exec (.anchorOpDone sig) s = .next t ∧ t.anc.resOp = 5 ∧
            if edVerify (slice b 40 32) (sha512 (b.take (leAt h 8 4 - 64))) (slice b (leAt h 8 4 - 64) 64) then
              t.anc.resCode = 0 ∧ t.anc.fwRun = true ∧ t.anc.fwEntry = leAt b 80 8
                ∧ ∀ g < 16, (t.gon g).mode = 2 ∧ (t.gon g).pc = leAt b 80 8
            else t.anc.resCode = 3 ∧ t.anc.fwRun = false ∧ t.anc.err = true)

/-- DISCOVER, ATTEST, ANNOUNCE_TIMER, the sessions' handshake and end, and their acknowledgements and timers. DISCOVER is
answered with a signed announcement unless 64 datagrams without a session have come in the millisecond, which are
counted. ATTEST reaches the anchor. A signed HELLO of an admitted key takes the first free slot and binds an owner
where none is bound, and a HELLO that may not is refused. CONFIRM opens the session. A datagram of a session is taken
only with the number expected, a lower one is acknowledged again, and one that fails authentication is counted. The
timers acknowledge, resend what has waited RTO x 10 us, and end sessions. (R511, R524, R525, R526, R527, R528, R529, R530) -/
def Obligations.HostSessions : Prop :=
  ∀ (s : State), s.hostUp = true →
    (∀ (addr : Framed) (port : Nat) (nonce : List Byte), s.hears addr.vid = true → nonce.length = 16 →
      (s.rateOk.2 = true → s.hostSends → ∃ t, exec (.discover addr port nonce) s = .next t
        ∧ (let b := s.announceBody nonce
           t.host.sent = s.host.sent ++ [s.host.frame (dgClear addr.n port 2 0 (b ++ edSign idSeed b))])
        ∧ t = { s with host := t.host })
      ∧ (s.rateOk.2 = false →
        exec (.discover addr port nonce) s = .next { s with host := { s.host with rlDrops := cnt s.host.rlDrops 1 } }))
    ∧ (s.host.announce = true → s.hostSends → exec .announceTimer s = .next { s with host := { s.host with
        sent := s.host.sent ++ [(let b := s.announceBody (List.replicate 16 0)
          s.host.frame (dgClear 0xFF020000000000000000000000005648 4800 2 0 (b ++ edSign idSeed b)))] } })
    ∧ (∀ (addr : Framed) (port : Nat) (nonce : List Byte) (start : Nat), s.hears addr.vid = true → nonce.length = 32 → start < 65536 → s.rateOk.2 = true → s.ancFree →
      ∃ t, exec (.attest addr port nonce start) s = .next t ∧ t.host.sent = s.host.sent
        ∧ t = { s with host := t.host, anc := { s.anc with
            nonce := if start = 0xFFFF then nonce else s.anc.nonce,
            op := some (if start = 0xFFFF then .attest addr.n port nonce (s.reportBody nonce) else .log addr.n port start) } })
    ∧ (∀ (addr : Framed) (port : Nat) (body : List Byte), s.hears addr.vid = true → hbForm body = true → zeros body 80 16 = true → s.rateOk.2 = true → s.hostSends →
      ∃ t, exec (.hostHello addr port body) s = .next t ∧ t.keel = s.keel ∧
        match s.freeSlots with
        | n :: _ =>
          if hbSigned 0x10 body && s.anc.signerOk (hbKey body)
              && x25519 (ofLe ((List.range 32).map (Config.entropyByte s.anc.draws))) (hbEph body) != 0 then
            (t.sess n).opening = true ∧ (t.sess n).hello = body ∧ (t.sess n).addr = addr.n ∧ (t.sess n).port = port
              ∧ t.anc.owner = (if s.anc.owner.isNone then some (hbKey body) else s.anc.owner)
              ∧ t.host.sent = s.host.sent
                  ++ [s.host.frame (dgClear addr.n port 0x11 n (t.sess n).reply)]
          else t.host.sessions = s.host.sessions ∧ t.anc.owner = s.anc.owner ∧ t.host.sent = s.host.sent
              ++ [s.host.frame (dgClear addr.n port 0x11 0 (List.replicate 176 0))]
        | [] => t.host.sessions = s.host.sessions ∧ t.anc.owner = s.anc.owner ∧ t.host.sent = s.host.sent
              ++ [s.host.frame (dgClear addr.n port 0x11 0 (List.replicate 176 0))])
    ∧ (∀ (n : Nat) (vid : Option Nat) (body : List Byte), s.hears vid = true → n ∈ [1, 2, 3, 4] → (s.sess n).opening = true →
      ∃ t, exec (.hostConfirm { n, vid } body) s = .next t ∧ t = { s with host := t.host } ∧
        if (s.sess n).confirmOk body then
          (t.sess n).isOpen = true ∧ (t.sess n).opening = false ∧ (t.sess n).hostKey = (s.sess n).hostKey
            ∧ (t.sess n).expect = 0 ∧ (t.sess n).nextSeq = 0 ∧ (t.sess n).events = bit 0 (leAt body 96 1)
            ∧ ∀ k, k ≠ n → t.sess k = s.sess k
        else t.host = { s.host with badDgram := cnt s.host.badDgram 1 })
    ∧ (∀ n, (s.sess n).opening = true → ∃ t, exec (.hostConfirmTimeout n) s = .next t ∧ t = { s with host := t.host }
        ∧ (t.sess n).opening = false ∧ (t.sess n).isOpen = false ∧ ∀ k, k ≠ n → t.sess k = s.sess k)
    ∧ (∀ (d : Dgram) (pt : List Byte), (s.sess d.sess).outq = [] →
      (s.Takes 0x23 d pt → ∃ t, exec (.ackonly d) s = .next t ∧ (t.sess d.sess).expect = d.seq + 1 ∧ (t.sess d.sess).age = 0
        ∧ (t.sess d.sess).owed = true ∧ (t.sess d.sess).nextSeq = (s.sess d.sess).nextSeq
        ∧ (t.sess d.sess).unacked.map (fun u => (u.seq, u.bytes)) = (if (s.sess d.sess).nextSeq < d.ack then (s.sess d.sess).unacked
            else (s.sess d.sess).unacked.filter (fun u => decide (d.ack ≤ u.seq))).map (fun u => (u.seq, u.bytes))
        ∧ (∀ k, k ≠ d.sess → t.sess k = s.sess k) ∧ t = { s with host := t.host })
      ∧ (s.Takes 0x25 d pt → ∃ t, exec (.hostClose d) s = .next t ∧ (t.sess d.sess).isOpen = false
        ∧ (t.sess d.sess).cmds = [] ∧ (t.sess d.sess).txKey = [] ∧ (t.sess d.sess).rxKey = []
        ∧ (∀ k, k ≠ d.sess → t.sess k = s.sess k) ∧ t = { s with host := t.host }))
    ∧ (∀ (d : Dgram) (n : Nat), s.hears d.vid = true → ∀ r ∈ [(Instr.ackonly d, 0x23), (.hostClose d, 0x25), (.hostData d.toDgramHead (d.body.take n) (d.body.drop n) d.tag, 0x22)],
        (s.host.dgForm r.2 d = false → exec r.1 s = .next { s with host := { s.host with badDgram := cnt s.host.badDgram 1 } })
        ∧ (s.host.dgForm r.2 d = true → s.openDg r.2 d = none →
          exec r.1 s = .next { s with host := { s.host with authFail := cnt s.host.authFail 1, auth := true } })
        ∧ ∀ pt, s.host.dgForm r.2 d = true → s.openDg r.2 d = some pt →
          ((s.sess d.sess).expect < d.seq → exec r.1 s = .next s)
          ∧ (d.seq < (s.sess d.sess).expect → exec r.1 s = .next (s.updSess d.sess (fun q => { q with owed := true }))))
    ∧ (∀ d : Dgram, s.hears d.vid = true → s.host.dgForm 0x20 d = true → s.openDg 0x20 d = none →
        ∀ i ∈ [Instr.rd32 d.toDgramHead d.toSealed, .wr32 d.toDgramHead d.toSealed, .write d.toDgramHead d.toSealed,
            .read d.toDgramHead d.toSealed, .knot d.toDgramHead d.toSealed, .state d.toDgramHead d.toSealed],
          exec i s = .next { s with host := { s.host with authFail := cnt s.host.authFail 1, auth := true } })
    ∧ (∀ n, s.sessSends n → (s.sess n).owed = true → ∃ t, exec (.hostAckTimer n) s = .next t ∧ (t.sess n).owed = false
        ∧ t.host.sent = s.host.sent ++ [s.host.frame (s.nextDgram n 0x23 [])] ∧ (t.sess n).nextSeq = (s.sess n).nextSeq + 1
        ∧ t = { s with host := t.host })
    ∧ (∀ n d r, s.hostSends → (s.sess n).unacked = d :: r →
        (d.at' + s.host.rto * 500 ≤ s.env.ticks → ∃ t, exec (.hostResendTimeout n) s = .next t
          ∧ t.host.sent = s.host.sent ++ (d :: r).map (fun u => s.host.frame (.dgram (s.sess n).addr (s.sess n).port u.bytes))
          ∧ t.host.resends = cnt s.host.resends (r.length + 1)
          ∧ (t.sess n).unacked = (d :: r).map (fun u => { u with at' := s.env.ticks })
          ∧ (∀ k, k ≠ n → t.sess k = s.sess k) ∧ t = { s with host := t.host })
        ∧ (s.env.ticks < d.at' + s.host.rto * 500 → exec (.hostResendTimeout n) s = .next s))
    ∧ (∀ n, (s.sess n).isOpen = true → s.host.idle * 50000000 ≤ (s.sess n).age →
      ∃ t, exec (.hostSessionIdle n) s = .next t ∧ t = { s with host := t.host } ∧ (t.sess n).isOpen = false
        ∧ (t.sess n).cmds = [] ∧ (∀ k, k ≠ n → t.sess k = s.sess k))

/-- RD32, WR32, WRITE, READ, KNOT and STATE of a session, their start, and the data of a WRITE. A command that its session
takes is queued under the next id and starts at once if it may, or is answered FULL when 64 are open. A started RD32
answers the register, WR32 writes it, a READ of one datagram sends its bytes and completes, a WRITE takes its data and
completes when all has come, KNOT sends its operation to the knot's home, STATE answers the decision and makes the
request, and an unknown OP or a reserved byte is answered BAD_CMD. A command behind one of its queue waits. (R28, R531, R532, R533, R534, R535, R536) -/
def Obligations.HostCommands : Prop :=
  ∀ (s : State),
    (∀ r ∈ ([(.rd32, fun o => !([2, 3, 4, 5, 6].contains o)), (.wr32, fun o => o == 2), (.write, fun o => o == 3),
        (.read, fun o => o == 4), (.knot, fun o => o == 5), (.state, fun o => o == 6)] : List ((DgramHead → Sealed → Instr) × (Nat → Bool))),
        ∀ (d : Dgram) (pt : List Byte), r.2 (hostCmdOf pt).op = true → s.Takes 0x20 d pt →
      let k := hostCmdOf pt
      let a := s.tookHeader d
      (64 ≤ (a.sess d.sess).cmds.length → exec (r.1 d.toDgramHead d.toSealed) s
        = .next (a.sendSess d.sess 0x21 (respBytes k.op 4 k.tag (Config.freeResp k.op k.tag).toNat)))
      ∧ ((a.sess d.sess).cmds.length < 64 →
        let b := a.updSess d.sess (fun q => { q with
          nextId := q.nextId + 1, cmds := q.cmds ++ [{ id := q.nextId, queue := d.queue, cmd := k }] })
        b.served .host none (fun s => s.tryStart d.sess (a.sess d.sess).nextId) = true →
        exec (r.1 d.toDgramHead d.toSealed) s = exec (.hostCmdStart d.sess (a.sess d.sess).nextId) b))
    ∧ (∀ (n : Nat) (c : CmdSt), (s.sess n).cmds.find? (fun e => e.id == c.id) = some c →
      ((s.sess n).canStart c = false → exec (.hostCmdStart n c.id) s = .next s)
      ∧ ((s.sess n).canStart c = true →
        let b := s.updCmd n c.id (fun c => { c with started := true })
        let o : State := { b with acc := { src := .host } }
        let off := aOff c.cmd.addr
        let v := fld 31 0 c.cmd.val
        (c.cmd.rsv = true ∨ c.cmd.op = 0 ∨ 6 < c.cmd.op → exec (.hostCmdStart n c.id) s = .next (b.cmdEnd n c.id 3))
        ∧ (c.cmd.rsv = false →
          (c.cmd.op = 1 → b.ctrlOk off = false → exec (.hostCmdStart n c.id) s = .next (b.cmdEnd n c.id 1))
          ∧ (c.cmd.op = 1 → b.ctrlOk off = true → s.sessSends n → ∃ t, exec (.hostCmdStart n c.id) s = .next t
              ∧ (t.sess n).cmds = (s.sess n).cmds.filter (fun e => e.id ≠ c.id)
              ∧ t.host.sent = s.host.sent ++ [s.host.frame (s.nextDgram n 0x21 (respBytes 1 0 c.cmd.tag (b.ctrlRead off).2))])
          ∧ (c.cmd.op = 2 → b.ctrlOk off = false → exec (.hostCmdStart n c.id) s = .next (b.cmdEnd n c.id 1))
          ∧ (c.cmd.op = 2 → b.ctrlOk off = true → b.served .host none (fun s => s.ctrlWrite .owner off v) = true →
              exec (.hostCmdStart n c.id) s
                = .next { (if off = 0x300004 ∨ off = 0x300008 then (o.cmdEnd n c.id 0).ctrlWrite .owner off v
                           else (o.ctrlWrite .owner off v).cmdEnd n c.id 0) with acc := s.acc })
          ∧ (c.cmd.op = 3 → b.hostSpan c.cmd.addr c.cmd.val = true → (s.sess n).cmds = [c] → c.early = [] → c.spans = [] →
              ∃ t, exec (.hostCmdStart n c.id) s = .next t ∧ (t.sess n).cmds = [{ c with started := true }]
                ∧ t = { s with host := t.host })
          ∧ (c.cmd.op = 3 ∨ c.cmd.op = 4 → b.hostSpan c.cmd.addr c.cmd.val = false →
              exec (.hostCmdStart n c.id) s = .next (b.cmdEnd n c.id 1))
          ∧ (∀ (u : State) (bs : List PByte), c.cmd.op = 4 → b.hostSpan c.cmd.addr c.cmd.val = true →
              c.cmd.val ≤ s.host.dataMax → o.readMem c.cmd.addr c.cmd.val = (u, bs, false) → u.acc.stop = none →
              exec (.hostCmdStart n c.id) s
                = .next { ((u.sendSess n 0x22 (dataBytes c.cmd.tag 0 (bs.map (·.1)))).cmdEnd n c.id
                    (if bs.any (·.2) then 5 else 0)) with acc := s.acc })
          ∧ (∀ op, c.cmd.op = 5 → b.knotWin (fld 17 0 c.cmd.arg) = true → KOp.ofMinor (fld 31 28 c.cmd.arg) = some op →
              b.knotCheck op (fld 17 0 c.cmd.arg) none = none →
              exec (.hostCmdStart n c.id) s = .next (b.sendKnot
                { who := .host n c.id, op, knot := fld 17 0 c.cmd.arg, arg := v,
                  err := b.arriveErr op (fld 17 0 c.cmd.arg) v, node := 94, agent := 2 }))
          ∧ (c.cmd.op = 6 → exec (.hostCmdStart n c.id) s
              = .next ((b.cmdEnd n c.id (if b.reqOk (fld 2 0 c.cmd.val) then 0 else 2)).request (fld 2 0 c.cmd.val))))))
    ∧ ∀ (d : Dgram) (m : Nat) (pt : List Byte), s.Takes 0x22 d pt →
      let a := s.tookHeader d
      let tag := leAt pt 0 4
      let off := leAt pt 8 8
      let bs := pt.drop 16
      let i : Instr := .hostData d.toDgramHead (d.body.take m) (d.body.drop m) d.tag
      ((a.sess d.sess).cmds.find? (fun c => c.cmd.op == 3 && c.cmd.tag == tag) = none →
        exec i s = .next { a with host := { a.host with badDgram := cnt a.host.badDgram 1 } })
      ∧ ∀ c, (a.sess d.sess).cmds.find? (fun c => c.cmd.op == 3 && c.cmd.tag == tag) = some c →
        (c.cmd.val < off + bs.length → exec i s = .next (a.cmdEnd d.sess c.id 3))
        ∧ (off + bs.length ≤ c.cmd.val → c.started = false → (a.sess d.sess).cmds = [c] →
          ∃ t, exec i s = .next t ∧ t = { s with host := t.host }
            ∧ ∃ e, (t.sess d.sess).cmds = [e] ∧ e.early = c.early ++ [(off, bs)] ∧ e.cmd = c.cmd ∧ e.started = false)
        ∧ (∀ u : State, off = 0 → bs.length = c.cmd.val → bs ≠ [] → c.started = true → c.spans = [] →
            (a.sess d.sess).cmds = [c] →
            ({ (a.updCmd d.sess c.id (fun c => { c with spans := [(0, c.cmd.val)] })) with acc := { src := .host } } : State).writeBytes
              {} c.cmd.addr bs = (u, true) → u.acc.stop = none →
          exec i s = .next { (u.cmdEnd d.sess c.id (if c.bad then 1 else 0)) with acc := s.acc })

/-- NEIGHBOUR_SOLICITATION, NEIGHBOUR_ADVERTISEMENT, ECHO_REQUEST, PAUSE and BAD_DATAGRAM. A solicitation of the own
address is answered with an advertisement, and one of another address is not. While duplicate address detection runs,
a solicitation of the same kind or an advertisement of the address marks it as in use, and the port then sends
nothing. An echo request is answered with its data. A PAUSE holds what the port sends up to its end and one of no
quanta releases it. With tagging on, a frame without the tag is dropped. Bad frames and datagrams are counted, and
foreign ones are dropped. (R518, R520, R521, R523) -/
def Obligations.HostNetwork : Prop :=
  ∀ (s : State), s.hostUp = true →
    (∀ (src : Framed) (dad : Bool), s.hears src.vid = true → s.hostSends → s.inDad = false → exec (.neighbourSolicitation src ownIpNat dad) s
      = .next { s with host := { s.host with sent := s.host.sent
          ++ [s.host.frame (.packet (if dad then advertisement allNodes false else advertisement (beBytes 16 src.n) true))] } })
    ∧ (∀ src target dad, target ≠ ownIpNat → exec (.neighbourSolicitation src target dad) s = .next s
        ∧ ∀ vid, exec (.neighbourAdvertisement { n := target, vid }) s = .next s)
    ∧ (s.inDad = true → ∀ src : Framed, s.hears src.vid = true →
        ∀ i ∈ [Instr.neighbourSolicitation src ownIpNat true, .neighbourAdvertisement { n := ownIpNat, vid := src.vid }],
        exec i s = .next { s with host := { s.host with dup := true } })
    ∧ (∀ (src : Framed) (data : List Byte), s.hears src.vid = true →
        (s.hostSends → exec (.echoRequest src data) s
          = .next { s with host := { s.host with sent := s.host.sent ++ [s.host.frame (.packet (echoReply src.n data))] } })
        ∧ (s.host.dup = true → exec (.echoRequest src data) s = .next s)
        ∧ (s.host.dup = false → s.env.ticks < s.host.paused → exec (.echoRequest src data) s
          = .next { s with host := { s.host with heldTx := s.host.heldTx ++ [.packet (echoReply src.n data)] } }))
    ∧ (∀ (a : Framed) (d : Dgram) (port start n : Nat) (b : List Byte) (dad : Bool), s.hears a.vid = false → d.vid = a.vid →
        ∀ i ∈ [Instr.discover a port b, .attest a port b start, .hostHello a port b, .hostConfirm a b, .ackonly d, .hostClose d,
          .neighbourSolicitation a n dad, .neighbourAdvertisement a, .echoRequest a b], exec i s = .next s)
    ∧ (∀ (quanta : Nat) (pr : Option Nat), 0 < quanta → pr = none ∨ (s.host.pfc = true ∧ pr = some s.host.pcp) →
        exec (.pause quanta pr) s
          = .next { s with host := { s.host with paused := s.env.ticks + (quanta * 2 + 124) / 125 } })
    ∧ (∀ pr : Option Nat, pr = none ∨ (s.host.pfc = true ∧ pr = some s.host.pcp) →
        ∃ t, exec (.pause 0 pr) s = .next t ∧ t.host.paused = s.env.ticks ∧ t.host.heldTx = []
          ∧ t.host.sent = s.host.sent ++ (if s.host.dup then [] else s.host.heldTx.map s.host.frame) ∧ t = { s with host := t.host })
    ∧ exec (.badDatagram .fcs) s = .next { s with host := { s.host with fcsErr := cnt s.host.fcsErr 1 } }
    ∧ exec (.badDatagram .malformed) s = .next { s with host := { s.host with badDgram := cnt s.host.badDgram 1 } }
    ∧ exec (.badDatagram .foreign) s = .next s

/-- The three watchdogs, RIP_PET, SPARE_READY, BURNER_LOCK_LOST and KEEL_VOTE_DISAGREE. A stall watchdog that reaches its
period fences its core and a burner that loses lock fences its own. A wait watchdog sends WAIT_LONG and counts anew
while the wait goes on, and a gondola watchdog resets its core with an event. RIP_PET restarts its count. A spare that
passes takes the logical number with CORE_FENCED sent, and one that fails is fenced. A disagreement of the keel copies
is reported, and a second on one bit within 1 ms resets the package. (R493, R540, R543, R544, R545, R547, R548, R558, R561) -/
def Obligations.WatchdogsAndFaults : Prop :=
  ∀ (s : State),
    (∀ c, s.coreWin c = true → s.rip.stallMs * 50000 ≤ (s.core c).stallTicks → s.rip.fenced.contains c = false →
      bit (dieOfCore c) s.rip.dieResetting = false →
      ∃ t, exec (.stallWatchdogExpiry c) s = .next t ∧ s.Fences t c 0x1005)
    ∧ (∀ c, c < 400 → s.diesUp = true → s.rip.fenced.contains c = false → bit (dieOfCore c) s.rip.dieResetting = false →
      ∃ t, exec (.burnerLockLost false c) s = .next t ∧ s.Fences t c 0x1006)
    ∧ (∀ d, d < 4 → s.diesUp = true → s.dieOut d = false → ∃ t, exec (.burnerLockLost true d) s = .next t
      ∧ t.rip.last = ripCode (0x10 + d) 0x32 0x4102 ∧ t.rip.faults = cnt s.rip.faults 1
      ∧ (if s.rip.autoDie then t.rip.dieResetting = s.rip.dieResetting ||| 2 ^ d ∧ t.rip.dieHeld = s.rip.dieHeld
          else t.rip.dieHeld = s.rip.dieHeld ||| 2 ^ d ∧ t.rip.dieResetting = s.rip.dieResetting))
    ∧ (∀ c x, s.coreWin c = true → ((s.core c).st x).state = .waiting → s.rip.waitMs * 50000 ≤ ((s.core c).st x).waitTicks →
      ∃ t, exec (.waitWatchdogExpiry c x) s = .next t ∧ (t.core c).st x = { (s.core c).st x with waitTicks := 0 }
        ∧ t.knot.events = s.knot.events ++
            [{ code := 0x62, source := s.logNum c, arg := sNum x * 0x10000 + ((s.core c).st x).wait.code }]
        ∧ t = { s with cores := t.cores, knot := t.knot })
    ∧ (∀ g n, g < 16 → (s.gon g).petTicks = some n → s.rip.gonMs * 50000 ≤ n →
      ∃ t, exec (.gonWatchdogExpiry g) s = .next t ∧ (t.gon g).petTicks = none
        ∧ (t.gon g).mode = (if s.anc.fwRun then 2 else 1) ∧ (s.anc.fwRun = true → (t.gon g).pc = s.anc.fwEntry)
        ∧ t.rip.last = ripCode (0x10 + g / 4) (0x40 + g % 4) 0x5001 ∧ t.rip.faults = cnt s.rip.faults 1
        ∧ ({ code := 0x64, source := g, arg := 0 } : EvMsg) ∈ t.knot.events ∧ t.cores = s.cores ∧ t.stks = s.stks)
    ∧ (∀ g, s.ctrlUp = true → g < 16 → (s.gon g).mode ≠ 0 →
      ∃ t, exec (.ripPet g) s = .next t ∧ t.gon g = { s.gon g with petTicks := some 0 } ∧ t = { s with gons := t.gons }
        ∧ ∀ k, k ≠ g → t.gon k = s.gon k)
    ∧ (∀ l f c, s.rip.sparesPending.find? (fun p => p.2.2 == c) = some (l, f, c) →
      (∃ t, exec (.spareReady c true) s = .next t ∧ sget 0 t.rig.live.bind l = c + 1
        ∧ t.rig.commits = cnt s.rig.commits 1 ∧ (t.core c).asleep = decide (s.keel.state ≠ .aloft) ∧ (t.core c).wasAwake = decide (s.keel.state = .aloft)
        ∧ t.rip.sparesPending = s.rip.sparesPending.filter (fun p => p.2.2 ≠ c)
        ∧ ({ code := 0x61, source := l, arg := f * 0x10000 + c } : EvMsg) ∈ t.knot.events)
      ∧ (s.rip.fenced.contains c = false → bit (dieOfCore c) s.rip.dieResetting = false →
        ∃ t, exec (.spareReady c false) s = .next t ∧ s.Fences t c 0x1008))
    ∧ ∀ b, s.keel.state ≠ .off →
      (s.keel.votes.any (fun p => decide (s.env.ticks ≤ p.2 + 50000) && p.1 == b) = true →
        ∃ t, exec (.keelVoteDisagree b) s = .next t ∧ s.ResetTo t 0x01000203)
      ∧ (s.keel.votes.any (fun p => decide (s.env.ticks ≤ p.2 + 50000) && p.1 == b) = false →
        ∃ t, exec (.keelVoteDisagree b) s = .next t ∧ t.rip.last = 0x01000203 ∧ t.rip.faults = cnt s.rip.faults 1
          ∧ t.keel.state = s.keel.state ∧ (b, s.env.ticks) ∈ t.keel.votes ∧ t.stks = s.stks ∧ t.cores = s.cores)

/-- RIP_FENCE_REQ, RIP_DIE_RESET, RIP_PKG_RESET, RIP_CODE_CLR, RIP_EVT_BASE and the end of a die reset. A keyed write with
another key, or naming no core, is ignored with WR_IGN. With its key a fence request fences a core that is in service
and leaves a fenced one alone, a die reset begins with every gondola core stopped and a commit rejected, and a package
reset enters KEEL with its code latched. RIP_CODE_CLR clears the code, and the ring's base empties the ring. At its
end a die's failing cores alone are fenced, its stacks hold all-zero memory, and DIE_RESET_DONE is sent. (R329, R546, R549, R550, R553, R554, R562, R564) -/
def Obligations.KeyedWritesAndDieResets : Prop :=
  ∀ (v : W32) (s : State),
    (s.ctrlUp = true →
      let ign : State := { s with rip := { s.rip with wrIgn := true } }
      (fld 31 16 v.toNat ≠ 0x5A5A → ∀ i ∈ [Instr.ripFenceReq v, .ripDieReset v, .ripPkgReset v], exec i s = .next ign)
      ∧ (fld 31 16 v.toNat = 0x5A5A →
        (400 ≤ fld 8 0 v.toNat → exec (.ripFenceReq v) s = .next ign)
        ∧ (fld 8 0 v.toNat < 400 → s.rip.fenced.contains (fld 8 0 v.toNat) = true → exec (.ripFenceReq v) s = .next s)
        ∧ (fld 8 0 v.toNat < 400 → s.rip.fenced.contains (fld 8 0 v.toNat) = false →
            bit (dieOfCore (fld 8 0 v.toNat)) s.rip.dieResetting = false →
            ∃ t, exec (.ripFenceReq v) s = .next t ∧ s.Fences t (fld 8 0 v.toNat) 0x1007)
        ∧ (bit 0 v.toNat = true → ∃ t, exec (.ripPkgReset v) s = .next t ∧ s.ResetTo t 0x01000301)
        ∧ (bit 0 v.toNat = false → exec (.ripPkgReset v) s = .next s)
        ∧ (s.diesUp = true → s.dieOut (fld 1 0 v.toNat) = false → ∃ t, exec (.ripDieReset v) s = .next t
            ∧ t.rip.dieResetting = s.rip.dieResetting ||| 2 ^ fld 1 0 v.toNat ∧ t.rip.faults = cnt s.rip.faults 1
            ∧ (∀ g, (t.gon g).mode = 0) ∧ t.keel = s.keel ∧ t.rig.live = s.rig.live
            ∧ (s.rig.state = .committing → t.rig.state = .verified ∧ t.rig.code = 0x24)))
      ∧ exec (.ripCodeClr v) s = .next (if bit 0 v.toNat then
          { s with rip := { s.rip with code := 0, codeAt := none, codePkg := false, more := false } } else s)
      ∧ ∀ hi : Bool, exec (.ripEvtBaseWrite hi v) s = .next { s with rip := { s.rip with
          evtBase := if hi then v.toNat * 2 ^ 32 + s.rip.evtBase % 2 ^ 32
            else s.rip.evtBase / 2 ^ 32 * 2 ^ 32 + v.toNat / 65536 * 65536,
          evtBaseSet := true, head := 0, tail := 0 } })
    ∧ ∀ (d : Nat) (failed bad : List Nat), s.diesUp = true → d < 4 → bit d s.rip.dieResetting = true →
      ∃ t, exec (.dieResetDone d failed bad) s = .next t ∧ t.rip.dieResetting = s.rip.dieResetting - 2 ^ d
        ∧ (∀ c, c / 100 = d → (c ∈ t.rip.fenced ↔ c ∈ failed))
        ∧ (∀ st < 16, st / 4 = d → (t.stk st).state = (if bad.contains st then .fault else .ready)
            ∧ (t.stk st).mem = [])
        ∧ ({ code := 0x63, source := d, arg := (failed.filter (fun c => c / 100 == d)).length } : EvMsg) ∈ t.knot.events
        ∧ t.keel = s.keel

/-- RC_REGISTER_READ and REGISTER_WRITE of the keel, anchor, rigging and host windows. A read that control space serves
answers the register, and a count of access RC is cleared by it. A write of an RW field sets it, of a W1C bit clears
it where the value has a 1, and of an RO register changes nothing. An access that control space does not serve changes
nothing. (R7, R497, R515, R538, R564, R565) -/
def Obligations.ControlSpaceRegisters : Prop :=
  ∀ (w : Who) (s : State), s.whoOk w = true →
    (∀ (off : Nat) (v : W32), s.ctrlOk off = false →
      exec (.rcRegisterRead w off) s = .next s ∧ exec (.registerWrite w off v) s = .next s)
    ∧ (s.ctrlUp = true →
      exec (.rcRegisterRead w 0x338) s
        = .next { s with rip := { s.rip with faults := 0 }, lastRead := s.rip.faults }
      ∧ exec (.rcRegisterRead w 0x33C) s
        = .next { s with rip := { s.rip with corrected := 0 }, lastRead := s.rip.corrected }
      ∧ exec (.rcRegisterRead w 0x10000C) s
        = .next { s with anc := { s.anc with quotes := 0 }, lastRead := s.anc.quotes }
      ∧ exec (.rcRegisterRead w 0x100010) s = .next { s with anc := { s.anc with fails := 0 }, lastRead := s.anc.fails }
      ∧ exec (.rcRegisterRead w 0x200020) s
        = .next { s with rig := { s.rig with rejects := 0 }, lastRead := s.rig.rejects }
      ∧ exec (.rcRegisterRead w 0x300040) s
        = .next { s with host := { s.host with authFail := 0 }, lastRead := s.host.authFail }
      ∧ exec (.rcRegisterRead w 0x30C) s = .next { s with lastRead := s.rip.last }
      ∧ ∀ v : W32, exec (.registerWrite w 0x100000 v) s
            = .next { s with anc := { s.anc with err := s.anc.err && !bit 1 v.toNat } }
        ∧ exec (.registerWrite w 0x300 v) s = .next { s with rip := { s.rip with
            wrIgn := s.rip.wrIgn && !bit 12 v.toNat, evtLost := s.rip.evtLost && !bit 3 v.toNat,
            fenceNew := s.rip.fenceNew && !bit 1 v.toNat, fault := s.rip.fault && !bit 0 v.toNat } }
        ∧ exec (.registerWrite w 0x310 v) s = .next { s with rip := { s.rip with
            autoDie := bit 8 v.toNat, evtGon := v.toNat % 16 } }
        ∧ exec (.registerWrite w 0x20000C v) s = .next { s with rig := { s.rig with page := v.toNat % 4 } }
        ∧ exec (.registerWrite w 0x300008 v) s = .next { s with host := { s.host with
            vlanEn := bit 16 v.toNat, pcp := fld 15 13 v.toNat, pfc := bit 12 v.toNat, vid := fld 11 0 v.toNat } }
        ∧ ∀ off ∈ [0x30C, 0x338, 0x33C, 0x10000C, 0x100010, 0x200008, 0x200020, 0x300040],
            exec (.registerWrite w off v) s = .next s)

/-- KEEL_DEV_STATE holds the state and the state being entered. KEEL_DEV_STATE, at offset 0x100 of the keel and envelope
window, reads STATE in bits 2:0 and TARGET in bits 10:8, every other bit 0; a write of it changes nothing. Its reset
value holds KEEL in both, and while no transition is in progress both fields are equal. The device's state is one of
five, with the codes 0 to 4. (R25) -/
def Obligations.DeviceStateRegister : Prop :=
  State.reset.devWord = 0x101
    ∧ (∀ s : State, s.keel.state.code < 5 ∧ s.keel.target.code < 5 ∧ (∀ d : DevState, d.code = s.keel.state.code → d = s.keel.state)
      ∧ (s.keel.target = s.keel.state → s.devWord = s.keel.state.code * 0x101))
    ∧ ∀ (w : Who) (v : W32) (s : State), s.ctrlUp = true → s.whoOk w = true →
      exec (.registerWrite w 0x100 v) s = .next s
      ∧ ∃ t, exec (.rcRegisterRead w 0x100) s = .next t ∧ t = { s with lastRead := t.lastRead }
        ∧ fld 2 0 t.lastRead = s.keel.state.code ∧ fld 10 8 t.lastRead = s.keel.target.code
        ∧ t.lastRead = s.keel.target.code * 256 + s.keel.state.code

/-- What the registers hold after reset. In State.reset the registers listed read the value of the column Reset of chapter
18: those of the keel, envelope, anchor, rigging, host, reduction, context and knot windows, of every tether port, of
every context, of every stack and its ballast engine, and of every core. (R25, R114, R115, R156, R330, R364, R438, R440, R470, R497, R515, R538) -/
def Obligations.ResetValuesOfRegisters : Prop :=
  (∀ r ∈ keelResets, (State.reset.ctrlRead r.1).2 = r.2)
  ∧ (∀ p < 12, ∀ r ∈ portResets, (State.reset.ctrlRead (0x400000 + p * 0x10000 + r.1)).2 = r.2)
  ∧ (∀ c < 4096, (∀ r ∈ ctxResets, (State.reset.ctrlRead (0x4E0000 + 16 * c + r.1)).2 = r.2)
      ∧ (State.reset.ctrlRead (0x4E0000 + 16 * c + 8)).2 = if c = 0xFFF then 0x10000 else 0)
  ∧ (∀ t < 16, ∀ r ∈ stackResets, (State.reset.ctrlRead (0x2000000 + t * 0x100000 + r.1)).2 = r.2)
  ∧ ∀ c < 400, ∀ r ∈ coreResets, (State.reset.ctrlRead (0x10000000 + c * 0x100000 + r.1)).2 = r.2
end

