-- ==== Sys2Proof/Laws/Sparse.lean ====
section
/-! SUPPORT. The laws of sparse stores: a read after a write, the canonical form, and runs of writes. -/

namespace Sys2Proof.Machine

variable {α : Type} {d : α}

theorem sget_sdrop_same (m : Sparse α) (k : Nat) : sget d (sdrop k m) k = d := by
  induction m with
  | nil => rfl
  | cons p t ih =>
    obtain ⟨j, v⟩ := p
    by_cases h : k = j <;> simp [sdrop, sget, h]
    · simpa [h] using ih
    · simpa [h] using ih

theorem sget_sdrop_other (m : Sparse α) {k j : Nat} (h : j ≠ k) : sget d (sdrop k m) j = sget d m j := by
  induction m with
  | nil => rfl
  | cons p t ih =>
    obtain ⟨i, v⟩ := p
    by_cases hk : k = i
    · have : j ≠ i := by omega
      simp [sdrop, sget, hk, this] at ih ⊢
      exact ih
    · simp [sdrop, sget, hk, ih]

theorem sget_sinsert_same (m : Sparse α) (k : Nat) (v : α) (h : ∀ p ∈ m, p.1 ≠ k) : sget d (sinsert k v m) k = v := by
  induction m with
  | nil => simp [sinsert, sget]
  | cons p t ih =>
    obtain ⟨i, w⟩ := p
    have hi : k ≠ i := fun e => h (i, w) (by simp) e.symm
    by_cases hk : k < i
    · simp [sinsert, sget, hk]
    · simp [sinsert, sget, hk, hi, ih (fun p hp => h p (by simp [hp]))]

theorem sget_sinsert_other (m : Sparse α) {k j : Nat} (v : α) (h : j ≠ k) : sget d (sinsert k v m) j = sget d m j := by
  induction m with
  | nil => simp [sinsert, sget, h]
  | cons p t ih =>
    obtain ⟨i, w⟩ := p
    by_cases hk : k < i
    · simp [sinsert, sget, hk, h]
    · simp [sinsert, sget, hk, ih]

theorem sdrop_keys (m : Sparse α) (k : Nat) : ∀ p ∈ sdrop k m, p.1 ≠ k := by
  induction m with
  | nil => simp [sdrop]
  | cons p t ih =>
    obtain ⟨i, v⟩ := p
    by_cases h : k = i
    · subst h
      simpa [sdrop] using ih
    · intro q hq
      simp only [sdrop, h, if_false, List.mem_cons] at hq
      rcases hq with rfl | hq
      · exact fun e => h e.symm
      · exact ih q hq

theorem sdrop_of_keys (m : Sparse α) (k : Nat) (h : ∀ p ∈ m, p.1 ≠ k) : sdrop k m = m := by
  induction m with
  | nil => rfl
  | cons p t ih =>
    obtain ⟨i, v⟩ := p
    have hi : ¬k = i := fun e => h (i, v) (by simp) e.symm
    simp [sdrop, hi, ih (fun p hp => h p (by simp [hp]))]

theorem sdrop_sinsert (m : Sparse α) (k : Nat) (v : α) (h : ∀ p ∈ m, p.1 ≠ k) : sdrop k (sinsert k v m) = m := by
  induction m with
  | nil => simp [sinsert, sdrop]
  | cons p t ih =>
    obtain ⟨i, w⟩ := p
    have hi : ¬k = i := fun e => h (i, w) (by simp) e.symm
    have ht : ∀ p ∈ t, p.1 ≠ k := fun p hp => h p (by simp [hp])
    by_cases hk : k < i
    · simp [sinsert, sdrop, hk, hi, sdrop_of_keys t k ht]
    · simp [sinsert, sdrop, hk, hi, ih ht]

variable [DecidableEq α]

/-- A read after a write to the same index gives the value written. -/
@[simp] theorem sget_sset_same (m : Sparse α) (k : Nat) (v : α) : sget d (sset d m k v) k = v := by
  unfold sset
  split
  · next h => rw [sget_sdrop_same, h]
  · exact sget_sinsert_same _ _ _ (sdrop_keys m k)

/-- A write leaves every other index alone. -/
@[simp] theorem sget_sset_other (m : Sparse α) {k j : Nat} (v : α) (h : j ≠ k) : sget d (sset d m k v) j = sget d m j := by
  unfold sset
  split
  · exact sget_sdrop_other _ h
  · rw [sget_sinsert_other _ _ h, sget_sdrop_other _ h]

theorem sget_sset (m : Sparse α) (k j : Nat) (v : α) : sget d (sset d m k v) j = if j = k then v else sget d m j := by
  split
  · next h => rw [h, sget_sset_same]
  · next h => rw [sget_sset_other _ _ h]

/-- Of two writes to one index the second stays. -/
@[simp] theorem sset_sset (m : Sparse α) (k : Nat) (v w : α) : sset d (sset d m k v) k w = sset d m k w := by
  have hd : sdrop k (sset d m k v) = sdrop k m := by
    unfold sset
    split
    · exact sdrop_of_keys _ _ (sdrop_keys m k)
    · exact sdrop_sinsert _ _ _ (sdrop_keys m k)
  show (if w = d then sdrop k (sset d m k v) else sinsert k w (sdrop k (sset d m k v))) = _
  rw [hd]
  rfl

/-! ### The canonical form -/

theorem swfFrom_mono {lo lo' : Nat} (m : Sparse α) (h : lo' ≤ lo) (hm : swfFrom d lo m = true) : swfFrom d lo' m = true := by
  cases m with
  | nil => rfl
  | cons p t =>
    obtain ⟨k, v⟩ := p
    simp only [swfFrom, Bool.and_eq_true, decide_eq_true_eq] at hm ⊢
    exact ⟨⟨by omega, hm.1.2⟩, hm.2⟩

theorem sdrop_wf (m : Sparse α) (k : Nat) : ∀ {lo : Nat}, swfFrom d lo m = true → swfFrom d lo (sdrop k m) = true := by
  induction m with
  | nil => intro lo _; rfl
  | cons p t ih =>
    obtain ⟨j, v⟩ := p
    intro lo hm
    simp only [swfFrom, Bool.and_eq_true, decide_eq_true_eq] at hm
    by_cases hk : k = j
    · simp only [sdrop, hk, if_true]
      rw [← hk]
      exact swfFrom_mono _ (by omega) (ih hm.2)
    · simp only [sdrop, hk, if_false, swfFrom, Bool.and_eq_true, decide_eq_true_eq]
      exact ⟨hm.1, ih hm.2⟩

theorem sinsert_wf (m : Sparse α) (k : Nat) (v : α) (hv : v ≠ d) (hk : ∀ p ∈ m, p.1 ≠ k) :
    ∀ {lo : Nat}, lo ≤ k → swfFrom d lo m = true → swfFrom d lo (sinsert k v m) = true := by
  induction m with
  | nil => intro lo h _; simp [sinsert, swfFrom, h, hv]
  | cons p t ih =>
    obtain ⟨j, w⟩ := p
    intro lo h hm
    simp only [swfFrom, Bool.and_eq_true, decide_eq_true_eq] at hm
    have hj : j ≠ k := hk (j, w) (by simp)
    by_cases hkj : k < j
    · simp only [sinsert, hkj, if_true, swfFrom, Bool.and_eq_true, decide_eq_true_eq]
      exact ⟨⟨h, hv⟩, ⟨by omega, hm.1.2⟩, hm.2⟩
    · simp only [sinsert, hkj, if_false, swfFrom, Bool.and_eq_true, decide_eq_true_eq]
      exact ⟨hm.1, ih (fun p hp => hk p (by simp [hp])) (by omega) hm.2⟩

/-- A write keeps the canonical form. -/
theorem sset_wf (m : Sparse α) (k : Nat) (v : α) (hm : swf d m = true) : swf d (sset d m k v) = true := by
  unfold swf sset at *
  split
  · exact sdrop_wf m k hm
  · next h => exact sinsert_wf _ k v h (sdrop_keys m k) (Nat.zero_le k) (sdrop_wf m k hm)

/-- Every index reads its value changed by f. -/
@[simp] theorem sget_smap (f : α → α) (hf : f d = d) (m : Sparse α) (k : Nat) : sget d (smap d f m) k = f (sget d m k) := by
  induction m with
  | nil => simp [smap, sget, hf]
  | cons p t ih =>
    obtain ⟨j, v⟩ := p
    by_cases h : k = j
    · subst h
      by_cases hv : f v = d <;> simp [smap, sget, hv, sget_sdrop_same]
    · by_cases hv : f v = d <;> simp [smap, sget, hv, h, sget_sdrop_other, ih]

/-- A change of every value keeps the canonical form. -/
theorem smap_wf (f : α → α) (m : Sparse α) : ∀ {lo : Nat}, swfFrom d lo m = true → swfFrom d lo (smap d f m) = true := by
  induction m with
  | nil => intro lo _; rfl
  | cons p t ih =>
    obtain ⟨j, v⟩ := p
    intro lo hm
    simp only [swfFrom, Bool.and_eq_true, decide_eq_true_eq] at hm
    by_cases hv : f v = d
    · simp only [smap, hv, if_true]
      exact sdrop_wf _ j (swfFrom_mono _ (by omega) (ih hm.2))
    · simp only [smap, hv, if_false, swfFrom, Bool.and_eq_true, decide_eq_true_eq]
      exact ⟨⟨hm.1.1, hv⟩, ih hm.2⟩

/-- A run of writes keeps the canonical form. -/
theorem swrite_wf (l : List α) : ∀ (m : Sparse α) (k : Nat), swf d m = true → swf d (swrite d m k l) = true := by
  induction l with
  | nil => intro m k h; exact h
  | cons v t ih => intro m k h; exact ih _ _ (sset_wf m k v h)

/-- Writing bytes keeps a memory's canonical form. -/
theorem mwrite_wf (m : Memory) (k : Nat) (bs : List Byte) (h : m.wf = true) : (mwrite m k bs).wf = true :=
  swrite_wf bs m k h

/-! ### Runs of writes -/

/-- What index j reads as after a run of writes from index k on. -/
theorem sget_swrite (l : List α) : ∀ (m : Sparse α) (k j : Nat),
    sget d (swrite d m k l) j = if k ≤ j ∧ j < k + l.length then l.getD (j - k) d else sget d m j := by
  induction l with
  | nil => intro m k j; simp [swrite]
  | cons v t ih =>
    intro m k j
    rw [swrite, ih, sget_sset]
    by_cases h1 : j = k
    · subst h1
      simp
    · by_cases h2 : k + 1 ≤ j ∧ j < k + 1 + t.length
      · have h3 : k ≤ j ∧ j < k + (v :: t).length := by simp; omega
        have h4 : j - k = (j - (k + 1)) + 1 := by omega
        rw [if_pos h2, if_pos h3, h4, List.getD_cons_succ]
      · have h3 : ¬(k ≤ j ∧ j < k + (v :: t).length) := by simp; omega
        rw [if_neg h2, if_neg h3, if_neg h1]

/-- Writing bytes leaves every byte outside the run alone. -/
theorem mwrite_other (m : Memory) (k j : Nat) (bs : List Byte) (h : j < k ∨ k + bs.length ≤ j) :
    sget (0 : Byte) (mwrite m k bs) j = sget 0 m j := by
  rw [mwrite, sget_swrite, if_neg (by omega)]

end Sys2Proof.Machine
end

