-- ==== Sys2Proof/Laws/State.lean ====
section
/-! SUPPORT. What each update of the state leaves alone, field by field, and what each accessor reads after an update. -/

namespace Sys2Proof.Machine

open Sys2Proof

variable (s : State)

/-! ### `State.setCore` -/

@[simp] theorem State.setCore_pending (c : Nat) (k : Core) : (s.setCore c k).pending = s.pending := rfl
@[simp] theorem State.setCore_keel (c : Nat) (k : Core) : (s.setCore c k).keel = s.keel := rfl
@[simp] theorem State.setCore_stks (c : Nat) (k : Core) : (s.setCore c k).stks = s.stks := rfl
@[simp] theorem State.setCore_knot (c : Nat) (k : Core) : (s.setCore c k).knot = s.knot := rfl
@[simp] theorem State.setCore_teth (c : Nat) (k : Core) : (s.setCore c k).teth = s.teth := rfl
@[simp] theorem State.setCore_env (c : Nat) (k : Core) : (s.setCore c k).env = s.env := rfl
@[simp] theorem State.setCore_rig (c : Nat) (k : Core) : (s.setCore c k).rig = s.rig := rfl
@[simp] theorem State.setCore_anc (c : Nat) (k : Core) : (s.setCore c k).anc = s.anc := rfl
@[simp] theorem State.setCore_host (c : Nat) (k : Core) : (s.setCore c k).host = s.host := rfl
@[simp] theorem State.setCore_rip (c : Nat) (k : Core) : (s.setCore c k).rip = s.rip := rfl
@[simp] theorem State.setCore_gons (c : Nat) (k : Core) : (s.setCore c k).gons = s.gons := rfl
@[simp] theorem State.setCore_gonCe (c : Nat) (k : Core) : (s.setCore c k).gonCe = s.gonCe := rfl
@[simp] theorem State.setCore_merges (c : Nat) (k : Core) : (s.setCore c k).merges = s.merges := rfl
@[simp] theorem State.setCore_stale (c : Nat) (k : Core) : (s.setCore c k).stale = s.stale := rfl
@[simp] theorem State.setCore_pace (c : Nat) (k : Core) : (s.setCore c k).pace = s.pace := rfl
@[simp] theorem State.setCore_nextSeg (c : Nat) (k : Core) : (s.setCore c k).nextSeg = s.nextSeg := rfl
@[simp] theorem State.setCore_lastRead (c : Nat) (k : Core) : (s.setCore c k).lastRead = s.lastRead := rfl
@[simp] theorem State.setCore_acc (c : Nat) (k : Core) : (s.setCore c k).acc = s.acc := rfl

/-! ### `State.updCore` -/

@[simp] theorem State.updCore_pending (c : Nat) (f : Core → Core) : (s.updCore c f).pending = s.pending := rfl
@[simp] theorem State.updCore_keel (c : Nat) (f : Core → Core) : (s.updCore c f).keel = s.keel := rfl
@[simp] theorem State.updCore_stks (c : Nat) (f : Core → Core) : (s.updCore c f).stks = s.stks := rfl
@[simp] theorem State.updCore_knot (c : Nat) (f : Core → Core) : (s.updCore c f).knot = s.knot := rfl
@[simp] theorem State.updCore_teth (c : Nat) (f : Core → Core) : (s.updCore c f).teth = s.teth := rfl
@[simp] theorem State.updCore_env (c : Nat) (f : Core → Core) : (s.updCore c f).env = s.env := rfl
@[simp] theorem State.updCore_rig (c : Nat) (f : Core → Core) : (s.updCore c f).rig = s.rig := rfl
@[simp] theorem State.updCore_anc (c : Nat) (f : Core → Core) : (s.updCore c f).anc = s.anc := rfl
@[simp] theorem State.updCore_host (c : Nat) (f : Core → Core) : (s.updCore c f).host = s.host := rfl
@[simp] theorem State.updCore_rip (c : Nat) (f : Core → Core) : (s.updCore c f).rip = s.rip := rfl
@[simp] theorem State.updCore_gons (c : Nat) (f : Core → Core) : (s.updCore c f).gons = s.gons := rfl
@[simp] theorem State.updCore_gonCe (c : Nat) (f : Core → Core) : (s.updCore c f).gonCe = s.gonCe := rfl
@[simp] theorem State.updCore_merges (c : Nat) (f : Core → Core) : (s.updCore c f).merges = s.merges := rfl
@[simp] theorem State.updCore_stale (c : Nat) (f : Core → Core) : (s.updCore c f).stale = s.stale := rfl
@[simp] theorem State.updCore_pace (c : Nat) (f : Core → Core) : (s.updCore c f).pace = s.pace := rfl
@[simp] theorem State.updCore_nextSeg (c : Nat) (f : Core → Core) : (s.updCore c f).nextSeg = s.nextSeg := rfl
@[simp] theorem State.updCore_lastRead (c : Nat) (f : Core → Core) : (s.updCore c f).lastRead = s.lastRead := rfl
@[simp] theorem State.updCore_acc (c : Nat) (f : Core → Core) : (s.updCore c f).acc = s.acc := rfl

/-! ### `State.setStk` -/

@[simp] theorem State.setStk_pending (i : Nat) (t : Stack) : (s.setStk i t).pending = s.pending := rfl
@[simp] theorem State.setStk_keel (i : Nat) (t : Stack) : (s.setStk i t).keel = s.keel := rfl
@[simp] theorem State.setStk_cores (i : Nat) (t : Stack) : (s.setStk i t).cores = s.cores := rfl
@[simp] theorem State.setStk_knot (i : Nat) (t : Stack) : (s.setStk i t).knot = s.knot := rfl
@[simp] theorem State.setStk_teth (i : Nat) (t : Stack) : (s.setStk i t).teth = s.teth := rfl
@[simp] theorem State.setStk_env (i : Nat) (t : Stack) : (s.setStk i t).env = s.env := rfl
@[simp] theorem State.setStk_rig (i : Nat) (t : Stack) : (s.setStk i t).rig = s.rig := rfl
@[simp] theorem State.setStk_anc (i : Nat) (t : Stack) : (s.setStk i t).anc = s.anc := rfl
@[simp] theorem State.setStk_host (i : Nat) (t : Stack) : (s.setStk i t).host = s.host := rfl
@[simp] theorem State.setStk_rip (i : Nat) (t : Stack) : (s.setStk i t).rip = s.rip := rfl
@[simp] theorem State.setStk_gons (i : Nat) (t : Stack) : (s.setStk i t).gons = s.gons := rfl
@[simp] theorem State.setStk_gonCe (i : Nat) (t : Stack) : (s.setStk i t).gonCe = s.gonCe := rfl
@[simp] theorem State.setStk_merges (i : Nat) (t : Stack) : (s.setStk i t).merges = s.merges := rfl
@[simp] theorem State.setStk_stale (i : Nat) (t : Stack) : (s.setStk i t).stale = s.stale := rfl
@[simp] theorem State.setStk_pace (i : Nat) (t : Stack) : (s.setStk i t).pace = s.pace := rfl
@[simp] theorem State.setStk_nextSeg (i : Nat) (t : Stack) : (s.setStk i t).nextSeg = s.nextSeg := rfl
@[simp] theorem State.setStk_lastRead (i : Nat) (t : Stack) : (s.setStk i t).lastRead = s.lastRead := rfl
@[simp] theorem State.setStk_acc (i : Nat) (t : Stack) : (s.setStk i t).acc = s.acc := rfl

/-! ### `State.updStk` -/

@[simp] theorem State.updStk_pending (i : Nat) (f : Stack → Stack) : (s.updStk i f).pending = s.pending := rfl
@[simp] theorem State.updStk_keel (i : Nat) (f : Stack → Stack) : (s.updStk i f).keel = s.keel := rfl
@[simp] theorem State.updStk_cores (i : Nat) (f : Stack → Stack) : (s.updStk i f).cores = s.cores := rfl
@[simp] theorem State.updStk_knot (i : Nat) (f : Stack → Stack) : (s.updStk i f).knot = s.knot := rfl
@[simp] theorem State.updStk_teth (i : Nat) (f : Stack → Stack) : (s.updStk i f).teth = s.teth := rfl
@[simp] theorem State.updStk_env (i : Nat) (f : Stack → Stack) : (s.updStk i f).env = s.env := rfl
@[simp] theorem State.updStk_rig (i : Nat) (f : Stack → Stack) : (s.updStk i f).rig = s.rig := rfl
@[simp] theorem State.updStk_anc (i : Nat) (f : Stack → Stack) : (s.updStk i f).anc = s.anc := rfl
@[simp] theorem State.updStk_host (i : Nat) (f : Stack → Stack) : (s.updStk i f).host = s.host := rfl
@[simp] theorem State.updStk_rip (i : Nat) (f : Stack → Stack) : (s.updStk i f).rip = s.rip := rfl
@[simp] theorem State.updStk_gons (i : Nat) (f : Stack → Stack) : (s.updStk i f).gons = s.gons := rfl
@[simp] theorem State.updStk_gonCe (i : Nat) (f : Stack → Stack) : (s.updStk i f).gonCe = s.gonCe := rfl
@[simp] theorem State.updStk_merges (i : Nat) (f : Stack → Stack) : (s.updStk i f).merges = s.merges := rfl
@[simp] theorem State.updStk_stale (i : Nat) (f : Stack → Stack) : (s.updStk i f).stale = s.stale := rfl
@[simp] theorem State.updStk_pace (i : Nat) (f : Stack → Stack) : (s.updStk i f).pace = s.pace := rfl
@[simp] theorem State.updStk_nextSeg (i : Nat) (f : Stack → Stack) : (s.updStk i f).nextSeg = s.nextSeg := rfl
@[simp] theorem State.updStk_lastRead (i : Nat) (f : Stack → Stack) : (s.updStk i f).lastRead = s.lastRead := rfl
@[simp] theorem State.updStk_acc (i : Nat) (f : Stack → Stack) : (s.updStk i f).acc = s.acc := rfl

/-! ### `State.updBal` -/

@[simp] theorem State.updBal_pending (i : Nat) (f : BalSt → BalSt) : (s.updBal i f).pending = s.pending := rfl
@[simp] theorem State.updBal_keel (i : Nat) (f : BalSt → BalSt) : (s.updBal i f).keel = s.keel := rfl
@[simp] theorem State.updBal_cores (i : Nat) (f : BalSt → BalSt) : (s.updBal i f).cores = s.cores := rfl
@[simp] theorem State.updBal_knot (i : Nat) (f : BalSt → BalSt) : (s.updBal i f).knot = s.knot := rfl
@[simp] theorem State.updBal_teth (i : Nat) (f : BalSt → BalSt) : (s.updBal i f).teth = s.teth := rfl
@[simp] theorem State.updBal_env (i : Nat) (f : BalSt → BalSt) : (s.updBal i f).env = s.env := rfl
@[simp] theorem State.updBal_rig (i : Nat) (f : BalSt → BalSt) : (s.updBal i f).rig = s.rig := rfl
@[simp] theorem State.updBal_anc (i : Nat) (f : BalSt → BalSt) : (s.updBal i f).anc = s.anc := rfl
@[simp] theorem State.updBal_host (i : Nat) (f : BalSt → BalSt) : (s.updBal i f).host = s.host := rfl
@[simp] theorem State.updBal_rip (i : Nat) (f : BalSt → BalSt) : (s.updBal i f).rip = s.rip := rfl
@[simp] theorem State.updBal_gons (i : Nat) (f : BalSt → BalSt) : (s.updBal i f).gons = s.gons := rfl
@[simp] theorem State.updBal_gonCe (i : Nat) (f : BalSt → BalSt) : (s.updBal i f).gonCe = s.gonCe := rfl
@[simp] theorem State.updBal_merges (i : Nat) (f : BalSt → BalSt) : (s.updBal i f).merges = s.merges := rfl
@[simp] theorem State.updBal_stale (i : Nat) (f : BalSt → BalSt) : (s.updBal i f).stale = s.stale := rfl
@[simp] theorem State.updBal_pace (i : Nat) (f : BalSt → BalSt) : (s.updBal i f).pace = s.pace := rfl
@[simp] theorem State.updBal_nextSeg (i : Nat) (f : BalSt → BalSt) : (s.updBal i f).nextSeg = s.nextSeg := rfl
@[simp] theorem State.updBal_lastRead (i : Nat) (f : BalSt → BalSt) : (s.updBal i f).lastRead = s.lastRead := rfl
@[simp] theorem State.updBal_acc (i : Nat) (f : BalSt → BalSt) : (s.updBal i f).acc = s.acc := rfl

/-! ### `State.updPort` -/

@[simp] theorem State.updPort_pending (p : Nat) (f : Port → Port) : (s.updPort p f).pending = s.pending := rfl
@[simp] theorem State.updPort_keel (p : Nat) (f : Port → Port) : (s.updPort p f).keel = s.keel := rfl
@[simp] theorem State.updPort_cores (p : Nat) (f : Port → Port) : (s.updPort p f).cores = s.cores := rfl
@[simp] theorem State.updPort_stks (p : Nat) (f : Port → Port) : (s.updPort p f).stks = s.stks := rfl
@[simp] theorem State.updPort_knot (p : Nat) (f : Port → Port) : (s.updPort p f).knot = s.knot := rfl
@[simp] theorem State.updPort_env (p : Nat) (f : Port → Port) : (s.updPort p f).env = s.env := rfl
@[simp] theorem State.updPort_rig (p : Nat) (f : Port → Port) : (s.updPort p f).rig = s.rig := rfl
@[simp] theorem State.updPort_anc (p : Nat) (f : Port → Port) : (s.updPort p f).anc = s.anc := rfl
@[simp] theorem State.updPort_host (p : Nat) (f : Port → Port) : (s.updPort p f).host = s.host := rfl
@[simp] theorem State.updPort_rip (p : Nat) (f : Port → Port) : (s.updPort p f).rip = s.rip := rfl
@[simp] theorem State.updPort_gons (p : Nat) (f : Port → Port) : (s.updPort p f).gons = s.gons := rfl
@[simp] theorem State.updPort_gonCe (p : Nat) (f : Port → Port) : (s.updPort p f).gonCe = s.gonCe := rfl
@[simp] theorem State.updPort_merges (p : Nat) (f : Port → Port) : (s.updPort p f).merges = s.merges := rfl
@[simp] theorem State.updPort_stale (p : Nat) (f : Port → Port) : (s.updPort p f).stale = s.stale := rfl
@[simp] theorem State.updPort_pace (p : Nat) (f : Port → Port) : (s.updPort p f).pace = s.pace := rfl
@[simp] theorem State.updPort_nextSeg (p : Nat) (f : Port → Port) : (s.updPort p f).nextSeg = s.nextSeg := rfl
@[simp] theorem State.updPort_lastRead (p : Nat) (f : Port → Port) : (s.updPort p f).lastRead = s.lastRead := rfl
@[simp] theorem State.updPort_acc (p : Nat) (f : Port → Port) : (s.updPort p f).acc = s.acc := rfl

/-! ### `State.setKn` -/

@[simp] theorem State.setKn_pending (k : Nat) (e : Knot) : (s.setKn k e).pending = s.pending := rfl
@[simp] theorem State.setKn_keel (k : Nat) (e : Knot) : (s.setKn k e).keel = s.keel := rfl
@[simp] theorem State.setKn_cores (k : Nat) (e : Knot) : (s.setKn k e).cores = s.cores := rfl
@[simp] theorem State.setKn_stks (k : Nat) (e : Knot) : (s.setKn k e).stks = s.stks := rfl
@[simp] theorem State.setKn_teth (k : Nat) (e : Knot) : (s.setKn k e).teth = s.teth := rfl
@[simp] theorem State.setKn_env (k : Nat) (e : Knot) : (s.setKn k e).env = s.env := rfl
@[simp] theorem State.setKn_rig (k : Nat) (e : Knot) : (s.setKn k e).rig = s.rig := rfl
@[simp] theorem State.setKn_anc (k : Nat) (e : Knot) : (s.setKn k e).anc = s.anc := rfl
@[simp] theorem State.setKn_host (k : Nat) (e : Knot) : (s.setKn k e).host = s.host := rfl
@[simp] theorem State.setKn_rip (k : Nat) (e : Knot) : (s.setKn k e).rip = s.rip := rfl
@[simp] theorem State.setKn_gons (k : Nat) (e : Knot) : (s.setKn k e).gons = s.gons := rfl
@[simp] theorem State.setKn_gonCe (k : Nat) (e : Knot) : (s.setKn k e).gonCe = s.gonCe := rfl
@[simp] theorem State.setKn_merges (k : Nat) (e : Knot) : (s.setKn k e).merges = s.merges := rfl
@[simp] theorem State.setKn_stale (k : Nat) (e : Knot) : (s.setKn k e).stale = s.stale := rfl
@[simp] theorem State.setKn_pace (k : Nat) (e : Knot) : (s.setKn k e).pace = s.pace := rfl
@[simp] theorem State.setKn_nextSeg (k : Nat) (e : Knot) : (s.setKn k e).nextSeg = s.nextSeg := rfl
@[simp] theorem State.setKn_lastRead (k : Nat) (e : Knot) : (s.setKn k e).lastRead = s.lastRead := rfl
@[simp] theorem State.setKn_acc (k : Nat) (e : Knot) : (s.setKn k e).acc = s.acc := rfl

/-! ### `State.updPair` -/

@[simp] theorem State.updPair_pending (g : Nat) (f : KPair → KPair) : (s.updPair g f).pending = s.pending := rfl
@[simp] theorem State.updPair_keel (g : Nat) (f : KPair → KPair) : (s.updPair g f).keel = s.keel := rfl
@[simp] theorem State.updPair_cores (g : Nat) (f : KPair → KPair) : (s.updPair g f).cores = s.cores := rfl
@[simp] theorem State.updPair_stks (g : Nat) (f : KPair → KPair) : (s.updPair g f).stks = s.stks := rfl
@[simp] theorem State.updPair_teth (g : Nat) (f : KPair → KPair) : (s.updPair g f).teth = s.teth := rfl
@[simp] theorem State.updPair_env (g : Nat) (f : KPair → KPair) : (s.updPair g f).env = s.env := rfl
@[simp] theorem State.updPair_rig (g : Nat) (f : KPair → KPair) : (s.updPair g f).rig = s.rig := rfl
@[simp] theorem State.updPair_anc (g : Nat) (f : KPair → KPair) : (s.updPair g f).anc = s.anc := rfl
@[simp] theorem State.updPair_host (g : Nat) (f : KPair → KPair) : (s.updPair g f).host = s.host := rfl
@[simp] theorem State.updPair_rip (g : Nat) (f : KPair → KPair) : (s.updPair g f).rip = s.rip := rfl
@[simp] theorem State.updPair_gons (g : Nat) (f : KPair → KPair) : (s.updPair g f).gons = s.gons := rfl
@[simp] theorem State.updPair_gonCe (g : Nat) (f : KPair → KPair) : (s.updPair g f).gonCe = s.gonCe := rfl
@[simp] theorem State.updPair_merges (g : Nat) (f : KPair → KPair) : (s.updPair g f).merges = s.merges := rfl
@[simp] theorem State.updPair_stale (g : Nat) (f : KPair → KPair) : (s.updPair g f).stale = s.stale := rfl
@[simp] theorem State.updPair_pace (g : Nat) (f : KPair → KPair) : (s.updPair g f).pace = s.pace := rfl
@[simp] theorem State.updPair_nextSeg (g : Nat) (f : KPair → KPair) : (s.updPair g f).nextSeg = s.nextSeg := rfl
@[simp] theorem State.updPair_lastRead (g : Nat) (f : KPair → KPair) : (s.updPair g f).lastRead = s.lastRead := rfl
@[simp] theorem State.updPair_acc (g : Nat) (f : KPair → KPair) : (s.updPair g f).acc = s.acc := rfl

/-! ### `State.updCtx` -/

@[simp] theorem State.updCtx_pending (c : Nat) (f : Ctx → Ctx) : (s.updCtx c f).pending = s.pending := rfl
@[simp] theorem State.updCtx_keel (c : Nat) (f : Ctx → Ctx) : (s.updCtx c f).keel = s.keel := rfl
@[simp] theorem State.updCtx_cores (c : Nat) (f : Ctx → Ctx) : (s.updCtx c f).cores = s.cores := rfl
@[simp] theorem State.updCtx_stks (c : Nat) (f : Ctx → Ctx) : (s.updCtx c f).stks = s.stks := rfl
@[simp] theorem State.updCtx_knot (c : Nat) (f : Ctx → Ctx) : (s.updCtx c f).knot = s.knot := rfl
@[simp] theorem State.updCtx_env (c : Nat) (f : Ctx → Ctx) : (s.updCtx c f).env = s.env := rfl
@[simp] theorem State.updCtx_rig (c : Nat) (f : Ctx → Ctx) : (s.updCtx c f).rig = s.rig := rfl
@[simp] theorem State.updCtx_anc (c : Nat) (f : Ctx → Ctx) : (s.updCtx c f).anc = s.anc := rfl
@[simp] theorem State.updCtx_host (c : Nat) (f : Ctx → Ctx) : (s.updCtx c f).host = s.host := rfl
@[simp] theorem State.updCtx_rip (c : Nat) (f : Ctx → Ctx) : (s.updCtx c f).rip = s.rip := rfl
@[simp] theorem State.updCtx_gons (c : Nat) (f : Ctx → Ctx) : (s.updCtx c f).gons = s.gons := rfl
@[simp] theorem State.updCtx_gonCe (c : Nat) (f : Ctx → Ctx) : (s.updCtx c f).gonCe = s.gonCe := rfl
@[simp] theorem State.updCtx_merges (c : Nat) (f : Ctx → Ctx) : (s.updCtx c f).merges = s.merges := rfl
@[simp] theorem State.updCtx_stale (c : Nat) (f : Ctx → Ctx) : (s.updCtx c f).stale = s.stale := rfl
@[simp] theorem State.updCtx_pace (c : Nat) (f : Ctx → Ctx) : (s.updCtx c f).pace = s.pace := rfl
@[simp] theorem State.updCtx_nextSeg (c : Nat) (f : Ctx → Ctx) : (s.updCtx c f).nextSeg = s.nextSeg := rfl
@[simp] theorem State.updCtx_lastRead (c : Nat) (f : Ctx → Ctx) : (s.updCtx c f).lastRead = s.lastRead := rfl
@[simp] theorem State.updCtx_acc (c : Nat) (f : Ctx → Ctx) : (s.updCtx c f).acc = s.acc := rfl

/-! ### `State.setPeer` -/

@[simp] theorem State.setPeer_pending (d : Nat) (e : Peer) : (s.setPeer d e).pending = s.pending := rfl
@[simp] theorem State.setPeer_keel (d : Nat) (e : Peer) : (s.setPeer d e).keel = s.keel := rfl
@[simp] theorem State.setPeer_cores (d : Nat) (e : Peer) : (s.setPeer d e).cores = s.cores := rfl
@[simp] theorem State.setPeer_stks (d : Nat) (e : Peer) : (s.setPeer d e).stks = s.stks := rfl
@[simp] theorem State.setPeer_knot (d : Nat) (e : Peer) : (s.setPeer d e).knot = s.knot := rfl
@[simp] theorem State.setPeer_env (d : Nat) (e : Peer) : (s.setPeer d e).env = s.env := rfl
@[simp] theorem State.setPeer_rig (d : Nat) (e : Peer) : (s.setPeer d e).rig = s.rig := rfl
@[simp] theorem State.setPeer_anc (d : Nat) (e : Peer) : (s.setPeer d e).anc = s.anc := rfl
@[simp] theorem State.setPeer_host (d : Nat) (e : Peer) : (s.setPeer d e).host = s.host := rfl
@[simp] theorem State.setPeer_rip (d : Nat) (e : Peer) : (s.setPeer d e).rip = s.rip := rfl
@[simp] theorem State.setPeer_gons (d : Nat) (e : Peer) : (s.setPeer d e).gons = s.gons := rfl
@[simp] theorem State.setPeer_gonCe (d : Nat) (e : Peer) : (s.setPeer d e).gonCe = s.gonCe := rfl
@[simp] theorem State.setPeer_merges (d : Nat) (e : Peer) : (s.setPeer d e).merges = s.merges := rfl
@[simp] theorem State.setPeer_stale (d : Nat) (e : Peer) : (s.setPeer d e).stale = s.stale := rfl
@[simp] theorem State.setPeer_pace (d : Nat) (e : Peer) : (s.setPeer d e).pace = s.pace := rfl
@[simp] theorem State.setPeer_nextSeg (d : Nat) (e : Peer) : (s.setPeer d e).nextSeg = s.nextSeg := rfl
@[simp] theorem State.setPeer_lastRead (d : Nat) (e : Peer) : (s.setPeer d e).lastRead = s.lastRead := rfl
@[simp] theorem State.setPeer_acc (d : Nat) (e : Peer) : (s.setPeer d e).acc = s.acc := rfl

/-! ### `State.updGon` -/

@[simp] theorem State.updGon_pending (g : Nat) (f : Gon → Gon) : (s.updGon g f).pending = s.pending := rfl
@[simp] theorem State.updGon_keel (g : Nat) (f : Gon → Gon) : (s.updGon g f).keel = s.keel := rfl
@[simp] theorem State.updGon_cores (g : Nat) (f : Gon → Gon) : (s.updGon g f).cores = s.cores := rfl
@[simp] theorem State.updGon_stks (g : Nat) (f : Gon → Gon) : (s.updGon g f).stks = s.stks := rfl
@[simp] theorem State.updGon_knot (g : Nat) (f : Gon → Gon) : (s.updGon g f).knot = s.knot := rfl
@[simp] theorem State.updGon_teth (g : Nat) (f : Gon → Gon) : (s.updGon g f).teth = s.teth := rfl
@[simp] theorem State.updGon_env (g : Nat) (f : Gon → Gon) : (s.updGon g f).env = s.env := rfl
@[simp] theorem State.updGon_rig (g : Nat) (f : Gon → Gon) : (s.updGon g f).rig = s.rig := rfl
@[simp] theorem State.updGon_anc (g : Nat) (f : Gon → Gon) : (s.updGon g f).anc = s.anc := rfl
@[simp] theorem State.updGon_host (g : Nat) (f : Gon → Gon) : (s.updGon g f).host = s.host := rfl
@[simp] theorem State.updGon_rip (g : Nat) (f : Gon → Gon) : (s.updGon g f).rip = s.rip := rfl
@[simp] theorem State.updGon_gonCe (g : Nat) (f : Gon → Gon) : (s.updGon g f).gonCe = s.gonCe := rfl
@[simp] theorem State.updGon_merges (g : Nat) (f : Gon → Gon) : (s.updGon g f).merges = s.merges := rfl
@[simp] theorem State.updGon_stale (g : Nat) (f : Gon → Gon) : (s.updGon g f).stale = s.stale := rfl
@[simp] theorem State.updGon_pace (g : Nat) (f : Gon → Gon) : (s.updGon g f).pace = s.pace := rfl
@[simp] theorem State.updGon_nextSeg (g : Nat) (f : Gon → Gon) : (s.updGon g f).nextSeg = s.nextSeg := rfl
@[simp] theorem State.updGon_lastRead (g : Nat) (f : Gon → Gon) : (s.updGon g f).lastRead = s.lastRead := rfl
@[simp] theorem State.updGon_acc (g : Nat) (f : Gon → Gon) : (s.updGon g f).acc = s.acc := rfl

/-! ### `State.updSess` -/

@[simp] theorem State.updSess_pending (n : Nat) (f : Session → Session) : (s.updSess n f).pending = s.pending := rfl
@[simp] theorem State.updSess_keel (n : Nat) (f : Session → Session) : (s.updSess n f).keel = s.keel := rfl
@[simp] theorem State.updSess_cores (n : Nat) (f : Session → Session) : (s.updSess n f).cores = s.cores := rfl
@[simp] theorem State.updSess_stks (n : Nat) (f : Session → Session) : (s.updSess n f).stks = s.stks := rfl
@[simp] theorem State.updSess_knot (n : Nat) (f : Session → Session) : (s.updSess n f).knot = s.knot := rfl
@[simp] theorem State.updSess_teth (n : Nat) (f : Session → Session) : (s.updSess n f).teth = s.teth := rfl
@[simp] theorem State.updSess_env (n : Nat) (f : Session → Session) : (s.updSess n f).env = s.env := rfl
@[simp] theorem State.updSess_rig (n : Nat) (f : Session → Session) : (s.updSess n f).rig = s.rig := rfl
@[simp] theorem State.updSess_anc (n : Nat) (f : Session → Session) : (s.updSess n f).anc = s.anc := rfl
@[simp] theorem State.updSess_rip (n : Nat) (f : Session → Session) : (s.updSess n f).rip = s.rip := rfl
@[simp] theorem State.updSess_gons (n : Nat) (f : Session → Session) : (s.updSess n f).gons = s.gons := rfl
@[simp] theorem State.updSess_gonCe (n : Nat) (f : Session → Session) : (s.updSess n f).gonCe = s.gonCe := rfl
@[simp] theorem State.updSess_merges (n : Nat) (f : Session → Session) : (s.updSess n f).merges = s.merges := rfl
@[simp] theorem State.updSess_stale (n : Nat) (f : Session → Session) : (s.updSess n f).stale = s.stale := rfl
@[simp] theorem State.updSess_pace (n : Nat) (f : Session → Session) : (s.updSess n f).pace = s.pace := rfl
@[simp] theorem State.updSess_nextSeg (n : Nat) (f : Session → Session) : (s.updSess n f).nextSeg = s.nextSeg := rfl
@[simp] theorem State.updSess_lastRead (n : Nat) (f : Session → Session) : (s.updSess n f).lastRead = s.lastRead := rfl
@[simp] theorem State.updSess_acc (n : Nat) (f : Session → Session) : (s.updSess n f).acc = s.acc := rfl

/-! ### `State.updKeel` -/

@[simp] theorem State.updKeel_pending (f : KeelSt → KeelSt) : (s.updKeel f).pending = s.pending := rfl
@[simp] theorem State.updKeel_cores (f : KeelSt → KeelSt) : (s.updKeel f).cores = s.cores := rfl
@[simp] theorem State.updKeel_stks (f : KeelSt → KeelSt) : (s.updKeel f).stks = s.stks := rfl
@[simp] theorem State.updKeel_knot (f : KeelSt → KeelSt) : (s.updKeel f).knot = s.knot := rfl
@[simp] theorem State.updKeel_teth (f : KeelSt → KeelSt) : (s.updKeel f).teth = s.teth := rfl
@[simp] theorem State.updKeel_env (f : KeelSt → KeelSt) : (s.updKeel f).env = s.env := rfl
@[simp] theorem State.updKeel_rig (f : KeelSt → KeelSt) : (s.updKeel f).rig = s.rig := rfl
@[simp] theorem State.updKeel_anc (f : KeelSt → KeelSt) : (s.updKeel f).anc = s.anc := rfl
@[simp] theorem State.updKeel_host (f : KeelSt → KeelSt) : (s.updKeel f).host = s.host := rfl
@[simp] theorem State.updKeel_rip (f : KeelSt → KeelSt) : (s.updKeel f).rip = s.rip := rfl
@[simp] theorem State.updKeel_gons (f : KeelSt → KeelSt) : (s.updKeel f).gons = s.gons := rfl
@[simp] theorem State.updKeel_gonCe (f : KeelSt → KeelSt) : (s.updKeel f).gonCe = s.gonCe := rfl
@[simp] theorem State.updKeel_merges (f : KeelSt → KeelSt) : (s.updKeel f).merges = s.merges := rfl
@[simp] theorem State.updKeel_stale (f : KeelSt → KeelSt) : (s.updKeel f).stale = s.stale := rfl
@[simp] theorem State.updKeel_pace (f : KeelSt → KeelSt) : (s.updKeel f).pace = s.pace := rfl
@[simp] theorem State.updKeel_nextSeg (f : KeelSt → KeelSt) : (s.updKeel f).nextSeg = s.nextSeg := rfl
@[simp] theorem State.updKeel_lastRead (f : KeelSt → KeelSt) : (s.updKeel f).lastRead = s.lastRead := rfl
@[simp] theorem State.updKeel_acc (f : KeelSt → KeelSt) : (s.updKeel f).acc = s.acc := rfl

/-! ### `State.updAnc` -/

@[simp] theorem State.updAnc_pending (f : AncSt → AncSt) : (s.updAnc f).pending = s.pending := rfl
@[simp] theorem State.updAnc_keel (f : AncSt → AncSt) : (s.updAnc f).keel = s.keel := rfl
@[simp] theorem State.updAnc_cores (f : AncSt → AncSt) : (s.updAnc f).cores = s.cores := rfl
@[simp] theorem State.updAnc_stks (f : AncSt → AncSt) : (s.updAnc f).stks = s.stks := rfl
@[simp] theorem State.updAnc_knot (f : AncSt → AncSt) : (s.updAnc f).knot = s.knot := rfl
@[simp] theorem State.updAnc_teth (f : AncSt → AncSt) : (s.updAnc f).teth = s.teth := rfl
@[simp] theorem State.updAnc_env (f : AncSt → AncSt) : (s.updAnc f).env = s.env := rfl
@[simp] theorem State.updAnc_rig (f : AncSt → AncSt) : (s.updAnc f).rig = s.rig := rfl
@[simp] theorem State.updAnc_host (f : AncSt → AncSt) : (s.updAnc f).host = s.host := rfl
@[simp] theorem State.updAnc_rip (f : AncSt → AncSt) : (s.updAnc f).rip = s.rip := rfl
@[simp] theorem State.updAnc_gons (f : AncSt → AncSt) : (s.updAnc f).gons = s.gons := rfl
@[simp] theorem State.updAnc_gonCe (f : AncSt → AncSt) : (s.updAnc f).gonCe = s.gonCe := rfl
@[simp] theorem State.updAnc_merges (f : AncSt → AncSt) : (s.updAnc f).merges = s.merges := rfl
@[simp] theorem State.updAnc_stale (f : AncSt → AncSt) : (s.updAnc f).stale = s.stale := rfl
@[simp] theorem State.updAnc_pace (f : AncSt → AncSt) : (s.updAnc f).pace = s.pace := rfl
@[simp] theorem State.updAnc_nextSeg (f : AncSt → AncSt) : (s.updAnc f).nextSeg = s.nextSeg := rfl
@[simp] theorem State.updAnc_lastRead (f : AncSt → AncSt) : (s.updAnc f).lastRead = s.lastRead := rfl
@[simp] theorem State.updAnc_acc (f : AncSt → AncSt) : (s.updAnc f).acc = s.acc := rfl

/-! ### `State.updHost` -/

@[simp] theorem State.updHost_pending (f : HostSt → HostSt) : (s.updHost f).pending = s.pending := rfl
@[simp] theorem State.updHost_keel (f : HostSt → HostSt) : (s.updHost f).keel = s.keel := rfl
@[simp] theorem State.updHost_cores (f : HostSt → HostSt) : (s.updHost f).cores = s.cores := rfl
@[simp] theorem State.updHost_stks (f : HostSt → HostSt) : (s.updHost f).stks = s.stks := rfl
@[simp] theorem State.updHost_knot (f : HostSt → HostSt) : (s.updHost f).knot = s.knot := rfl
@[simp] theorem State.updHost_teth (f : HostSt → HostSt) : (s.updHost f).teth = s.teth := rfl
@[simp] theorem State.updHost_env (f : HostSt → HostSt) : (s.updHost f).env = s.env := rfl
@[simp] theorem State.updHost_rig (f : HostSt → HostSt) : (s.updHost f).rig = s.rig := rfl
@[simp] theorem State.updHost_anc (f : HostSt → HostSt) : (s.updHost f).anc = s.anc := rfl
@[simp] theorem State.updHost_rip (f : HostSt → HostSt) : (s.updHost f).rip = s.rip := rfl
@[simp] theorem State.updHost_gons (f : HostSt → HostSt) : (s.updHost f).gons = s.gons := rfl
@[simp] theorem State.updHost_gonCe (f : HostSt → HostSt) : (s.updHost f).gonCe = s.gonCe := rfl
@[simp] theorem State.updHost_merges (f : HostSt → HostSt) : (s.updHost f).merges = s.merges := rfl
@[simp] theorem State.updHost_stale (f : HostSt → HostSt) : (s.updHost f).stale = s.stale := rfl
@[simp] theorem State.updHost_pace (f : HostSt → HostSt) : (s.updHost f).pace = s.pace := rfl
@[simp] theorem State.updHost_nextSeg (f : HostSt → HostSt) : (s.updHost f).nextSeg = s.nextSeg := rfl
@[simp] theorem State.updHost_lastRead (f : HostSt → HostSt) : (s.updHost f).lastRead = s.lastRead := rfl
@[simp] theorem State.updHost_acc (f : HostSt → HostSt) : (s.updHost f).acc = s.acc := rfl

/-! ### `State.updRip` -/

@[simp] theorem State.updRip_pending (f : RipSt → RipSt) : (s.updRip f).pending = s.pending := rfl
@[simp] theorem State.updRip_keel (f : RipSt → RipSt) : (s.updRip f).keel = s.keel := rfl
@[simp] theorem State.updRip_cores (f : RipSt → RipSt) : (s.updRip f).cores = s.cores := rfl
@[simp] theorem State.updRip_stks (f : RipSt → RipSt) : (s.updRip f).stks = s.stks := rfl
@[simp] theorem State.updRip_knot (f : RipSt → RipSt) : (s.updRip f).knot = s.knot := rfl
@[simp] theorem State.updRip_teth (f : RipSt → RipSt) : (s.updRip f).teth = s.teth := rfl
@[simp] theorem State.updRip_env (f : RipSt → RipSt) : (s.updRip f).env = s.env := rfl
@[simp] theorem State.updRip_rig (f : RipSt → RipSt) : (s.updRip f).rig = s.rig := rfl
@[simp] theorem State.updRip_anc (f : RipSt → RipSt) : (s.updRip f).anc = s.anc := rfl
@[simp] theorem State.updRip_host (f : RipSt → RipSt) : (s.updRip f).host = s.host := rfl
@[simp] theorem State.updRip_gons (f : RipSt → RipSt) : (s.updRip f).gons = s.gons := rfl
@[simp] theorem State.updRip_gonCe (f : RipSt → RipSt) : (s.updRip f).gonCe = s.gonCe := rfl
@[simp] theorem State.updRip_merges (f : RipSt → RipSt) : (s.updRip f).merges = s.merges := rfl
@[simp] theorem State.updRip_stale (f : RipSt → RipSt) : (s.updRip f).stale = s.stale := rfl
@[simp] theorem State.updRip_pace (f : RipSt → RipSt) : (s.updRip f).pace = s.pace := rfl
@[simp] theorem State.updRip_nextSeg (f : RipSt → RipSt) : (s.updRip f).nextSeg = s.nextSeg := rfl
@[simp] theorem State.updRip_lastRead (f : RipSt → RipSt) : (s.updRip f).lastRead = s.lastRead := rfl
@[simp] theorem State.updRip_acc (f : RipSt → RipSt) : (s.updRip f).acc = s.acc := rfl

/-! ### `State.updRig` -/

@[simp] theorem State.updRig_pending (f : RigSt → RigSt) : (s.updRig f).pending = s.pending := rfl
@[simp] theorem State.updRig_keel (f : RigSt → RigSt) : (s.updRig f).keel = s.keel := rfl
@[simp] theorem State.updRig_cores (f : RigSt → RigSt) : (s.updRig f).cores = s.cores := rfl
@[simp] theorem State.updRig_stks (f : RigSt → RigSt) : (s.updRig f).stks = s.stks := rfl
@[simp] theorem State.updRig_knot (f : RigSt → RigSt) : (s.updRig f).knot = s.knot := rfl
@[simp] theorem State.updRig_teth (f : RigSt → RigSt) : (s.updRig f).teth = s.teth := rfl
@[simp] theorem State.updRig_env (f : RigSt → RigSt) : (s.updRig f).env = s.env := rfl
@[simp] theorem State.updRig_anc (f : RigSt → RigSt) : (s.updRig f).anc = s.anc := rfl
@[simp] theorem State.updRig_host (f : RigSt → RigSt) : (s.updRig f).host = s.host := rfl
@[simp] theorem State.updRig_rip (f : RigSt → RigSt) : (s.updRig f).rip = s.rip := rfl
@[simp] theorem State.updRig_gons (f : RigSt → RigSt) : (s.updRig f).gons = s.gons := rfl
@[simp] theorem State.updRig_gonCe (f : RigSt → RigSt) : (s.updRig f).gonCe = s.gonCe := rfl
@[simp] theorem State.updRig_merges (f : RigSt → RigSt) : (s.updRig f).merges = s.merges := rfl
@[simp] theorem State.updRig_stale (f : RigSt → RigSt) : (s.updRig f).stale = s.stale := rfl
@[simp] theorem State.updRig_pace (f : RigSt → RigSt) : (s.updRig f).pace = s.pace := rfl
@[simp] theorem State.updRig_nextSeg (f : RigSt → RigSt) : (s.updRig f).nextSeg = s.nextSeg := rfl
@[simp] theorem State.updRig_lastRead (f : RigSt → RigSt) : (s.updRig f).lastRead = s.lastRead := rfl
@[simp] theorem State.updRig_acc (f : RigSt → RigSt) : (s.updRig f).acc = s.acc := rfl

/-! ### `State.updEnv` -/

@[simp] theorem State.updEnv_pending (f : EnvSt → EnvSt) : (s.updEnv f).pending = s.pending := rfl
@[simp] theorem State.updEnv_keel (f : EnvSt → EnvSt) : (s.updEnv f).keel = s.keel := rfl
@[simp] theorem State.updEnv_cores (f : EnvSt → EnvSt) : (s.updEnv f).cores = s.cores := rfl
@[simp] theorem State.updEnv_stks (f : EnvSt → EnvSt) : (s.updEnv f).stks = s.stks := rfl
@[simp] theorem State.updEnv_knot (f : EnvSt → EnvSt) : (s.updEnv f).knot = s.knot := rfl
@[simp] theorem State.updEnv_teth (f : EnvSt → EnvSt) : (s.updEnv f).teth = s.teth := rfl
@[simp] theorem State.updEnv_rig (f : EnvSt → EnvSt) : (s.updEnv f).rig = s.rig := rfl
@[simp] theorem State.updEnv_anc (f : EnvSt → EnvSt) : (s.updEnv f).anc = s.anc := rfl
@[simp] theorem State.updEnv_host (f : EnvSt → EnvSt) : (s.updEnv f).host = s.host := rfl
@[simp] theorem State.updEnv_rip (f : EnvSt → EnvSt) : (s.updEnv f).rip = s.rip := rfl
@[simp] theorem State.updEnv_gons (f : EnvSt → EnvSt) : (s.updEnv f).gons = s.gons := rfl
@[simp] theorem State.updEnv_gonCe (f : EnvSt → EnvSt) : (s.updEnv f).gonCe = s.gonCe := rfl
@[simp] theorem State.updEnv_merges (f : EnvSt → EnvSt) : (s.updEnv f).merges = s.merges := rfl
@[simp] theorem State.updEnv_stale (f : EnvSt → EnvSt) : (s.updEnv f).stale = s.stale := rfl
@[simp] theorem State.updEnv_pace (f : EnvSt → EnvSt) : (s.updEnv f).pace = s.pace := rfl
@[simp] theorem State.updEnv_nextSeg (f : EnvSt → EnvSt) : (s.updEnv f).nextSeg = s.nextSeg := rfl
@[simp] theorem State.updEnv_lastRead (f : EnvSt → EnvSt) : (s.updEnv f).lastRead = s.lastRead := rfl
@[simp] theorem State.updEnv_acc (f : EnvSt → EnvSt) : (s.updEnv f).acc = s.acc := rfl

/-! ### `State.updSt` -/

@[simp] theorem State.updSt_pending (c : Nat) (x : Stream) (f : StreamSt → StreamSt) : (s.updSt c x f).pending = s.pending := rfl
@[simp] theorem State.updSt_keel (c : Nat) (x : Stream) (f : StreamSt → StreamSt) : (s.updSt c x f).keel = s.keel := rfl
@[simp] theorem State.updSt_stks (c : Nat) (x : Stream) (f : StreamSt → StreamSt) : (s.updSt c x f).stks = s.stks := rfl
@[simp] theorem State.updSt_knot (c : Nat) (x : Stream) (f : StreamSt → StreamSt) : (s.updSt c x f).knot = s.knot := rfl
@[simp] theorem State.updSt_teth (c : Nat) (x : Stream) (f : StreamSt → StreamSt) : (s.updSt c x f).teth = s.teth := rfl
@[simp] theorem State.updSt_env (c : Nat) (x : Stream) (f : StreamSt → StreamSt) : (s.updSt c x f).env = s.env := rfl
@[simp] theorem State.updSt_rig (c : Nat) (x : Stream) (f : StreamSt → StreamSt) : (s.updSt c x f).rig = s.rig := rfl
@[simp] theorem State.updSt_anc (c : Nat) (x : Stream) (f : StreamSt → StreamSt) : (s.updSt c x f).anc = s.anc := rfl
@[simp] theorem State.updSt_host (c : Nat) (x : Stream) (f : StreamSt → StreamSt) : (s.updSt c x f).host = s.host := rfl
@[simp] theorem State.updSt_rip (c : Nat) (x : Stream) (f : StreamSt → StreamSt) : (s.updSt c x f).rip = s.rip := rfl
@[simp] theorem State.updSt_gons (c : Nat) (x : Stream) (f : StreamSt → StreamSt) : (s.updSt c x f).gons = s.gons := rfl
@[simp] theorem State.updSt_gonCe (c : Nat) (x : Stream) (f : StreamSt → StreamSt) : (s.updSt c x f).gonCe = s.gonCe := rfl
@[simp] theorem State.updSt_merges (c : Nat) (x : Stream) (f : StreamSt → StreamSt) : (s.updSt c x f).merges = s.merges := rfl
@[simp] theorem State.updSt_stale (c : Nat) (x : Stream) (f : StreamSt → StreamSt) : (s.updSt c x f).stale = s.stale := rfl
@[simp] theorem State.updSt_pace (c : Nat) (x : Stream) (f : StreamSt → StreamSt) : (s.updSt c x f).pace = s.pace := rfl
@[simp] theorem State.updSt_nextSeg (c : Nat) (x : Stream) (f : StreamSt → StreamSt) : (s.updSt c x f).nextSeg = s.nextSeg := rfl
@[simp] theorem State.updSt_lastRead (c : Nat) (x : Stream) (f : StreamSt → StreamSt) : (s.updSt c x f).lastRead = s.lastRead := rfl
@[simp] theorem State.updSt_acc (c : Nat) (x : Stream) (f : StreamSt → StreamSt) : (s.updSt c x f).acc = s.acc := rfl

/-! ### `State.updVec` -/

@[simp] theorem State.updVec_pending (c : Nat) (f : VecSt → VecSt) : (s.updVec c f).pending = s.pending := rfl
@[simp] theorem State.updVec_keel (c : Nat) (f : VecSt → VecSt) : (s.updVec c f).keel = s.keel := rfl
@[simp] theorem State.updVec_stks (c : Nat) (f : VecSt → VecSt) : (s.updVec c f).stks = s.stks := rfl
@[simp] theorem State.updVec_knot (c : Nat) (f : VecSt → VecSt) : (s.updVec c f).knot = s.knot := rfl
@[simp] theorem State.updVec_teth (c : Nat) (f : VecSt → VecSt) : (s.updVec c f).teth = s.teth := rfl
@[simp] theorem State.updVec_env (c : Nat) (f : VecSt → VecSt) : (s.updVec c f).env = s.env := rfl
@[simp] theorem State.updVec_rig (c : Nat) (f : VecSt → VecSt) : (s.updVec c f).rig = s.rig := rfl
@[simp] theorem State.updVec_anc (c : Nat) (f : VecSt → VecSt) : (s.updVec c f).anc = s.anc := rfl
@[simp] theorem State.updVec_host (c : Nat) (f : VecSt → VecSt) : (s.updVec c f).host = s.host := rfl
@[simp] theorem State.updVec_rip (c : Nat) (f : VecSt → VecSt) : (s.updVec c f).rip = s.rip := rfl
@[simp] theorem State.updVec_gons (c : Nat) (f : VecSt → VecSt) : (s.updVec c f).gons = s.gons := rfl
@[simp] theorem State.updVec_gonCe (c : Nat) (f : VecSt → VecSt) : (s.updVec c f).gonCe = s.gonCe := rfl
@[simp] theorem State.updVec_merges (c : Nat) (f : VecSt → VecSt) : (s.updVec c f).merges = s.merges := rfl
@[simp] theorem State.updVec_stale (c : Nat) (f : VecSt → VecSt) : (s.updVec c f).stale = s.stale := rfl
@[simp] theorem State.updVec_pace (c : Nat) (f : VecSt → VecSt) : (s.updVec c f).pace = s.pace := rfl
@[simp] theorem State.updVec_nextSeg (c : Nat) (f : VecSt → VecSt) : (s.updVec c f).nextSeg = s.nextSeg := rfl
@[simp] theorem State.updVec_lastRead (c : Nat) (f : VecSt → VecSt) : (s.updVec c f).lastRead = s.lastRead := rfl
@[simp] theorem State.updVec_acc (c : Nat) (f : VecSt → VecSt) : (s.updVec c f).acc = s.acc := rfl

/-! ### `State.updArr` -/

@[simp] theorem State.updArr_pending (c : Nat) (f : ArrSt → ArrSt) : (s.updArr c f).pending = s.pending := rfl
@[simp] theorem State.updArr_keel (c : Nat) (f : ArrSt → ArrSt) : (s.updArr c f).keel = s.keel := rfl
@[simp] theorem State.updArr_stks (c : Nat) (f : ArrSt → ArrSt) : (s.updArr c f).stks = s.stks := rfl
@[simp] theorem State.updArr_knot (c : Nat) (f : ArrSt → ArrSt) : (s.updArr c f).knot = s.knot := rfl
@[simp] theorem State.updArr_teth (c : Nat) (f : ArrSt → ArrSt) : (s.updArr c f).teth = s.teth := rfl
@[simp] theorem State.updArr_env (c : Nat) (f : ArrSt → ArrSt) : (s.updArr c f).env = s.env := rfl
@[simp] theorem State.updArr_rig (c : Nat) (f : ArrSt → ArrSt) : (s.updArr c f).rig = s.rig := rfl
@[simp] theorem State.updArr_anc (c : Nat) (f : ArrSt → ArrSt) : (s.updArr c f).anc = s.anc := rfl
@[simp] theorem State.updArr_host (c : Nat) (f : ArrSt → ArrSt) : (s.updArr c f).host = s.host := rfl
@[simp] theorem State.updArr_rip (c : Nat) (f : ArrSt → ArrSt) : (s.updArr c f).rip = s.rip := rfl
@[simp] theorem State.updArr_gons (c : Nat) (f : ArrSt → ArrSt) : (s.updArr c f).gons = s.gons := rfl
@[simp] theorem State.updArr_gonCe (c : Nat) (f : ArrSt → ArrSt) : (s.updArr c f).gonCe = s.gonCe := rfl
@[simp] theorem State.updArr_merges (c : Nat) (f : ArrSt → ArrSt) : (s.updArr c f).merges = s.merges := rfl
@[simp] theorem State.updArr_stale (c : Nat) (f : ArrSt → ArrSt) : (s.updArr c f).stale = s.stale := rfl
@[simp] theorem State.updArr_pace (c : Nat) (f : ArrSt → ArrSt) : (s.updArr c f).pace = s.pace := rfl
@[simp] theorem State.updArr_nextSeg (c : Nat) (f : ArrSt → ArrSt) : (s.updArr c f).nextSeg = s.nextSeg := rfl
@[simp] theorem State.updArr_lastRead (c : Nat) (f : ArrSt → ArrSt) : (s.updArr c f).lastRead = s.lastRead := rfl
@[simp] theorem State.updArr_acc (c : Nat) (f : ArrSt → ArrSt) : (s.updArr c f).acc = s.acc := rfl

/-! ### `State.updLoft` -/

@[simp] theorem State.updLoft_pending (c : Nat) (f : LoftSt → LoftSt) : (s.updLoft c f).pending = s.pending := rfl
@[simp] theorem State.updLoft_keel (c : Nat) (f : LoftSt → LoftSt) : (s.updLoft c f).keel = s.keel := rfl
@[simp] theorem State.updLoft_stks (c : Nat) (f : LoftSt → LoftSt) : (s.updLoft c f).stks = s.stks := rfl
@[simp] theorem State.updLoft_knot (c : Nat) (f : LoftSt → LoftSt) : (s.updLoft c f).knot = s.knot := rfl
@[simp] theorem State.updLoft_teth (c : Nat) (f : LoftSt → LoftSt) : (s.updLoft c f).teth = s.teth := rfl
@[simp] theorem State.updLoft_env (c : Nat) (f : LoftSt → LoftSt) : (s.updLoft c f).env = s.env := rfl
@[simp] theorem State.updLoft_rig (c : Nat) (f : LoftSt → LoftSt) : (s.updLoft c f).rig = s.rig := rfl
@[simp] theorem State.updLoft_anc (c : Nat) (f : LoftSt → LoftSt) : (s.updLoft c f).anc = s.anc := rfl
@[simp] theorem State.updLoft_host (c : Nat) (f : LoftSt → LoftSt) : (s.updLoft c f).host = s.host := rfl
@[simp] theorem State.updLoft_rip (c : Nat) (f : LoftSt → LoftSt) : (s.updLoft c f).rip = s.rip := rfl
@[simp] theorem State.updLoft_gons (c : Nat) (f : LoftSt → LoftSt) : (s.updLoft c f).gons = s.gons := rfl
@[simp] theorem State.updLoft_gonCe (c : Nat) (f : LoftSt → LoftSt) : (s.updLoft c f).gonCe = s.gonCe := rfl
@[simp] theorem State.updLoft_merges (c : Nat) (f : LoftSt → LoftSt) : (s.updLoft c f).merges = s.merges := rfl
@[simp] theorem State.updLoft_stale (c : Nat) (f : LoftSt → LoftSt) : (s.updLoft c f).stale = s.stale := rfl
@[simp] theorem State.updLoft_pace (c : Nat) (f : LoftSt → LoftSt) : (s.updLoft c f).pace = s.pace := rfl
@[simp] theorem State.updLoft_nextSeg (c : Nat) (f : LoftSt → LoftSt) : (s.updLoft c f).nextSeg = s.nextSeg := rfl
@[simp] theorem State.updLoft_lastRead (c : Nat) (f : LoftSt → LoftSt) : (s.updLoft c f).lastRead = s.lastRead := rfl
@[simp] theorem State.updLoft_acc (c : Nat) (f : LoftSt → LoftSt) : (s.updLoft c f).acc = s.acc := rfl

/-! ### `State.updReel` -/

@[simp] theorem State.updReel_pending (c r : Nat) (f : Reel → Reel) : (s.updReel c r f).pending = s.pending := rfl
@[simp] theorem State.updReel_keel (c r : Nat) (f : Reel → Reel) : (s.updReel c r f).keel = s.keel := rfl
@[simp] theorem State.updReel_stks (c r : Nat) (f : Reel → Reel) : (s.updReel c r f).stks = s.stks := rfl
@[simp] theorem State.updReel_knot (c r : Nat) (f : Reel → Reel) : (s.updReel c r f).knot = s.knot := rfl
@[simp] theorem State.updReel_teth (c r : Nat) (f : Reel → Reel) : (s.updReel c r f).teth = s.teth := rfl
@[simp] theorem State.updReel_env (c r : Nat) (f : Reel → Reel) : (s.updReel c r f).env = s.env := rfl
@[simp] theorem State.updReel_rig (c r : Nat) (f : Reel → Reel) : (s.updReel c r f).rig = s.rig := rfl
@[simp] theorem State.updReel_anc (c r : Nat) (f : Reel → Reel) : (s.updReel c r f).anc = s.anc := rfl
@[simp] theorem State.updReel_host (c r : Nat) (f : Reel → Reel) : (s.updReel c r f).host = s.host := rfl
@[simp] theorem State.updReel_rip (c r : Nat) (f : Reel → Reel) : (s.updReel c r f).rip = s.rip := rfl
@[simp] theorem State.updReel_gons (c r : Nat) (f : Reel → Reel) : (s.updReel c r f).gons = s.gons := rfl
@[simp] theorem State.updReel_gonCe (c r : Nat) (f : Reel → Reel) : (s.updReel c r f).gonCe = s.gonCe := rfl
@[simp] theorem State.updReel_merges (c r : Nat) (f : Reel → Reel) : (s.updReel c r f).merges = s.merges := rfl
@[simp] theorem State.updReel_stale (c r : Nat) (f : Reel → Reel) : (s.updReel c r f).stale = s.stale := rfl
@[simp] theorem State.updReel_pace (c r : Nat) (f : Reel → Reel) : (s.updReel c r f).pace = s.pace := rfl
@[simp] theorem State.updReel_nextSeg (c r : Nat) (f : Reel → Reel) : (s.updReel c r f).nextSeg = s.nextSeg := rfl
@[simp] theorem State.updReel_lastRead (c r : Nat) (f : Reel → Reel) : (s.updReel c r f).lastRead = s.lastRead := rfl
@[simp] theorem State.updReel_acc (c r : Nat) (f : Reel → Reel) : (s.updReel c r f).acc = s.acc := rfl

/-! ### `State.event` -/

@[simp] theorem State.event_pending (code source arg : Nat) : (s.event code source arg).pending = s.pending := rfl
@[simp] theorem State.event_keel (code source arg : Nat) : (s.event code source arg).keel = s.keel := rfl
@[simp] theorem State.event_cores (code source arg : Nat) : (s.event code source arg).cores = s.cores := rfl
@[simp] theorem State.event_stks (code source arg : Nat) : (s.event code source arg).stks = s.stks := rfl
@[simp] theorem State.event_teth (code source arg : Nat) : (s.event code source arg).teth = s.teth := rfl
@[simp] theorem State.event_env (code source arg : Nat) : (s.event code source arg).env = s.env := rfl
@[simp] theorem State.event_rig (code source arg : Nat) : (s.event code source arg).rig = s.rig := rfl
@[simp] theorem State.event_anc (code source arg : Nat) : (s.event code source arg).anc = s.anc := rfl
@[simp] theorem State.event_host (code source arg : Nat) : (s.event code source arg).host = s.host := rfl
@[simp] theorem State.event_rip (code source arg : Nat) : (s.event code source arg).rip = s.rip := rfl
@[simp] theorem State.event_gons (code source arg : Nat) : (s.event code source arg).gons = s.gons := rfl
@[simp] theorem State.event_gonCe (code source arg : Nat) : (s.event code source arg).gonCe = s.gonCe := rfl
@[simp] theorem State.event_merges (code source arg : Nat) : (s.event code source arg).merges = s.merges := rfl
@[simp] theorem State.event_stale (code source arg : Nat) : (s.event code source arg).stale = s.stale := rfl
@[simp] theorem State.event_pace (code source arg : Nat) : (s.event code source arg).pace = s.pace := rfl
@[simp] theorem State.event_nextSeg (code source arg : Nat) : (s.event code source arg).nextSeg = s.nextSeg := rfl
@[simp] theorem State.event_lastRead (code source arg : Nat) : (s.event code source arg).lastRead = s.lastRead := rfl
@[simp] theorem State.event_acc (code source arg : Nat) : (s.event code source arg).acc = s.acc := rfl

/-! ### `State.goto` -/

@[simp] theorem State.goto_pending (c : Nat) (x : Stream) (pc : Nat) : (s.goto c x pc).pending = s.pending := rfl
@[simp] theorem State.goto_keel (c : Nat) (x : Stream) (pc : Nat) : (s.goto c x pc).keel = s.keel := rfl
@[simp] theorem State.goto_stks (c : Nat) (x : Stream) (pc : Nat) : (s.goto c x pc).stks = s.stks := rfl
@[simp] theorem State.goto_knot (c : Nat) (x : Stream) (pc : Nat) : (s.goto c x pc).knot = s.knot := rfl
@[simp] theorem State.goto_teth (c : Nat) (x : Stream) (pc : Nat) : (s.goto c x pc).teth = s.teth := rfl
@[simp] theorem State.goto_env (c : Nat) (x : Stream) (pc : Nat) : (s.goto c x pc).env = s.env := rfl
@[simp] theorem State.goto_rig (c : Nat) (x : Stream) (pc : Nat) : (s.goto c x pc).rig = s.rig := rfl
@[simp] theorem State.goto_anc (c : Nat) (x : Stream) (pc : Nat) : (s.goto c x pc).anc = s.anc := rfl
@[simp] theorem State.goto_host (c : Nat) (x : Stream) (pc : Nat) : (s.goto c x pc).host = s.host := rfl
@[simp] theorem State.goto_rip (c : Nat) (x : Stream) (pc : Nat) : (s.goto c x pc).rip = s.rip := rfl
@[simp] theorem State.goto_gons (c : Nat) (x : Stream) (pc : Nat) : (s.goto c x pc).gons = s.gons := rfl
@[simp] theorem State.goto_gonCe (c : Nat) (x : Stream) (pc : Nat) : (s.goto c x pc).gonCe = s.gonCe := rfl
@[simp] theorem State.goto_merges (c : Nat) (x : Stream) (pc : Nat) : (s.goto c x pc).merges = s.merges := rfl
@[simp] theorem State.goto_stale (c : Nat) (x : Stream) (pc : Nat) : (s.goto c x pc).stale = s.stale := rfl
@[simp] theorem State.goto_pace (c : Nat) (x : Stream) (pc : Nat) : (s.goto c x pc).pace = s.pace := rfl
@[simp] theorem State.goto_nextSeg (c : Nat) (x : Stream) (pc : Nat) : (s.goto c x pc).nextSeg = s.nextSeg := rfl
@[simp] theorem State.goto_lastRead (c : Nat) (x : Stream) (pc : Nat) : (s.goto c x pc).lastRead = s.lastRead := rfl
@[simp] theorem State.goto_acc (c : Nat) (x : Stream) (pc : Nat) : (s.goto c x pc).acc = s.acc := rfl

/-! ### `State.retire` -/

@[simp] theorem State.retire_pending (c : Nat) (x : Stream) : (s.retire c x).pending = s.pending := rfl
@[simp] theorem State.retire_keel (c : Nat) (x : Stream) : (s.retire c x).keel = s.keel := rfl
@[simp] theorem State.retire_stks (c : Nat) (x : Stream) : (s.retire c x).stks = s.stks := rfl
@[simp] theorem State.retire_knot (c : Nat) (x : Stream) : (s.retire c x).knot = s.knot := rfl
@[simp] theorem State.retire_teth (c : Nat) (x : Stream) : (s.retire c x).teth = s.teth := rfl
@[simp] theorem State.retire_env (c : Nat) (x : Stream) : (s.retire c x).env = s.env := rfl
@[simp] theorem State.retire_rig (c : Nat) (x : Stream) : (s.retire c x).rig = s.rig := rfl
@[simp] theorem State.retire_anc (c : Nat) (x : Stream) : (s.retire c x).anc = s.anc := rfl
@[simp] theorem State.retire_host (c : Nat) (x : Stream) : (s.retire c x).host = s.host := rfl
@[simp] theorem State.retire_rip (c : Nat) (x : Stream) : (s.retire c x).rip = s.rip := rfl
@[simp] theorem State.retire_gons (c : Nat) (x : Stream) : (s.retire c x).gons = s.gons := rfl
@[simp] theorem State.retire_gonCe (c : Nat) (x : Stream) : (s.retire c x).gonCe = s.gonCe := rfl
@[simp] theorem State.retire_merges (c : Nat) (x : Stream) : (s.retire c x).merges = s.merges := rfl
@[simp] theorem State.retire_stale (c : Nat) (x : Stream) : (s.retire c x).stale = s.stale := rfl
@[simp] theorem State.retire_pace (c : Nat) (x : Stream) : (s.retire c x).pace = s.pace := rfl
@[simp] theorem State.retire_nextSeg (c : Nat) (x : Stream) : (s.retire c x).nextSeg = s.nextSeg := rfl
@[simp] theorem State.retire_lastRead (c : Nat) (x : Stream) : (s.retire c x).lastRead = s.lastRead := rfl
@[simp] theorem State.retire_acc (c : Nat) (x : Stream) : (s.retire c x).acc = s.acc := rfl

/-! ### `State.retS` -/

@[simp] theorem State.retS_pending (c : Nat) (x : Stream) (r : Nat) (v : W64) : (s.retS c x r v).pending = s.pending := rfl
@[simp] theorem State.retS_keel (c : Nat) (x : Stream) (r : Nat) (v : W64) : (s.retS c x r v).keel = s.keel := rfl
@[simp] theorem State.retS_stks (c : Nat) (x : Stream) (r : Nat) (v : W64) : (s.retS c x r v).stks = s.stks := rfl
@[simp] theorem State.retS_knot (c : Nat) (x : Stream) (r : Nat) (v : W64) : (s.retS c x r v).knot = s.knot := rfl
@[simp] theorem State.retS_teth (c : Nat) (x : Stream) (r : Nat) (v : W64) : (s.retS c x r v).teth = s.teth := rfl
@[simp] theorem State.retS_env (c : Nat) (x : Stream) (r : Nat) (v : W64) : (s.retS c x r v).env = s.env := rfl
@[simp] theorem State.retS_rig (c : Nat) (x : Stream) (r : Nat) (v : W64) : (s.retS c x r v).rig = s.rig := rfl
@[simp] theorem State.retS_anc (c : Nat) (x : Stream) (r : Nat) (v : W64) : (s.retS c x r v).anc = s.anc := rfl
@[simp] theorem State.retS_host (c : Nat) (x : Stream) (r : Nat) (v : W64) : (s.retS c x r v).host = s.host := rfl
@[simp] theorem State.retS_rip (c : Nat) (x : Stream) (r : Nat) (v : W64) : (s.retS c x r v).rip = s.rip := rfl
@[simp] theorem State.retS_gons (c : Nat) (x : Stream) (r : Nat) (v : W64) : (s.retS c x r v).gons = s.gons := rfl
@[simp] theorem State.retS_gonCe (c : Nat) (x : Stream) (r : Nat) (v : W64) : (s.retS c x r v).gonCe = s.gonCe := rfl
@[simp] theorem State.retS_merges (c : Nat) (x : Stream) (r : Nat) (v : W64) : (s.retS c x r v).merges = s.merges := rfl
@[simp] theorem State.retS_stale (c : Nat) (x : Stream) (r : Nat) (v : W64) : (s.retS c x r v).stale = s.stale := rfl
@[simp] theorem State.retS_pace (c : Nat) (x : Stream) (r : Nat) (v : W64) : (s.retS c x r v).pace = s.pace := rfl
@[simp] theorem State.retS_nextSeg (c : Nat) (x : Stream) (r : Nat) (v : W64) : (s.retS c x r v).nextSeg = s.nextSeg := rfl
@[simp] theorem State.retS_lastRead (c : Nat) (x : Stream) (r : Nat) (v : W64) : (s.retS c x r v).lastRead = s.lastRead := rfl
@[simp] theorem State.retS_acc (c : Nat) (x : Stream) (r : Nat) (v : W64) : (s.retS c x r v).acc = s.acc := rfl

/-! ### `State.waitFor` -/

@[simp] theorem State.waitFor_pending (c : Nat) (x : Stream) (k : WaitKind) : (s.waitFor c x k).pending = s.pending := rfl
@[simp] theorem State.waitFor_keel (c : Nat) (x : Stream) (k : WaitKind) : (s.waitFor c x k).keel = s.keel := rfl
@[simp] theorem State.waitFor_stks (c : Nat) (x : Stream) (k : WaitKind) : (s.waitFor c x k).stks = s.stks := rfl
@[simp] theorem State.waitFor_knot (c : Nat) (x : Stream) (k : WaitKind) : (s.waitFor c x k).knot = s.knot := rfl
@[simp] theorem State.waitFor_teth (c : Nat) (x : Stream) (k : WaitKind) : (s.waitFor c x k).teth = s.teth := rfl
@[simp] theorem State.waitFor_env (c : Nat) (x : Stream) (k : WaitKind) : (s.waitFor c x k).env = s.env := rfl
@[simp] theorem State.waitFor_rig (c : Nat) (x : Stream) (k : WaitKind) : (s.waitFor c x k).rig = s.rig := rfl
@[simp] theorem State.waitFor_anc (c : Nat) (x : Stream) (k : WaitKind) : (s.waitFor c x k).anc = s.anc := rfl
@[simp] theorem State.waitFor_host (c : Nat) (x : Stream) (k : WaitKind) : (s.waitFor c x k).host = s.host := rfl
@[simp] theorem State.waitFor_rip (c : Nat) (x : Stream) (k : WaitKind) : (s.waitFor c x k).rip = s.rip := rfl
@[simp] theorem State.waitFor_gons (c : Nat) (x : Stream) (k : WaitKind) : (s.waitFor c x k).gons = s.gons := rfl
@[simp] theorem State.waitFor_gonCe (c : Nat) (x : Stream) (k : WaitKind) : (s.waitFor c x k).gonCe = s.gonCe := rfl
@[simp] theorem State.waitFor_merges (c : Nat) (x : Stream) (k : WaitKind) : (s.waitFor c x k).merges = s.merges := rfl
@[simp] theorem State.waitFor_stale (c : Nat) (x : Stream) (k : WaitKind) : (s.waitFor c x k).stale = s.stale := rfl
@[simp] theorem State.waitFor_pace (c : Nat) (x : Stream) (k : WaitKind) : (s.waitFor c x k).pace = s.pace := rfl
@[simp] theorem State.waitFor_nextSeg (c : Nat) (x : Stream) (k : WaitKind) : (s.waitFor c x k).nextSeg = s.nextSeg := rfl
@[simp] theorem State.waitFor_lastRead (c : Nat) (x : Stream) (k : WaitKind) : (s.waitFor c x k).lastRead = s.lastRead := rfl
@[simp] theorem State.waitFor_acc (c : Nat) (x : Stream) (k : WaitKind) : (s.waitFor c x k).acc = s.acc := rfl

/-! ### `State.report` and `State.latch` -/

@[simp] theorem State.report_pending (code : Nat) : (s.report code).pending = s.pending := rfl
@[simp] theorem State.report_keel (code : Nat) : (s.report code).keel = s.keel := rfl
@[simp] theorem State.report_cores (code : Nat) : (s.report code).cores = s.cores := rfl
@[simp] theorem State.report_stks (code : Nat) : (s.report code).stks = s.stks := rfl
@[simp] theorem State.report_teth (code : Nat) : (s.report code).teth = s.teth := rfl
@[simp] theorem State.report_env (code : Nat) : (s.report code).env = s.env := rfl
@[simp] theorem State.report_rig (code : Nat) : (s.report code).rig = s.rig := rfl
@[simp] theorem State.report_anc (code : Nat) : (s.report code).anc = s.anc := rfl
@[simp] theorem State.report_host (code : Nat) : (s.report code).host = s.host := rfl
@[simp] theorem State.report_gons (code : Nat) : (s.report code).gons = s.gons := rfl
@[simp] theorem State.report_gonCe (code : Nat) : (s.report code).gonCe = s.gonCe := rfl
@[simp] theorem State.report_merges (code : Nat) : (s.report code).merges = s.merges := rfl
@[simp] theorem State.report_stale (code : Nat) : (s.report code).stale = s.stale := rfl
@[simp] theorem State.report_pace (code : Nat) : (s.report code).pace = s.pace := rfl
@[simp] theorem State.report_nextSeg (code : Nat) : (s.report code).nextSeg = s.nextSeg := rfl
@[simp] theorem State.report_lastRead (code : Nat) : (s.report code).lastRead = s.lastRead := rfl
@[simp] theorem State.report_acc (code : Nat) : (s.report code).acc = s.acc := rfl
@[simp] theorem State.latch_pending (pkg : Bool) (code : Nat) : (s.latch pkg code).pending = s.pending := rfl
@[simp] theorem State.latch_keel (pkg : Bool) (code : Nat) : (s.latch pkg code).keel = s.keel := rfl
@[simp] theorem State.latch_cores (pkg : Bool) (code : Nat) : (s.latch pkg code).cores = s.cores := rfl
@[simp] theorem State.latch_stks (pkg : Bool) (code : Nat) : (s.latch pkg code).stks = s.stks := rfl
@[simp] theorem State.latch_knot (pkg : Bool) (code : Nat) : (s.latch pkg code).knot = s.knot := rfl
@[simp] theorem State.latch_teth (pkg : Bool) (code : Nat) : (s.latch pkg code).teth = s.teth := rfl
@[simp] theorem State.latch_env (pkg : Bool) (code : Nat) : (s.latch pkg code).env = s.env := rfl
@[simp] theorem State.latch_rig (pkg : Bool) (code : Nat) : (s.latch pkg code).rig = s.rig := rfl
@[simp] theorem State.latch_anc (pkg : Bool) (code : Nat) : (s.latch pkg code).anc = s.anc := rfl
@[simp] theorem State.latch_host (pkg : Bool) (code : Nat) : (s.latch pkg code).host = s.host := rfl
@[simp] theorem State.latch_gons (pkg : Bool) (code : Nat) : (s.latch pkg code).gons = s.gons := rfl
@[simp] theorem State.latch_gonCe (pkg : Bool) (code : Nat) : (s.latch pkg code).gonCe = s.gonCe := rfl
@[simp] theorem State.latch_merges (pkg : Bool) (code : Nat) : (s.latch pkg code).merges = s.merges := rfl
@[simp] theorem State.latch_stale (pkg : Bool) (code : Nat) : (s.latch pkg code).stale = s.stale := rfl
@[simp] theorem State.latch_pace (pkg : Bool) (code : Nat) : (s.latch pkg code).pace = s.pace := rfl
@[simp] theorem State.latch_nextSeg (pkg : Bool) (code : Nat) : (s.latch pkg code).nextSeg = s.nextSeg := rfl
@[simp] theorem State.latch_lastRead (pkg : Bool) (code : Nat) : (s.latch pkg code).lastRead = s.lastRead := rfl
@[simp] theorem State.latch_acc (pkg : Bool) (code : Nat) : (s.latch pkg code).acc = s.acc := rfl

/-! ### Accessors after updates -/

@[simp] theorem State.core_setCore (c : Nat) (k : Core) : (s.setCore c k).core c = k := by simp [State.core, State.setCore]
@[simp] theorem State.core_setCore_other (c : Nat) (k : Core) {j : Nat} (h : j ≠ c) : (s.setCore c k).core j = s.core j := by
  simp [State.core, State.setCore, h]
@[simp] theorem State.core_updCore (c : Nat) (f : Core → Core) : (s.updCore c f).core c = f (s.core c) := by
  simp [State.updCore]
@[simp] theorem State.core_updCore_other (c : Nat) (f : Core → Core) {j : Nat} (h : j ≠ c) :
    (s.updCore c f).core j = s.core j := by
  simp [State.updCore, h]
@[simp] theorem State.setCore_setCore (c : Nat) (k q : Core) : (s.setCore c k).setCore c q = s.setCore c q := by
  simp [State.setCore]
@[simp] theorem State.stk_setStk (i : Nat) (t : Stack) : (s.setStk i t).stk i = t := by simp [State.stk, State.setStk]
@[simp] theorem State.stk_setStk_other (i : Nat) (t : Stack) {j : Nat} (h : j ≠ i) : (s.setStk i t).stk j = s.stk j := by
  simp [State.stk, State.setStk, h]
@[simp] theorem State.stk_updStk (i : Nat) (f : Stack → Stack) : (s.updStk i f).stk i = f (s.stk i) := by
  simp [State.updStk]
@[simp] theorem State.stk_updStk_other (i : Nat) (f : Stack → Stack) {j : Nat} (h : j ≠ i) :
    (s.updStk i f).stk j = s.stk j := by
  simp [State.updStk, h]
@[simp] theorem State.port_updPort (p : Nat) (f : Port → Port) : (s.updPort p f).port p = f (s.port p) := by
  simp [State.port, State.updPort]
@[simp] theorem State.port_updPort_other (p : Nat) (f : Port → Port) {q : Nat} (h : q ≠ p) :
    (s.updPort p f).port q = s.port q := by
  simp [State.port, State.updPort, h]
@[simp] theorem State.kn_setKn (k : Nat) (e : Knot) : (s.setKn k e).kn k = e := by simp [State.kn, State.setKn]
@[simp] theorem State.kn_setKn_other (k : Nat) (e : Knot) {j : Nat} (h : j ≠ k) : (s.setKn k e).kn j = s.kn j := by
  simp [State.kn, State.setKn, h]
@[simp] theorem State.pair_updPair (g : Nat) (f : KPair → KPair) : (s.updPair g f).pair g = f (s.pair g) := by
  simp [State.pair, State.updPair]
@[simp] theorem State.peer_setPeer (d : Nat) (e : Peer) : (s.setPeer d e).peer d = e := by
  simp [State.peer, State.setPeer]
@[simp] theorem State.peer_setPeer_other (d : Nat) (e : Peer) {j : Nat} (h : j ≠ d) : (s.setPeer d e).peer j = s.peer j := by
  simp [State.peer, State.setPeer, h]
@[simp] theorem State.gon_updGon (g : Nat) (f : Gon → Gon) : (s.updGon g f).gon g = f (s.gon g) := by
  simp [State.gon, State.updGon]
@[simp] theorem State.sess_updSess (n : Nat) (f : Session → Session) : (s.updSess n f).sess n = f (s.sess n) := by
  simp [State.sess, State.updSess]
@[simp] theorem State.sess_updSess_other (n : Nat) (f : Session → Session) {j : Nat} (h : j ≠ n) :
    (s.updSess n f).sess j = s.sess j := by
  simp [State.sess, State.updSess, h]
@[simp] theorem Core.st_setSt (k : Core) (x : Stream) (t : StreamSt) : (k.setSt x t).st x = t := by cases x <;> rfl
@[simp] theorem Core.st_setSt_other (k : Core) (x : Stream) (t : StreamSt) : (k.setSt x t).st (sOther x) = k.st (sOther x) := by
  cases x <;> rfl
@[simp] theorem Core.setSt_setSt (k : Core) (x : Stream) (t u : StreamSt) : (k.setSt x t).setSt x u = k.setSt x u := by
  cases x <;> rfl
@[simp] theorem Core.st_issued (k : Core) (x : Stream) : k.issued.st x = k.st x := by cases x <;> rfl

/-- Everything an instruction's end does: one stream and its core's counts. -/
theorem State.goto_eq (c : Nat) (x : Stream) (pc : Nat) :
    s.goto c x pc = s.setCore c (((s.core c).setSt x (((s.core c).st x).ended pc)).issued) := rfl

/-- Everything that a scalar result's writing and the instruction's end do. -/
theorem State.retS_eq (c : Nat) (x : Stream) (r : Nat) (v : W64) :
    s.retS c x r v = s.setCore c (((s.core c).setSt x ((((s.core c).st x).setS r v).ended (((s.core c).st x).pc + 8))).issued) := by
  have h : (((s.core c).st x).setS r v).pc = ((s.core c).st x).pc := by unfold StreamSt.setS; split <;> rfl
  simp [State.retS, State.retire, State.goto, State.updSt, State.updCore, h, StreamSt.ended]

end Sys2Proof.Machine
end

