-- ==== Sys2Proof/Laws/Access.lean ====
section
/-! SUPPORT. What an access to device memory can do: the command that makes it is done when every access is served at once,
and otherwise leaves only what its stopped access leaves. -/

namespace Sys2Proof.Machine

open Sys2Proof

variable (s : State)

/-- A command whose accesses are all served at once has its effect, and nothing of the access is left. -/
theorem State.access_served (src : ReqSrc) (core : Option Nat) (f : State → State) (h : s.served src core f = true) :
    s.access src core f = { f { s with acc := { src, core } } with acc := s.acc } := by
  unfold State.served at h; simp [State.access, Option.isNone_iff_eq_none.mp h]

/-- A command with an access that stops has no effect but what its stopped access leaves. -/
theorem State.access_stopped (src : ReqSrc) (core : Option Nat) (f : State → State) (w : Stop)
    (h : (f { s with acc := { src, core } }).acc.stop = some w) : s.access src core f = s.stopped src w := by
  simp [State.access, h]

/-- A request that can be served wakes its stack and uses its row. -/
theorem State.ask_served (st blk : Nat) (write : Bool) (h : s.acc.stop = none) (hs : s.askStop st blk write = none) :
    s.ask st blk write = (s.wakeStk st).updStk st (fun t => t.served blk) := by simp [State.ask, h, hs]

/-- Once an access has stopped, no later one of its command is made. -/
theorem State.ask_of_stop (st blk : Nat) (write : Bool) (w : Stop) (h : s.acc.stop = some w) : s.ask st blk write = s := by
  simp [State.ask, h]

/-- A place in a stack names one of the 16 stacks. -/
theorem State.locate_stack {s : State} {a st l : Nat} (h : s.locate a = .stack st l) : st < 16 := by
  have hm (r : Region) (o : Nat) : (r.map o).1 < 16 := by
    simp only [Region.map, List.getD_eq_getElem?_getD]
    generalize (if (setBits 16 r.set).length.log2 = 0 then 0 else foldXor (setBits 16 r.set).length.log2 44 ((o - r.base) >>> r.gran)) = k
    rcases h : (setBits 16 r.set)[k]? with _ | v
    · decide
    · exact List.mem_range.mp (List.mem_of_mem_filter (List.mem_of_getElem? h))
  unfold State.locate at h
  dsimp only at h
  repeat' split at h
  all_goals first
    | (injection h with h _; exact h ▸ hm _ _)
    | cases h

/-- A stack in FAULT answers a request at once, and does not change. -/
theorem State.ask_fault (st blk : Nat) (write : Bool) (hf : (s.stk st).state = .fault) :
    (∀ i, ((s.ask st blk write).stk i) = s.stk i) ∧ (s.ask st blk write).acc = s.acc := by
  unfold State.ask
  split
  · exact ⟨fun _ => rfl, rfl⟩
  · have h : s.askStop st blk write = none := by simp [State.askStop, hf]
    simp only [h, State.wakeStk, hf]
    refine ⟨fun i => ?_, rfl⟩
    by_cases hi : i = st
    · subst hi; simp [Stack.served, hf]
    · simp [hi]

/-- An access a is at hand, every stack is in FAULT and no core holds a guard: whatever is read or written, nothing stops it. -/
def State.Still (s : State) (a : AccSt) : Prop :=
  s.acc = a ∧ (∀ i < 16, (s.stk i).state = .fault) ∧ ∀ c, (s.core c).guards = []

variable {s} {a : AccSt}

theorem State.Still.updCore (h : s.Still a) (c : Nat) (f : Core → Core) (hf : ∀ k, (f k).guards = k.guards) :
    (s.updCore c f).Still a := by
  refine ⟨h.1, h.2.1, fun j => ?_⟩
  by_cases hj : j = c
  · subst hj; simp [hf, h.2.2]
  · simp [hj, h.2.2]

theorem State.Still.ask (h : s.Still a) (st blk : Nat) (write : Bool) (hst : st < 16) :
    (s.ask st blk write).Still a ∧ ((s.ask st blk write).stk st).state = .fault := by
  have q := s.ask_fault st blk write (h.2.1 st hst)
  have hc : ∀ c, (s.ask st blk write).core c = s.core c := fun c => by
    unfold State.ask
    split
    · rfl
    · split
      · rfl
      · unfold State.wakeStk
        split <;> rfl
  exact ⟨⟨q.2.trans h.1, fun i hi => (q.1 i).symm ▸ h.2.1 i hi, fun c => (hc c).symm ▸ h.2.2 c⟩, (q.1 st).symm ▸ h.2.1 st hst⟩

theorem State.Still.readPiece (h : s.Still a) (b n : Nat) {s' : State} {bs : List PByte} (hp : s.readPiece b n = some (s', bs)) :
    s'.Still a := by
  have hg (c : Nat) : s.guardRead c b n = s := by simp [State.guardRead, Core.readStalls, h.2.2]
  unfold State.readPiece at hp
  rcases hc : s.acc.core with _ | c
  all_goals
    simp only [hc, hg] at hp
    split at hp
    · rename_i st l hl
      have q := h.ask st (l / 256) false (State.locate_stack hl)
      simp only [State.readStk, q.2, beq_self_eq_true, Bool.or_true, if_true] at hp
      cases hp; exact q.1
    all_goals first
      | (cases hp; exact h)
      | cases hp

theorem State.Still.readPieces (fail : Byte) (l : List (Nat × Nat)) : ∀ {s : State}, s.Still a → (s.readPieces fail l).1.Still a := by
  induction l with
  | nil => exact fun h => h
  | cons p t ih =>
    intro s h
    rw [State.readPieces]
    split
    · rename_i s' bs hp; exact ih (h.readPiece _ _ hp)
    · exact ih h

theorem State.Still.readBytes (h : s.Still a) (b n : Nat) : (s.readBytes b n).1.Still a := h.readPieces 0 _

theorem State.Still.endWritten (h : s.Still a) (copy : Option (Nat × Nat)) (b n : Nat) : s.endWritten copy b n = s := by
  have go (l : List Nat) : s.endTouched copy b n l = s := by
    induction l with
    | nil => rfl
    | cons c t ih => simpa [State.endTouched, Core.guardsHit, h.2.2, State.endGuards] using ih
  exact go _

theorem State.Still.writePiece (h : s.Still a) (w : Acc) (b : Nat) (bs : List PByte) {s' : State}
    (hp : s.writePiece w b bs = some s') : s'.Still a := by
  unfold State.writePiece at hp
  simp only [h.endWritten] at hp
  split at hp
  · cases hp
  · split at hp
    · rename_i st l hl
      have q := h.ask st (l / 256) true (State.locate_stack hl)
      simp only [State.writeStk, q.2, beq_self_eq_true, Bool.or_true, if_true] at hp
      cases hp; exact q.1
    all_goals first
      | (cases hp; exact h.updCore _ _ (fun _ => rfl))
      | cases hp

theorem State.Still.writePieces (w : Acc) (l : List (Nat × Nat)) :
    ∀ {s : State} (bs : List PByte), s.Still a → (s.writePieces w l bs).1.Still a := by
  induction l with
  | nil => exact fun _ h => h
  | cons p t ih =>
    intro s bs h
    rw [State.writePieces]
    split
    · rename_i s' hp; exact ih _ (h.writePiece _ _ _ hp)
    · exact h

theorem State.Still.writeBytes (h : s.Still a) (w : Acc) (b : Nat) (bs : List Byte) : (s.writeBytes w b bs).1.Still a :=
  State.Still.writePieces w _ _ h

/-- What keeps an access still is served at once. -/
theorem State.served_of_still (src : ReqSrc) (core : Option Nat) (f : State → State) (hs : ∀ i < 16, (s.stk i).state = .fault)
    (hg : ∀ c, (s.core c).guards = [])
    (hf : ∀ u : State, u = { s with acc := { src, core } } → u.Still { src, core } → (f u).Still { src, core }) :
    s.served src core f = true := by
  unfold State.served
  rw [(hf _ rfl ⟨rfl, hs, hg⟩).1]
  rfl

end Sys2Proof.Machine
end

