-- ==== Sys2Proof/Laws/Gcm.lean ====
section
/-! SUPPORT. What is sealed by AES-256-GCM opens to what it was (R404, R405, R524). -/

namespace Sys2Proof.Machine

open Sys2Proof

/-! ### Lengths of the cipher's lists -/

theorem aesSched_length (n : Nat) : ∀ (i rcon : Nat) (l : List Nat), (aesSched n i rcon l).length = n + l.length := by
  induction n with
  | zero => intros; simp [aesSched]
  | succ n ih => intros; simp only [aesSched, ih, List.length_cons]; omega

theorem aesKey_length (key : List Byte) : (aesKey key).length = 60 := by simp [aesKey, aesSched_length]

theorem flatMap_aesBytes_length (l : List Nat) : (l.flatMap aesBytes).length = 4 * l.length := by
  induction l with
  | nil => rfl
  | cons _ t ih => simp only [List.flatMap_cons, List.length_append, ih, List.length_cons]; simp [aesBytes]; omega

theorem aesAdd_length (ws b : List Nat) (hw : 4 ≤ ws.length) (hb : b.length = 16) : (aesAdd ws b).length = 16 := by
  rw [aesAdd, List.length_map, List.length_zip, flatMap_aesBytes_length, List.length_take, hb]
  omega

theorem aesMix_length (n : Nat) : ∀ b : List Nat, b.length = 4 * n → (aesMix b).length = 4 * n := by
  induction n with
  | zero => intro b h; rw [List.length_eq_zero_iff.mp h]; rfl
  | succ n ih =>
    intro b h
    match b, h with
    | _ :: _ :: _ :: _ :: t, h =>
      simp only [List.length_cons] at h
      simp only [aesMix, List.length_cons, ih t (by omega)]
      omega

theorem aesRounds_length (n : Nat) : ∀ ws b : List Nat, 4 * (n + 1) ≤ ws.length → (aesRounds n ws b).length = 16 := by
  induction n with
  | zero => intro ws b h; exact aesAdd_length _ _ h (by simp [aesShift])
  | succ n ih => intro ws b h; rw [aesRounds]; exact ih _ _ (by simp; omega)

theorem gcmStream_length (key : List Byte) (iv : List Nat) (n : Nat) : ∀ i, (gcmStream (aesKey key) iv n i).length = 16 * n := by
  induction n with
  | zero => intro; rfl
  | succ n ih =>
    intro i
    rw [gcmStream, List.length_append, ih, aesEnc, aesRounds_length]
    · omega
    · simp [aesKey_length]

/-! ### Round trips -/

theorem zip_xor_twice (ks : List Nat) : ∀ bs : List Byte, bs.length ≤ ks.length →
    (((bs.zip ks).map (fun p => p.1 ^^^ BitVec.ofNat 8 p.2)).zip ks).map (fun p => p.1 ^^^ BitVec.ofNat 8 p.2) = bs := by
  induction ks with
  | nil => intro bs h; rw [List.length_eq_zero_iff.mp (Nat.le_zero.mp h)]; rfl
  | cons k t ih =>
    intro bs h
    match bs, h with
    | [], _ => rfl
    | b :: bs, h =>
      simp only [List.length_cons, Nat.add_le_add_iff_right] at h
      simp only [List.zip_cons_cons, List.map_cons, ih bs h, BitVec.xor_assoc, BitVec.xor_self, BitVec.xor_zero]

theorem gcmXor_length (key : List Byte) (iv : List Nat) (bs : List Byte) : (gcmXor (aesKey key) iv bs).length = bs.length := by
  simp only [gcmXor, List.length_map, List.length_zip, gcmStream_length]
  refine Nat.min_eq_left ?_
  unfold cdiv
  omega

theorem gcmXor_twice (key : List Byte) (iv : List Nat) (bs : List Byte) :
    gcmXor (aesKey key) iv (gcmXor (aesKey key) iv bs) = bs := by
  have h := gcmXor_length key iv bs
  conv => lhs; rw [gcmXor, h]
  refine zip_xor_twice _ bs ?_
  rw [gcmStream_length]
  unfold cdiv
  omega

/-- What is sealed opens again, with as much of its tag as is kept. -/
theorem gcmOpen_gcmSeal (key iv aad pt : List Byte) (n : Nat) :
    gcmOpen key iv aad (gcmSeal key iv aad pt).1 ((gcmSeal key iv aad pt).2.take n) = some pt := by
  simp only [gcmOpen, gcmSeal, gcmXor_twice]
  rw [if_pos]
  simp [List.length_take]

theorem gcmSeal_tag_length (key iv aad pt : List Byte) : (gcmSeal key iv aad pt).2.length = 16 := by
  have h (n : Nat) : ∀ v, (leBytes n v).length = n := by
    induction n with
    | zero => exact fun _ => rfl
    | succ n ih => exact fun v => congrArg (· + 1) (ih (v / 256))
  simp [gcmSeal, gcmTag, beBytes, h]

/-- A block sealed with a key opens with it, and keeps its AUTH. -/
theorem openBlock_sealBlock (key : List Byte) (b : Block) (he : b.enc = true) :
    openBlock key (sealBlock key b) = some { sealBlock key b with payload := b.payload } := by
  have h := gcmOpen_gcmSeal key (blkNonce b) (blkAad b) b.payload 12
  rw [openBlock, if_neg (by simp [sealBlock, he])]
  exact congrArg (Option.map (fun pt => { sealBlock key b with payload := pt })) h

end Sys2Proof.Machine
end

