-- ==== Sys2Proof/Laws/Issue.lean ====
section
/-! SUPPORT. Everything the common part of an instruction can do (R72, R74, R77, R86), and the laws of a stream's
registers. -/

namespace Sys2Proof.Machine

open Sys2Proof

/-! ### Registers (R69, R70) -/

@[simp] theorem StreamSt.getS_setS (t : StreamSt) (r q : Nat) (v : W64) :
    (t.setS r v).getS q = if q = 0 then 0 else if q = r then v else t.getS q := by
  unfold StreamSt.setS StreamSt.getS
  by_cases h0 : q = 0
  · simp [h0]
  · by_cases hr : r = 0
    · simp [h0, hr]
    · simp [h0, hr, sget_sset]

@[simp] theorem StreamSt.getA_setA (t : StreamSt) (r q : Nat) (v : W64) :
    (t.setA r v).getA q = if q = r then v else t.getA q := by
  simp [StreamSt.setA, StreamSt.getA, sget_sset]

@[simp] theorem StreamSt.getP_setP (t : StreamSt) (r q : Nat) (v : Bool) :
    (t.setP r v).getP q = if q = 0 then true else if q = r then v else t.getP q := by
  unfold StreamSt.setP StreamSt.getP
  by_cases h0 : q = 0
  · simp [h0]
  · by_cases hr : r = 0
    · simp [h0, hr]
    · simp [h0, hr, sget_sset]

@[simp] theorem StreamSt.pc_setS (t : StreamSt) (r : Nat) (v : W64) : (t.setS r v).pc = t.pc := by
  unfold StreamSt.setS
  split <;> rfl

@[simp] theorem StreamSt.pc_setP (t : StreamSt) (r : Nat) (v : Bool) : (t.setP r v).pc = t.pc := by
  unfold StreamSt.setP
  split <;> rfl

@[simp] theorem StreamSt.pc_await (t : StreamSt) (r n : Nat) : (t.await r n).pc = t.pc := by
  unfold StreamSt.await
  split <;> rfl

/-! ### Issue -/

variable (s : State) (c : Nat) (x : Stream) (w : InsnW)

/-- An instruction that acts, with its zero fields 0, does what its body does. -/
theorem State.issue_acts {ok : Bool} {srcs : List Nat} (body : State → State) (h : s.Acts c x w srcs) (hok : ok = true) :
    s.issue c x w ok srcs body = body s := by
  obtain ⟨h1, h2, h3, h4, h5, h6⟩ := h
  simp [State.issue, h1, Nat.not_le.mpr h2, h3, h4, h5, h6, hok]

/-- A stream that cannot issue does nothing. -/
theorem State.issue_not {ok : Bool} {srcs : List Nat} (body : State → State) (h1 : s.canIssue c x = false) :
    s.issue c x w ok srcs body = s := by
  simp [State.issue, h1]

/-- An instruction outside scratch raises FETCH_FAULT. -/
theorem State.issue_fetch {ok : Bool} {srcs : List Nat} (body : State → State) (h1 : s.canIssue c x = true)
    (h2 : 0x400000 ≤ ((s.core c).st x).pc) : s.issue c x w ok srcs body = s.raise c x 0x08 := by
  simp [State.issue, h1, h2]

/-- An instruction in the span of a stale guard is not read: the guard is copied again. -/
theorem State.issue_stalls {ok : Bool} {srcs : List Nat} (body : State → State) (h1 : s.canIssue c x = true)
    (h2 : ((s.core c).st x).pc < 0x400000) (h3 : (s.core c).readStalls (s.scrAddr c ((s.core c).st x).pc) 8 = true) :
    s.issue c x w ok srcs body = s.updCore c (fun k => k.stallRead (s.scrAddr c ((s.core c).st x).pc) 8) := by
  simp [State.issue, h1, Nat.not_le.mpr h2, h3]

/-- An instruction whose predicate is off goes on at PC + 8. -/
theorem State.issue_off {ok : Bool} {srcs : List Nat} (body : State → State) (h1 : s.canIssue c x = true)
    (h2 : ((s.core c).st x).pc < 0x400000) (h3 : (s.core c).readStalls (s.scrAddr c ((s.core c).st x).pc) 8 = false)
    (h4 : ((s.core c).st x).predOn w = false) : s.issue c x w ok srcs body = s.retire c x := by
  simp [State.issue, h1, Nat.not_le.mpr h2, h3, h4]

/-- A reserved opcode, or a nonzero bit that R75 or R76 requires to be 0, raises ILLEGAL_OP. -/
theorem State.issue_illegal {ok : Bool} {srcs : List Nat} (body : State → State) (h1 : s.canIssue c x = true)
    (h2 : ((s.core c).st x).pc < 0x400000) (h3 : (s.core c).readStalls (s.scrAddr c ((s.core c).st x).pc) 8 = false)
    (h4 : ((s.core c).st x).predOn w = true) (hok : (reservedOp w.op.toNat || !ok) = true) :
    s.issue c x w ok srcs body = s.raise c x 0x01 := by
  simp only [State.issue, h1, Nat.not_le.mpr h2, h3, h4, hok]
  simp

/-! ### How an instruction ends -/

/-- An instruction that ends changes its stream and its core's counts alone. -/
theorem State.goto_withStream (pc : Nat) : s.goto c x pc = s.withStream c x (((s.core c).st x).ended pc) := rfl

theorem State.retire_withStream : s.retire c x = s.withStream c x (((s.core c).st x).ended (((s.core c).st x).pc + 8)) := rfl

/-- A change of a stream before the end of its instruction. -/
theorem State.updSt_goto (f : StreamSt → StreamSt) (pc : Nat) :
    (s.updSt c x f).goto c x pc = s.withStream c x ((f ((s.core c).st x)).ended pc) := by
  simp [State.goto, State.updSt, State.updCore, State.withStream, Core.issued]

theorem State.updSt_retire (f : StreamSt → StreamSt) (h : (f ((s.core c).st x)).pc = ((s.core c).st x).pc) :
    (s.updSt c x f).retire c x = s.withStream c x ((f ((s.core c).st x)).ended (((s.core c).st x).pc + 8)) := by
  have hp : (((s.updSt c x f).core c).st x).pc = ((s.core c).st x).pc := by simp [State.updSt, h]
  rw [State.retire, hp, State.updSt_goto]

theorem State.retS_withStream (r : Nat) (v : W64) :
    s.retS c x r v = s.withStream c x ((((s.core c).st x).setS r v).ended (((s.core c).st x).pc + 8)) := by
  unfold State.retS
  exact s.updSt_retire c x _ (by simp)

theorem State.retP_withStream (r : Nat) (v : Bool) :
    s.retP c x r v = s.withStream c x ((((s.core c).st x).setP r v).ended (((s.core c).st x).pc + 8)) := by
  unfold State.retP
  exact s.updSt_retire c x _ (by simp)

theorem State.retA_withStream (r : Nat) (v : W64) :
    s.retA c x r v = s.withStream c x ((((s.core c).st x).setA r v).ended (((s.core c).st x).pc + 8)) := by
  unfold State.retA
  exact s.updSt_retire c x _ rfl

end Sys2Proof.Machine
end

