-- ==== Sys2Proof/Laws/Memory.lean ====
section
/-! SUPPORT. Every operation on device memory keeps the stores in their canonical form, and what a write changes. -/

namespace Sys2Proof.Machine

open Sys2Proof

variable {s : State}

/-! ### The canonical form -/

/-- A state whose stores are those of another is as canonical. -/
theorem State.memOk.congr {t : State} (h : s.memOk) (hs : ∀ st, (t.stk st).mem = (s.stk st).mem)
    (hc : ∀ c, (t.core c).scratch = (s.core c).scratch ∧ (t.core c).loft = (s.core c).loft ∧ (t.core c).spool = (s.core c).spool) :
    t.memOk :=
  ⟨fun st => by rw [hs]; exact h.1 st, fun c => by rw [(hc c).1, (hc c).2.1, (hc c).2.2]; exact h.2 c⟩

/-- A stack whose memory is canonical takes its place. -/
theorem State.memOk.setStk (h : s.memOk) (st : Nat) (t : Stack) (ht : t.mem.wf = true) : (s.setStk st t).memOk := by
  refine ⟨fun i => ?_, fun c => h.2 c⟩
  by_cases e : i = st
  · subst e; simpa using ht
  · rw [State.stk_setStk_other s st t e]; exact h.1 i

/-- A core whose stores are canonical takes its place. -/
theorem State.memOk.setCore (h : s.memOk) (c : Nat) (k : Core)
    (hk : k.scratch.wf = true ∧ k.loft.wf = true ∧ k.spool.wf = true) : (s.setCore c k).memOk := by
  refine ⟨fun i => h.1 i, fun j => ?_⟩
  by_cases e : j = c
  · subst e; simpa using hk
  · rw [State.core_setCore_other s c k e]; exact h.2 j

/-- An update of a core that leaves its stores alone. -/
theorem State.memOk.updCore (h : s.memOk) (c : Nat) (f : Core → Core)
    (hf : ∀ k : Core, (f k).scratch = k.scratch ∧ (f k).loft = k.loft ∧ (f k).spool = k.spool) : (s.updCore c f).memOk :=
  h.setCore c _ (by rw [(hf _).1, (hf _).2.1, (hf _).2.2]; exact h.2 c)

theorem State.memOk.event (h : s.memOk) (code source arg : Nat) : (s.event code source arg).memOk := h.congr (fun _ => rfl) (fun _ => ⟨rfl, rfl, rfl⟩)

theorem State.memOk.report (h : s.memOk) (code : Nat) : (s.report code).memOk := h.congr (fun _ => rfl) (fun _ => ⟨rfl, rfl, rfl⟩)

theorem State.memOk.wakeStk (h : s.memOk) (st : Nat) : (s.wakeStk st).memOk := by
  unfold State.wakeStk
  split
  · exact h.setStk st _ (h.1 st)
  · exact h

theorem State.memOk.updStk (h : s.memOk) (st : Nat) (f : Stack → Stack)
    (hf : ∀ t : Stack, t.mem.wf = true → (f t).mem.wf = true) : (s.updStk st f).memOk :=
  h.setStk st _ (hf _ (h.1 st))

theorem State.memOk.uncorr (h : s.memOk) (st cw kind : Nat) : (s.uncorr st cw kind).memOk := by
  unfold State.uncorr
  refine ((h.setStk st _ ?_).event _ _ _).report _
  dsimp only
  split <;> exact h.1 st

theorem State.memOk.corr (h : s.memOk) (st cw : Nat) : (s.corr st cw).memOk := by
  have hs : (s.setStk st { s.stk st with ce := true, eccCe := cnt (s.stk st).eccCe 1 }).memOk := h.setStk st _ (h.1 st)
  unfold State.corr
  dsimp only
  split
  · exact hs.event _ _ _
  · exact hs

/-- A request changes no store. -/
theorem State.memOk.ask (h : s.memOk) (st blk : Nat) (write : Bool) : (s.ask st blk write).memOk := by
  unfold State.ask
  split
  · exact h
  · split
    · exact h.congr (fun _ => rfl) (fun _ => ⟨rfl, rfl, rfl⟩)
    · refine (h.wakeStk st).updStk st _ (fun t ht => ?_)
      unfold Stack.served Stack.useRow
      repeat' split
      all_goals exact ht

theorem State.memOk.senseCw (h : s.memOk) (st cw kind : Nat) : (s.senseCw st cw kind).1.memOk := by
  unfold State.senseCw
  dsimp only
  split
  · exact h.uncorr _ _ _
  · exact (h.setStk st _ (mwrite_wf _ _ _ (h.1 st))).corr _ _
  · split
    · exact h
    · exact h.setStk st _ (mwrite_wf _ _ _ (h.1 st))

theorem State.memOk.writeCw (h : s.memOk) (st a : Nat) (bs : List PByte) : (s.writeCw st a bs).memOk := by
  have put (t : Stack) (ht : t.mem.wf = true) :
      (if bs.any (·.2) then t.poison (a / 64) else { t with mem := mwrite t.mem a (bs.map (·.1)) }).mem.wf = true := by
    split
    · exact ht
    · exact mwrite_wf _ _ _ ht
  unfold State.writeCw
  dsimp only
  split
  · exact h.updStk st _ (fun t ht => put _ ht)
  · split
    · exact (h.senseCw st _ 3).updStk st _ put
    · exact (h.senseCw st _ 3).updStk st _ (fun t ht => ht)

theorem State.memOk.readCws (st : Nat) (l : List (Nat × Nat)) : ∀ {s : State}, s.memOk → (s.readCws st l).1.memOk := by
  induction l with
  | nil => exact fun h => h
  | cons p t ih => exact fun h => ih (h.senseCw st _ 1)

theorem State.memOk.writeCws (st : Nat) (l : List (Nat × Nat)) :
    ∀ {s : State} (bs : List PByte), s.memOk → (s.writeCws st l bs).memOk := by
  induction l with
  | nil => exact fun _ h => h
  | cons p t ih => exact fun bs h => ih _ (h.writeCw st _ _)

theorem State.memOk.tellStale (l : List (Nat × Nat)) : ∀ {s : State}, s.memOk → (s.tellStale l).memOk := by
  induction l with
  | nil => exact fun h => h
  | cons p t ih =>
    intro s h
    refine ih ?_
    split
    · exact h
    · refine h.updCore _ _ (fun k => ?_)
      unfold Core.staleGuard Core.poke
      split <;> exact ⟨rfl, rfl, rfl⟩

theorem State.memOk.readStk (h : s.memOk) (st a n : Nat) : (s.readStk st a n).1.memOk := by
  unfold State.readStk
  dsimp only
  split
  · exact h.ask _ _ _
  · exact State.memOk.readCws st _ (h.ask _ _ _)

theorem State.memOk.writeStk (h : s.memOk) (st a : Nat) (bs : List PByte) : (s.writeStk st a bs).memOk := by
  unfold State.writeStk
  dsimp only
  split
  · exact h.ask _ _ _
  · exact State.memOk.writeCws st _ _ (State.memOk.tellStale _ ((h.ask _ _ _).updStk st _ (fun _ ht => ht)))

/-- The memories of the stacks do not depend on their watch ranges. -/
theorem State.mem_dropRanges (s : State) (c g st : Nat) : ((s.dropRanges c g).stk st).mem = (s.stk st).mem := by
  simp only [State.dropRanges, State.stk]
  induction s.stks with
  | nil => rfl
  | cons p t ih =>
    obtain ⟨k, v⟩ := p
    simp only [List.map_cons, sget]
    split
    · rfl
    · exact ih

theorem State.memOk.endGuard (h : s.memOk) (c g : Nat) : (s.endGuard c g).memOk := by
  unfold State.endGuard
  split
  · exact h
  · have hu := h.updCore c (fun k => { k with guards := k.guards.filter (fun p => p.1 ≠ g) }) (fun _ => ⟨rfl, rfl, rfl⟩)
    exact hu.congr (fun st => State.mem_dropRanges _ c _ st) (fun _ => ⟨rfl, rfl, rfl⟩)

theorem State.memOk.endGuards (c : Nat) (gs : List Nat) : ∀ {s : State}, s.memOk → (s.endGuards c gs).memOk := by
  induction gs with
  | nil => exact fun h => h
  | cons g t ih => exact fun h => ih (h.endGuard c g)

theorem State.memOk.endTouched (copy : Option (Nat × Nat)) (a n : Nat) (l : List Nat) :
    ∀ {s : State}, s.memOk → (s.endTouched copy a n l).memOk := by
  induction l with
  | nil => exact fun h => h
  | cons c t ih => exact fun h => ih (State.memOk.endGuards c _ h)

theorem State.memOk.endWritten (h : s.memOk) (copy : Option (Nat × Nat)) (a n : Nat) : (s.endWritten copy a n).memOk :=
  State.memOk.endTouched copy a n _ h

theorem State.memOk.guardRead (h : s.memOk) (c a n : Nat) : (s.guardRead c a n).memOk := by
  unfold State.guardRead
  split
  · exact h.congr (fun _ => rfl) (fun _ => ⟨rfl, rfl, rfl⟩)
  · exact h

/-- An access leaves the stores canonical when its command does. -/
theorem State.memOk.access (h : s.memOk) (src : ReqSrc) (core : Option Nat) (f : State → State)
    (hf : ∀ t : State, t.memOk → (f t).memOk) : (s.access src core f).memOk := by
  have ht := hf { s with acc := { src, core } } (h.congr (fun _ => rfl) (fun _ => ⟨rfl, rfl, rfl⟩))
  unfold State.access
  dsimp only
  split
  · exact ht.congr (fun _ => rfl) (fun _ => ⟨rfl, rfl, rfl⟩)
  · unfold State.stopped
    split
    · exact h
    · exact h.updStk _ _ (fun _ hm => hm)
    · exact h.updCore _ _ (fun _ => ⟨rfl, rfl, rfl⟩)

theorem State.memOk.readPiece (h : s.memOk) (a n : Nat) {t : State} {bs : List PByte} (e : s.readPiece a n = some (t, bs)) :
    t.memOk := by
  have hg : (match s.acc.core with
      | some c => s.guardRead c a n
      | none => s).memOk := by
    split
    · exact h.guardRead _ _ _
    · exact h
  unfold State.readPiece at e
  dsimp only at e
  split at e
  · next st l _ =>
    have e := congrArg Prod.fst (Option.some.inj e)
    dsimp only at e
    rw [← e]
    exact hg.readStk st l n
  all_goals cases e
  all_goals exact hg

theorem State.memOk.writePiece (h : s.memOk) (w : Acc) (a : Nat) (bs : List PByte) {t : State}
    (e : s.writePiece w a bs = some t) : t.memOk := by
  unfold State.writePiece at e
  dsimp only at e
  split at e
  · cases e
  · have hw := h.endWritten w.copy a bs.length
    have put (c : Nat) (f : Core → Core)
        (hf : ∀ k : Core, k.scratch.wf = true ∧ k.loft.wf = true ∧ k.spool.wf = true →
          (f k).scratch.wf = true ∧ (f k).loft.wf = true ∧ (f k).spool.wf = true) :
        ((s.endWritten w.copy a bs.length).updCore c f).memOk := hw.setCore c _ (hf _ (hw.2 c))
    split at e
    · injection e with e; subst e; exact hw.writeStk _ _ _
    · injection e with e; subst e; exact put _ _ (fun k hk => ⟨mwrite_wf _ _ _ hk.1, hk.2⟩)
    · injection e with e; subst e; exact put _ _ (fun k hk => ⟨hk.1, mwrite_wf _ _ _ hk.2.1, hk.2.2⟩)
    · injection e with e; subst e; exact put _ _ (fun k hk => ⟨hk.1, hk.2.1, mwrite_wf _ _ _ hk.2.2⟩)
    · cases e

theorem State.memOk.readPieces (fail : Byte) (l : List (Nat × Nat)) :
    ∀ {s : State}, s.memOk → (s.readPieces fail l).1.memOk := by
  induction l with
  | nil => exact fun h => h
  | cons p t ih =>
    intro s h
    obtain ⟨a, n⟩ := p
    rw [State.readPieces]
    split
    · next s' bs e => exact ih (h.readPiece a n e)
    · exact ih h

theorem State.memOk.writePieces (w : Acc) (l : List (Nat × Nat)) :
    ∀ {s : State} (bs : List PByte), s.memOk → (s.writePieces w l bs).1.memOk := by
  induction l with
  | nil => exact fun _ h => h
  | cons p t ih =>
    intro s bs h
    obtain ⟨a, n⟩ := p
    rw [State.writePieces]
    split
    · next s' e => exact ih _ (h.writePiece w a _ e)
    · exact h

theorem State.memOk.readMem (h : s.memOk) (a n : Nat) : (s.readMem a n).1.memOk := State.memOk.readPieces 0 _ h
theorem State.memOk.readBytes (h : s.memOk) (a n : Nat) : (s.readBytes a n).1.memOk := h.readMem a n
theorem State.memOk.writeMem (h : s.memOk) (w : Acc) (a : Nat) (bs : List PByte) : (s.writeMem w a bs).1.memOk :=
  State.memOk.writePieces w _ bs h
theorem State.memOk.writeBytes (h : s.memOk) (w : Acc) (a : Nat) (bs : List Byte) : (s.writeBytes w a bs).1.memOk :=
  h.writeMem w a _
theorem State.memOk.scrWrite (h : s.memOk) (c o : Nat) (bs : List Byte) : (s.scrWrite c o bs).memOk := by
  have hg := h.endWritten none (s.scrAddr c o) bs.length
  exact hg.setCore c _ ⟨mwrite_wf _ _ _ (hg.2 c).1, (hg.2 c).2⟩

/-- The memories of the device after reset list nothing. -/
theorem State.memOk_reset : State.reset.memOk := ⟨fun _ => rfl, fun _ => ⟨rfl, rfl, rfl⟩⟩

/-! ### What a write leaves alone -/

/-- The end of a guard leaves every core's stores alone. -/
theorem State.core_endGuard_stores (s : State) (c j g : Nat) : ((s.endGuard c g).core j).scratch = (s.core j).scratch
    ∧ ((s.endGuard c g).core j).loft = (s.core j).loft ∧ ((s.endGuard c g).core j).spool = (s.core j).spool := by
  unfold State.endGuard
  split
  · exact ⟨rfl, rfl, rfl⟩
  · next q _ =>
    have e : ∀ u, ((s.updCore c (fun k => { k with guards := k.guards.filter (fun p => p.1 ≠ g) })).dropRanges c u).core j
        = (s.updCore c (fun k => { k with guards := k.guards.filter (fun p => p.1 ≠ g) })).core j := fun _ => rfl
    rw [e]
    by_cases h : j = c
    · subst h; simp
    · simp [h]

theorem State.core_endGuards_stores (c j : Nat) (gs : List Nat) :
    ∀ s : State, ((s.endGuards c gs).core j).scratch = (s.core j).scratch ∧ ((s.endGuards c gs).core j).loft = (s.core j).loft
      ∧ ((s.endGuards c gs).core j).spool = (s.core j).spool := by
  induction gs with
  | nil => exact fun s => ⟨rfl, rfl, rfl⟩
  | cons g t ih =>
    intro s
    have step := s.core_endGuard_stores c j g
    rw [State.endGuards]
    exact ⟨(ih _).1.trans step.1, (ih _).2.1.trans step.2.1, (ih _).2.2.trans step.2.2⟩

/-- The end of the guards that a write touches leaves every core's stores alone. -/
theorem State.core_endTouched_stores (copy : Option (Nat × Nat)) (a n j : Nat) (l : List Nat) :
    ∀ s : State, ((s.endTouched copy a n l).core j).scratch = (s.core j).scratch
      ∧ ((s.endTouched copy a n l).core j).loft = (s.core j).loft ∧ ((s.endTouched copy a n l).core j).spool = (s.core j).spool := by
  induction l with
  | nil => exact fun s => ⟨rfl, rfl, rfl⟩
  | cons c t ih =>
    intro s
    exact ⟨(ih _).1.trans (State.core_endGuards_stores c j _ s).1, (ih _).2.1.trans (State.core_endGuards_stores c j _ s).2.1,
      (ih _).2.2.trans (State.core_endGuards_stores c j _ s).2.2⟩

theorem State.core_endWritten_stores (s : State) (copy : Option (Nat × Nat)) (a n j : Nat) :
    ((s.endWritten copy a n).core j).scratch = (s.core j).scratch ∧ ((s.endWritten copy a n).core j).loft = (s.core j).loft
      ∧ ((s.endWritten copy a n).core j).spool = (s.core j).spool :=
  State.core_endTouched_stores copy a n j _ s

/-- A write of a core's own scratch leaves every other byte of its scratch alone. -/
theorem State.scrWrite_scratch (s : State) (c o j : Nat) (bs : List Byte) (h : j < o ∨ o + bs.length ≤ j) :
    sget 0 ((s.scrWrite c o bs).core c).scratch j = sget 0 (s.core c).scratch j := by
  simp only [State.scrWrite, State.core_updCore]
  rw [(s.core_endWritten_stores _ _ _ c).1]
  exact mwrite_other _ _ _ _ h

/-- A write of a core's own scratch leaves every other core's stores alone. -/
theorem State.scrWrite_other (s : State) (c o j : Nat) (bs : List Byte) (h : j ≠ c) :
    ((s.scrWrite c o bs).core j).scratch = (s.core j).scratch := by
  simp only [State.scrWrite, State.core_updCore_other _ _ _ h]
  exact (s.core_endWritten_stores _ _ _ j).1

end Sys2Proof.Machine
end

