-- ==== Sys2Proof/Tests/Slice0.lean ====
section
/-! SUPPORT. Tests of the model: ill-formed commands that WellFormed refuses, states that meet the hypotheses of each
statement (a theorem `wit_<Name>` for the statement Name, one part for each of its clauses), and single steps whose
results are written out from the spec. -/

set_option Elab.async false

namespace Sys2Proof.Tests

open Sys2Proof Sys2Proof.Machine

/-! ### States -/

/-- The device ALOFT as device 5 of its fabric, with core k at place 0 of die 0, bound as logical core 0. -/
def aloft (k : Core) : State :=
  { State.reset with keel := { state := .aloft, target := .aloft }, cores := [(0, k)],
                     teth := { self := 5 }, rig := { live := { bind := [(0, 1)] } } }

/-- The same in RIGGED, with a gondola core that runs. -/
def rigged (k : Core) : State :=
  { aloft k with keel := { state := .rigged, target := .rigged }, gons := [(0, { mode := 1 })] }

/-- The device in MOORED, with a gondola core that runs. -/
def moored : State :=
  { State.reset with keel := { state := .moored, target := .moored }, gons := [(0, { mode := 1 })] }

/-- A stream that runs, with some scalar and address registers. -/
def runs (s a : Sparse W64) : StreamSt := { state := .running, s, a }

/-- An instruction word of its D, A and B fields and its low 32 bits. -/
def word (d a b imm : Nat) : InsnW := { low := BitVec.ofNat 48 (d * 2 ^ 43 + a * 2 ^ 38 + b * 2 ^ 33 + imm) }

/-- The address of offset o of a space of device 5. -/
def at5 (space o : Nat) : W64 := BitVec.ofNat 64 (5 * 2 ^ 48 + space * 2 ^ 44 + o)

/-- What a command leads to. -/
def after (i : Instr) (s : State) : State :=
  match exec i s with
  | .next t => t
  | _ => s


/-- crcBytes with the register evaluated at each byte, for evaluation in the kernel. -/
def crcGo : Nat → List Byte → Nat
  | r, [] => r
  | r, b :: t =>
    match crcBits 8 (r ^^^ b.toNat) with
    | 0 => crcGo 0 t
    | k + 1 => crcGo (k + 1) t

theorem crcGo_cons (x : Nat) (t : List Byte) :
    (match x with
     | 0 => crcGo 0 t
     | k + 1 => crcGo (k + 1) t) = crcGo x t := by cases x <;> rfl

theorem crcBytes_eq_crcGo (bs : List Byte) : ∀ r, crcBytes r bs = crcGo r bs := by
  induction bs with
  | nil => exact fun _ => rfl
  | cons b t ih => exact fun r => (ih _).trans (crcGo_cons (crcBits 8 (r ^^^ b.toNat)) t).symm

theorem crc32c_eq_crcGo (bs : List Byte) : crc32c bs = crcGo 0xFFFFFFFF bs ^^^ 0xFFFFFFFF :=
  congrArg (fun x : Nat => x ^^^ 0xFFFFFFFF) (crcBytes_eq_crcGo bs 0xFFFFFFFF)
/-! ### Ill-formed commands -/

theorem smoke_numbers : ([.nop 400 .a {}, .selfRefreshEntry 16, .refresh 0 512, .scrubRead 0 [(805306368, 0, 0)], .scrubRead 0 [(0, 68, 0)], .stackRequestService 0 0 [(0, 0, 256)], .reelDescStart 0 2, .tetherTrained 12, .ripPet 16,
    .kntOpArrive 17 0, .stow (.gon 16), .peerWatchTimeout 65535, .hostAckTimer 0, .hostAckTimer 5,
    .knotEntryStage .owner 262144 0 0, .knotEntryStage .owner 0 4 0, .kntNotifyWrite 256 0, .ctxDrainEnd 4096,
    .rcRegisterRead .owner 2, .bridleHeartbeatTimer false 8, .bridleHeartbeatTimer true 12, .pause 0 (some 8),
    .guardRecopyDone 0 32, .loftSpillDone 0 256, .knotOpAtHome [] {}, .knotOpAtHome [0] { bad := some 8 }, .knotReply { k := 0, bad := some 8 }, .heartbeat false { k := 8 },
    .heartbeat true { k := 0, bad := some 0 }, .heartbeat false { k := 0, bad := some 1 }, .portAdderTake 1024 0, .portAdderTake 0 16,
    .sagWarning 8 0, .sagWarning 0 65536, .thermalTrip true 16 0, .thermalTrip false 64 0, .dieResetDone 4 [] [],
    .dieResetDone 0 [400] [], .riggedReached [16], .keelVoteDisagree 32, .hostCmdStart 0 0,
    .linkBlockTimer 12] : List Instr).all (fun i => !i.wf) = true := by decide

set_option maxRecDepth 20000 in
theorem smoke_records : ([.stackRequest 0 { src := .core 384, tag := 0, write := false, block := 0 },
    .stackRequest 0 { src := .tether 12, tag := 0, write := false, block := 0 },
    .stackRequest 0 { src := .gondola 4, tag := 0, write := false, block := 0 },
    .stackRequest 0 { src := .ballast 16, tag := 0, write := false, block := 0 },
    .stackRequest 0 { src := .host, tag := 65536, write := false, block := 0 },
    .stackRequest 0 { src := .host, tag := 0, write := false, block := 2 ^ 28 },
    .stackRequest 0 { src := .host, tag := 0, write := true, block := 0, off := 256, data := [1] },
    .stackRequest 0 { src := .host, tag := 0, write := false, block := 0, ctx := 4096 },
    .stackRequest 0 { src := .host, tag := 0, write := false, block := 0, gen := 65536 },
    .stackLinkFrame 0 true true { kind := 256 } [], .stackLinkFrame 0 true true { kind := 1, flags := 65536 } [],
    .stackLinkFrame 0 true true { kind := 1, block := 2 ^ 32 } [], .stackLinkFrame 0 true true { kind := 1, src := 65536 } [],
    .stackLinkFrame 0 true true { kind := 1, tag := 65536 } [], .stackLinkFrame 0 true true { kind := 1, gen := 65536 } [],
    .stackLinkFrame 0 true true { kind := 1, ctx := 65536 } [],
    .stackLinkFrame 0 true true { kind := 1, payload := List.replicate 257 0 } [], .stackLinkFrame 0 true false { kind := 1 } [(276, 0)],
    .stackLinkFrame 0 true false { kind := 1 } [(0, 256)],
    .tileComplete 0 (some (.cell 521 0)) false, .tileComplete 0 (some (.cell 0 129)) false,
    .spillComplete 0 (some (.sum 0 0 24)) false,
    .envelopeInterval { junction := List.replicate 65 0 }, .envelopeInterval { logic := List.replicate 17 0 },
    .envelopeInterval { dram := List.replicate 17 0 }, .envelopeInterval { rails := List.replicate 9 0 }]
    : List Instr).all (fun i => !i.wf) = true := by decide

/-- A block with its payload. -/
def full (b : Block) : Block := { b with payload := List.replicate 256 0 }

set_option maxRecDepth 20000 in
theorem smoke_blocks : ((([({ lseq := 65536, lack := 0 }, full { kind := 1, dst := 0 }),
      ({ lseq := 0, lack := 65536 }, full { kind := 1, dst := 0 }), ({ lseq := 0, lack := 0, credCls := 4 }, full { kind := 1, dst := 0 }),
      ({ lseq := 0, lack := 0, cred := 16384 }, full { kind := 1, dst := 0 })] : List (Hop × Block)) ++
    ([{ kind := 1, dst := 0 }, full { kind := 64, dst := 0 }, full { kind := 1, cls := 4, dst := 0 }, full { kind := 1, pmask := 16, dst := 0 },
      full { kind := 1, dst := 65536 }, full { kind := 1, dst := 0, src := 65536 }, full { kind := 1, dst := 0, hops := 16 },
      full { kind := 1, dst := 0, ctx := 4096 }, full { kind := 1, dst := 0, gen := 65536 }, full { kind := 1, dst := 0, tag := 65536 },
      full { kind := 1, dst := 0, fseq := 2 ^ 48 }, full { kind := 1, dst := 0, auth := [] }] : List Block).map (fun b =>
      (({ lseq := 0, lack := 0 } : Hop), b)) : List (Hop × Block)).all (fun p => !(Instr.hello 0 p.1 { blk := p.2 }).wf)) = true
    ∧ ([.tetherBadBlock 0 { lseq := 0, lack := 0 } { kind := 1, dst := 0 } (List.replicate 256 0) (2 ^ 32),
        .hello 0 { lseq := 0, lack := 0 } { blk := full { kind := 1, dst := 0 }, crc := 2 ^ 32 },
        .link 12 { lseq := 0, lack := 0 } { kind := 1, dst := 0 } (List.replicate 256 0) 0,
        .link 0 { lseq := 0, lack := 0 } (full { kind := 1, dst := 0 }) [] 0] : List Instr).all (fun i => !i.wf) = true := by decide

set_option maxRecDepth 20000 in
theorem smoke_host : ([.discover { n := 2 ^ 128 } 0 (List.replicate 16 0), .discover { n := 0 } 65536 (List.replicate 16 0),
    .discover { n := 0, vid := some 4096 } 0 (List.replicate 16 0), .discover { n := 0 } 0 [], .attest { n := 0 } 0 [] 0,
    .attest { n := 0 } 0 (List.replicate 32 0) 65536, .hostHello { n := 0 } 0 [], .hostConfirm { n := 1 } [],
    .ackonly { sess := 1, seq := 0, vid := some 4096 },
    .ackonly { sess := 0, seq := 0 }, .ackonly { sess := 1, queue := 8, seq := 0 }, .ackonly { sess := 1, seq := 2 ^ 64 },
    .ackonly { sess := 1, seq := 0, ack := 2 ^ 64 }, .rd32 { sess := 1, seq := 0 } { tag := [] }, .neighbourAdvertisement { n := 2 ^ 128 },
    .pause 65536 none, .railsGood 256 0 0, .rcBadFrame 256 0 0 0] : List Instr).all (fun i => !i.wf) = true := by decide

/-- An instruction is ill-formed when its word spells another, a reserved one among them (R76). -/
theorem smoke_words : ([.add 0 .a false { op := 0x041 }, .halt 0 .a { op := 0x00A }, .arrFwd 0 .a 4 { op := 0x404 },
    .movh 0 .a false { op := 0x054 }] : List Instr).all (fun i => !i.wf) = true ∧ (Instr.add 0 .a false { op := 0x040 }).wf = true := by
  decide

/-! ### Hypotheses of the statements: the queue and the scalar instruction set -/

theorem wit_StepRunsTheFrontCommand : ({ State.reset with pending := [.landComplete, .statusTimer] } : State).pending
    = .landComplete :: [.statusTimer] := rfl

theorem wit_ExecLeavesTheQueueAlone : ∃ t, exec .statusTimer State.reset = .next t := ⟨_, rfl⟩

theorem wit_AnEmptyQueueLetsOneKeelTickPass : State.reset.pending = [] ∧ State.reset.keel.state ≠ .off
    ∧ ((State.reset.env.ticks + 1) % 2 ^ 64) % 500 ≠ 0 := by decide

theorem wit_EveryStepKeepsALegalMode : State.reset.keel.ok = true ∧ ∃ t, step State.reset = .next t := ⟨by decide, _, rfl⟩

theorem wit_PredicatedOffAndFaultyFetches :
    ((aloft { sa := runs [] [] }).canIssue 0 .a = true ∧ ((aloft { sa := runs [] [] }).core 0).sa.pc < 0x400000
      ∧ ((aloft { sa := runs [] [] }).core 0).sa.predOn { pred := 7 } = false)
    ∧ ((aloft { sa := { state := .running, pc := 0x400000 } }).canIssue 0 .a = true
      ∧ 0x400000 ≤ ((aloft { sa := { state := .running, pc := 0x400000 } }).core 0).sa.pc)
    ∧ (aloft {}).canIssue 0 .a = false
    ∧ ((aloft { sa := runs [] [] }).canIssue 0 .a = true ∧ ((aloft { sa := runs [] [] }).core 0).readStalls
        ((aloft { sa := runs [] [] }).scrAddr 0 0) 8 = false ∧ ((aloft { sa := runs [] [] }).core 0).sa.predOn { op := 0x3FF } = true
      ∧ reservedOp ({ op := 0x3FF } : InsnW).op.toNat = true) := by decide

theorem wit_ExceptionsStopTheStream :
    ((aloft {}).core 0).haltBoth = false ∧ ((aloft { haltBoth := true, sb := runs [] [] }).core 0).haltBoth = true
      ∧ (((aloft { haltBoth := true, sb := runs [] [] }).core 0).st (sOther .a)).state = .running := by decide

theorem wit_ScalarArithmeticAndMoves :
    ((aloft { sa := runs [] [] }).Acts 0 .a (word 1 2 3 0) (iA (word 1 2 3 0) :: srcB false (word 1 2 3 0))
      ∧ fmtRI false (word 1 2 3 0) = true)
    ∧ ((aloft { sa := runs [] [] }).Acts 0 .a (word 1 2 0 7) (iA (word 1 2 0 7) :: srcB true (word 1 2 0 7))
      ∧ fmtRI true (word 1 2 0 7) = true)
    ∧ ((aloft { sa := runs [] [] }).Acts 0 .a (word 1 0 31 0) (srcB false (word 1 0 31 0))
      ∧ fmtRI false (word 1 0 31 0) = true ∧ iA (word 1 0 31 0) = 0)
    ∧ ((aloft { sa := runs [] [] }).Acts 0 .a (word 4 4 0 0xFFFFFFFF) [iD (word 4 4 0 0xFFFFFFFF)]
      ∧ fmtI (word 4 4 0 0xFFFFFFFF) = true ∧ iA (word 4 4 0 0xFFFFFFFF) = iD (word 4 4 0 0xFFFFFFFF)) := by decide

theorem wit_ComparisonsPredicatesAndAddresses :
    ((aloft { sa := runs [] [] }).Acts 0 .a (word 7 1 2 0) [iA (word 7 1 2 0), iB (word 7 1 2 0)] ∧ fmtR (word 7 1 2 0) = true
      ∧ iD (word 7 1 2 0) < 8)
    ∧ ((aloft { sa := runs [] [] }).Acts 0 .a (word 7 1 0 5) [iA (word 7 1 0 5)] ∧ fmtI (word 7 1 0 5) = true
      ∧ iD (word 7 1 0 5) < 8)
    ∧ ((aloft { sa := runs [] [] }).Acts 0 .a (word 7 7 7 0) [] ∧ fmtR (word 7 7 7 0) = true ∧ iD (word 7 7 7 0) < 8
      ∧ iA (word 7 7 7 0) < 8 ∧ iB (word 7 7 7 0) < 8)
    ∧ ((aloft { sa := runs [] [] }).Acts 0 .a (word 15 15 31 0) [iB (word 15 15 31 0)] ∧ fmtR (word 15 15 31 0) = true
      ∧ iD (word 15 15 31 0) < 16 ∧ iA (word 15 15 31 0) < 16)
    ∧ ((aloft { sa := runs [] [] }).Acts 0 .a (word 15 15 0 0xFFFFFFFF) [] ∧ fmtI (word 15 15 0 0xFFFFFFFF) = true)
    ∧ ((aloft { sa := runs [] [] }).Acts 0 .a (word 15 31 0 0) [iA (word 15 31 0 0)] ∧ iw (word 15 31 0 0) 37 0 = 0)
    ∧ ((aloft { sa := runs [] [] }).Acts 0 .a (word 31 15 0 0) [] ∧ iw (word 31 15 0 0) 37 0 = 0 ∧ iA (word 31 15 0 0) < 16)
    ∧ ((aloft { sa := runs [] [] }).Acts 0 .a (word 1 2 0 0xFFFF) [] ∧ fmtI (word 1 2 0 0xFFFF) = true
      ∧ iw (word 1 2 0 0xFFFF) 31 16 = 0)
    ∧ (fmtI (word 1 2 0 0xF) = true ∧ iw (word 1 2 0 0xF) 31 4 = 0)
    ∧ (iw (word 1 2 0 0) 37 0 = 0 ∧ (aloft {}).teth.self < 2 ^ 16) := by
  refine ⟨?_, ?_, ?_, ?_, ?_, ?_, ?_, ?_, ?_, ?_⟩ <;> decide

theorem wit_ControlInstructions :
    ((aloft { sa := runs [] [] }).Acts 0 .a {} [] ∧ iw {} 47 0 = 0 ∧ iw (word 0 0 0 0xFFFF) 47 16 = 0)
    ∧ (iw (word 0 0 0 1) 47 32 = 0 ∧ (0 : Int) ≤ 0x3FFFF0 + 8 * iImm (word 0 0 0 1)
      ∧ (0x3FFFF0 : Int) + 8 * iImm (word 0 0 0 1) < 0x400000 ∧ ((0x3FFFF0 : Int) + 8 * iImm (word 0 0 0 1)) % 8 = 0
      ∧ (aloft { sa := { state := .running, pc := 0x3FFFF0 } }).Acts 0 .a (word 0 0 0 1) [])
    ∧ ((aloft { sa := runs [(4, 0x3FFFF8)] [] }).Acts 0 .a (word 0 4 0 0) [4] ∧ fmtR (word 0 4 0 0) = true
      ∧ iD (word 0 4 0 0) = 0 ∧ iB (word 0 4 0 0) = 0
      ∧ (((aloft { sa := runs [(4, 0x3FFFF8)] [] }).core 0).sa.getS (iA (word 0 4 0 0))).toNat < 0x400000
      ∧ (((aloft { sa := runs [(4, 0x3FFFF8)] [] }).core 0).sa.getS (iA (word 0 4 0 0))).toNat % 8 = 0)
    ∧ ((0 : Int) + 8 * iImm (word 0 0 0 0xFFFFFFFF) < 0 ∧ iw (word 0 0 0 0xFFFFFFFF) 47 32 = 0
      ∧ (aloft { sa := runs [] [] }).Acts 0 .a (word 0 0 0 0xFFFFFFFF) [])
    ∧ ((aloft { sa := runs [(4, 0x400000)] [] }).Acts 0 .a (word 0 4 0 0) [4]
      ∧ 0x400000 ≤ (((aloft { sa := runs [(4, 0x400000)] [] }).core 0).sa.getS (iA (word 0 4 0 0))).toNat)
    ∧ (iw (word 0 0 0 7) 47 32 = 0 ∧ iImmU (word 0 0 0 7) ≤ 7)
    ∧ (iw (word 0 0 0 0x101FF) 47 32 = 0 ∧ iw (word 0 0 0 0x101FF) 31 17 = 0 ∧ iw (word 0 0 0 0x101FF) 15 9 = 0)
    ∧ (iw (word 0 0 0 31) 47 32 = 0 ∧ iw (word 0 0 0 31) 31 5 = 0 ∧ (aloft { sa := runs [] [] }).Acts 0 .a (word 0 0 0 31) []
      ∧ ∀ b < 5, (iImmU (word 0 0 0 31)).testBit b = true → (aloft { sa := runs [] [] }).fenceOk 0 .a b = true) := by decide

theorem wit_CreditInstructions :
    ((aloft { sa := runs [] [] }).Acts 0 .a (word 9 0 0 0) [] ∧ fmtI (word 9 0 0 0) = true ∧ iA (word 9 0 0 0) = 0
      ∧ iImmU (word 9 0 0 0) = 0)
    ∧ ((aloft { sa := runs [] [] }).Acts 0 .a (word 0 9 0 0) [iA (word 0 9 0 0)] ∧ fmtR (word 0 9 0 0) = true
      ∧ iD (word 0 9 0 0) = 0 ∧ iB (word 0 9 0 0) = 0)
    ∧ ((aloft { sa := runs [] [] }).Acts 0 .a (word 9 1 0 1) [] ∧ iA (word 9 1 0 1) ≠ 0 ∧ iD (word 9 1 0 1) ≠ 0) := by decide

/-- A core whose stream A holds the address of its own scratch in a2 and that of space 0 in a3. -/
def memCore : Core := { sa := runs [(7, 0x1122334455667788)] [(2, at5 1 0x40), (3, at5 0 0x1000)] }

/-- The device with that core, every stack ready. -/
def stackOn : State := { aloft memCore with stks := (List.range 16).map (fun i => (i, { state := .ready })) }

theorem wit_ScalarLoadsOfThePackage :
    ((aloft memCore).Acts 0 .a (word 1 2 0 8) [] ∧ fmtM (word 1 2 0 8) = true
      ∧ (aloft memCore).scalarFault ((aloft memCore).core 0 |>.sa.getA 2) (iImm (word 1 2 0 8)) 8 = none
      ∧ aDev (offAdd (at5 1 0x40) 8).toNat = (aloft memCore).teth.self
      ∧ ((aloft memCore).core 0).readStalls (offAdd (at5 1 0x40) 8).toNat 8 = false
      ∧ (aloft memCore).vecAhead 0 .a false (offAdd (at5 1 0x40) 8).toNat 8 = false
      ∧ (aloft memCore).clean ((aloft memCore).locate (offAdd (at5 1 0x40) 8).toNat) = true
      ∧ ((aloft memCore).locate (offAdd (at5 1 0x40) 8).toNat).core = some 0)
    ∧ (stackOn.scalarFault (stackOn.core 0 |>.sa.getA 3) (iImm (word 1 3 0 8)) 8 = none
      ∧ fmtM (word 1 3 0 8) = true ∧ aDev (offAdd (at5 0 0x1000) 8).toNat = stackOn.teth.self
      ∧ stackOn.clean (stackOn.locate (offAdd (at5 0 0x1000) 8).toNat) = true
      ∧ stackOn.canServe (.core (stackOn.logNum 0)) false (stackOn.locate (offAdd (at5 0 0x1000) 8).toNat) = true
      ∧ stackOn.vecAhead 0 .a false (offAdd (at5 0 0x1000) 8).toNat 8 = false ∧ stackOn.Acts 0 .a (word 1 3 0 8) []
      ∧ (stackOn.core 0).readStalls (offAdd (at5 0 0x1000) 8).toNat 8 = false
      ∧ (stackOn.locate (offAdd (at5 0 0x1000) 8).toNat).core ≠ some 0)
    ∧ ((aloft { loads := [{ x := .a, d := 3, ticket := 1, v := 5 }] }).core 0).loads[0]?
      = some { x := .a, d := 3, ticket := 1, v := 5 } := by decide

theorem wit_ScalarStoresOfThePackage :
    stackOn.Acts 0 .a (word 7 3 0 8) [iD (word 7 3 0 8)] ∧ fmtM (word 7 3 0 8) = true
      ∧ stackOn.scalarFault (stackOn.core 0 |>.sa.getA 3) (iImm (word 7 3 0 8)) 8 = none
      ∧ aDev (offAdd (at5 0 0x1000) 8).toNat = stackOn.teth.self
      ∧ stackOn.fwGuards {} (offAdd (at5 0 0x1000) 8).toNat 8 = false
      ∧ stackOn.vecAhead 0 .a true (offAdd (at5 0 0x1000) 8).toNat 8 = false
      ∧ stackOn.canServe (.core (stackOn.logNum 0)) true (stackOn.locate (offAdd (at5 0 0x1000) 8).toNat) = true
      ∧ stackOn.clean (stackOn.locate (offAdd (at5 0 0x1000) 8).toNat) = true
      ∧ stackOn.upset (stackOn.locate (offAdd (at5 0 0x1000) 8).toNat) = false := by decide

theorem wit_ScalarAccessesThatTrap :
    (.ld64 0 .a (word 1 2 0 0xFFFFFFB8) .ok ∈ loadRows.filterMap (fun r => if r.2.1 = 8 then some (r.1 0 .a (word 1 2 0 0xFFFFFFB8)
        .ok) else none) ∧ (aloft memCore).Acts 0 .a (word 1 2 0 0xFFFFFFB8) [] ∧ fmtM (word 1 2 0 0xFFFFFFB8) = true
      ∧ (aOff (((aloft memCore).core 0).sa.getA 2).toNat : Int) + iImm (word 1 2 0 0xFFFFFFB8) < 0)
    ∧ (.st64 0 .a (word 7 2 0 4) ∈ storeRows.filterMap (fun r => if r.2 = 8 then some (r.1 0 .a (word 7 2 0 4)) else none)
      ∧ (aloft memCore).Acts 0 .a (word 7 2 0 4) [iD (word 7 2 0 4)] ∧ (offAdd (at5 1 0x40) (iImm (word 7 2 0 4))).toNat % 8 ≠ 0)
    ∧ ((0 : Int) ≤ aOff (at5 15 0).toNat + iImm (word 1 5 0 8) ∧ (aOff (at5 15 0).toNat : Int) + iImm (word 1 5 0 8) < 2 ^ 44
      ∧ (offAdd (at5 15 0) (iImm (word 1 5 0 8))).toNat % 8 = 0
      ∧ aSpace (offAdd (at5 15 0) (iImm (word 1 5 0 8))).toNat = 15) := by decide

/-! ### Hypotheses of the statements: the sequencer, the array, the lane, the watch and the vector engine -/

theorem wit_SequencerControlWrites : (rigged {}).coreWin 0 = true ∧ (3 : W32).toNat.testBit 0 = true
    ∧ (0xF : W32).toNat.testBit 3 = true ∧ (aloft { startHold := true }).coreWin 0 = true
    ∧ ((aloft { startHold := true }).core 0).startHold = true := by decide

/-- A core with three descriptors pending on reel 0, stopped at its first. -/
def stoppedReel : Core := { reel0 := { sizeM1 := 3, pending := 3, tail := 3, stopped := true, err := 5 } }

theorem wit_SequencerRegisterWrites : (rigged {}).coreWin 0 = true ∧ (aloft stoppedReel).coreWin 0 = true
    ∧ (2 : W32).toNat.testBit 1 = true ∧ (1 : W32).toNat.testBit 0 = true ∧ (1 : W32).toNat.testBit 1 = false
    ∧ (((aloft stoppedReel).core 0).reel 0).stopped = true := by decide

theorem wit_ReelInstructions :
    ((aloft { sa := runs [] [], reel1 := { sizeM1 := 255 } }).Acts 0 .a (word 0 0 0 0x10100) []
      ∧ iw (word 0 0 0 0x10100) 47 32 = 0 ∧ iw (word 0 0 0 0x10100) 31 17 = 0 ∧ iw (word 0 0 0 0x10100) 15 9 = 0
      ∧ iw (word 0 0 0 0x10100) 8 0 = 256 ∧ (({ sizeM1 := 255 } : Reel).base * 64 + 64 * 256 ≤ 0x400000))
    ∧ (0 : Nat) + 256 ≤ 255 + 1 ∧ (0 : Nat) + 1 < 0 + 2
    ∧ ((aloft { sa := runs [] [] }).Acts 0 .a (word 4 0 0 0x10000) [] ∧ fmtI (word 4 0 0 0x10000) = true
      ∧ iA (word 4 0 0 0x10000) = 0 ∧ iw (word 4 0 0 0x10000) 31 17 = 0 ∧ iw (word 4 0 0 0x10000) 15 0 = 0)
    ∧ ((aloft { sa := runs [] [] }).Acts 0 .a (word 0 0 0 257) [] ∧ 256 < iw (word 0 0 0 257) 8 0)
    ∧ iw (word 4 0 0 1) 15 0 ≠ 0 := by decide

/-- A descriptor that fills n bytes of a span with zeros. -/
def fillDesc (dst n : Nat) : List Byte :=
  leBytes 8 0 ++ leBytes 8 dst ++ leBytes 4 n ++ leBytes 4 1 ++ leBytes 8 0 ++ leBytes 4 0 ++ leBytes 2 0xFFF ++ [2]
    ++ List.replicate 25 0

/-- A core with one descriptor pending, and what is in progress. -/
def reelCore (b : List Byte) (prog : List ReelProg) : Core :=
  { scratch := mwrite [] 0 b, reel0 := { sizeM1 := 1, pending := 1, tail := 1, prog, owners := [.a] } }

theorem wit_ReelDescriptors_start :
    ((aloft (reelCore (fillDesc 0 4) [])).reelCanStart 0 0 = true
      ∧ (aloft (reelCore (fillDesc 0 2) [])).rdescCheck 0 (fillDesc 0 2) = some 5)
    ∧ ((aloft (reelCore (fillDesc (5 * 2 ^ 48 + 2 ^ 44) 4) [])).reelCanStart 0 0 = true
      ∧ ((aloft (reelCore (fillDesc (5 * 2 ^ 48 + 2 ^ 44) 4) [])).core 0).readStalls
          ((aloft (reelCore (fillDesc (5 * 2 ^ 48 + 2 ^ 44) 4) [])).scrAddr 0 0) 64 = false
      ∧ (aloft (reelCore (fillDesc (5 * 2 ^ 48 + 2 ^ 44) 4) [])).rdescCheck 0
          (((aloft (reelCore (fillDesc (5 * 2 ^ 48 + 2 ^ 44) 4) [])).core 0).scr 0 64) = none
      ∧ (aloft (reelCore (fillDesc (5 * 2 ^ 48 + 2 ^ 44) 4) [])).rdescCost 0 (rdesc (fillDesc (5 * 2 ^ 48 + 2 ^ 44) 4)) ≤ 0) := by
  decide

/-- A descriptor in progress. -/
def prog (code : Nat) : ReelProg := { idx := 0, owner := .a, desc := fillDesc (5 * 2 ^ 48 + 2 ^ 44) 4, code }

theorem wit_ReelDescriptors_end :
    ((((aloft (reelCore [] [prog 0])).core 0).reel 0).prog = [prog 0] ∧ (aloft (reelCore [] [prog 0])).coreRuns 0 = true
      ∧ (prog 0).code = 0 ∧ ((aloft (reelCore [] [prog 0])).reqsOf (prog 0).reqs).any (fun q => !q.done) = false
      ∧ (rdesc (prog 0).desc).op ≠ 3 ∧ reqFault ((aloft (reelCore [] [prog 0])).reqsOf (prog 0).reqs) = 0
      ∧ (prog 0).moved = false ∧ (rdesc (prog 0).desc).knotEn = false
      ∧ (let own : State := { aloft (reelCore [] [prog 0]) with acc := { src := .core 0, core := some 0 } }
         let m := (own.dropReqs []).rowsMove 0 0 (prog 0).gen (rdesc (prog 0).desc) { copy := (prog 0).guard.map (fun g => (0, g)) }
           (farBytes []) 0 (rdesc (prog 0).desc).rows
         m.1.acc.stop = none ∧ m.2 = (0, [])))
    ∧ (let p : ReelProg := { prog 0 with desc := (prog 0).desc.set 38 3, segs := 1 }
       (rdesc p.desc).op = 3 ∧ p.segs = (rdesc p.desc).rows ∧ p.segIds = [])
    ∧ (((aloft (reelCore [] [prog 2])).core 0).reel 0).prog = [prog 2] ∧ (prog 2).code ≠ 0 := by decide

theorem wit_MessagesThatReachCores :
    (({ aloft {} with env := { msgs := [.deal 0 5 0 0] } } : State).env.msgs[0]? = some (.deal 0 5 0 0)
      ∧ (({ aloft {} with env := { msgs := [.deal 0 5 0 0] } } : State).env.msgs.take 0).any (fun m => m.dealTo 0) = false
      ∧ ((aloft {}).core 0).fenced = false ∧ (aloft {}).dieOut (dieOfCore 0) = false)
    ∧ ({ aloft {} with stale := [(0, 31)] } : State).stale[0]? = some (0, 31)
    ∧ ((aloft { idleTicks := 50 }).coreRuns 0 = true ∧ ((aloft { idleTicks := 50 }).core 0).idle = true
      ∧ 50 ≤ ((aloft { idleTicks := 50 }).core 0).idleTicks)
    ∧ ((aloft { asleep := true, waking := true }).keel.state = .aloft
      ∧ ((aloft { asleep := true, waking := true }).core 0).asleep = true
      ∧ ((aloft { asleep := true, waking := true }).core 0).waking = true
      ∧ ((aloft { asleep := true, waking := true }).core 0).fenced = false) := by decide

/-- A spill of 512 KiB to the start of the own spool, and a forward tile. -/
def spillTile : Tile := { x := .a, kind := .spill, cls := 1, vectors := 512 }
/-- A forward tile. -/
def fwdTile : Tile := { x := .a, kind := .fwd }

theorem wit_ArrayInstructionsQueueTheirTile :
    (let s := aloft { sa := runs [] [(2, at5 2 0x300000)] }
     s.Acts 0 .a (word 0 2 0 0) [] ∧ fmtM (word 0 2 0 0) = true ∧ iD (word 0 2 0 0) = 0
      ∧ minorOk .spill 0 = true ∧ s.coreServed 0 (fun s => s.touchAll 0 (s.tileReads 0 .spill (at5 2 0x300000))) = true
      ∧ s.spillCheck 0 .a 0 (at5 2 0x300000) false = .ok spillTile
      ∧ spillTile.loftEntries = [] ∧ ((s.core 0).arr.tq .a).length < 4)
    ∧ ((aloft {}).tileCheck 0 .a .fwd 0 (at5 0 0) false = .error 5
      ∧ (aloft {}).coreServed 0 (fun s => s.touchAll 0 (s.tileReads 0 .fwd (at5 0 0))) = true)
    ∧ 4 ≤ (((aloft { arr := { tqA := List.replicate 4 fwdTile } }).core 0).arr.tq .a).length := by decide

/-- A forward tile in progress. -/
def tileRuns : State := aloft { arr := { running := [{ tile := fwdTile, seq := 4095 }] } }

theorem wit_TilesAreGrantedStartedAndDrained :
    (let s := aloft { turn := .a, arr := { tqA := [spillTile] } }
     s.coreRuns 0 = true ∧ (s.core 0).grantHold = false ∧ (s.core 0).arr.halted = false ∧ (s.core 0).arr.granted = []
      ∧ ((s.core 0).arr.paused && (s.core 0).arr.streams) = false ∧ (s.core 0).elig .a = some spillTile)
    ∧ (({ granted := [fwdTile] } : ArrSt).granted = fwdTile :: [] ∧ fwdTile.kind ≠ .wg
      ∧ (aloft { arr := { granted := [fwdTile] } }).coreServed 0 (fun s => s.tileBegin 0 fwdTile) = true)
    ∧ ((tileRuns.core 0).arr.running = { tile := fwdTile, seq := 4095 } :: []
      ∧ (tileRuns.core 0).arr.openSpills.any fwdTile.after = false
      ∧ ({ tile := fwdTile, seq := 4095 } : RunTile).mismatch none = none
      ∧ tileRuns.coreServed 0 (fun s => s.tileDone 0 { tile := fwdTile, seq := 4095 } none) = true)
    ∧ (({ spills := [spillTile] } : ArrSt).spills = spillTile :: [] ∧ ({ spills := [spillTile] } : ArrSt).spilling = none)
    ∧ (let q : Tile := { spillTile with checkOnly := true, vectors := 1 }
       let s := aloft { arr := { spilling := some (q, 0) } }
       (s.core 0).arr.spilling = some (q, 0) ∧ (s.core 0).arr.accInj = none ∧ (s.core 0).arr.accMismatch = none
        ∧ s.coreServed 0 (fun s => s.spillDone 0 q 0 none) = true) := by decide +kernel

/-- A running tile whose one output goes to a place where no stack is. -/
def lostTile : RunTile :=
  { tile := { fwdTile with
      desc := List.replicate 28 0 ++ leBytes 4 1 ++ List.replicate 8 0 ++ leBytes 2 1 ++ leBytes 2 1 ++ [2]
        ++ List.replicate 19 0,
      odesc := leBytes 8 (at5 0 0xC000000000).toNat ++ List.replicate 56 0 },
    seq := 4095 }

theorem wit_ArrayChecksAndRegisters :
    ((rigged {}).coreWin 0 = true ∧ (1 : W32).toNat.testBit 0 = true ∧ ((rigged {}).core 0).arr.checkComing = false
      ∧ ((rigged {}).core 0).arr.halted = false ∧ (2 : W32).toNat.testBit 0 = false)
    ∧ 0x400000 < topkEnd (2 * 2 ^ 11) (2 ^ 22 - 1)
    ∧ ([lostTile].find? (fun q => q.seq == 4095) = some lostTile ∧ (aloft {}).failsAt (at5 0 0xC000000000).toNat = true
      ∧ lostTile.tile.outMeets (at5 0 0xC000000000).toNat = true
      ∧ lostTile.wfail.contains (at5 0 0xC000000000).toNat = false)
    ∧ (let q : RunTile := { lostTile with tile := { lostTile.tile with
         sdesc := leBytes 8 (at5 0 0xC000000000).toNat ++ List.replicate 56 0 } }
       q.tile.spans.any (fun p => meets256 (at5 0 0xC000000000).toNat p.1 p.2) = true)
    ∧ ((aloft { arr := { unchecked := true, chkTimer := 1800 } }).coreRuns 0 = true
      ∧ ((aloft { arr := { unchecked := true, chkTimer := 1800 } }).core 0).arr.unchecked = true
      ∧ ((aloft { arr := { unchecked := true, chkTimer := 1800 } }).core 0).arr.spillComing = false) := by decide

/-- A lane descriptor without a factor. -/
def laneDesc : List Byte := List.replicate 20 0 ++ leBytes 4 1 ++ leBytes 4 1 ++ List.replicate 36 0

theorem wit_LaneOperations :
    ((aloft { sa := runs [] [(2, at5 1 0)], scratch := mwrite [] 0 laneDesc }).Acts 0 .a (word 0 2 0 0) []
      ∧ fmtM (word 0 2 0 0) = true ∧ iD (word 0 2 0 0) = 0
      ∧ (aloft { sa := runs [] [(2, at5 1 0)], scratch := mwrite [] 0 laneDesc }).coreServed 0 (fun s =>
          s.touchAll 0 (s.corReads 0 false (at5 1 0))) = true
      ∧ (aloft { sa := runs [] [(2, at5 1 0)], scratch := mwrite [] 0 laneDesc }).corCheck 0 .a false (at5 1 0) false
        = .ok { x := .a, expand := false, id := 0, desc := laneDesc, adesc := [], fdesc := [] }
      ∧ ((aloft {}).core 0).cost' 6 (ldesc laneDesc).m 64 ≤ 0 ∧ ((aloft {}).core 0).lane.queue.length < 4)
    ∧ (aloft {}).corCheck 0 .a true (at5 0 0) false = .error 0x30
    ∧ (let o : CorOp := { x := .a, expand := false, id := 0, desc := laneDesc, adesc := [], fdesc := [] }
       let s := aloft { lane := { queue := [o] } }
       (s.core 0).lane.queue = o :: [] ∧ s.coreRuns 0 = true ∧ (s.core 0).lane.chkFail = false
        ∧ s.coreServed 0 (fun s => s.corRun 0 o) = true) := by decide

theorem wit_PrecisionWatchInstructions :
    ((aloft { sa := runs [] [] }).Acts 0 .a (word 0 3 0 0x1000) [iA (word 0 3 0 0x1000)] ∧ fmtI (word 0 3 0 0x1000) = true
      ∧ iD (word 0 3 0 0x1000) = 0 ∧ iw (word 0 3 0 0x1000) 11 0 = 0)
    ∧ (iw (word 0 3 0 0x1FFF) 11 0 ≠ 0 ∧ iw (word 0 3 0 0x1FFF) 31 13 = 0
      ∧ (aloft {}).coreServed 0 (fun s => s.takeSlot 0 (iw (word 0 3 0 0x1FFF) 11 0)) = true)
    ∧ ((aloft { sa := runs [] [] }).Acts 0 .a {} [] ∧ iw {} 47 0 = 0 ∧ ((aloft { sa := runs [] [] }).core 0).watch.valid = false
      ∧ ((aloft { sa := runs [] [] }).core 0).sa.closeAt = none)
    ∧ (rigged { watch := { held := [{ slot := 1 }] } }).coreWin 0 = true
    ∧ ({ aloft {} with merges := [{ core := 0, base := 0, held := { slot := 1 } }] } : State).merges[0]?
        = some { core := 0, base := 0, held := { slot := 1 } }
    ∧ (aloft {}).tableOk 0 = false := by decide

/-- A core with a watch table at 0, every stack ready. -/
def watched (k : Core) : State :=
  { aloft { k with watch := { k.watch with valid := true, base := (at5 0 0).toNat } } with
    stks := (List.range 16).map (fun i => (i, { state := .ready })) }

theorem wit_PrecisionWatch_close :
    ((watched { sa := runs [] [] }).Acts 0 .a {} [] ∧ ((watched { sa := runs [] [] }).core 0).watch.valid = true
      ∧ (watched { sa := runs [] [] }).closeBusy 0 ((watched { sa := runs [] [] }).closeSet 0) = false
      ∧ ((watched {}).core 0).watch.held = [] ∧ ((watched {}).core 0).watch.unacked = 0)
    ∧ (let o : CorOp := { x := .b, expand := false, id := 0, desc := [], adesc := [], fdesc := [] }
       let k : Core := { sa := runs [] [], sb := runs [] [], lane := { queue := [o] } }
       (watched k).closeBusy 0 ((watched k).closeSet 0) = true ∧ ((watched k).core 0).sa.closed = false)
    ∧ (let k : Core := { sa := { (runs [] []) with closed := true }, watch := { held := [{ slot := 1 }] } }
       ((watched k).core 0).sa.closed = true ∧ (watched k).closeBusy 0 ((watched k).closeSet 0) = false
        ∧ ((watched k).core 0).watch.held ≠ [] ∧ (watched k).Acts 0 .a {} []) := by decide

set_option maxRecDepth 20000 in
theorem wit_PrecisionWatch_tables :
    (watched {}).coreServed 0 (fun s => (s.readBytes ((at5 0 0).toNat + 64) 512).1) = true
    ∧ (watched {}).coreServed 0 (fun s => (s.readBytes ((at5 0 0).toNat + 20) 4).1) = true
    ∧ (watched {}).tableOk (at5 0 0).toNat = true
    ∧ (let m : Merge := { core := 0, base := (at5 0 0).toNat, held := { slot := 1 } }
       ({ watched {} with merges := [m] } : State).coreServed 0 (fun s => (s.mergeTold 0 m).mergeSlot m) = true) := by decide

/-- A verdict's knot, a barrier of device scope. -/
def withBarrier (s : State) : State :=
  { s with rig := { s.rig with live := { s.rig.live with
      ranges := [{ first := 0, count := 1, kind := 0, scope := 1, owner := 0, ctx := 0, tree := 0 }] } } }

theorem wit_PrecisionWatch_verdict :
    (let s := withBarrier (watched { sa := runs [] [] })
     let own : State := { s with acc := { src := .core 0, core := some 0 } }
     s.knotCheck .arrive (ofLe (own.readBytes ((at5 0 0).toNat + 20) 4).2 % 2 ^ 18) (some (s.logNum 0)) = none)
    ∧ ((aloft { sa := runs [] [], watch := { valid := true, verdict := some 1 } }).core 0).watch.verdict.isSome = true
    ∧ (aloft { sa := runs [] [], watch := { valid := true, verdict := some 1 } }).Acts 0 .a {} [] := by decide

/-- VADD of one INT32 element. -/
def vaddWord : InsnW := { low := BitVec.ofNat 48 (1 * 2 ^ 43 + 2 * 2 ^ 38 + 3 * 2 ^ 27 + 2 * 2 ^ 18) }

theorem wit_VectorInstructionsIssue :
    ((aloft { sa := runs [] [] }).Acts 0 .a vaddWord (vSrcs .add vaddWord)
      ∧ (aloft { sa := runs [] [] }).coreServed 0 (fun s => s.vTouch 0 ((aloft { sa := runs [] [] }).core 0).sa .add vaddWord) = true
      ∧ vIll .add .a vaddWord = false
      ∧ (aloft { sa := runs [] [] }).vDesc 0 .a .add vaddWord = .ok ([], false)
      ∧ ((aloft { sa := runs [] [] }).vPre 0 .a .add vaddWord ([], false)).or
          (((aloft { sa := runs [] [] }).core 0).sa.vTable .add vaddWord ([], false)) = none
      ∧ ((aloft { sa := runs [] [] }).core 0).vec.clearing = false)
    ∧ vIll .add .a { low := 1 <<< 32 } = true
    ∧ (aloft { sa := runs [] [] }).vDesc 0 .a .deq { low := 0 } = .error 5
    ∧ ((aloft { sa := runs [] [] }).vPre 0 .a .add { low := 7 <<< 18 } ([], false)).or
        (((aloft { sa := runs [] [] }).core 0).sa.vTable .add { low := 7 <<< 18 } ([], false)) = some 0x41 := by decide

/-- An instruction the engine has accepted: a load of 256 bytes. -/
def vldInsn (aa : W64) : VInsn := { id := 3, x := .a, op := .ld, low := BitVec.ofNat 48 (2 * 2 ^ 18 + 63), aa }

/-- The device with every stack ready and some vector instructions accepted. -/
def vecWork (l : List VInsn) : State :=
  { aloft { vec := { queue := l } } with stks := (List.range 16).map (fun i => (i, { state := .ready })) }

set_option maxRecDepth 20000 in
theorem wit_VectorEngineCompletions_run :
    (let i := vldInsn (at5 0 0)
     nextInsn [] [i] = some (i, []) ∧ (vecWork [i]).coreRuns 0 = true ∧ ((vecWork [i]).core 0).vec.clearing = false
      ∧ (vecWork [i]).coreServed 0 (fun s => s.vecBegin 0 i) = true)
    ∧ (let i := { vldInsn (at5 0 0) with started := true }
       [i].find? (fun i => i.id == 3) = some i ∧ (vecWork [i]).coreRuns 0 = true ∧ i.started = true
        ∧ ((vecWork [i]).reqsOf i.reqs).any (fun q => !q.done) = false
        ∧ (vecWork [i]).coreServed 0 (fun s => (s.vecResult 0 i).1) = true) := by decide

theorem wit_VectorEngineCompletions :
    (let i := vldInsn (at5 0 0xC000000000)
     let b := (at5 0 0xC000000000).toNat
     [i].find? (fun i => i.id == 3) = some i ∧ (i.started && (i.op == .st || i.op == .quant)) = false
      ∧ ([i].takeWhile (fun j => j.id ≠ 3)).any (fun j => j.op == .flags && j.x == i.x) = false ∧ i.fails.contains b = false
      ∧ (aloft {}).failsAt b = true ∧ aDev b = (aloft {}).teth.self ∧ i.runs.any (fun r => meets256 b r.addr r.len) = true)
    ∧ ((rigged {}).coreWin 0 = true ∧ (1 : W32).toNat.testBit 0 = true)
    ∧ ((aloft { vec := { clearing := true } }).coreRuns 0 = true
      ∧ ((aloft { vec := { clearing := true } }).core 0).vec.clearing = true) := by decide

theorem wit_VectorIntegerArithmeticWraps : 2 ≤ 2 ∧ 5 ≤ 5 ∧ (255 : Nat) < 2 ^ ebits 5 ∧ (255 : Nat) < 2 ^ ebits 2 := by decide

/-! ### Hypotheses of the statements: the device's states, the board, the envelope, the loft and the stacks -/

theorem wit_StateRequests :
    (moored.ctrlUp = true ∧ moored.whoOk (.gon 0) = true ∧ transition moored.keel.state 1 = some (.keel, .keel)
      ∧ moored.keel.target = moored.keel.state)
    ∧ ((rigged {}).ctrlUp = true ∧ (rigged {}).whoOk (.gon 0) = true ∧ transition (rigged {}).keel.state 2 = some (.moored, .moored)
      ∧ transition (rigged {}).keel.state 4 = some (.aloft, .aloft) ∧ transition (rigged {}).keel.state 3 = none)
    ∧ transition (aloft {}).keel.state 3 = some (.aloft, .rigged)
    ∧ ((rigged {}).keel.state ≠ .off ∧ (rigged {}).env.boardSeq ≠ some (255 % 256) ∧ (rigged {}).keel.state ≠ .moored) := by
  decide

/-- KEEL while the boot ROM runs. -/
def booting : State := { State.reset with keel := { state := .keel, target := .moored, booting := true } }
/-- MOORED on its way to RIGGED. -/
def rising : State := { moored with keel := { state := .moored, target := .rigged } }

theorem wit_PowerAndBringUp :
    ({ State.reset with keel := { state := .off, target := .off } } : State).keel.state = .off
    ∧ (booting.keel.state = .keel ∧ booting.keel.booting = true) ∧ moored.ctrlUp = true
    ∧ (rising.keel.state = .moored ∧ rising.keel.target = .rigged ∧ rising.rig.flashOk = false
      ∧ rising.served (.gondola 0) none (fun s => s.reachRigged [3]) = true)
    ∧ (({ aloft {} with keel := { state := .aloft, target := .rigged } } : State).cores.all (fun p => p.2.landed) = true)
    ∧ ({ moored with host := { link := .training } } : State).host.link = .training
    ∧ ({ moored with host := { link := .up } } : State).host.link = .up := by decide +kernel

theorem wit_BoardFrames :
    (moored.keel.state ≠ .off ∧ ({ moored with env := { boardSeq := some 255 } } : State).env.boardSeq = some (255 % 256))
    ∧ (moored.env.boardSeq ≠ some (0 % 256) ∧ (255 : W16).toNat % 256 = 255 ∧ State.reset.keel.state = .keel
      ∧ State.reset.keel.target = .keel ∧ State.reset.keel.stopped = false)
    ∧ ({ moored with env := { phase := .waitSet 26 } } : State).env.phase = .waitSet 26
    ∧ (0x5A5A5A5A : W32) = 0x5A5A5A5A ∧ (moored.keel.state = .moored ∧ moored.keel.target = .moored) ∧ (7 < 8) := by decide

theorem wit_EnvelopeIntervals :
    (moored.keel.state ≠ .off ∧ (List.replicate 64 104).length = 64 ∧ (List.replicate 16 104).length = 16
      ∧ (∀ v ∈ List.replicate 64 104 ++ List.replicate 16 104, v < 105)
      ∧ ∃ v ∈ List.replicate 64 104 ++ List.replicate 16 105, 105 ≤ v)
    ∧ ({ moored with env := { msgs := [.give 0 5] } } : State).env.msgs[0]? = some (.give 0 5)
    ∧ (let s : State := { moored with env := { msgs := [.report { core := 0, stall := 0, spent := 0, short := 0 }],
                                               due := some { tick := 500, ac := 0, energy := none, given := 0 } } }
       s.env.msgs[0]? = some (.report { core := 0, stall := 0, spent := 0, short := 0 }) ∧ s.env.due.isSome = true
        ∧ (s.env.msgs.eraseIdx 0).any EnvMsg.isReport = false)
    ∧ ((rigged {}).railsOn = true ∧ 671 * 100 < 96 * (rigged {}).env.setPoint 1 ∧ 643 * 100 < 92 * (rigged {}).env.setPoint 1)
    ∧ (moored.keel.state ≠ .off ∧ 105 ≤ 105 ∧ 63 < 64 ∧ 15 < 16) := by decide

theorem wit_EnvelopeControl :
    ({ moored with env := { phase := .stepping 29 } } : State).env.phase = .stepping 29
    ∧ ({ moored with env := { phase := .waitSet 1 } } : State).env.phase = .waitSet 1
    ∧ (moored.ctrlUp = true ∧ ({ moored with rig := { live := { power := [{}] } } } : State).tables = true)
    ∧ (let s : State := { aloft {} with
         env := { paceGroup := 3 },
         pace := [{ resume := false, src := 6, group := 3, seq := 0, reason := 1, rate := 2, duration := 9 }] }
       s.pace[0]? = some { resume := false, src := 6, group := 3, seq := 0, reason := 1, rate := 2, duration := 9 }
        ∧ s.env.paceGroup ≠ 0 ∧ (3 : Nat) = s.env.paceGroup ∧ (6 : Nat) ≠ s.teth.self)
    ∧ (moored.whoOk (.gon 0) = true ∧ moored.env.ticks < 2 ^ 64 ∧ moored.env.energyMj < 2 ^ 64) := by decide

/-- A core whose loft directory at scratch 0 has entry 0 with one page in a state. -/
def loftCore (st : Nat) (m : LoftSt) : Core := { scratch := mwrite [] 64 ([1, 0, 0, 0] ++ leBytes 1 st), loftM := m }

theorem wit_LoftManager :
    ((aloft (loftCore 3 { en := true, ovfPages := 4, copies := [{ entry := 0, ovf := 3, page := 0, isRecall := false }] })).coreRuns 0
        = true
      ∧ [({ entry := 0, ovf := 3, page := 0, isRecall := false } : LoftCopy)].find? (fun p => p.entry == 0 && !p.isRecall)
        = some { entry := 0, ovf := 3, page := 0, isRecall := false })
    ∧ ((loftCore 4 { en := true, waitRecall := [0] }).loftM.waitRecall = 0 :: []
      ∧ (loftCore 4 { en := true, waitRecall := [0] }).loftRun ((loftCore 4 { waitRecall := [0] }).entPages 0) = some 0)
    ∧ [({ entry := 0, ovf := 3, page := 767, isRecall := true } : LoftCopy)].find? (fun p => p.entry == 0 && p.isRecall)
        = some { entry := 0, ovf := 3, page := 767, isRecall := true }
    ∧ ((aloft (loftCore 2 { en := true })).coreWin 0 = true ∧ (loftCore 2 { en := true }).entState 0 = 2
      ∧ (loftCore 2 { en := true }).pinned 0 = false
      ∧ ({ loftCore 2 { en := true } with arr := { granted := [{ x := .a, kind := .fwd, loftEntries := [0] }] } } : Core).pinned 0
        = true
      ∧ (256 : W32).toNat.testBit 8 = true ∧ (256 : W32).toNat % 256 = 0)
    ∧ ((aloft (loftCore 0 {})).coreWin 0 = true ∧ (loftCore 0 {}).loftLive = false ∧ (loftCore 2 { en := true }).loftLive = true) := by
  decide

/-- The copies of entry 0's page to overflow page 3 and back. -/
def loftCopy (isRecall : Bool) : LoftCopy := { entry := 0, ovf := 3, page := 0, isRecall }

/-- ALOFT with a copy on its way, overflow at the start of the stacks, every stack ready. -/
def copyState (isRecall : Bool) : State :=
  { aloft (loftCore 3 { en := true, ovf := (at5 0 0).toNat, ovfPages := 4, copies := [loftCopy isRecall] }) with
    stks := (List.range 16).map (fun i => (i, { state := .ready })) }

theorem wit_LoftManager_spill :
    (copyState false).coreRuns 0 = true ∧ ((copyState false).core 0).loftM.waitAlloc = []
    ∧ ((copyState false).core 0).loftM.waitRecall = []
    ∧ ((copyState false).core 0).loftM.copies.find? (fun p => p.entry == 0 && !p.isRecall) = some (loftCopy false)
    ∧ ((copyState false).core 0).entPages 0 = 1
    ∧ (copyState false).coreServed 0 (fun s => s.spillCopy 0 0 (loftCopy false)) = true := by decide +kernel

theorem wit_LoftManager_recall :
    (copyState true).coreRuns 0 = true
    ∧ ((copyState true).core 0).loftM.copies.find? (fun p => p.entry == 0 && p.isRecall) = some (loftCopy true)
    ∧ (copyState true).coreServed 0 (fun s => s.recallCopy 0 0 (loftCopy true)) = true := by decide +kernel

/-- RIGGED with stack 0 as given. -/
def stacked (t : Stack) : State := { rigged {} with stks := [(0, t)] }
/-- A request of the host for block 0. -/
def hostReq (write : Bool) (ctx gen : Nat) : StackReq := { src := .host, tag := 0, write, block := 0xBFFFFFF, data := [7], ctx, gen }

/-- A stack in operation. -/
def ready : Stack := { state := .ready }

theorem wit_StackRequests_waits :
    (hostReq true 0xFFF 0).block < stackBlocks ∧ ((stacked {}).stk 0).powered = false
    ∧ (ready.powered = true
      ∧ ({ stacked ready with rig := { (stacked ready).rig with holds := { ileave := true } } } : State).rig.holds.ileave = true)
    ∧ ((stacked { ready with srcQ := [hostReq false 0xFFF 0] }).stk 0).srcQ.any
        (fun r => r.src == (hostReq true 0xFFF 0).src && blkBank r.block == blkBank (hostReq true 0xFFF 0).block) = true := by
  decide +kernel

theorem wit_StackRequests_mesh :
    ((stacked ready).rig.holds.ileave = false ∧ (stacked ready).mayAsk 0 .host (blkBank 0xBFFFFFF) = true ∧ ready.srcQ = [])
    ∧ ({ state := .retraining } : Stack).state = .retraining
    ∧ ((stacked { ready with meshQ := [hostReq true 0xFFF 0] }).mayAsk 0 .host (blkBank 0xBFFFFFF) = true
      ∧ ({ ready with meshQ := [hostReq true 0xFFF 0] } : Stack).meshQ ≠ [])
    ∧ (let t : Stack := { ready with slots := List.replicate 6144 { req := { hostReq false 0xFFF 0 with src := .ballast 0 } } }
       6144 ≤ t.slots.length ∧ t.state ≠ .fault ∧ (stacked t).mayAsk 0 .host (blkBank 0xBFFFFFF) = true) := by
  decide +kernel

theorem wit_StackRequests_takes :
    (({ state := .fault } : Stack).powered = true ∧ (stacked { state := .fault }).mayAsk 0 .host (blkBank 0xBFFFFFF) = true)
    ∧ (ready.meshQ = [] ∧ ready.slots.length < 6144 ∧ (ready.bankSlots (blkBank 0xBFFFFFF)).length < 48
      ∧ (hostReq true 0xFFF 0).ctx = 0xFFF ∧ sget 0 ready.gens 4 = (hostReq true 4 0).gen)
    ∧ (let t : Stack := { ready with slots := List.replicate 48 { req := { hostReq false 0xFFF 0 with src := .ballast 0 } } }
       (stacked t).mayAsk 0 .host (blkBank 0xBFFFFFF) = true ∧ 48 ≤ (t.bankSlots (blkBank 0xBFFFFFF)).length ∧ t.slots.length < 6144)
    ∧ ((hostReq true 4 1).ctx ≠ 0xFFF ∧ sget 0 ready.gens 4 ≠ (hostReq true 4 1).gen)
    ∧ (let t : Stack := { ready with bankOpens := [(496, .host)], heldReqs := [hostReq true 0xFFF 0] }
       ((stacked t).stk 0).bankOpens[0]? = some (496, .host) ∧ blkBank 0xBFFFFFF = 496
        ∧ t.heldReqs.filter (fun q => q.src == .host && blkBank q.block == 496) = [hostReq true 0xFFF 0] ∧ t.srcQ = [])
    ∧ ((stacked { responses := [.ack .host 0 [(0, 1)]] }).stk 0).responses[0]? = some (.ack .host 0 [(0, 1)]) := by
  decide +kernel

/-- A guard whose re-copy is on its way. -/
def copying : Guard := { uid := 5, base := 0, last := 0, reel := 0, ringIdx := 0, desc := [], first := false, copying := true }

theorem wit_StackService_write :
    (let t : Stack := { state := .ready, slots := [{ req := hostReq true 0xFFF 0 }] }
     ((stacked t).stk 0).state = .ready
      ∧ t.pick (blkBank 0xBFFFFFF) (stacked t).env.ticks = some ({ req := hostReq true 0xFFF 0 }, false) ∧ t.poisoned = []
      ∧ t.upsets = [] ∧ t.meshQ = [] ∧ t.srcQ = []
      ∧ (hostReq true 0xFFF 0).write = true ∧ (hostReq true 0xFFF 0).poison = false)
    ∧ (let q : Slot := { req := hostReq true 0xFFF 0 }
       let t : Stack := { state := .ready, slots := List.replicate 41 q, waiters := [(496, .host)] }
       t.pick 496 0 = some (q, false) ∧ (t.bankSlots 496).length = 41 ∧ (496, ReqSrc.host) ∈ t.waiters)
    ∧ (let q : Slot := { req := { hostReq true 0xFFF 0 with poison := true } }
       ({ state := .ready, slots := [q] } : Stack).pick 496 0 = some (q, false)) := by decide +kernel

theorem wit_StackService_read :
    (let q : Slot := { req := { hostReq false 0xFFF 0 with guard := some (0, 31) } }
     let t : Stack := { state := .ready, slots := [q] }
     t.pick 496 0 = some (q, false) ∧ q.req.write = false ∧ q ∈ mergedReads q.req.block (t.slots.dropWhile (fun p => p ≠ q))
      ∧ q.req.src ≠ .scrub ∧ ((aloft { guards := [(31, copying)] }).core 0).guard 31 = some copying
      ∧ t.ranges.length + (mergedReads q.req.block (t.slots.dropWhile (fun p => p ≠ q))).length ≤ 1024) := by decide +kernel

theorem wit_StackService_recopy :
    ∀ q ∈ [copying, { copying with again := true }, { copying with again := true, recopies := 7 }],
      ((aloft { guards := [(31, q)] }).core 0).guards.find? (fun p => p.1 == 31) = some (31, q) ∧ q.copying = true
        ∧ q.first = false ∧ (aloft { guards := [(31, q)] }).coreRuns 0 = true
        ∧ (aloft { guards := [(31, q)] }).coreServed 0 (fun s => s.recopied 0 31 q) = true := by decide +kernel

/-- A frame of write data for block 7 of the host's request 3, and one of read data. -/
def dataFrame (kind : Nat) : LinkFrame :=
  { kind, flags := 0, block := 7, src := 64, tag := 3, gen := 0, ctx := 0xFFF, payload := List.replicate 256 9 }

/-- A link end that keeps frame f with SEQ q, on its way to a receiver that expects SEQ e. -/
def onWire (q e : Nat) (f : LinkFrame) : LinkEnd := { nextSeq := (q + 1) % 256, expect := e, held := [(q, f)], wire := [q] }

theorem wit_StackLinkAndUpkeep_accepted :
    (let t : Stack := { ready with toStack := { nextSeq := 255, expect := 255 },
                                   awaitData := [{ src := srcOf 64, tag := 3, write := true, block := 7 }] }
     ((stacked t).stk 0).linkUp = true ∧ (t.lane true).send (dataFrame 2) = onWire 255 255 (dataFrame 2)
      ∧ (onWire 255 255 (dataFrame 2)).wire = 255 :: []
      ∧ (onWire 255 255 (dataFrame 2)).held.find? (fun p => p.1 == 255) = some (255, dataFrame 2)
      ∧ linkFields (linkBytes 255 (dataFrame 2)) = dataFrame 2 ∧ t.meshQ = [] ∧ t.slots = [])
    ∧ (let t : Stack := { ready with toDie := onWire 0 0 (dataFrame 3), responses := [.data (srcOf 64) 3 [] []] }
       ((stacked t).stk 0).linkUp = true ∧ (t.lane false).wire = 0 :: []
        ∧ (t.lane false).held.find? (fun p => p.1 == 0) = some (0, dataFrame 3)
        ∧ linkFields (linkBytes 0 (dataFrame 3)) = dataFrame 3) := by decide +kernel

theorem wit_StackLinkAndUpkeep_badCrc : linkCrcOk (upsetBytes (linkBytes 255 (dataFrame 2)) [(16, 1)]) = false := by
  rw [linkCrcOk, linkBytes, crc32c_eq_crcGo, crc32c_eq_crcGo]
  decide +kernel

theorem wit_StackLinkAndUpkeep_errors :
    7 ≤ ({ onWire 255 255 (dataFrame 2) with fails := 7 } : LinkEnd).fails
    ∧ (let e := onWire 0 255 (dataFrame 2)
       (({ ready with toStack := e } : Stack).lane true) = e ∧ (0 : Nat) ≠ e.expect
        ∧ e.held.find? (fun p => p.1 == 0) = some (0, dataFrame 2)) := by decide +kernel

theorem wit_StackLinkAndUpkeep_retrain :
    ((stacked { state := .retraining, retrainFails := 2 }).stk 0).state = .retraining
    ∧ 7 ≤ ((List.replicate 7 0).filter (fun x => decide ((stacked {}).env.ticks < x + 50000000))).length
    ∧ (([] : List Nat).filter (fun x => decide ((stacked {}).env.ticks < x + 50000000))).length < 7 := by decide

theorem wit_StackLinkAndUpkeep_upkeep :
    (let t : Stack := { ready with scrubPos := 805306367 }
     t.linkUp = true ∧ t.scrubPeriod ≠ 0 ∧ t.bankSlots (blkBank (t.scrubPos / 4)) = []
      ∧ (t.strike []).sense t.scrubPos = .none ∧ (t.strike [(805306367, 3, 0x81)]).sense t.scrubPos = .one 3 0x81
      ∧ (t.strike [(805306367, 3, 0x81), (805306367, 67, 1)]).sense t.scrubPos = .many
      ∧ ({ t with slots := [{ req := hostReq true 0xFFF 0 }] } : Stack).bankSlots (blkBank (t.scrubPos / 4)) ≠ [])
    ∧ (511 < 512 ∧ ({ state := .fault } : Stack).powered = true)
    ∧ (ready.srEn = true ∧ ready.state = .ready ∧ ready.slots = [] ∧ ready.meshQ = []) := by decide +kernel
/-! ### Hypotheses of the statements: the ballast engine and the knots -/

theorem wit_BallastRegisters : (stacked {}).stkWin 0 = true ∧ (1 : W32).toNat.testBit 0 = true := by decide

/-- Every stack in FAULT, a load of each engine from `table` in progress. -/
def loadingState (table : Nat) : State :=
  { rigged {} with stks := (List.range 16).map (fun i => (i, { state := .fault, bal := { loading := true, loadAt := table } })) }

theorem wit_BallastRegisters_loading :
    (0 < 16 ∧ ((loadingState 0).stk 0).bal.loading = true ∧ (loadingState 0).ownSpan 0 balBytes = false)
    ∧ (((loadingState (at5 0 0).toNat).stk 0).bal.loading = true
      ∧ (loadingState (at5 0 0).toNat).ownSpan (at5 0 0).toNat balBytes = true) := by decide

theorem wit_BallastRegisters_served :
    (loadingState (at5 0 0).toNat).served (.ballast 0) none (fun s => (s.readBytes (at5 0 0).toNat balBytes).1) = true :=
  State.served_of_still _ _ _ (by decide)
    (fun c => by rcases c with _ | c <;> rfl) (fun _ _ h => h.readBytes _ _)

/-- A segment of 64 bytes at scratch byte 0x1000, of a BALLAST descriptor whose engine is that of stack 0. -/
def segDesc : List Byte :=
  leBytes 8 (at5 1 0x1000).toNat ++ leBytes 8 (at5 0 0).toNat ++ leBytes 4 64 ++ leBytes 4 1 ++ leBytes 8 0 ++ leBytes 4 0
    ++ leBytes 2 0xFFF ++ [3] ++ List.replicate 25 0

/-- A RUN of one element of group 0. -/
def runSeg : List Byte :=
  [2, 0] ++ leBytes 2 0 ++ leBytes 4 0 ++ leBytes 4 1 ++ leBytes 4 1 ++ leBytes 8 (at5 0 0x10000).toNat ++ leBytes 4 4
    ++ List.replicate 36 0

/-- An OPEN with κ = 1. -/
def openSeg : List Byte := [1, 0, 0, 0] ++ leBytes 4 0x3F800000 ++ List.replicate 56 0

/-- A group of one element, with FREEZE as given. -/
def oneGroup (freeze : Bool) : List Byte :=
  leBytes 8 (at5 0 0).toNat ++ leBytes 4 1 ++ leBytes 4 1 ++ leBytes 4 0 ++ List.replicate 16 0 ++ [if freeze then 3 else 1]
    ++ List.replicate 27 0

/-- Core 0 sends a segment to the engine of stack 0; every stack is ready. -/
def sends (seg : List Byte) (b : BalSt) : State :=
  { aloft { scratch := mwrite [] 0x1000 seg,
            reel0 := { pending := 1, tail := 0, prog := [{ idx := 0, owner := .a, desc := segDesc }], owners := [.a] } } with
    stks := (0, { state := .ready, bal := b }) :: (List.range 15).map (fun i => (i + 1, { state := .ready, bal := b })) }

/-- The descriptor in progress. -/
def segProg : ReelProg := { idx := 0, owner := .a, desc := segDesc }

/-- An engine in APPLY at step 1 with one group. -/
def applies (freeze : Bool) : BalSt := { loaded := true, state := .apply, step := 1, copy := mwrite [] 0 (oneGroup freeze) }

set_option maxRecDepth 20000 in
theorem wit_BallastSegments_run :
    ∀ e ∈ [({} : BalSt), { applies false with state := .skip }, applies true, applies false], ∀ residue : Bool,
      (sends runSeg e).SendsSegment 0 0 2 0 segProg runSeg 0 residue := by
  intro e he residue
  fin_cases he <;> cases residue <;>
    exact ⟨by decide, by decide, by decide, by decide, by decide, by decide +kernel, by decide, ⟨0, by decide⟩, by decide,
      by decide, by decide, by decide +kernel, by decide +kernel⟩

theorem wit_BallastSegments_open :
    ∀ residue : Bool, (sends openSeg { loaded := true, watch := (at5 0 0).toNat, armed := true }).SendsSegment 0 0 1 0 segProg
      openSeg 0 residue := by
  intro residue
  cases residue <;>
    exact ⟨by decide, by decide, by decide, by decide, by decide, by decide +kernel, by decide, ⟨0, by decide⟩, by decide,
      by decide, by decide, by decide +kernel, by decide +kernel⟩

theorem wit_BallastSegments_checks :
    ((sends runSeg {}).segCheck 0 runSeg).1 ≠ 0
    ∧ ((sends runSeg { applies false with state := .skip }).segCheck 0 runSeg).1 = 0
    ∧ (((sends runSeg (applies true)).segCheck 0 runSeg).1 = 0 ∧ (applies true).state ≠ .skip
      ∧ (groupOf (applies true).copy (segGroup runSeg)).freeze = true)
    ∧ (((sends runSeg (applies false)).segCheck 0 runSeg).1 = 0 ∧ (groupOf (applies false).copy (segGroup runSeg)).freeze = false
      ∧ (groupOf (applies false).copy (segGroup runSeg)).t0 < (applies false).step
      ∧ 0 ∈ (sends runSeg (applies false)).segHolders 0 runSeg
      ∧ (∀ h ∈ (sends runSeg (applies false)).segHolders 0 runSeg, ((sends runSeg (applies false)).stk h).bal.takes = true)
      ∧ (applies false).prog.length < 4)
    ∧ (let s := sends openSeg { loaded := true, watch := (at5 0 0).toNat, armed := true }
       (s.segCheck 0 openSeg).1 = 0 ∧ (∀ h ∈ s.segHolders 0 openSeg, (s.stk h).bal.takes = true) ∧ (s.stk 15).bal.input = []
        ∧ (s.stk 15).bal.prog = [] ∧ (s.stk 15).bal.loading = false ∧ (s.stk 15).bal.armed = true) := by decide +kernel

/-- A segment in an engine. -/
def q1 (bs : List Byte) : Seg := { id := 1, bytes := bs }

theorem wit_BallastSegments_full :
    (let e : BalSt := { applies false with prog := List.replicate 4 (q1 runSeg) }
     (sends runSeg e).SendsSegment 0 0 2 0 segProg runSeg 0 false ∧ 4 ≤ e.prog.length) := by
  exact ⟨⟨by decide, by decide, by decide, by decide, by decide, by decide +kernel, by decide, ⟨0, by decide⟩, by decide,
    by decide, by decide, by decide +kernel, by decide +kernel⟩, by decide⟩

/-- The same with the engine of stack 1 halted. -/
def sendsHalted : State :=
  { sends runSeg (applies false) with stks := (0, { state := .ready, bal := applies false })
      :: (1, { state := .fault, bal := { applies false with halted := true } }) :: (List.range 14).map (fun i => (i + 2, ready)) }

theorem wit_BallastSegments_noRoom :
    sendsHalted.SendsSegment 0 0 2 0 segProg runSeg 0 false ∧ (sendsHalted.segCheck 0 runSeg).1 = 0
    ∧ 1 ∈ sendsHalted.segHolders 0 runSeg ∧ (sendsHalted.stk 1).bal.takes = false := by
  exact ⟨⟨by decide, by decide, by decide, by decide, by decide, by decide +kernel, by decide, ⟨0, by decide⟩, by decide,
    by decide, by decide, by decide +kernel, by decide +kernel⟩, by decide +kernel, by decide, by decide⟩

theorem wit_BallastSegments_engine :
    (({ input := [q1 openSeg] } : BalSt).input = q1 openSeg :: [] ∧ (q1 openSeg).reel = none ∧ leAt openSeg 0 1 = 1)
    ∧ ((stacked { bal := { input := [q1 runSeg] } }).served (.ballast 0) none (fun s => s.balNext 0 false) = true
      ∧ leAt runSeg 0 1 ≠ 1 ∧ ({ input := [q1 runSeg] } : BalSt).prog.length < 4 ∧ ((stacked {}).stk 0).state ≠ .fault)
    ∧ (sends runSeg {}).segWaits 1 = false
    ∧ (let s := stacked { bal := { active := true, sweepGroup := 4095 } }
       (s.stk 0).bal.active = true ∧ s.served (.ballast 0) none (fun s => s.sweepStep 0) = true
        ∧ (({ s with acc := { src := .ballast 0 } } : State).sweepGroups 0 (4096 - 4095) 4095 0).2 = none)
    ∧ (let s : State := { rigged {} with stks := (0, { state := .ready, bal := { active := true, copy := mwrite [] 0 ((oneGroup false).set 36 0x11), parity := true } })
                              :: (List.range 15).map (fun i => (i + 1, { state := .ready })) }
       (({ s with acc := { src := .ballast 0 } } : State).sweepGroups 0 (4096 - 0) 0 0).2 = some (0, 0, 0)
        ∧ s.served (.ballast 0) none (fun s => s.sweepStep 0) = true) := by decide +kernel

/-- Core 0 runs, and one knot of a kind and scope is allocated with entry e. -/
def knotted (kind scope : Nat) (e : Knot) : State :=
  { aloft { sa := runs [] [], sb := runs [] [] } with
    rig := { live := { bind := [(0, 1)],
                       ranges := [{ first := 0, count := 1, kind, scope, owner := 0, ctx := 0xFFF, tree := 0 }] } },
    knot := { knots := [(0, e)] }, gons := [(0, { mode := 1 })] }

theorem wit_KnotInstructions :
    ((knotted 0 0 { valid := true }).Acts 0 .a (word 3 4 0 0) [iA (word 3 4 0 0)] ∧ fmtI (word 3 4 0 0) = true
      ∧ iw (word 3 4 0 0) 31 18 = 0 ∧ (knotted 0 0 { valid := true }).knotCheck .arrive (iw (word 3 4 0 0) 17 0)
        (some ((knotted 0 0 { valid := true }).logNum 0)) = none)
    ∧ (knotted 0 0 { valid := true }).knotCheck .arrive (iw (word 3 4 0 0x3FFFF) 17 0)
        (some ((knotted 0 0 { valid := true }).logNum 0)) = some 0x50 := by decide

/-- An operation of stream A of core 0 on knot 0. -/
def knotMsg (op : KOp) (arg : Nat) : KMsg := { who := .stream 0 .a 1 1 false, op, knot := 0, arg, node := 0, agent := 0 }

/-- A state with that operation on its way. -/
def sendsKnot (kind : Nat) (e : Knot) (op : KOp) (arg : Nat) : State :=
  { knotted kind 1 e with knot := { knots := [(0, e)], ops := [knotMsg op arg] } }

theorem wit_KnotOperationsAtTheirHome :
    ∀ op ∈ [KOp.arrive, .give, .take, .wait, .set, .store, .read, .abort], ∀ kind < 3, ∀ aborted : Bool, ∀ arg ∈ [0, 1, 0xFFFFFFFF],
      let s := sendsKnot kind { valid := true, limit := 1, aborted } op arg
      s.knot.ops[0]? = some (knotMsg op arg) ∧ s.canArrive (knotMsg op arg) s.knot.ops = true ∧ s.dieOut (0 / 65536) = false
        ∧ (s.rangeOf 0).map (·.kind) = some kind ∧ (s.rangeOf 0).map (·.scope) = some 1 ∧ s.teth.armed = []
        ∧ (s.kn 0).waiters = [] ∧ (s.kn 0).aborted = aborted := by decide +kernel

theorem wit_KnotOperationsAtTheirHome_corners :
    ({ valid := true, limit := 1 } : Knot).limit ≤ Nat.min (0 + 1) 0xFFFFFFFF
    ∧ ({ limit := 0xFFFFFFFF, value := 5 } : Knot).limit < 5 + 0xFFFFFFFF ∧ Ecc.corrected ≠ Ecc.double := by decide

/-- A reply for who. -/
def repliesTo (who : KWho) (k : Core) (status : Nat) : State :=
  { knotted 0 1 {} with cores := [(0, k)], stks := (List.range 16).map (fun i => (i, ready)),
                        knot := { pairs := [(3, { serial := 4 })], replies := [{ knot := 0, who, op := .wait, status }] } }

theorem wit_KnotRepliesAndTrees_replies :
    (∀ who ∈ [KWho.stream 0 .a 1 1 true, .pair 3 4, .verdict 0 9, .step 0 .b 1],
      (repliesTo who {} 0).knot.replies[0]? = some { knot := 0, who, op := .wait, status := 0 }
        ∧ ((repliesTo who {} 0).knot.replies.take 0).any (fun q => q.who.node == who.node && homeOf q.knot == homeOf 0) = false)
    ∧ ((repliesTo (.pair 3 4) {} 0).pair 3).serial = 4
    ∧ (let k : Core := { watch := { verdictOut := true, verdictId := 9 } }
       ((repliesTo (.verdict 0 9) k 0).core 0).watch.verdictOut = true ∧ ((repliesTo (.verdict 0 9) k 0).core 0).watch.verdictId = 9) := by decide +kernel

/-- A stream's step waits for its reply: a valid table, every stack in FAULT. -/
def stepping (status : Nat) : State :=
  { repliesTo (.step 0 .b 1) { watch := { valid := true, base := (at5 0 0).toNat } } status with
    stks := (List.range 16).map (fun i => (i, { state := .fault })) }
/-- The reply it waits for. -/
def stepAnswer (status : Nat) : KReply := { knot := 0, who := .step 0 .b 1, op := .wait, status }

theorem stepSlots_still {a : AccSt} (base : Nat) (ovf : Bool) (n : Nat) :
    ∀ (i : Nat) {s : State}, s.Still a → (s.stepSlots base ovf i n).1.Still a := by
  induction n with
  | zero => exact fun _ _ h => h
  | succ n ih =>
    intro i s h
    have q (bs : List Byte) := ih (i + 1) ((h.readBytes (slotAddr base i) 64).writeBytes {} (slotAddr base i + 12) bs)
    rw [State.stepSlots]
    exact q _

theorem event_still {a : AccSt} {s : State} (h : s.Still a) (code source arg : Nat) : (s.event code source arg).Still a :=
  ⟨h.1, h.2.1, h.2.2⟩

theorem retire_still {a : AccSt} {s : State} (h : s.Still a) (c : Nat) (x : Stream) : (s.retire c x).Still a := by
  refine h.updCore c _ (fun k => ?_)
  cases x <;> rfl

theorem tableStep_still {a : AccSt} {s : State} (h : s.Still a) (c base : Nat) (ovf : Bool) : (s.tableStep c base ovf).Still a := by
  have q := stepSlots_still base ovf 4095 1 ((h.readBytes base 64).readBytes (base + 64) 1)
  unfold State.tableStep
  generalize 4095 = n at q ⊢
  dsimp only
  split
  · refine event_still ?_ _ _ _
    refine State.Still.writeBytes ?_ _ _ _
    refine State.Still.writeBytes ?_ _ _ _
    exact q
  · refine State.Still.writeBytes ?_ _ _ _
    refine State.Still.writeBytes ?_ _ _ _
    exact q

theorem raise_still {a : AccSt} {s : State} (h : s.Still a) (c : Nat) (x : Stream) (code : Nat) : (s.raise c x code).Still a := by
  refine (h.updCore c (fun k =>
    let t := k.st x
    let k := k.setSt x { t with state := .exception, excCode := code, excPc := t.pc, waitTicks := 0, closeAt := none, closed := false }
    if k.haltBoth then k.setSt (sOther x) (k.st (sOther x)).stop else k) (fun k => ?_) : _)
  dsimp only
  split <;> cases x <;> rfl

theorem wit_KnotRepliesAndTrees_step :
    ∀ status ∈ [0, 2 ^ 63],
      (stepping status).knot.replies[0]? = some (stepAnswer status) ∧ ((stepping status).core 0).watch.valid = true
        ∧ (((stepping status).core 0).st .b).stopReq = false := by decide +kernel

theorem wit_KnotRepliesAndTrees_stepServed (status : Nat) :
    (stepping status).coreServed 0 (fun s => s.replyIn 0 (stepAnswer status) none) = true := by
  refine State.served_of_still _ _ _ ?_ (fun c => ?_) (fun u _ h => ?_)
  · exact (by decide : ∀ i < 16, ((stepping 0).stk i).state = .fault)
  · rcases c with _ | c <;> rfl
  · have heard (s : State) (m n : Nat) {a : AccSt} (h : s.Still a) : (s.hear m n).Still a := by
      unfold State.hear; split <;> exact h
    have q (u : State) (h : u.Still { src := .core ((stepping status).logNum 0), core := some 0 }) :
        ((((u.hear (homeOf 0) 0).updCore 0 Core.poke).stepReply 0 .b status).stepStopped 0 .b).Still
          { src := .core ((stepping status).logNum 0), core := some 0 } := by
      have v := ((heard _ (homeOf 0) 0 h).updCore 0 Core.poke (fun k => by unfold Core.poke; split <;> rfl)).updCore 0
        (fun k => { k with watch := { k.watch with verdict := none } }) (fun _ => rfl)
      refine State.Still.updCore ?_ 0 _ (fun k => rfl)
      unfold State.stepReply
      dsimp only
      split
      · exact raise_still v 0 .b 0x35
      · split
        · exact raise_still v 0 .b 0x33
        · refine retire_still ?_ _ _
          apply tableStep_still
          exact v
    exact q { u with knot := { u.knot with replies := u.knot.replies.eraseIdx 0 } } h

/-- A group knot with entry e and a tree of a parent and children, and a message for it. -/
def treed (parent : Nat) (children : List Nat) (e : Knot) (m : TreeMsg) : State :=
  { knotted 0 2 e with
    rig := { live := { bind := [(0, 1)], trees := [{ parent, children }],
                       ranges := [{ first := 0, count := 1, kind := 0, scope := 2, owner := 0, ctx := 0xFFF, tree := 0 }] } },
    knot := { knots := [(0, e)], tree := [m] } }
/-- A tree message. -/
def treeMsg (kind : TreeKind) (phase gen : Nat) : TreeMsg := { kind, knot := 0, src := 6, dst := 5, gen, phase, err := false }
/-- The last phase of a group knot with a local limit of 2, met or not. -/
def lastPhase (value : Nat) : Knot := { valid := true, limit := 2, value, phase := 65535 }

theorem wit_KnotRepliesAndTrees_trees :
    (∀ kind ∈ [TreeKind.arrive, .done, .abort], ∀ phase ∈ [65535, 0, 7], ∀ value ∈ [0, 2], ∀ parent ∈ [0xFFFF, 6],
      let s := treed parent [6] (lastPhase value) (treeMsg kind phase 0)
      s.knot.tree[0]? = some (treeMsg kind phase 0) ∧ (s.knot.tree.take 0).any (fun q => q.src == (6 : Nat)) = false
        ∧ (s.rangeOf 0).map (·.scope) = some 2 ∧ (s.rangeOf 0).map s.rangeGen = some 0 ∧ (s.kn 0).waiters = []
        ∧ (s.treeOf (s.kn 0)).parent = parent ∧ (s.kn 0).childIn + 1 = (s.treeOf (s.kn 0)).children.length
        ∧ (s.kn 0).upSent = false ∧ (s.kn 0).limit ≠ 0)
    ∧ (65535 + 1) % 65536 = 0 ∧ lastPhase 2 ≠ { lastPhase 2 with value := (lastPhase 2).limit + 1 }
    ∧ ((treed 6 [] (lastPhase 0) (treeMsg .arrive 0 1)).rangeOf 0).map (treed 6 [] (lastPhase 0) (treeMsg .arrive 0 1)).rangeGen ≠ some 1
    ∧ (treed 6 [] (lastPhase 0) { treeMsg .abort 0 0 with knot := 1 }).rangeOf 1 = none
    ∧ ((knotted 0 1 {}).rangeOf 0).map (·.scope) = some 1 := by decide +kernel

theorem wit_KnotRegistersAndEvents :
    ((knotted 0 0 {}).pairOk 0 = true ∧ ((knotted 0 0 {}).pair 0).waiting = false
      ∧ ((knotted 0 0 {}).knotCheck .give 0 none).isSome = true ∧ (knotted 0 0 {}).knotCheck .arrive 0 none = none)
    ∧ (({ knotted 0 0 {} with knot := { pairs := [(0, { waiting := true })] } } : State).pair 0).waiting = true
    ∧ ((knotted 0 0 {}).diesUp = true ∧ (knotted 0 0 {}).whoOk (.gon 0) = true ∧ (knotted 0 0 {}).knotWin 262143 = true)
    ∧ (let s : State := { knotted 0 0 {} with knot := { pairs := [(0, { stage2 := 2 ^ 31 })] } }
       (s.pair 0).stage2.testBit 31 = true ∧ (s.rangeOf 0).isSome = true ∧ (s.kn 0).waiters = [] ∧ s.teth.armed = [])
    ∧ (7 ∈ ({ beats := [3, 7] } : KnotSt).beats ∧ 3 ∈ ({ beats := [3, 7] } : KnotSt).beats)
    ∧ ∀ n ∈ [3, 7], (let s : State := { knotted 0 0 {} with env := { ticks := 50000 } }
       s.diesUp = true ∧ n ∉ s.knot.lostLinks ∧ sget 0 s.knot.heard n + 50000 ≤ s.env.ticks) := by decide

/-- An event on its way to a ring at the start of the stacks whose HEAD is 0. -/
def ringed (tail : Nat) : State :=
  { knotted 0 0 {} with stks := (List.range 16).map (fun i => (i, ready)), knot := { events := [{ code := 1, source := 0, arg := 0 }] },
                        rip := { evtBase := (at5 0 0).toNat, evtBaseSet := true, tail } }

theorem wit_KnotRegistersAndEvents_ring :
    ((ringed 0).knot.events[0]? = some { code := 1, source := 0, arg := 0 } ∧ (ringed 0).diesUp = true
      ∧ (ringed 0).rip.evtBaseSet = true)
    ∧ ((ringed 1).rip.head + 1) % 4096 = (ringed 1).rip.tail
    ∧ (((ringed 0).rip.head + 1) % 4096 ≠ (ringed 0).rip.tail
      ∧ (let q : State := { ringed 0 with knot := { (ringed 0).knot with events := [] }, acc := { src := .gondola 0 } }
         q.inOwnMem ((ringed 0).rip.evtBase + 16 * 0) 16 = true
          ∧ (q.writeBytes {} ((ringed 0).rip.evtBase + 16 * 0) (q.eventBytes { code := 1, source := 0, arg := 0 })).2 = true)
      ∧ (ringed 0).served (.gondola 0) none (fun s => s.eventIn 0 { code := 1, source := 0, arg := 0 }) = true) := by
  decide +kernel
/-! ### Hypotheses of the statements: links, the directory and the reduction unit -/

/-- A port that is up on a link to device 6. -/
def upPort : Port := { state := .up, role := .direct, peerRole := 1, peerDev := 6 }

/-- Port 0 of a device in RIGGED, with a key shared with device 6 and context 1 open. -/
def linked (u : Port) : State :=
  { rigged {} with teth := { self := 5, ports := [(0, u)], keys := [{ dev := 6, tx := [], rx := [] }],
                             ctxs := [(1, { state := .opened })] } }

/-- A hop header. -/
def hop (lseq : Nat) : Hop := { lseq, lack := 0 }

/-- A block of device 6 for this device. -/
def blk (cls kind : Nat) : Block := { cls, kind, dst := 5, src := 6, ctx := 1, payload := List.replicate 256 0 }

/-- A block as device 6 sends it, and as it is in the clear. -/
def sealed (b : Block) : Block := sealBlock [] b
def clear (b : Block) : Block := { sealBlock [] b with payload := b.payload }
/-- Its CRC. -/
def crcOf (h : Hop) (b : Block) : Nat := crc32c (wireBody h (sealed b))

/-- What a block for this device needs to be authenticated. -/
theorem opens {s : State} {p : Nat} {b : Block} (he : b.enc = true)
    (hk : s.openRx p (sealed b) = openBlock [] (sealed b)) : s.openRx p (sealed b) = some (clear b) :=
  hk.trans (openBlock_sealBlock [] b he)

/-- The conditions of R407 on a block for this device. -/
theorem accepts {s : State} {p : Nat} {h : Hop} {b : Block} (he : b.enc = true)
    (hp : s.portWin p = true ∧ (s.port p).state = .up ∧ h.lseq = (s.port p).expect ∧ b.dst = s.teth.self)
    (hk : s.openRx p (sealed b) = openBlock [] (sealed b))
    (hf : isReplay (clear b) (s.flowsFor p (clear b)) = false) (hc : s.CtxTakes (clear b)) :
    s.AcceptsBlock p h (sealed b) (crcOf h b) (clear b) :=
  ⟨⟨hp.1, hp.2.1, rfl, hp.2.2.1⟩, .inl hp.2.2.2, opens he hk, hf, hc⟩

/-- What a received block comes to once it has passed the checks of its link and its AUTH. -/
theorem rxIn_sealed {s : State} {p : Nat} {h : Hop} {b : Block} (body : State → Block → State) (he : b.enc = true)
    (hp : s.portWin p = true ∧ (s.port p).state = .up ∧ s.rxNext p h = true ∧ kindOk b.cls b.kind = true)
    (hd : b.dst = (s.rxAccept p h (sealed b)).teth.self)
    (hk : (s.rxAccept p h (sealed b)).openRx p (sealed b) = openBlock [] (sealed b)) :
    s.rxIn p h (sealed b) (crcOf h b) body
      = (match ((s.rxAccept p h (sealed b)).rxClear p (clear b)).2 with
         | some c => body ((s.rxAccept p h (sealed b)).rxClear p (clear b)).1 c
         | none => ((s.rxAccept p h (sealed b)).rxClear p (clear b)).1) := by
  have hk := opens he hk
  have hc : kindOk (sealed b).cls (sealed b).kind = true := hp.2.2.2
  have hd : (sealed b).dst = (s.rxAccept p h (sealed b)).teth.self := hd
  simp [State.rxIn, State.rxBlock, State.rxCheck, hp.1, hp.2.1, hp.2.2.1, hc, hd, hk, crcOf]
  all_goals rfl

/-- The link that expects number 65535, with a route to device 7. -/
def busy : State :=
  { linked { upPort with expect := 65535 } with
    teth := { (linked { upPort with expect := 65535 }).teth with peers := [(7, { state := .up, ports := 1 })] } }

theorem wit_BlocksOnALink :
    ((linked upPort).portWin 0 = true ∧ ((linked upPort).port 0).state = .up ∧ (hop 65535).lseq ≠ upPort.expect
      ∧ (hop 0).lseq = upPort.expect ∧ 7 ≤ ({ upPort with fails := 7 } : Port).fails)
    ∧ (let b := { blk 2 2 with dst := 7, hops := 0 }
       busy.Arrives 0 (hop 65535) b (crc32c (wireBody (hop 65535) b)) ∧ ¬busy.ForMe b ∧ b.hops = 0)
    ∧ (let b := { blk 0 1 with dst := 8, hops := 1 }
       busy.Arrives 0 (hop 65535) b (crc32c (wireBody (hop 65535) b)) ∧ ¬busy.ForMe b ∧ b.hops ≠ 0
        ∧ busy.route b.dst b.src b.ctx = none)
    ∧ (let b := { blk 1 5 with dst := 7 }
       busy.Arrives 0 (hop 65535) b (crc32c (wireBody (hop 65535) b)) ∧ ¬busy.ForMe b ∧ b.hops ≠ 0
        ∧ (busy.route b.dst b.src b.ctx).isSome = true) := by
  refine ⟨by decide, ⟨⟨by decide, by decide, rfl, rfl⟩, ?_, by decide⟩, ⟨⟨by decide, by decide, rfl, rfl⟩, ?_, by decide⟩,
    ⟨⟨by decide, by decide, rfl, rfl⟩, ?_, by decide⟩⟩ <;> (unfold State.ForMe; decide)

/-- The CRC of a block of no payload. -/
theorem wit_BlocksOnALink_crc : crc32c (wireBody (hop 0) { blk 2 2 with payload := [] }) ≠ 0 := by
  rw [crc32c_eq_crcGo]; decide +kernel

theorem wit_BlocksOnALink_checks :
    ((linked upPort).Arrives 0 (hop 0) (blk 2 3) (crc32c (wireBody (hop 0) (blk 2 3))) ∧ (linked upPort).ForMe (blk 2 3))
    ∧ (linked upPort).openRx 0 { blk 2 3 with src := 8 } = none
    ∧ (linked upPort).openRx 0 (sealed (blk 2 3)) = some (clear (blk 2 3))
    ∧ (let s : State := { linked upPort with teth := { (linked upPort).teth with flows := [{ cls := 2, src := 6, dst := 5, ctx := 1, last := some 0 }] } }
       isReplay (clear (blk 2 3)) (s.flowsFor 0 (clear (blk 2 3))) = true)
    ∧ isReplay (clear (blk 2 3)) ((linked upPort).flowsFor 0 (clear (blk 2 3))) = false
    ∧ ¬(linked upPort).CtxTakes (clear { blk 2 3 with ctx := 2 }) := by
  refine ⟨⟨⟨by decide, by decide, rfl, rfl⟩, .inl rfl⟩, by decide, opens rfl rfl, by decide, by decide, ?_⟩
  unfold State.CtxTakes
  decide

/-- A BRIDLE block with a message of a type. -/
def bridleBlk (type : Nat) : Block := { blk 0 1 with payload := (leBytes 16 type) ++ List.replicate 240 0 }

theorem wit_AcceptedBlocks_bridle : ∀ type ∈ [3, 4, 5, 6, 7, 8, 9, 0x0A, 0x0B],
    (linked upPort).AcceptsBlock 0 (hop 0) (sealed (bridleBlk type)) (crcOf (hop 0) (bridleBlk type)) (clear (bridleBlk type))
      ∧ (clear (bridleBlk type)).cls = 0 ∧ (clear (bridleBlk type)).kind = 1 ∧ (leBytes 16 type).length = 16
      ∧ leAt (leBytes 16 type) 0 1 = type := by
  intro type i
  refine ⟨accepts rfl ⟨by decide, by decide, by decide, rfl⟩ rfl ?_ (fun c => by rcases c with c | c <;> cases c), rfl, rfl, rfl, ?_⟩
  · rfl
  · exact (by decide : ∀ type ∈ [3, 4, 5, 6, 7, 8, 9, 0x0A, 0x0B], leAt (leBytes 16 type) 0 1 = type) type i

/-- A device with knots of its own and a link, and an operation on knot 0 from another device. -/
def knotLink : State := { linked upPort with rig := { live := { ranges := [{ first := 0, count := 1, kind := 2, scope := 1, owner := 0, ctx := 0xFFF, tree := 0 }] } } }
def opMsg : List Byte := leBytes 8 1 ++ leBytes 4 (2 * 2 ^ 28) ++ leBytes 4 7

theorem wit_AcceptedBlocks_knot :
    opMsg.length = 16 ∧ leAt opMsg 0 1 = 1 ∧ KOp.ofMinor (leAt opMsg 8 4 / 2 ^ 28) = some .give
    ∧ knotLink.knotCheck .give (leAt opMsg 8 4 % 2 ^ 18) none = none ∧ knotLink.knotHeld (leAt opMsg 8 4 % 2 ^ 18) = false := by
  decide

/-- A read request of one entry in control space. -/
def ctrlRead : Block := { blk 2 2 with tag := 1, payload := leBytes 8 (at5 15 0).toNat ++ List.replicate 248 0 }
/-- A write of len bytes at offset o has been announced; every stack is ready. -/
def announced (o len : Nat) : State :=
  { linked upPort with stks := (List.range 16).map (fun i => (i, { state := .ready })),
                       teth := { (linked upPort).teth with rxWrites := [⟨(6, 1, 2), [((at5 0 o).toNat, 0, len)]⟩] } }

theorem wit_AcceptedBlocks_requests :
    (linked upPort).AcceptsBlock 0 (hop 0) (sealed ctrlRead) (crcOf (hop 0) ctrlRead) (clear ctrlRead)
    ∧ (linked upPort).AcceptsBlock 0 (hop 0) (sealed (blk 2 3)) (crcOf (hop 0) (blk 2 3)) (clear (blk 2 3))
    ∧ (announced 252 4).AcceptsBlock 0 (hop 0) (sealed (blk 2 4)) (crcOf (hop 0) (blk 2 4)) (clear (blk 2 4))
    ∧ (announced 0 256).AcceptsBlock 0 (hop 0) (sealed (blk 2 4)) (crcOf (hop 0) (blk 2 4)) (clear (blk 2 4)) := by
  refine ⟨accepts rfl (by decide) rfl rfl ?_, accepts rfl (by decide) rfl rfl ?_, accepts rfl (by decide) rfl rfl ?_,
    accepts rfl (by decide) rfl rfl ?_⟩ <;> (unfold State.CtxTakes; decide)

theorem wit_AcceptedBlocks_entries :
    ((clear ctrlRead).tag = 1 ∧ (clear ctrlRead).payload.length = 256
      ∧ aDev (leAt (clear ctrlRead).payload 0 8) = (linked upPort).teth.self ∧ aSpace (leAt (clear ctrlRead).payload 0 8) = 15)
    ∧ ((announced 252 4).teth.rxWrites.find? (fun q => q.flow == (6, 1, 2)) = some ⟨(6, 1, 2), [((at5 0 252).toNat, 0, 4)]⟩
      ∧ aDev (at5 0 252).toNat = 5 ∧ aSpace (at5 0 252).toNat ≠ 15 ∧ (at5 0 252).toNat % 256 + 4 ≤ 256
      ∧ (at5 0 252).toNat % 4 = 0 ∧ (at5 0 0).toNat % 256 + 256 ≤ 256) := by decide +kernel

/-- The state in which port p's access is made. -/
def asTether (s : State) (p : Nat) : State := { s with acc := { src := .tether p } }

/-- What it takes for a received block's accesses to be served at once. -/
theorem rx_served {s : State} {p : Nat} {h : Hop} {b c : Block} {body : State → Block → State} (he : b.enc = true)
    (hp : s.portWin p = true ∧ (s.port p).state = .up ∧ (asTether s p).rxNext p h = true ∧ kindOk b.cls b.kind = true)
    (hd : b.dst = ((asTether s p).rxAccept p h (sealed b)).teth.self)
    (hk : ((asTether s p).rxAccept p h (sealed b)).openRx p (sealed b) = openBlock [] (sealed b))
    (hr : (((asTether s p).rxAccept p h (sealed b)).rxClear p (clear b)).2 = some c)
    (hs : (body (((asTether s p).rxAccept p h (sealed b)).rxClear p (clear b)).1 c).acc.stop = none) :
    s.served (.tether p) none (fun s => s.rxIn p h (sealed b) (crcOf h b) body) = true := by
  have q := rxIn_sealed (s := asTether s p) body he hp hd hk
  rw [hr] at q
  exact (congrArg (fun u : State => u.acc.stop.isNone) q).trans (congrArg Option.isNone hs)

theorem wit_AcceptedBlocks_readServed :
    (announced 0 256).served (.tether 0) none (fun s => s.rxIn 0 (hop 0) (sealed ctrlRead) (crcOf (hop 0) ctrlRead) (State.readReqIn 0))
      = true := rx_served (c := clear ctrlRead) rfl (by decide) rfl rfl rfl (by decide +kernel)

theorem wit_AcceptedBlocks_writeServed :
    (announced 252 4).served (.tether 0) none (fun s =>
      s.rxIn 0 (hop 0) (sealed (blk 2 4)) (crcOf (hop 0) (blk 2 4)) (State.writeDataIn 0)) = true :=
  rx_served (c := clear (blk 2 4)) rfl (by decide) rfl rfl rfl (by decide +kernel)

/-- A remote request of core 0 waits for device 6. -/
def waits (who : ReqWho) (write : Bool) (merge : List (BitVec 8 × Bool)) : State :=
  { aloft { sa := { runs [] [] with state := .waiting, wait := .far } } with teth := { (linked upPort).teth with
      reqs := [{ tag := 0, who, write, ctx := 1, gen := 0, dev := 6, addr := 0x0006000000000000, len := 4, merge }] } }

theorem wit_AcceptedBlocks_answers :
    (∀ who ∈ [ReqWho.load 0 .a 1 4 false, .vec 0 .a 3, .reel 0 1, .store 0 .a], ∀ merge ∈ [[], [((7 : BitVec 8), false)]], ∀ fault : Bool,
      (waits who false merge).AcceptsBlock 0 (hop 0) (sealed { blk 1 5 with fault }) (crcOf (hop 0) { blk 1 5 with fault })
        (clear { blk 1 5 with fault }))
    ∧ (waits (.store 0 .a) true []).AcceptsBlock 0 (hop 0) (sealed { blk 1 6 with tag := 1 })
        (crcOf (hop 0) { blk 1 6 with tag := 1 }) (clear { blk 1 6 with tag := 1 }) := by
  refine ⟨fun who hw merge hm fault => ?_, accepts rfl (by decide) rfl rfl ?_⟩
  · fin_cases hw <;> fin_cases hm <;> cases fault <;>
      exact accepts rfl (by decide) rfl rfl (by unfold State.CtxTakes; decide)
  · unfold State.CtxTakes; decide

theorem wit_AcceptedBlocks_answered :
    (∀ who ∈ [ReqWho.load 0 .a 1 4 false, .vec 0 .a 3, .reel 0 1], ∀ merge ∈ [[], [((7 : BitVec 8), false)]], ∀ fault : Bool,
      ((waits who false merge).reqFor (clear { blk 1 5 with fault }) 0 false).map (·.who) = some who
        ∧ ((waits who false merge).reqFor (clear { blk 1 5 with fault }) 0 false).map (·.merge) = some merge
        ∧ (((waits who false merge).core 0).st .a).state = .waiting ∧ (((waits who false merge).core 0).st .a).wait = .far)
    ∧ ((clear { blk 1 6 with tag := 1 }).tag = 1 ∧ (clear { blk 1 6 with tag := 1 }).payload.length = 256
      ∧ leAt (clear { blk 1 6 with tag := 1 }).payload 2 1 = 0
      ∧ ((waits (.store 0 .a) true []).reqFor (clear { blk 1 6 with tag := 1 }) 0 true).map (·.who) = some (.store 0 .a)
      ∧ (((waits (.store 0 .a) true []).core 0).st .a).stopReq = false) := by decide +kernel

/-- A bucket of 1 MiB between two ranks, of which this device is rank 0, in one part owned by logical core 0. -/
def bucket0 : Armed :=
  { slot := 0, bucket := 0, group := leBytes 2 2 ++ leBytes 2 0 ++ leBytes 2 0xFFFF ++ leBytes 2 0 ++ List.replicate 16 0
      ++ leBytes 2 1 ++ List.replicate 38 0,
    record := leBytes 8 (at5 0 0).toNat ++ leBytes 8 (at5 0 0x100000).toNat ++ leBytes 8 (at5 0 0x300000).toNat ++ [20, 0, 0, 0]
      ++ List.replicate 100 0 }
/-- The device with an armed bucket, every stack ready. -/
def arms (a : Armed) (rx : List RxReduce) : State :=
  { linked upPort with teth := { (linked upPort).teth with armed := [a], rxReduces := rx }, gons := [(0, { mode := 1 })],
                       stks := (List.range 16).map (fun i => (i, { state := .ready })) }
/-- A reduction header of a part's n blocks from rank 1. -/
def redHdr (n : Nat) : Block :=
  { blk 2 7 with payload := leBytes 2 0 ++ leBytes 2 1 ++ leBytes 2 0 ++ leBytes 2 0 ++ leBytes 4 n ++ leBytes 4 0
                              ++ List.replicate 240 0 }
/-- Reduction data awaited. -/
def rx0 (drop : Bool) (left : Nat) : RxReduce :=
  { flow := (6, 1, 2), bucket := 0, slot := 1, seg := 0, part := 0, left, at' := (at5 0 0x180000).toNat, drop }

theorem wit_AcceptedBlocks_reduction :
    (arms bucket0 []).AcceptsBlock 0 (hop 0) (sealed (redHdr 2048)) (crcOf (hop 0) (redHdr 2048)) (clear (redHdr 2048))
    ∧ (arms bucket0 [rx0 true 2]).AcceptsBlock 0 (hop 0) (sealed (blk 2 8)) (crcOf (hop 0) (blk 2 8)) (clear (blk 2 8))
    ∧ (arms bucket0 [rx0 false 2]).AcceptsBlock 0 (hop 0) (sealed (blk 2 8)) (crcOf (hop 0) (blk 2 8)) (clear (blk 2 8)) := by
  refine ⟨accepts rfl (by decide) rfl rfl ?_, accepts rfl (by decide) rfl rfl ?_, accepts rfl (by decide) rfl rfl ?_⟩ <;>
    (unfold State.CtxTakes; decide)

theorem wit_AcceptedBlocks_parts :
    (leAt (clear (redHdr 2048)).payload 8 4 ≠ 0 ∧ ((arms bucket0 []).redTakes 0 1 0 0 2048 0).isSome = true
      ∧ ((arms bucket0 []).redTakes 0 1 0 0 2049 0).isNone = true)
    ∧ ∀ drop, (arms bucket0 [rx0 drop 2]).teth.rxReduces.find? (fun q => q.flow == (6, 1, 2)) = some (rx0 drop 2)
      ∧ 1 < (rx0 drop 2).left := by decide +kernel

theorem wit_AcceptedBlocks_partServed :
    ∀ drop, (arms bucket0 [rx0 drop 2]).served (.tether 0) none (fun s =>
      s.rxIn 0 (hop 0) (sealed (blk 2 8)) (crcOf (hop 0) (blk 2 8)) State.reduceDataIn) = true := fun drop => by
  cases drop <;> exact rx_served (c := clear (blk 2 8)) rfl (by decide) rfl rfl rfl (by decide +kernel)

/-- A port in its handshake. -/
def shaking (hs : Option Handshake) : State :=
  linked { state := .handshake, role := .direct, hs := hs }

/-- The device with a handshake with device 6 end to end. -/
def e2eShaking (q : Handshake) : State :=
  { linked upPort with teth := { (linked upPort).teth with e2e := [{ q with peer := 6 }] } }

theorem wit_LinkHandshakes :
    ((shaking none).portWin 0 = true ∧ ((shaking none).port 0).state = .handshake ∧ (blk 0 0x3C).cls = 0
      ∧ (hop 0).lseq = ((shaking none).port 0).expect ∧ hsDev (blk 0 0x3C).payload ≤ (shaking none).teth.self)
    ∧ ((shaking (some { initiator := true })).port 0).hs = some { initiator := true }
    ∧ ((shaking (some { initiator := false, stage := 1 })).port 0).hs = some { initiator := false, stage := 1 }
    ∧ ((linked upPort).portWin 0 = true ∧ ((linked upPort).port 0).state = .up ∧ (blk 0 0x3C).dst = (linked upPort).teth.self
      ∧ (blk 0 0x3C).dst ≠ 0xFFFF)
    ∧ (e2eShaking { initiator := true }).e2eOf 6 = some { initiator := true, peer := 6 }
    ∧ (e2eShaking { initiator := false, stage := 1 }).e2eOf 6 = some { initiator := false, stage := 1, peer := 6 } := by decide

/-- A LINK block under the link key that ends in zeros for this direction. -/
def linkBlk : Block := { blk 3 0x3F with ctx := 0xFFF, payload := List.replicate 256 0 }

theorem wit_LinksAndTheirTimers_link :
    let u : Port := { upPort with linkKey := List.replicate 32 1 }
    (linked u).openRx 0 (sealed linkBlk) = some (clear linkBlk)
    ∧ isReplay (clear linkBlk) u.rxFlows = false ∧ u.waiting = []
    ∧ isReplay (clear linkBlk) ({ u with rxFlows := [{ cls := 3, src := 6, dst := 5, ctx := 0xFFF, last := some 0 }] } : Port).rxFlows
        = true
    ∧ (linked upPort).openRx 0 (sealed linkBlk) = none := by
  refine ⟨opens rfl ?_, by decide, rfl, by decide, by decide⟩
  rfl

theorem wit_LinksAndTheirTimers :
    (((linked upPort).port 0).state = .up ∧ ((linked upPort).port 0).peerRole ≠ 0 ∧ upPort.waiting = []
      ∧ 0 < upPort.credBridle ∧ upPort.held.length < 512 ∧ kindOk 0 0x20 = false)
    ∧ (let s : State := { linked upPort with env := { ticks := 50000 } }
       s.portWin 0 = true ∧ (s.port 0).heard + 50000 ≤ s.env.ticks)
    ∧ ((linked { state := .training, role := .direct }).port 0).state = .training
    ∧ ((linked { state := .retraining, role := .direct, peerRole := 1 }).port 0).state = .retraining
    ∧ ((linked { state := .off, role := .direct }).port 0).state = .off ∧ PortRole.direct ≠ .off
    ∧ ((2 : W32).toNat.testBit 1 = true ∧ (1 : W32).toNat.testBit 1 = false ∧ (1 : W32).toNat.testBit 0 = true
      ∧ (0 : W32).toNat.testBit 0 = false)
    ∧ (let s : State := { linked upPort with env := { ticks := 500000 },
                                             teth := { (linked upPort).teth with peers := [(6, { state := .up, flags := 2 })] } }
       (s.peer 6).state = .up ∧ (s.peer 6).flags.testBit 1 = true ∧ (s.peer 6).heard + 500000 ≤ s.env.ticks) := by decide

/-- The directory with one entry, of device 6. -/
def knows (e : Peer) (st : Byte) : State :=
  { linked upPort with teth := { (linked upPort).teth with peers := [(6, e)], peerStage := [(6, st :: List.replicate 27 0)] } }
/-- Context 4094 in a state. -/
def inCtx (c : Ctx) : State := { linked upPort with teth := { (linked upPort).teth with ctxs := [(4094, c)] }, env := { ticks := 5000 } }

theorem wit_DirectoryAndContexts :
    ((linked upPort).diesUp = true ∧ 65534 < 65535 ∧ 6 < 7)
    ∧ (((knows { state := .up } 1).peer 6).state = .up ∧ leAt ((knows { state := .lost } 2).stagedPeer 6) 0 1 % 8 = 2)
    ∧ (∀ st : Fin 2, ((knows { state := .lost } (BitVec.ofNat 8 st)).peer 6).state ≠ .up
        ∧ ((knows { state := .lost } (BitVec.ofNat 8 st)).peer 6).state ≠ .self ∧ 6 ≠ (knows {} 0).teth.self
        ∧ leAt ((knows { state := .lost } (BitVec.ofNat 8 st)).stagedPeer 6) 0 1 % 8 = st)
    ∧ ((0x40000FFE : W32).toNat % 4096 ≠ 0xFFF ∧ (0x40000FFE : W32).toNat / 2 ^ 30 = 1 ∧ (0x80000FFE : W32).toNat / 2 ^ 30 = 2
      ∧ ((inCtx {}).ctx 4094).state = .closed ∧ ((inCtx { state := .opened }).ctx 4094).state = .opened
      ∧ ((inCtx { state := .draining }).ctx 4094).state = .draining)
    ∧ ((inCtx { state := .draining, since := 0, drain := 100 }).outstanding 4094 = []
      ∧ ((inCtx { state := .draining, since := 0, drain := 100 }).ctx 4094).since + 100 * 50
          ≤ (inCtx { state := .draining }).env.ticks) := by decide

/-- Bucket 0's records at base offset 0x100000, in memory. -/
def redMem (a : Armed) : State :=
  { linked upPort with
    rig := { live := { bind := [(0, 1)], regions := [{ base := 0, size := 2 ^ 40, lbase := 0, set := 1, gran := 8 }] } },
    stks := [(0, { state := .ready, mem := mwrite (mwrite [] 0x100000 a.group) 0x101000 a.record })],
    teth := { (linked upPort).teth with redBase := (at5 0 0x100000).toNat } }

theorem wit_ReductionUnit_arm :
    let s := redMem bucket0
    s.diesUp = true ∧ s.served (.gondola 0) none (fun s => s.redArm 0) = true
      ∧ s.redCheck (({ s with acc := { src := .gondola 0 } } : State).redRecord 0).2 = 0
      ∧ s.served (.gondola 0) none (fun s => s.redArm 1023) = true
      ∧ s.redCheck (({ s with acc := { src := .gondola 0 } } : State).redRecord 1023).2 ≠ 0 := by decide +kernel

theorem wit_ReductionUnit_adders :
    (let s := arms { bucket0 with ready := [0] } []
     s.armedOf 0 = some { bucket0 with ready := [0] } ∧ s.ownerGone (bucket0.owner 0) = true ∧ s.adderPort 12 (0 + 0) = some 0)
    ∧ (let a := { bucket0 with working := [(0, 11)] }
       (arms a []).armedOf 0 = some a ∧ a.working.find? (fun q => q.1 == 0) = some (0, 11)) := by decide

/-- A small bucket whose part 0 port adder 11 works on. -/
def small : Armed := { bucket0 with record := putBytes bucket0.record 24 [9], working := [(0, 11)] }

theorem wit_ReductionUnit_done :
    (arms small []).armedOf 0 = some small ∧ small.working.find? (fun q => q.1 == 0) = some (0, 11)
    ∧ (arms small []).served (.tether 11) none (fun s => s.adderDone small 0 0 11) = true := by decide +kernel
/-! ### Hypotheses of the statements: the rigging controller, the anchor, the host port and the ripcord logic -/

/-- A DELTA image of one frame. -/
def image1 (typ scope : Nat) (body : List Byte) : List Byte :=
  leBytes 4 0x31514E47 ++ leBytes 2 1 ++ leBytes 2 1 ++ leBytes 4 (208 + body.length) ++ [2, 0, 0, 0] ++ List.replicate 112 0
    ++ leBytes 2 typ ++ leBytes 2 scope ++ leBytes 4 body.length ++ List.replicate 8 0 ++ body ++ List.replicate 64 0

/-- An image is staged in the controller. -/
def staged (s : State) (st : RigState) (img : List Byte) : State :=
  { s with rig := { s.rig with state := st, shadow := mwrite [] 0 img } }

/-- The anchor works on an operation. -/
def ancOn (s : State) (o : AncOp) : State := { s with anc := { s.anc with op := some o } }

/-- A frame that routes the mesh as it is. -/
def meshImage : List Byte := image1 3 0 (List.replicate 16 0)
/-- A frame with one region. -/
def ileaveImage : List Byte := image1 4 1 (List.replicate 32 0)

/-- What the staged image of a state says of a commit: whether it breaks a rule, and whether its holds stand. -/
def commits (s : State) : Option (Bool × Bool) :=
  match parseImage s.staged with
  | .ok m => some ((s.commitErr m).isNone, s.holdsStand m)
  | .error _ => none

theorem commits_some {s : State} {p : Bool × Bool} (h : commits s = some p) :
    ∃ m, parseImage s.staged = .ok m ∧ (s.commitErr m).isNone = p.1 ∧ s.holdsStand m = p.2 := by
  unfold commits at h
  split at h
  next m e =>
    cases h
    exact ⟨m, e, rfl, rfl⟩
  next => cases h

theorem wit_RiggingCommands_commands :
    (moored.ctrlUp = true ∧ moored.whoOk (.gon 0) = true ∧ 0x7FFFC < 0x80000 ∧ 0x7FFFC % 4 = 0)
    ∧ ({ moored with keel := { moored.keel with flashEn := true } } : State).flashBusy = true
    ∧ (moored.flashBusy = false ∧ moored.rig.state = .empty ∧ moored.ancFree)
    ∧ (staged moored .loading []).rig.state = .loading ∧ (staged moored .verifying []).rig.state = .verifying := by decide

set_option maxRecDepth 20000 in
theorem wit_RiggingCommands_commits :
    ((rigged {}).flashBusy = false ∧ (rigged {}).ancFree ∧ (rigged {}).ctrlUp = true)
    ∧ (∃ m, parseImage (staged (rigged {}) .verified meshImage).staged = .ok m
        ∧ ((staged (rigged {}) .verified meshImage).commitErr m).isNone = true
        ∧ (staged (rigged {}) .verified meshImage).holdsStand m = true)
    ∧ (∃ m, parseImage (staged (aloft {}) .verified meshImage).staged = .ok m
        ∧ ((staged (aloft {}) .verified meshImage).commitErr m).isNone = false
        ∧ (staged (aloft {}) .verified meshImage).holdsStand m = true)
    ∧ ∃ m, parseImage (staged (stacked { bal := { state := .apply } }) .committing ileaveImage).staged = .ok m
        ∧ ((staged (stacked { bal := { state := .apply } }) .committing ileaveImage).commitErr m).isNone = false
        ∧ (staged (stacked { bal := { state := .apply } }) .committing ileaveImage).holdsStand m = false :=
  ⟨by decide, commits_some (p := (true, true)) (by decide), commits_some (p := (false, true)) (by decide),
    commits_some (p := (false, false)) (by decide)⟩

set_option maxRecDepth 20000 in
theorem wit_RiggingCommands_quiet :
    (({ staged (rigged {}) .committing meshImage with env := { ticks := 2000000000 } } : State).quietOver = true)
    ∧ (ancOn (staged (rigged {}) .committing meshImage) .commit).quietOver = false
    ∧ (ancOn (staged (rigged {}) .committing meshImage) .commit).anc.op = some .commit
    ∧ commits (ancOn (staged (rigged {}) .committing meshImage) .commit) = some (true, true)
    ∧ commits (ancOn (staged (aloft {}) .committing meshImage) .commit) = some (false, true) := by decide +kernel

set_option maxRecDepth 20000 in
theorem wit_RiggingCommands_flash :
    (let s : State := { moored with keel := { moored.keel with flashEn := true } }
     s.keel.target = .moored ∧ s.rig.flashRead = false ∧ s.rig.state ≠ .verifying ∧ s.rig.state ≠ .committing ∧ s.ancFree)
    ∧ (headerCheck (meshImage ++ List.replicate (128 - meshImage.length) 0xFF)).toOption = some 224
    ∧ (headerCheck ([] ++ List.replicate (128 - 0) 0xFF)).toOption = none := by decide

theorem wit_AnchorCommands :
    (moored.ctrlUp = true ∧ moored.whoOk (.gon 0) = true ∧ (ancOn moored (.quote [])).anc.op.isSome = true ∧ moored.ancFree
      ∧ (4 : BitVec 3).toNat < 5 ∧ 5 ≤ (5 : BitVec 3).toNat ∧ moored.fwAllowed = false ∧ (rigged {}).fwAllowed = true)
    ∧ (ancOn moored (.quote [1])).anc.op = some (.quote [1]) ∧ (ancOn moored (.token [1])).anc.op = some (.token [1]) := by
  decide

/-- The header of a firmware image of 192 + 16 bytes for offset 0x1000. -/
def fwHeader : List Byte :=
  leBytes 4 0x31515746 ++ leBytes 2 1 ++ leBytes 2 0 ++ leBytes 4 208 ++ List.replicate 60 0 ++ leBytes 8 (at5 0 0x1000).toNat
    ++ leBytes 8 (at5 0 0x1000).toNat ++ List.replicate 40 0
/-- Firmware at byte 0x2000 of the stacks, being checked. -/
def checksFw (h : List Byte) : State :=
  ancOn { rigged {} with stks := (List.range 16).map (fun i => (i, { state := .ready, mem := if i = 2 then mwrite [] 0 h else [] })) }
    (.firmware (at5 0 0x2000).toNat)

theorem wit_AnchorCommands_firmware : ∀ good : Bool,
    let s := checksFw (if good then fwHeader else [1])
    let r := ({ s with acc := { src := .gondola 0 } } : State).readBytes (at5 0 0x2000).toNat 128
    s.anc.op = some (.firmware (at5 0 0x2000).toNat) ∧ s.anc.waiting = [] ∧ s.fwAllowed = true
      ∧ s.inOwnMem (at5 0 0x2000).toNat 192 = true ∧ fwHeaderOk r.2 = good
      ∧ (good = true → r.1.inOwnMem (at5 0 0x2000).toNat (leAt r.2 8 4) = true
          ∧ r.1.inOwnMem (leAt r.2 72 8) (leAt r.2 8 4 - 192) = true ∧ zeros (slice r.2 24 16) 0 16 = true
          ∧ r.1.anc.signerOk (slice r.2 40 32) = true) := by decide +kernel

theorem wit_AnchorCommands_firmwareServed :
    ∀ good : Bool, (checksFw (if good then fwHeader else [1])).served (.gondola 0) none
      (fun s => (s.runFirmware (at5 0 0x2000).toNat).ancEnd) = true := by decide +kernel

/-- The device in MOORED with its host link up and session 4 as given. -/
def hosted (q : Session) : State := { moored with host := { link := .up, sessions := [(4, q)] } }

/-- A session datagram as a host sends it, its body pt encrypted. -/
def hostDg (type queue : Nat) (pt : List Byte) : Dgram :=
  let r := gcmSeal [] (dgNonce 0 4) (dgHeader type 4 queue 0 0 pt.length true) pt
  { sess := 4, queue, seq := 0, body := r.1, tag := r.2 }

theorem hostDg_length (type queue : Nat) (pt : List Byte) : (hostDg type queue pt).body.length = pt.length :=
  gcmXor_length [] _ pt

theorem dgOpen_hostDg (type queue : Nat) (pt : List Byte) : dgOpen [] type (hostDg type queue pt) = some pt := by
  have h := gcmOpen_gcmSeal [] (dgNonce 0 4) (dgHeader type 4 queue 0 0 pt.length true) pt 16
  rw [List.take_of_length_le (gcmSeal_tag_length _ _ _ _).le] at h
  rw [dgOpen, hostDg_length]
  exact h

/-- The datagram opens in its session. -/
theorem opensDg {s : State} {type queue : Nat} {pt : List Byte} (ho : (s.sess 4).isOpen = true) (hk : (s.sess 4).rxKey = []) :
    s.openDg type (hostDg type queue pt) = some pt := by
  have h := dgOpen_hostDg type queue pt
  have ho : (s.sess (hostDg type queue pt).sess).isOpen = true := ho
  have hk : (s.sess (hostDg type queue pt).sess).rxKey = [] := hk
  rw [State.openDg]
  simp only [ho, hk, if_true]
  exact h

/-- What it takes for a datagram to be taken. -/
theorem takes {s : State} {type queue : Nat} {pt : List Byte} (hu : s.hears none = true) (ho : (s.sess 4).isOpen = true)
    (hk : (s.sess 4).rxKey = []) (he : (s.sess 4).expect = 0)
    (hf : ∀ d : Dgram, d.sess = 4 → d.queue = queue → d.body.length = pt.length → s.host.dgForm type d = true) :
    s.Takes type (hostDg type queue pt) pt :=
  ⟨hu, hf _ rfl rfl (hostDg_length _ _ _), opensDg ho hk, he.symm⟩

theorem empty_form {s : State} {type : Nat} (ht : type ≠ 0x20 ∧ type ≠ 0x22) :
    ∀ d : Dgram, d.sess = 4 → d.queue = 0 → d.body.length = ([] : List Byte).length → s.host.dgForm type d = true := by
  intro d h1 h2 h3
  simp [HostSt.dgForm, h1, h2, List.length_eq_zero_iff.mp h3, ht]

set_option maxRecDepth 20000 in
theorem wit_HostSessions :
    ((hosted {}).hostUp = true ∧ (hosted {}).hears none = true ∧ (hosted {}).hostSends ∧ (hosted {}).rateOk.2 = true ∧ (hosted {}).ancFree
      ∧ (hosted {}).host.announce = true ∧ (List.replicate 32 0 : List Byte).length = 32 ∧ 65535 < 65536
      ∧ hbForm (List.replicate 176 0) = true ∧ zeros (List.replicate 176 0) 80 16 = true)
    ∧ ({ hosted {} with host := { (hosted {}).host with rlCount := 64 } } : State).rateOk.2 = false
    ∧ (4 ∈ [1, 2, 3, 4] ∧ ((hosted { opening := true }).sess 4).opening = true)
    ∧ ((hosted { isOpen := true }).sess 4).outq = []
    ∧ (((hosted { isOpen := true, expect := 1 }).sess 4).expect < 2 ∧ 0 < ((hosted { isOpen := true, expect := 1 }).sess 4).expect)
    ∧ ((hosted {}).host.dgForm 0x23 { sess := 5, seq := 0 } = false ∧ (hosted {}).host.dgForm 0x23 { sess := 4, seq := 0 } = true
      ∧ (hosted {}).openDg 0x23 { sess := 4, seq := 0 } = none
      ∧ (hosted {}).host.dgForm 0x20 { sess := 4, seq := 0, body := List.replicate 32 0 } = true
      ∧ (hosted {}).openDg 0x20 { sess := 4, seq := 0, body := List.replicate 32 0 } = none)
    ∧ ((hosted { isOpen := true, owed := true }).sessSends 4 ∧ ((hosted { isOpen := true, owed := true }).sess 4).owed = true)
    ∧ (let s := hosted { isOpen := true, unacked := [{ seq := 0, bytes := [], at' := 0 }] }
       s.hostSends ∧ (s.sess 4).unacked = [{ seq := 0, bytes := [], at' := 0 }] ∧ s.env.ticks < 0 + s.host.rto * 500
        ∧ 0 + s.host.rto * 500 ≤ ({ s with env := { ticks := 10000 } } : State).env.ticks)
    ∧ ((hosted { isOpen := true, age := 500000000 }).sess 4).isOpen = true
    ∧ (hosted { isOpen := true, age := 500000000 }).host.idle * 50000000
        ≤ ((hosted { isOpen := true, age := 500000000 }).sess 4).age := by decide

theorem wit_HostSessions_taken :
    (hosted { isOpen := true }).Takes 0x23 (hostDg 0x23 0 []) [] ∧ (hosted { isOpen := true }).Takes 0x25 (hostDg 0x25 0 []) [] :=
  ⟨takes (by decide) rfl rfl rfl (empty_form (by decide)), takes (by decide) rfl rfl rfl (empty_form (by decide))⟩

theorem wit_HostSessions_order (n : Nat) :
    (hosted { isOpen := true, expect := n }).openDg 0x23 (hostDg 0x23 0 []) = some []
    ∧ (hosted { isOpen := true, expect := n }).host.dgForm 0x23 (hostDg 0x23 0 []) = true := by
  exact ⟨opensDg rfl rfl, empty_form (by decide) _ rfl rfl (hostDg_length _ _ _)⟩

/-- A command of session 4. -/
def cmd1 (op addr val arg : Nat) : CmdSt := { id := 0, queue := 0, cmd := { op, addr, val, arg } }
/-- Session 4 has accepted it. -/
def accepted (s : State) (c : CmdSt) : State :=
  { s with host := { link := .up, sessions := [(4, { isOpen := true, cmds := [c], nextId := 1 })] } }

/-- The body of a command datagram of an operation. -/
def cmdBody (op : Nat) : List Byte := [BitVec.ofNat 8 op] ++ List.replicate 31 0

theorem cmd_form {s : State} (hm : 16 ≤ s.host.dataMax) (op : Nat) :
    ∀ d : Dgram, d.sess = 4 → d.queue = 7 → d.body.length = (cmdBody op).length → s.host.dgForm 0x20 d = true := by
  intro d h1 h2 h3
  have h : (cmdBody op).length = 32 := rfl
  simp [HostSt.dgForm, h1, h2, h3, h, hm]

theorem wit_HostCommands_take (op : Nat) :
    (hosted { isOpen := true }).Takes 0x20 (hostDg 0x20 7 (cmdBody op)) (cmdBody op)
    ∧ (hosted { isOpen := true, cmds := List.replicate 64 (cmd1 1 0 0 0) }).Takes 0x20 (hostDg 0x20 7 (cmdBody op)) (cmdBody op) :=
  ⟨takes rfl rfl rfl rfl (cmd_form (by decide) op), takes rfl rfl rfl rfl (cmd_form (by decide) op)⟩

/-- A header that is taken. -/
def dg0 : Dgram := { sess := 4, queue := 7, seq := 0 }

theorem wit_HostCommands_taken :
    (∀ op : Fin 8, (hostCmdOf (cmdBody op)).op = op)
    ∧ (((hosted { isOpen := true }).tookHeader dg0).sess 4).cmds.length < 64
    ∧ 64 ≤ (((hosted { isOpen := true, cmds := List.replicate 64 (cmd1 1 0 0 0) }).tookHeader dg0).sess 4).cmds.length
    ∧ (∀ op : Fin 8, (accepted moored { id := 0, queue := 7, cmd := hostCmdOf (cmdBody op) }).served .host none (fun s => s.tryStart 4 0)
        = true) := by decide +kernel

set_option maxRecDepth 20000 in
theorem wit_HostCommands_queue :
    (((accepted moored (cmd1 1 0 0 0)).sess 4).cmds.find? (fun e => e.id == 0) = some (cmd1 1 0 0 0)
      ∧ ((accepted moored (cmd1 1 0 0 0)).sess 4).canStart (cmd1 1 0 0 0) = true
      ∧ ({ isOpen := true, cmds := [{ cmd1 4 0 0 0 with id := 7 }, cmd1 1 0 0 0] } : Session).canStart (cmd1 1 0 0 0) = false)
    ∧ ((cmd1 7 0 0 0).cmd.rsv = false ∧ 6 < (cmd1 7 0 0 0).cmd.op ∧ (accepted moored (cmd1 1 2 0 0)).ctrlOk 2 = false
      ∧ (accepted moored (cmd1 1 0x300004 0 0)).ctrlOk (aOff 0x300004) = true ∧ (accepted moored (cmd1 1 0 0 0)).sessSends 4) := by
  decide

theorem wit_HostCommands_write32 :
    let c := cmd1 2 0x30C 0 0
    let s := accepted moored c
    let b := s.updCmd 4 0 (fun c => { c with started := true })
    b.ctrlOk (aOff c.cmd.addr) = true ∧ b.served .host none (fun s => s.ctrlWrite .owner (aOff c.cmd.addr) (fld 31 0 c.cmd.val)) = true
      ∧ b.ctrlOk 2 = false := by decide +kernel

/-- RIGGED with every stack ready, and a command accepted. -/
def acceptedReady (c : CmdSt) : State := accepted { rigged {} with stks := (List.range 16).map (fun i => (i, { state := .ready })) } c

theorem wit_HostCommands_start :
    (let c := cmd1 3 (at5 0 0).toNat 4 0
     let s := acceptedReady c
     s.hostSpan c.cmd.addr c.cmd.val = true ∧ (s.sess 4).cmds = [c] ∧ c.early = [] ∧ c.spans = []
      ∧ s.hostSpan c.cmd.addr 2 = false)
    ∧ (let c := cmd1 4 (at5 0 0).toNat 8 0
       let s := acceptedReady c
       let o : State := { s.updCmd 4 0 (fun c => { c with started := true }) with acc := { src := .host } }
       s.hostSpan c.cmd.addr c.cmd.val = true ∧ c.cmd.val ≤ s.host.dataMax ∧ (o.readMem c.cmd.addr c.cmd.val).2.2 = false
        ∧ (o.readMem c.cmd.addr c.cmd.val).1.acc.stop = none)
    ∧ (let c := cmd1 5 0 1 0
       let s := accepted (knotted 0 1 {}) c
       s.knotWin (fld 17 0 c.cmd.arg) = true ∧ KOp.ofMinor (fld 31 28 c.cmd.arg) = some .arrive
        ∧ s.knotCheck .arrive (fld 17 0 c.cmd.arg) none = none) := by decide +kernel

/-- The body of a DATA datagram of 8 bytes at an offset for a tag. -/
def dataBody (tag off : Nat) : List Byte := leBytes 4 tag ++ leBytes 4 0 ++ leBytes 8 off ++ List.replicate 8 1

theorem data_form {s : State} (hm : 8 ≤ s.host.dataMax) (tag off : Nat) :
    ∀ d : Dgram, d.sess = 4 → d.queue = 0 → d.body.length = (dataBody tag off).length → s.host.dgForm 0x22 d = true := by
  intro d h1 h2 h3
  have h : (dataBody tag off).length = 24 := rfl
  simp only [HostSt.dgForm, h1, h2, h3, h]
  simp
  omega

theorem wit_HostCommands_dataTaken (tag off : Nat) (started : Bool) :
    (acceptedReady { cmd1 3 (at5 0 0).toNat 8 0 with started }).Takes 0x22 (hostDg 0x22 0 (dataBody tag off)) (dataBody tag off) :=
  takes rfl rfl rfl rfl (data_form (by cases started <;> decide) tag off)

theorem wit_HostCommands_data :
    let c := cmd1 3 (at5 0 0).toNat 8 0
    let e := { c with started := true }
    let a := (acceptedReady c).tookHeader { dg0 with queue := 0 }
    let a' := (acceptedReady e).tookHeader { dg0 with queue := 0 }
    let w : State := { (a'.updCmd 4 0 (fun c => { c with spans := [(0, 8)] })) with acc := { src := .host } }
    (leAt (dataBody 1 0) 0 4 = 1 ∧ (a.sess 4).cmds.find? (fun c => c.cmd.op == 3 && c.cmd.tag == 1) = none)
    ∧ ((a.sess 4).cmds.find? (fun c => c.cmd.op == 3 && c.cmd.tag == leAt (dataBody 0 4) 0 4) = some c ∧ (a.sess 4).cmds = [c]
      ∧ c.cmd.val < leAt (dataBody 0 4) 8 8 + ((dataBody 0 4).drop 16).length ∧ c.started = false
      ∧ leAt (dataBody 0 0) 8 8 + ((dataBody 0 0).drop 16).length ≤ c.cmd.val)
    ∧ ((a'.sess 4).cmds = [e] ∧ e.spans = [] ∧ leAt (dataBody 0 0) 8 8 = 0 ∧ ((dataBody 0 0).drop 16).length = e.cmd.val
      ∧ (w.writeBytes {} e.cmd.addr ((dataBody 0 0).drop 16)).2 = true
      ∧ (w.writeBytes {} e.cmd.addr ((dataBody 0 0).drop 16)).1.acc.stop = none) := by decide +kernel

theorem wit_HostNetwork :
    ((hosted {}).hostUp = true ∧ (hosted {}).hears none = true ∧ (hosted {}).hostSends ∧ (hosted {}).inDad = false
      ∧ ownIpNat + 1 ≠ ownIpNat)
    ∧ (let s : State := { hosted {} with host := { link := .up, vlanEn := true, vid := 4095 } }
       s.hostUp = true ∧ s.hears (some 4095) = true ∧ s.hears (some 0) = false ∧ s.hears none = false)
    ∧ ({ hosted {} with host := { link := .up, dadEnd := 1 } } : State).inDad = true
    ∧ ({ hosted {} with host := { link := .up, dup := true } } : State).host.dup = true
    ∧ (({ hosted {} with host := { link := .up, paused := 1 } } : State).env.ticks < 1)
    ∧ (0 < 65535 ∧ ({ hosted {} with host := { link := .up, pfc := true, pcp := 7 } } : State).host.pfc = true) := by
  refine ⟨⟨by decide, by decide, by decide, by decide, by omega⟩, by decide⟩

theorem wit_WatchdogsAndFaults :
    (let s := rigged { stallTicks := 500000, sb := { state := .waiting, waitTicks := 500000 } }
     s.coreWin 0 = true ∧ s.rip.stallMs * 50000 ≤ (s.core 0).stallTicks ∧ s.rip.fenced.contains 0 = false
      ∧ bit (dieOfCore 0) s.rip.dieResetting = false ∧ s.diesUp = true ∧ s.dieOut 3 = false
      ∧ ((s.core 0).st .b).state = .waiting ∧ s.rip.waitMs * 50000 ≤ ((s.core 0).st .b).waitTicks)
    ∧ (let s : State := { rigged {} with gons := [(15, { mode := 1, petTicks := some 500000 })] }
       15 < 16 ∧ (s.gon 15).petTicks = some 500000 ∧ s.rip.gonMs * 50000 ≤ 500000 ∧ (s.gon 15).mode ≠ 0)
    ∧ (let s : State := { rigged {} with rip := { sparesPending := [(383, 0, 399)] } }
       s.rip.sparesPending.find? (fun p => p.2.2 == 399) = some (383, 0, 399) ∧ s.rip.fenced.contains 399 = false
        ∧ bit (dieOfCore 399) s.rip.dieResetting = false)
    ∧ (let s : State := { moored with keel := { moored.keel with votes := [(31, 0)] }, env := { ticks := 50000 } }
       s.keel.state ≠ .off ∧ s.keel.votes.any (fun p => decide (s.env.ticks ≤ p.2 + 50000) && p.1 == 31) = true
        ∧ s.keel.votes.any (fun p => decide (s.env.ticks ≤ p.2 + 50000) && p.1 == 30) = false) := by decide

theorem wit_KeyedWritesAndDieResets :
    (moored.ctrlUp = true ∧ fld 31 16 (0x5A5B0000 : W32).toNat ≠ 0x5A5A ∧ fld 31 16 (0x5A5A0190 : W32).toNat = 0x5A5A
      ∧ 400 ≤ fld 8 0 (0x5A5A0190 : W32).toNat ∧ fld 8 0 (0x5A5A018F : W32).toNat < 400
      ∧ bit 0 (0x5A5A0001 : W32).toNat = true ∧ bit 0 (0x5A5A0000 : W32).toNat = false)
    ∧ (({ rigged {} with rip := { fenced := [399] } } : State).rip.fenced.contains 399 = true
      ∧ (rigged {}).rip.fenced.contains 399 = false ∧ bit (dieOfCore 399) (rigged {}).rip.dieResetting = false)
    ∧ ((rigged {}).diesUp = true ∧ (rigged {}).dieOut (fld 1 0 (0x5A5A0003 : W32).toNat) = false
      ∧ (staged (rigged {}) .committing []).rig.state = .committing)
    ∧ (let s : State := { rigged {} with rip := { dieResetting := 8 } }
       s.diesUp = true ∧ 3 < 4 ∧ bit 3 s.rip.dieResetting = true) := by decide

theorem wit_ControlSpaceRegisters :
    moored.whoOk (.gon 0) = true ∧ moored.ctrlOk 0x30C = true ∧ moored.ctrlOk 0x30D = false ∧ moored.ctrlUp = true := by decide

theorem wit_DeviceStateRegister :
    moored.ctrlUp = true ∧ moored.whoOk (.gon 0) = true ∧ moored.keel.target = moored.keel.state
      ∧ ∀ d : DevState, d.code = moored.keel.state.code → d = moored.keel.state := by
  refine ⟨by decide, by decide, by decide, fun d => ?_⟩
  cases d <;> decide

/-! ### The spec's worked examples, and single steps -/

/-- ADD s5, s3, −16 under the negated predicate p2: the word 0x0805_28C0_FFFF_FFF0 of "Instruction words". -/
theorem test_add_word : word 5 3 0 0xFFFFFFF0 = { low := 0x28C0FFFFFFF0 } ∧
    (let s := aloft { sa := { (runs [(3, 10)] []) with s := [(3, 10)] } }
     (((after (.add 0 .a true { pred := 2, neg := true, low := 0x28C0FFFFFFF0 }) s).core 0).st .a).getS 5 = -6) := by decide

/-- The same word spells that instruction, and one word of each other class its own; each is written out from the tables of its
chapter: MAJ in bits 63:58, MIN in bits 57:52. -/
theorem test_decode :
    decodeInsn 0 .a .ok 0x080528C0FFFFFFF0 = some (.add 0 .a true { op := 0x080, pred := 2, neg := true, low := 0x28C0FFFFFFF0 })
    ∧ [0x0010000000000000, 0x0CA0084000000005, 0x1010108000000000, 0x14B0388000000010, 0x1800008000000001, 0x1C10008000000000,
        0x2020008000000007, 0x4000008000000000, 0x6010008000000000, 0x6440000000000000, 0x8430000000000000, 0x9C10000000000000].map
        (fun v => (decodeInsn 0 .b .ok v))
      = [some (.halt 0 .b { op := 0x001 }), some (.cmpiLt 0 .b { op := 0x0CA, low := 0x084000000005 }),
         some (.addai 0 .b { op := 0x101, low := 0x108000000000 }), some (.st64 0 .b { op := 0x14B, low := 0x388000000010 }),
         some (.reelGo 0 .b { op := 0x180, low := 0x8000000001 }), some (.crdWait 0 .b { op := 0x1C1, low := 0x8000000000 }),
         some (.knGive 0 .b { op := 0x202, low := 0x8000000007 }), some (.arrFwd 0 .b 0 { op := 0x400, low := 0x8000000000 }),
         some (.corExpand 0 .b { op := 0x601, low := 0x8000000000 }), some (.watchStep 0 .b { op := 0x644 }),
         some (.vfma 0 .b { op := 0x843 }), some (.vst 0 .b { op := 0x9C1 })]
    ∧ [0x00A0000000000000, 0x0E00000000000000, 0x2400000000000000, 0x5400000000000000, 0x6800000000000000,
        0xA000000000000000].map (decodeInsn 0 .a .ok) = [none, none, none, none, none, none] := by decide

/-- AES-256-GCM of 16 zero bytes under a zero key and nonce: test case 14 of the mode's specification. -/
theorem test_gcm : gcmSeal (List.replicate 32 0) (List.replicate 12 0) [] (List.replicate 16 0)
    = (beBytes 16 0xCEA7403D4D606B6E074EC5D3BAF39D18, beBytes 16 0xD0D1C8A799996BF0265B98B5D48AB919) := by decide +kernel

/-- CRC-32C of the nine digits 1 to 9, the check value of its parameters. -/
theorem test_crc : crc32c ((List.range 9).map (fun i => BitVec.ofNat 8 (0x31 + i))) = 0xE3069283 := by
  rw [crc32c_eq_crcGo]; decide +kernel

/-- The envelope's messages keep their fields in their 16 bytes. -/
theorem test_envelope_messages :
    ∀ m ∈ [EnvMsg.deal 383 4294967295 65535 26, .report { core := 383, stall := 65535, spent := 65535, short := 9 }, .give 383 7],
      EnvMsg.ofBytes (m.bytes 5) = m ∧ (m.bytes 5).length = 16 := by decide

/-- The code over GF(2^8): a codeword with one upset symbol is corrected, and one with two is not. -/
theorem test_codeword :
    rsFind (List.replicate 68 0) = .none ∧ rsFind ((List.replicate 68 0).set 9 0x5A) = .one 9 0x5A
      ∧ rsFind (((List.replicate 68 0).set 9 0x5A).set 67 1) = .many := by decide +kernel

/-- "Number formats": 0b1101 is −3.0 in FP4, image −6, and −3 in INT4; the cell adds −18, and 18 for an INT4 −3. -/
theorem test_images : imgOf 0 13 = -6 ∧ imgOf 0 13 * imgOf 1 3 = -18 ∧ imgOf 0 13 * imgOf 1 13 = 18 := by decide

/-- The block of "Example: one Skylark-M block" in FP32: u × 2^−10 for each position. -/
def skylark : List Nat :=
  [0x3A99999A, 0xBA333333, 0x3B466666, 0x3C280000, 0xBB266666, 0x394CCCCD, 0x3DC00000, 0xBB9CCCCD, 0x00000000, 0x3A800000,
   0xBACCCCCD, 0x3BA00000, 0x3B0CCCCD, 0xB9CCCCCD, 0x3BE9999A, 0xBB400000, 0x3A666666, 0xBD700000, 0x3B800000, 0xBC0CCCCD,
   0x3999999A, 0x3B39999A, 0xBA8CCCCD, 0x3BC66666, 0xB8CCCCCD, 0x3AB33333, 0xBBB00000, 0x3B666666, 0x3999999A, 0xBB000000,
   0x3C100000, 0xBA0CCCCD]
/-- FP4, outliers on, a cap, and tensor scale 2^−10. -/
def skylarkSet (cap : Nat) : QSet := { fmt := 0, sym := false, outl := true, cap, st := 0x3A800000 }

set_option maxRecDepth 20000 in
theorem test_quantise_block :
    packCodes 0 (quantBlock (skylarkSet 3) none skylark).codes
        = [0x91, 0x73, 0x0B, 0xC0, 0x10, 0x4A, 0x02, 0xB6, 0xF1, 0xE4, 0x30, 0x59, 0x10, 0x4D, 0xA0, 0x96]
      ∧ (quantBlock (skylarkSet 3) none skylark).scale = 0x80 ∧ (quantBlock (skylarkSet 3) none skylark).ow = 0x42C08006
      ∧ (quantBlock (skylarkSet 3) none skylark).flush = 5 ∧ (quantBlock (skylarkSet 3) none skylark).sat = 1
      ∧ (quantBlock (skylarkSet 3) none skylark).ovf = true := by decide

set_option maxRecDepth 20000 in
theorem test_quantise_cap4 : (quantBlock (skylarkSet 4) none skylark).flush = 21
    ∧ (quantBlock (skylarkSet 4) none skylark).scale = 131 := by decide

/-- "The tail": the example frame ends at −10, and so in the opposite order. -/
theorem test_frame : ∀ l ∈ [[(20, 49), (-3, 5), (-3, 12), (2, -3), (-3, 4), (20, -49), (-3, -6)],
      [(-3, -6), (20, -49), (-3, 4), (2, -3), (-3, 12), (-3, 5), (20, 49)]],
    (l.foldl (fun (f : Frame) (p : Int × Int) => f.cell false 0 none 0 { img := p.2, b := p.1 } { img := 1 }) {}).v = -10 := by
  decide

/-- "The correction lane": 1.5 × 96.0 = 144.0. -/
theorem test_outlier_term : termSum none 0 [{ u := 0x3FC00000 }] [{ outl := true, u := 0x42C00000 }] = (some 0x43100000, 1) := by
  decide

/-- "The vector engine": two infinities share the row, 0.5 each. -/
theorem test_softmax_infinities :
    smax [none, some 0x40000000, some 0x7F800000, some 0xBF800000, some 0x7F800000, some 0x3F000000, some 0xFF800000, none]
      = ([0, 0, 0x3F000000, 0, 0x3F000000, 0, 0, 0], fgInfRow) := by decide

/-- "Rhambe memory": offset 0x12_3456_7800 lies in S0 at 0x1_2345_6800, row 0x1234, bank 1 of channel 8. -/
theorem test_interleave : (linked {}).locate (at5 0 0x1234567800).toNat = .stack 0 0x123456800
    ∧ blkRow 0x1234568 = 0x1234 ∧ blkBank 0x1234568 = 8 * 16 + 1 := by decide

/-- "Memory ordering": byte 0x1_2340 of the spool of logical core 201 on device 5; and port 5's registers. -/
theorem test_addresses :
    ({ rigged {} with rig := { live := { bind := [(201, 210)] } } } : State).locate 0x0005200032712340 = .spool 209 0x12340
    ∧ (rigged {}).locate 0x0005F00000450000 = .ctrl 0x450000 ∧ (rigged {}).locate 0x002A001234567800 = .remote 0x2A := by decide

/-- "The package": gondola core 6 lies at node 150. -/
theorem test_gondola_node : gonNode 6 = 150 := by decide

/-- The costs of the reference table at point 26, for classes 0 and 1. -/
def arbiter (credit g : Nat) (turn : Stream) (b : List TileKind) : Core :=
  let tile (kind : TileKind) : Tile :=
    { x := .b, kind, cls := match kind with | .wg => 1 | _ => 0, vectors := 1024 }
  { cost := [(0, 40 * 65536 + 210), (1, 40 * 65536 + 230)], credit, g, turn,
    arr := { tqA := [{ tile .fwd with x := .a }], tqB := b.map tile } }

/-- "Credits": the rows of the arbiter's example, the balance after each and whose turn comes. -/
theorem test_arbiter :
    [arbiter 8192 2 .b [.ig, .wg], arbiter 4792 1 .b [.wg, .ig], arbiter 1072 1 .a [.ig, .wg], arbiter 9264 1 .a [.ig, .wg],
      arbiter 2464 1 .b [.wg, .ig]].map (fun k => (k.arbitrate.credit, k.arbitrate.turn, k.arbitrate.g))
      = [(4792, .b, 1), (1072, .a, 1), (1072, .a, 1), (5864, .b, 2), (2464, .b, 1)] := by decide

/-- The Adam-like column of "The ballast engine", LR = 2.0e−4, a flat curve of 0.5. -/
def adam : BGroup :=
  { pbase := 0, rowLen := 64, rows := 1, t0 := 0, layout := 2 + 8 + 16, k := 0, span := 1, lr := 0x3951B717, clip := 0, flags := 1,
    snapBase := 0, tailZero := true, curve := (List.replicate 2 0x3F000000).flatMap (leBytes 4),
    cs := ([0x3F666666, 0x3F733333, 0, 0, 0x3DCCCCCD, 0x3D4CCCCD, 0, 0, 0x3F800000, 0, 0, 0, 0, 0x322BCC77, 0, 0x3DCCCCCD, 0, 0,
            0, 0].flatMap (leBytes 4)) ++ [9, 3, 0x81, 0] }

set_option maxRecDepth 20000 in
/-- Its element: the slots are stored as 0x39CD and 0x354D, and the parameter becomes 0.499895. -/
theorem test_ballast_adam :
    let v := adam.vals 1 15 fOne
    (adam.elemNum v 0x3F000000 [0, 0] 0x43000000).map (fun n => (adam.elemApply v 0x3F000000 n.sl n.num).map (fun p =>
      (decide (0x3EFFF200 < p.1 ∧ p.1 < 0x3EFFF280), p.2))) = some (some (true, [0x39CD0000, 0x354D0000])) := by decide

/-- "The ripcord logic": junction sensor 5 of D2 at 105 °C gives 0x1265_0201. -/
theorem test_thermal_trip : (after (.thermalTrip false 37 105) moored).rip.code = 0x12650201
    ∧ (after (.thermalTrip false 37 105) moored).keel.state = .keel := by decide

/-- R374: the second arrival of two completes the phase. -/
theorem test_barrier :
    (let s := after (.knotOpAtHome [0] {}) (sendsKnot 0 { valid := true, limit := 2, value := 1 } .arrive 0)
     (s.kn 0).phase = 1 ∧ (s.kn 0).value = 0) := by decide

/-- R375: a GIVE above LIMIT stores LIMIT. -/
theorem test_give_overflow :
    (let s := sendsKnot 2 { valid := true, limit := 9, value := 5 } .give 7
     let t := after (.knotOpAtHome [0] {}) s
     (t.kn 0).value = 9 ∧ t.knot.semaOvf = true ∧ t.knot.semaOvfN = 1) := by decide

/-- The first command of the queue is taken first, and on an empty queue a keel tick passes. -/
theorem test_queue :
    (match step { moored with pending := [.thermalTrip false 0 104, .announceTimer] } with
      | .next t => t.pending
      | _ => []) = [.announceTimer]
    ∧ (match step moored with
      | .next t => t.env.ticks
      | _ => 0) = 1 := by decide

end Sys2Proof.Tests
end

section
/-! Control space through RC_REGISTER_READ and REGISTER_WRITE (R7, R565, R567): what each command does where the access is
served and where it is not, and what the registers of the keel, anchor, rigging and host windows read and take. -/

namespace Sys2Proof.Machine

open Sys2Proof

/-! ### The two commands -/

/-- Above KEEL, every aligned offset below the windows of the dies is served (R565, R567). -/
theorem State.ctrlOk_of_ctrlUp {s : State} (hup : s.ctrlUp = true) {off : Nat} (h4 : off % 4 = 0) (hlt : off < 0x400000) :
    s.ctrlOk off = true := by
  simp [State.ctrlOk, h4, hlt, hup]

theorem exec_rcRegisterRead (w : Who) (off : Nat) (s : State) :
    exec (.rcRegisterRead w off) s = execRcRegisterRead w off s := rfl

theorem exec_registerWrite (w : Who) (off : Nat) (v : W32) (s : State) :
    exec (.registerWrite w off v) s = execRegisterWrite w off v s := rfl

theorem exec_rcRegisterRead_unserved (w : Who) {s : State} {off : Nat} (hok : s.ctrlOk off = false) :
    exec (.rcRegisterRead w off) s = .next s := by
  simp [exec_rcRegisterRead, execRcRegisterRead, hok]

theorem exec_registerWrite_unserved (w : Who) {s : State} {off : Nat} (v : W32) (hok : s.ctrlOk off = false) :
    exec (.registerWrite w off v) s = .next s := by
  simp [exec_registerWrite, execRegisterWrite, hok]

theorem exec_rcRegisterRead_served {w : Who} {s : State} {off : Nat} (hw : s.whoOk w = true) (hok : s.ctrlOk off = true) :
    exec (.rcRegisterRead w off) s = .next { (s.ctrlRead off).1 with lastRead := (s.ctrlRead off).2 } := by
  simp [exec_rcRegisterRead, execRcRegisterRead, hw, hok]

/-- A served write takes place as an access; one that makes no request to memory leaves that access as it began. -/
theorem exec_registerWrite_served {w : Who} {s t : State} {off : Nat} {v : W32} (hw : s.whoOk w = true)
    (hok : s.ctrlOk off = true) (hacc : t.acc = s.acc)
    (heff : ({ s with acc := { src := .gondola 0, core := none } } : State).ctrlWrite w off v.toNat
      = { t with acc := { src := .gondola 0, core := none } }) :
    exec (.registerWrite w off v) s = .next t := by
  have hserved : s.served (.gondola 0) none (fun s => s.ctrlWrite w off v.toNat) = true := by
    simp [State.served, heff]
  have hexec : exec (.registerWrite w off v) s
      = .next (s.access (.gondola 0) none (fun s => s.ctrlWrite w off v.toNat)) := by
    simp [exec_registerWrite, execRegisterWrite, hw, hok]
  rw [hexec, s.access_served _ _ _ hserved, heff, ← hacc]

/-! ### Reads of the windows of the keel domain (R497, R515, R538, R564) -/

section
variable (s : State)

theorem State.ctrlRead_ripLast : s.ctrlRead 0x30C = (s, s.rip.last) := rfl

theorem State.ctrlRead_ripFaults : s.ctrlRead 0x338 = ({ s with rip := { s.rip with faults := 0 } }, s.rip.faults) := rfl

theorem State.ctrlRead_ripCorrected :
    s.ctrlRead 0x33C = ({ s with rip := { s.rip with corrected := 0 } }, s.rip.corrected) := rfl

theorem State.ctrlRead_ancQuotes :
    s.ctrlRead 0x10000C = ({ s with anc := { s.anc with quotes := 0 } }, s.anc.quotes) := rfl

theorem State.ctrlRead_ancFails :
    s.ctrlRead 0x100010 = ({ s with anc := { s.anc with fails := 0 } }, s.anc.fails) := rfl

theorem State.ctrlRead_rigRejects :
    s.ctrlRead 0x200020 = ({ s with rig := { s.rig with rejects := 0 } }, s.rig.rejects) := rfl

theorem State.ctrlRead_hostAuthFail :
    s.ctrlRead 0x300040 = ({ s with host := { s.host with authFail := 0 } }, s.host.authFail) := rfl

/-! ### Writes to the windows of the keel domain (R497, R515, R538, R564) -/

theorem State.ctrlWrite_ancStatus (w : Who) (v : Nat) :
    s.ctrlWrite w 0x100000 v = { s with anc := { s.anc with err := s.anc.err && !bit 1 v } } := rfl

theorem State.ctrlWrite_ripStatus (w : Who) (v : Nat) :
    s.ctrlWrite w 0x300 v = { s with rip := { s.rip with
      wrIgn := s.rip.wrIgn && !bit 12 v, evtLost := s.rip.evtLost && !bit 3 v,
      fenceNew := s.rip.fenceNew && !bit 1 v, fault := s.rip.fault && !bit 0 v } } := rfl

theorem State.ctrlWrite_ripCtrl (w : Who) (v : Nat) :
    s.ctrlWrite w 0x310 v = { s with rip := { s.rip with autoDie := bit 8 v, evtGon := v % 16 } } := rfl

theorem State.ctrlWrite_rigPage (w : Who) (v : Nat) :
    s.ctrlWrite w 0x20000C v = { s with rig := { s.rig with page := v % 4 } } := rfl

theorem State.ctrlWrite_hostVlan (w : Who) (v : Nat) :
    s.ctrlWrite w 0x300008 v = { s with host := { s.host with
      vlanEn := bit 16 v, pcp := fld 15 13 v, pfc := bit 12 v, vid := fld 11 0 v } } := rfl

end

/-- Offsets of registers whose fields all have access RO or RC, in the windows of the keel domain: RIP_LAST, RIP_FAULTS,
RIP_CORRECTED, ANC_QUOTES, ANC_FAILS, RIG_RESULT, RIG_REJECTS and HST_AUTH_FAIL. -/
def unwritableOffsets : List Nat := [0x30C, 0x338, 0x33C, 0x10000C, 0x100010, 0x200008, 0x200020, 0x300040]

theorem unwritableOffsets_keelDomain : ∀ off ∈ unwritableOffsets, off % 4 = 0 ∧ off < 0x400000 := by decide

/-- A write to a register of access RO or RC is ignored (R7): no branch of its window's write matches the offset. -/
theorem State.ctrlWrite_unwritable (s : State) (w : Who) (v : Nat) : ∀ off ∈ unwritableOffsets, s.ctrlWrite w off v = s := by
  simp only [unwritableOffsets, List.forall_mem_cons]
  exact ⟨rfl, rfl, rfl, rfl, rfl, rfl, rfl, rfl, List.forall_mem_nil _⟩

/-! ### The statement -/

/-- A read that control space serves above KEEL, at an offset of the windows of the keel domain, from the register's equation. -/
theorem exec_rcRegisterRead_keelDomain {w : Who} {s t : State} {off n : Nat} (hw : s.whoOk w = true) (hup : s.ctrlUp = true)
    (hread : s.ctrlRead off = (t, n)) (h4 : off % 4 = 0 := by decide) (hlt : off < 0x400000 := by decide) :
    exec (.rcRegisterRead w off) s = .next { t with lastRead := n } := by
  rw [exec_rcRegisterRead_served hw (State.ctrlOk_of_ctrlUp hup h4 hlt), hread]

/-- A write that changes nothing but the fields of its register, above KEEL, from the register's equation. -/
theorem exec_registerWrite_keelDomain {w : Who} {s t : State} {off : Nat} {v : W32} (hw : s.whoOk w = true)
    (hup : s.ctrlUp = true) (hacc : t.acc = s.acc)
    (heff : ({ s with acc := { src := .gondola 0, core := none } } : State).ctrlWrite w off v.toNat
      = { t with acc := { src := .gondola 0, core := none } })
    (h4 : off % 4 = 0 := by decide) (hlt : off < 0x400000 := by decide) :
    exec (.registerWrite w off v) s = .next t :=
  exec_registerWrite_served hw (State.ctrlOk_of_ctrlUp hup h4 hlt) hacc heff

/-- Settles O58, from what the two commands do and the equation of each register. -/
theorem controlSpaceRegisters : Obligations.ControlSpaceRegisters := by
  intro w s hw
  refine ⟨fun off v hok => ⟨exec_rcRegisterRead_unserved w hok, exec_registerWrite_unserved w v hok⟩, fun hup => ?_⟩
  refine ⟨exec_rcRegisterRead_keelDomain hw hup s.ctrlRead_ripFaults,
    exec_rcRegisterRead_keelDomain hw hup s.ctrlRead_ripCorrected,
    exec_rcRegisterRead_keelDomain hw hup s.ctrlRead_ancQuotes,
    exec_rcRegisterRead_keelDomain hw hup s.ctrlRead_ancFails,
    exec_rcRegisterRead_keelDomain hw hup s.ctrlRead_rigRejects,
    exec_rcRegisterRead_keelDomain hw hup s.ctrlRead_hostAuthFail,
    exec_rcRegisterRead_keelDomain hw hup s.ctrlRead_ripLast, fun v => ?_⟩
  refine ⟨exec_registerWrite_keelDomain hw hup rfl (State.ctrlWrite_ancStatus _ w _),
    exec_registerWrite_keelDomain hw hup rfl (State.ctrlWrite_ripStatus _ w _),
    exec_registerWrite_keelDomain hw hup rfl (State.ctrlWrite_ripCtrl _ w _),
    exec_registerWrite_keelDomain hw hup rfl (State.ctrlWrite_rigPage _ w _),
    exec_registerWrite_keelDomain hw hup rfl (State.ctrlWrite_hostVlan _ w _), fun off hoff => ?_⟩
  obtain ⟨h4, hlt⟩ := unwritableOffsets_keelDomain off hoff
  exact exec_registerWrite_keelDomain hw hup rfl (State.ctrlWrite_unwritable _ w _ off hoff) h4 hlt

end Sys2Proof.Machine
end

section
/-! The device's states (O5). The keel domain changes in few places: the rise, bring-up and land, the requests of
KEEL_STATE_REQ, the package reset and what leads to it. First the frame of every other operation of the model, in the order
of the model's files: it leaves the keel domain as it is. Then the transitions, the operations through which a command
reaches them, and the commands. -/

namespace Sys2Proof.Machine

/-- The keel domain of t is that of s. -/
def State.SameKeel (s t : State) : Prop := t.keel = s.keel

@[simp] theorem State.sameKeel_iff (s t : State) : s.SameKeel t ↔ t.keel = s.keel := ⟨fun h => h, fun h => h⟩

/-- A command that answers o leaves the keel domain as it is. -/
def State.Keeps (s : State) (o : Host.Outcome State Fault Refusal) : Prop := ∀ t, o = .next t → s.SameKeel t

theorem State.Keeps.next {s t : State} (h : s.SameKeel t) : s.Keeps (.next t) := fun _ hu => by cases hu; exact h

@[simp] theorem State.keeps_next (s t : State) : s.Keeps (.next t) ↔ t.keel = s.keel := ⟨fun h => h t rfl, State.Keeps.next⟩

@[simp] theorem State.keel_ite (c : Prop) [Decidable c] (s t : State) :
    (if c then s else t).keel = if c then s.keel else t.keel :=
  apply_ite State.keel c s t

@[simp] theorem State.keel_fst_ite {α : Type} (c : Prop) [Decidable c] (s t : State × α) :
    (if c then s else t).1.keel = if c then s.1.keel else t.1.keel :=
  apply_ite (fun p : State × α => p.1.keel) c s t

@[simp] theorem State.keel_foldl {α : Type} {f : State → α → State} (h : ∀ (s : State) a, s.SameKeel (f s a)) (l : List α)
    (s : State) : (l.foldl f s).keel = s.keel := by
  induction l generalizing s with
  | nil => rfl
  | cons a l ih => rw [List.foldl_cons, ih]; exact h s a

/-! ### Machine/Ops -/

@[simp] theorem State.wakeStk_keel (s : State) (st) : (s.wakeStk st).keel = s.keel := by simp [State.wakeStk]
@[simp] theorem State.ask_keel (s : State) (st blk write) : (s.ask st blk write).keel = s.keel := by
  unfold State.ask
  dsimp only
  repeat' split
  all_goals simp

@[simp] theorem State.uncorr_keel (s : State) (st cw kind) :
    (s.uncorr st cw kind).keel = s.keel := by simp [State.uncorr]

@[simp] theorem State.corr_keel (s : State) (st cw) : (s.corr st cw).keel = s.keel := by simp [State.corr]
@[simp] theorem State.senseCw_keel (s : State) (st cw kind) : (s.senseCw st cw kind).1.keel = s.keel := by
  simp only [State.senseCw]
  split <;> simp

@[simp] theorem State.readCw_keel (s : State) (st a n) : (s.readCw st a n).1.keel = s.keel := by simp [State.readCw]
@[simp] theorem State.writeCw_keel (s : State) (st a bs) :
    (s.writeCw st a bs).keel = s.keel := by simp [State.writeCw]

@[simp] theorem State.readCws_keel (s : State) (st l) : (s.readCws st l).1.keel = s.keel := by
  induction l generalizing s with
  | nil => rfl
  | cons p t ih => simp [State.readCws, ih]

@[simp] theorem State.writeCws_keel (s : State) (st l x) : (s.writeCws st l x).keel = s.keel := by
  induction l generalizing s st x with
  | nil => simp [State.writeCws]
  | cons p t ih => simp [State.writeCws, ih]

@[simp] theorem State.tellStale_keel (s : State) (l) : (s.tellStale l).keel = s.keel := by
  induction l generalizing s with
  | nil => rfl
  | cons p t ih => simp [State.tellStale, ih]

@[simp] theorem State.sendStale_keel (s : State) (st l) :
    (s.sendStale st l).keel = s.keel := by simp [State.sendStale]

@[simp] theorem State.readStk_keel (s : State) (st a n) :
    (s.readStk st a n).1.keel = s.keel := by simp [State.readStk]

@[simp] theorem State.writeStk_keel (s : State) (st a bs) :
    (s.writeStk st a bs).keel = s.keel := by simp [State.writeStk]

@[simp] theorem State.dropRanges_keel (s : State) (c uid) :
    (s.dropRanges c uid).keel = s.keel := by simp [State.dropRanges]

@[simp] theorem State.endGuard_keel (s : State) (c g) : (s.endGuard c g).keel = s.keel := by
  unfold State.endGuard
  split <;> simp

@[simp] theorem State.endGuards_keel (s : State) (c l) : (s.endGuards c l).keel = s.keel := by
  induction l generalizing s with
  | nil => rfl
  | cons p t ih => simp [State.endGuards, ih]

@[simp] theorem State.endTouched_keel (s : State) (copy a n l) : (s.endTouched copy a n l).keel = s.keel := by
  induction l generalizing s with
  | nil => rfl
  | cons p t ih => simp [State.endTouched, ih]

@[simp] theorem State.endWritten_keel (s : State) (copy a n) :
    (s.endWritten copy a n).keel = s.keel := by simp [State.endWritten]

@[simp] theorem State.guardRead_keel (s : State) (c a n) :
    (s.guardRead c a n).keel = s.keel := by simp [State.guardRead]

@[simp] theorem State.stopped_keel (s : State) (src a) : (s.stopped src a).keel = s.keel := by
  unfold State.stopped
  split <;> simp

@[simp] theorem State.access_keel {s : State} {src core f} (h : ∀ t : State, t.SameKeel (f t)) :
    (s.access src core f).keel = s.keel := by
  unfold State.access
  dsimp only
  split
  · exact h _
  · simp

@[simp] theorem State.coreAccess_keel {s : State} {c f} (h : ∀ t : State, t.SameKeel (f t)) :
    (s.coreAccess c f).keel = s.keel := State.access_keel h

theorem State.readPiece_keel {s t : State} {a n bs} (h : s.readPiece a n = some (t, bs)) : t.keel = s.keel := by
  unfold State.readPiece at h
  dsimp only at h
  split at h
  next st l _ =>
    have ht := congrArg Prod.fst (Option.some.inj h)
    dsimp only at ht
    rw [← ht, State.readStk_keel]
    split <;> simp
  all_goals cases h
  all_goals split <;> simp

theorem State.writePiece_keel {s t : State} {w a bs} (h : s.writePiece w a bs = some t) : t.keel = s.keel := by
  unfold State.writePiece at h
  dsimp only at h
  split at h
  · cases h
  · split at h <;> cases h <;> simp

@[simp] theorem State.readPieces_keel (s : State) (fail l) : (s.readPieces fail l).1.keel = s.keel := by
  induction l generalizing s with
  | nil => rfl
  | cons p l ih =>
    rw [State.readPieces]
    split
    next t bs ht => exact (ih t).trans (State.readPiece_keel ht)
    next => exact ih s

@[simp] theorem State.readMem_keel (s : State) (a n) : (s.readMem a n).1.keel = s.keel := by simp [State.readMem]
@[simp] theorem State.writePieces_keel (s : State) (w l bs) : (s.writePieces w l bs).1.keel = s.keel := by
  induction l generalizing s bs with
  | nil => rfl
  | cons p l ih =>
    rw [State.writePieces]
    split
    next t ht => rw [ih, State.writePiece_keel ht]
    next => rfl

@[simp] theorem State.writeMem_keel (s : State) (w a bs) :
    (s.writeMem w a bs).1.keel = s.keel := by simp [State.writeMem]

@[simp] theorem State.writeBytes_keel (s : State) (w a bs) :
    (s.writeBytes w a bs).1.keel = s.keel := by simp [State.writeBytes]

@[simp] theorem State.readBytes_keel (s : State) (a n) :
    (s.readBytes a n).1.keel = s.keel := by simp [State.readBytes]

@[simp] theorem State.scrRead_keel (s : State) (c o n) : (s.scrRead c o n).keel = s.keel := by simp [State.scrRead]
@[simp] theorem State.scrWrite_keel (s : State) (c o bs) :
    (s.scrWrite c o bs).keel = s.keel := by simp [State.scrWrite]

/-! ### Machine/HostOps -/

@[simp] theorem State.emitTx_keel (s : State) (d) : (s.emitTx d).keel = s.keel := by simp [State.emitTx]
@[simp] theorem State.emitDg_keel (s : State) (addr port type sess body) :
    (s.emitDg addr port type sess body).keel = s.keel := by simp [State.emitDg]

@[simp] theorem State.unpause_keel (s : State) : s.unpause.keel = s.keel := by simp [State.unpause]
@[simp] theorem State.sendNow_keel (s : State) (n type body) :
    (s.sendNow n type body).keel = s.keel := by simp [State.sendNow]

@[simp] theorem State.sendSess_keel (s : State) (n type body) :
    (s.sendSess n type body).keel = s.keel := by simp [State.sendSess]

@[simp] theorem State.sendRest_keel (s : State) (n l) : (s.sendRest n l).keel = s.keel := by
  induction l generalizing s with
  | nil => rfl
  | cons p t ih => simp [State.sendRest, ih]

@[simp] theorem State.endSession_keel (s : State) (n) : (s.endSession n).keel = s.keel := by simp [State.endSession]
@[simp] theorem State.endSessions_keel (s : State) : s.endSessions.keel = s.keel := by simp [State.endSessions]
@[simp] theorem State.cmdDone_keel (s : State) (n id status value) : (s.cmdDone n id status value).keel = s.keel := by
  unfold State.cmdDone
  split <;> simp

@[simp] theorem State.cmdEnd_keel (s : State) (n id status) : (s.cmdEnd n id status).keel = s.keel := by
  unfold State.cmdEnd
  split <;> simp

@[simp] theorem State.eventSessions_keel (s : State) (msg every l) : (s.eventSessions msg every l).keel = s.keel := by
  induction l generalizing s with
  | nil => rfl
  | cons p t ih => simp [State.eventSessions, ih]

/-! ### Machine/AncOps -/

@[simp] theorem State.draw_keel (s : State) (n) : (s.draw n).1.keel = s.keel := by simp [State.draw]
@[simp] theorem State.ancPump_keel (s : State) (l) : (s.ancPump l).keel = s.keel := by
  induction l generalizing s with
  | nil => rfl
  | cons o l ih => cases o <;> simp [State.ancPump, ih]

@[simp] theorem State.ancSubmit_keel (s : State) (o) : (s.ancSubmit o).keel = s.keel := by
  unfold State.ancSubmit
  split <;> simp

@[simp] theorem State.ancEnd_keel (s : State) : s.ancEnd.keel = s.keel := by simp [State.ancEnd]
@[simp] theorem State.ancDrop_keel (s : State) (o) : (s.ancDrop o).keel = s.keel := by simp [State.ancDrop]
@[simp] theorem State.bindOwner_keel (s : State) (k) : (s.bindOwner k).keel = s.keel := by simp [State.bindOwner]

/-! ### Machine/Sorter -/

@[simp] theorem State.unwatch_keel (s : State) (c g) : (s.unwatch c g).keel = s.keel := by
  unfold State.unwatch
  split <;> simp

@[simp] theorem State.watchBlock_keel (s : State) (st c g blk) : (s.watchBlock st c g blk).keel = s.keel := by
  unfold State.watchBlock
  split <;> simp

@[simp] theorem State.watchRead_keel (s : State) (st q) : (s.watchRead st q).keel = s.keel := by
  unfold State.watchRead
  split <;> simp

@[simp] theorem State.watchReads_keel (s : State) (st l) : (s.watchReads st l).keel = s.keel := by
  induction l generalizing s with
  | nil => rfl
  | cons p t ih => simp [State.watchReads, ih]

@[simp] theorem State.respond_keel (s : State) (st r) : (s.respond st r).keel = s.keel := by simp [State.respond]
@[simp] theorem State.takeReq_keel (s : State) (st q) : (s.takeReq st q).keel = s.keel := by simp [State.takeReq]
@[simp] theorem State.bankHold_keel (s : State) (st q) : (s.bankHold st q).keel = s.keel := by simp [State.bankHold]
@[simp] theorem State.inMesh_keel (s : State) (st q) : (s.inMesh st q).keel = s.keel := by simp [State.inMesh]
@[simp] theorem State.sorter_keel (s : State) (st q) : (s.sorter st q).keel = s.keel := by simp [State.sorter]
@[simp] theorem State.arriveAll_keel (s : State) (st l) : (s.arriveAll st l).keel = s.keel := by
  induction l generalizing s with
  | nil => rfl
  | cons p t ih => simp [State.arriveAll, ih]

@[simp] theorem State.inSource_keel (s : State) (st q) : (s.inSource st q).keel = s.keel := by simp [State.inSource]
@[simp] theorem State.submitAll_keel (s : State) (st l) : (s.submitAll st l).keel = s.keel := by
  induction l generalizing s with
  | nil => rfl
  | cons p t ih => simp [State.submitAll, ih]

@[simp] theorem State.pump_keel (s : State) (st) : (s.pump st).keel = s.keel := by simp [State.pump]
@[simp] theorem State.pumpAll_keel (s : State) : s.pumpAll.keel = s.keel := by simp [State.pumpAll]
@[simp] theorem State.sendData_keel (s : State) (st d l) : (s.sendData st d l).keel = s.keel := by
  induction l generalizing s with
  | nil => rfl
  | cons p t ih => simp [State.sendData, ih]

@[simp] theorem State.scrubCw_keel (s : State) (st cw) : (s.scrubCw st cw).keel = s.keel := by simp [State.scrubCw]
@[simp] theorem State.postStale_keel (s : State) (st l) :
    (s.postStale st l).keel = s.keel := by simp [State.postStale]

@[simp] theorem State.serve_keel (s : State) (st q) : (s.serve st q).keel = s.keel := by simp [State.serve]
@[simp] theorem State.openBank_keel (s : State) (st bank before) :
    (s.openBank st bank before).keel = s.keel := by simp [State.openBank]

@[simp] theorem State.resendAll_keel (s : State) (st l) :
    (s.resendAll st l).keel = s.keel := by simp [State.resendAll]

@[simp] theorem State.stackFault_keel (s : State) (st) : (s.stackFault st).keel = s.keel := by simp [State.stackFault]

/-! ### Machine/RipOps -/

@[simp] theorem State.sendRc_keel (s : State) (type value data) :
    (s.sendRc type value data).keel = s.keel := by simp [State.sendRc]

@[simp] theorem State.sendStatus_keel (s : State) : s.sendStatus.keel = s.keel := by simp [State.sendStatus]
@[simp] theorem State.closeRec_keel (s : State) (t i) : (s.closeRec t i).keel = s.keel := by
  unfold State.closeRec
  split <;> simp

@[simp] theorem State.closeRecs_keel (s : State) (l) : (s.closeRecs l).keel = s.keel := by
  induction l generalizing s with
  | nil => rfl
  | cons p t ih => simp [State.closeRecs, ih]

@[simp] theorem State.powerDown_keel (s : State) : s.powerDown.keel = s.keel := rfl
@[simp] theorem State.dropToCore_keel (s : State) (c) : (s.dropToCore c).keel = s.keel := by simp [State.dropToCore]
@[simp] theorem State.rebind_keel (s : State) (l fencedC d) : (s.rebind l fencedC d).keel = s.keel := by
  unfold State.rebind
  split <;> simp

@[simp] theorem State.fence_keel (s : State) (c) : (s.fence c).keel = s.keel := by
  unfold State.fence
  dsimp only
  repeat' split
  all_goals simp

@[simp] theorem State.coreFault_keel (s : State) (c cause) :
    (s.coreFault c cause).keel = s.keel := by simp [State.coreFault]

@[simp] theorem State.unhold_keel (s : State) : s.unhold.keel = s.keel := by simp [State.unhold]
@[simp] theorem State.rigResult_keel (s : State) (tell code frame detail) :
    (s.rigResult tell code frame detail).keel = s.keel := by simp [State.rigResult]

@[simp] theorem State.rigReject_keel (s : State) (code frame detail) :
    (s.rigReject code frame detail).keel = s.keel := by simp [State.rigReject]

@[simp] theorem State.isolate_keel (s : State) (d) : (s.isolate d).keel = s.keel := by simp [State.isolate]
@[simp] theorem State.dieReset_keel (s : State) (d code) :
    (s.dieReset d code).keel = s.keel := by simp [State.dieReset]

@[simp] theorem State.dieFault_keel (s : State) (d code) :
    (s.dieFault d code).keel = s.keel := by simp [State.dieFault]

/-! ### Machine/Issue -/

@[simp] theorem State.raise_keel (s : State) (c x code) : (s.raise c x code).keel = s.keel := by simp [State.raise]
@[simp] theorem State.issue_keel {s : State} {c x w ok srcs body} (h : ∀ t : State, t.SameKeel (body t)) :
    (s.issue c x w ok srcs body).keel = s.keel := by
  simp [State.issue, (State.sameKeel_iff _ _).mp (h s)]

@[simp] theorem State.ticket_keel (s : State) (c) : (s.ticket c).2.keel = s.keel := rfl
@[simp] theorem State.pay_keel {s : State} {c x n body} (h : ∀ t : State, t.SameKeel (body t)) :
    (s.pay c x n body).keel = s.keel := by
  unfold State.pay
  dsimp only
  split
  · simp
  · split
    · simp
    · exact h _

/-! ### Machine/Windows -/

@[simp] theorem State.coreWrite_keel (s : State) (c f) : (s.coreWrite c f).keel = s.keel := by simp [State.coreWrite]

/-! ### Machine/Anc -/

@[simp] theorem State.ancOk_keel (s : State) (op) : (s.ancOk op).keel = s.keel := by simp [State.ancOk]
@[simp] theorem State.ancFail_keel (s : State) (op code) :
    (s.ancFail op code).keel = s.keel := by simp [State.ancFail]

@[simp] theorem State.startGons_keel (s : State) :
    s.startGons.keel = s.keel := State.keel_foldl (fun s g => s.updGon_keel g _) _ _

@[simp] theorem State.takeFirmware_keel (s : State) (b) :
    (s.takeFirmware b).keel = s.keel := by simp [State.takeFirmware]

@[simp] theorem State.runFirmware_keel (s : State) (a) :
    (s.runFirmware a).keel = s.keel := by simp [State.runFirmware]

@[simp] theorem State.release_keel (s : State) : s.release.keel = s.keel := by
  unfold State.release
  split <;> simp

@[simp] theorem State.runToken_keel (s : State) (t) : (s.runToken t).keel = s.keel := by
  unfold State.runToken
  dsimp only
  repeat' split
  all_goals simp

@[simp] theorem State.ancIdle_keel {s : State} {op body} (h : ∀ t : State, t.SameKeel (body t)) :
    (s.ancIdle op body).keel = s.keel := by
  unfold State.ancIdle
  split
  · rfl
  · exact h s

@[simp] theorem State.ancCmd_keel (s : State) (op mr) : (s.ancCmd op mr).keel = s.keel := by
  unfold State.ancCmd
  split <;> simp

@[simp] theorem execQuote_keeps (s : State) (w) : s.Keeps (execQuote w s) := by simp [execQuote]
@[simp] theorem execExtend_keeps (s : State) (w mr) : s.Keeps (execExtend w mr s) := by simp [execExtend]
@[simp] theorem execChallenge_keeps (s : State) (w) : s.Keeps (execChallenge w s) := by simp [execChallenge]
@[simp] theorem execToken_keeps (s : State) (w) : s.Keeps (execToken w s) := by simp [execToken]
@[simp] theorem execFirmware_keeps (s : State) (w) : s.Keeps (execFirmware w s) := by simp [execFirmware]
@[simp] theorem execDebugClose_keeps (s : State) (w) : s.Keeps (execDebugClose w s) := by simp [execDebugClose]
@[simp] theorem State.signed_keel (s : State) (body) : (s.signed body).keel = s.keel := by simp [State.signed]
@[simp] theorem State.ancRead_keel (s : State) (off) : (s.ancRead off).1.keel = s.keel := by simp [State.ancRead]
@[simp] theorem State.ancWrite_keel (s : State) (off v) : (s.ancWrite off v).keel = s.keel := by
  unfold State.ancWrite
  split; · rfl
  split; · exact s.updAnc_keel _
  split; · exact s.ancCmd_keel _ _
  split; · exact s.updAnc_keel _
  split; · exact s.updAnc_keel _
  split; · exact s.updAnc_keel _
  split; · exact s.updAnc_keel _
  split; · exact s.updAnc_keel _
  rfl

/-! ### Machine/LoftOps -/

@[simp] theorem State.setEnt_keel (s : State) (c i st) : (s.setEnt c i st).keel = s.keel := by simp [State.setEnt]
@[simp] theorem State.setLoc_keel (s : State) (c i ovf page) :
    (s.setLoc c i ovf page).keel = s.keel := by simp [State.setLoc]

@[simp] theorem State.hdrAdd_keel (s : State) (c o n) : (s.hdrAdd c o n).keel = s.keel := by simp [State.hdrAdd]
@[simp] theorem State.loftPeaks_keel (s : State) (c) : (s.loftPeaks c).keel = s.keel := by simp [State.loftPeaks]
@[simp] theorem State.setDropped_keel (s : State) (c l) : (s.setDropped c l).keel = s.keel := by
  induction l generalizing s with
  | nil => rfl
  | cons p t ih => simp [State.setDropped, ih]

@[simp] theorem State.dropEnt_keel (s : State) (c i) : (s.dropEnt c i).keel = s.keel := by simp [State.dropEnt]
theorem State.beginSpill_keel {s t : State} {c i} (h : s.beginSpill c i = some t) : t.keel = s.keel := by
  unfold State.beginSpill at h
  dsimp only at h
  split at h
  · cases h
  · injection h with h
    simp [← h]

@[simp] theorem State.placeEnt_keel (s : State) (c i p) : (s.placeEnt c i p).keel = s.keel := by simp [State.placeEnt]
@[simp] theorem State.tryAlloc_keel (s : State) (c i) : (s.tryAlloc c i).keel = s.keel := by
  unfold State.tryAlloc
  dsimp only
  split
  · simp
  · split
    · rfl
    · split
      · simp
      · split
        next ht => exact State.beginSpill_keel ht
        next => simp

@[simp] theorem State.tryAllocs_keel (s : State) (c l) : (s.tryAllocs c l).keel = s.keel := by
  induction l generalizing s with
  | nil => rfl
  | cons p t ih => simp [State.tryAllocs, ih]

@[simp] theorem State.makeRoom_keel (s : State) (c i) : (s.makeRoom c i).keel = s.keel := by
  unfold State.makeRoom
  dsimp only
  split
  · rfl
  · split
    · rfl
    next v _ =>
      cases h : s.beginSpill c v with
      | none => rfl
      | some t => exact State.beginSpill_keel h

@[simp] theorem State.askRecall_keel (s : State) (c i) : (s.askRecall c i).keel = s.keel := by simp [State.askRecall]
@[simp] theorem State.keepEnt_keel (s : State) (c i) : (s.keepEnt c i).keel = s.keel := by simp [State.keepEnt]
@[simp] theorem State.nameEnt_keel (s : State) (c i) : (s.nameEnt c i).keel = s.keel := by
  unfold State.nameEnt
  split <;> simp

@[simp] theorem State.nameEnts_keel (s : State) (c l) : (s.nameEnts c l).keel = s.keel := by
  induction l generalizing s with
  | nil => rfl
  | cons p t ih => simp [State.nameEnts, ih]

@[simp] theorem State.loftFreed_keel (s : State) (c) : (s.loftFreed c).keel = s.keel := by
  simp only [State.loftFreed]
  split <;> simp

@[simp] theorem State.freeEnt_keel (s : State) (c i) : (s.freeEnt c i).keel = s.keel := by simp [State.freeEnt]

/-! ### Machine/Tensor -/

@[simp] theorem State.feedPieces_keel (s : State) (l) : (s.feedPieces l).1.keel = s.keel := by
  induction l generalizing s with
  | nil => rfl
  | cons p l ih =>
    rw [State.feedPieces]
    split
    next t bs ht => exact (ih t).trans (State.readPiece_keel ht)
    next => exact ih s

@[simp] theorem State.feed_keel (s : State) (base off n) : (s.feed base off n).1.keel = s.keel := by simp [State.feed]
@[simp] theorem State.tRead_keel (s : State) (d ow line e0 n) :
    (s.tRead d ow line e0 n).1.keel = s.keel := by simp [State.tRead]

@[simp] theorem State.tReadLines_keel (s : State) (d ow e0 n a k) : (s.tReadLines d ow e0 n a k).1.keel = s.keel := by
  induction k generalizing s d ow e0 n a with
  | zero => simp [State.tReadLines]
  | succ n ih => simp [State.tReadLines, ih]

@[simp] theorem State.putPieces_keel (s : State) (bad l bs) : (s.putPieces bad l bs).1.keel = s.keel := by
  induction l generalizing s bs with
  | nil => rfl
  | cons p l ih =>
    rw [State.putPieces]
    split
    next t ht =>
      split at ht
      · cases ht
      · rw [ih, State.writePiece_keel ht]
    next => exact ih s _

@[simp] theorem State.put_keel (s : State) (bad base off bs) :
    (s.put bad base off bs).1.keel = s.keel := by simp [State.put]

@[simp] theorem State.touchDesc_keel (s : State) (c a) : (s.touchDesc c a).keel = s.keel := by
  unfold State.touchDesc
  split <;> simp

@[simp] theorem State.touchAll_keel (s : State) (c l) : (s.touchAll c l).keel = s.keel := by
  induction l generalizing s with
  | nil => rfl
  | cons p t ih => simp [State.touchAll, ih]

/-! ### Machine/ArrOps -/

@[simp] theorem State.arrIssue_keel (s : State) (c x kind m w) : (s.arrIssue c x kind m w).keel = s.keel := by
  refine State.coreAccess_keel fun s => State.issue_keel fun s => ?_
  dsimp only
  generalize (if kind = .spill then _ else _ : Except Nat Tile) = checked
  cases checked with
  | error code => simp
  | ok q => dsimp only; split <;> simp

/-! ### Machine/Arr -/

@[simp] theorem execArrFwd_keeps (s : State) (c x m w) : s.Keeps (execArrFwd c x m w s) := by simp [execArrFwd]
@[simp] theorem execArrIg_keeps (s : State) (c x m w) : s.Keeps (execArrIg c x m w s) := by simp [execArrIg]
@[simp] theorem execArrWg_keeps (s : State) (c x m w) : s.Keeps (execArrWg c x m w s) := by simp [execArrWg]
@[simp] theorem execArrDist_keeps (s : State) (c x m w) : s.Keeps (execArrDist c x m w s) := by simp [execArrDist]
@[simp] theorem execArrSpill_keeps (s : State) (c x m w) : s.Keeps (execArrSpill c x m w s) := by simp [execArrSpill]
@[simp] theorem execForceCheck_keeps (s : State) (c v) : s.Keeps (execForceCheck c v s) := by simp [execForceCheck]
@[simp] theorem execArrInjectArm_keeps (s : State) (c v) :
    s.Keeps (execArrInjectArm c v s) := by simp [execArrInjectArm]

@[simp] theorem execArrInjectCancel_keeps (s : State) (c v) :
    s.Keeps (execArrInjectCancel c v s) := by simp [execArrInjectCancel]

@[simp] theorem execArrTopkArm_keeps (s : State) (c v) : s.Keeps (execArrTopkArm c v s) := by simp [execArrTopkArm]
@[simp] theorem execArrChkTimerExpiry_keeps (s : State) (c) :
    s.Keeps (execArrChkTimerExpiry c s) := by simp [execArrChkTimerExpiry]

/-! ### Machine/WatchOps -/

@[simp] theorem State.sendMerge_keel (s : State) (c h) : (s.sendMerge c h).keel = s.keel := by simp [State.sendMerge]
@[simp] theorem State.freshSlot_keel (s : State) (c i) :
    (s.freshSlot c i).1.keel = s.keel := by simp [State.freshSlot]

@[simp] theorem State.takeSlot_keel (s : State) (c i) : (s.takeSlot c i).keel = s.keel := by
  unfold State.takeSlot
  dsimp only
  repeat' split
  all_goals simp

@[simp] theorem State.countSlot_keel (s : State) (c i f) :
    (s.countSlot c i f).keel = s.keel := by simp [State.countSlot]

@[simp] theorem State.countSat_keel (s : State) (c i n) : (s.countSat c i n).keel = s.keel := by simp [State.countSat]
@[simp] theorem State.countNonfinite_keel (s : State) (c i) :
    (s.countNonfinite c i).keel = s.keel := by simp [State.countNonfinite]

@[simp] theorem State.countNorm_keel (s : State) (c i grad x) :
    (s.countNorm c i grad x).keel = s.keel := by simp [State.countNorm]

/-! ### Machine/TetherOps -/

@[simp] theorem State.sendOn_keel (s : State) (p b how) : (s.sendOn p b how).keel = s.keel := by simp [State.sendOn]
@[simp] theorem State.sendLink_keel (s : State) (p) : (s.sendLink p).keel = s.keel := by simp [State.sendLink]
@[simp] theorem State.nextFseq_keel (s : State) (cls dst ctx) : (s.nextFseq cls dst ctx).2.keel = s.keel := rfl
@[simp] theorem State.sendE2e_keel (s : State) (dst kind eph nonce pnonce) :
    (s.sendE2e dst kind eph nonce pnonce).keel = s.keel := by simp [State.sendE2e]

@[simp] theorem State.startE2e_keel (s : State) (d) : (s.startE2e d).keel = s.keel := by simp [State.startE2e]
@[simp] theorem State.sendFlow_keel (s : State) (b) : (s.sendFlow b).keel = s.keel := by
  unfold State.sendFlow
  dsimp only
  split <;> split <;> simp

@[simp] theorem State.sendBridle_keel (s : State) (dst msg) : (s.sendBridle dst msg).keel = s.keel := by
  unfold State.sendBridle
  dsimp only
  split
  · rfl
  · split
    · simp
    · split <;> simp

@[simp] theorem State.broadcastOn_keel (s : State) (b but l) : (s.broadcastOn b but l).keel = s.keel := by
  induction l generalizing s with
  | nil => rfl
  | cons p t ih => simp [State.broadcastOn, ih]

@[simp] theorem State.sendBroadcast_keel (s : State) (msg) :
    (s.sendBroadcast msg).keel = s.keel := State.keel_foldl (fun s p => s.updPort_keel p _) _ _

@[simp] theorem State.addReqs_keel (s : State) (who write ctx l) : (s.addReqs who write ctx l).1.keel = s.keel := by
  induction l generalizing s with
  | nil => rfl
  | cons p t ih => simp [State.addReqs, ih]

@[simp] theorem State.sendReadReqs_keel (s : State) (ctx dev l) : (s.sendReadReqs ctx dev l).keel = s.keel := by
  induction l generalizing s with
  | nil => rfl
  | cons p t ih => simp [State.sendReadReqs, ih]

@[simp] theorem State.remoteRead_keel (s : State) (who ctx a n) :
    (s.remoteRead who ctx a n).1.keel = s.keel := by simp [State.remoteRead]

@[simp] theorem State.sendWriteData_keel (s : State) (ctx dev x bs l) :
    (s.sendWriteData ctx dev x bs l).keel = s.keel := by
  induction l generalizing s with
  | nil => rfl
  | cons p t ih => simp [State.sendWriteData, ih]

@[simp] theorem State.sendWrites_keel (s : State) (ctx dev x bs l) :
    (s.sendWrites ctx dev x bs l).keel = s.keel := by
  induction l generalizing s with
  | nil => rfl
  | cons p t ih => simp [State.sendWrites, ih]

@[simp] theorem State.mergeReq_keel (s : State) (who ctx x bs e) :
    (s.mergeReq who ctx x bs e).1.keel = s.keel := by simp [State.mergeReq]

@[simp] theorem State.mergeReqs_keel (s : State) (who ctx x bs l) :
    (s.mergeReqs who ctx x bs l).1.keel = s.keel := by
  induction l generalizing s with
  | nil => rfl
  | cons p t ih => simp [State.mergeReqs, ih]

@[simp] theorem State.remoteWrite_keel (s : State) (who ctx a bs) :
    (s.remoteWrite who ctx a bs).1.keel = s.keel := by simp [State.remoteWrite]

@[simp] theorem State.mergeSend_keel (s : State) (q d) : (s.mergeSend q d).keel = s.keel := by simp [State.mergeSend]
@[simp] theorem State.dropReqs_keel (s : State) (tags) : (s.dropReqs tags).keel = s.keel := by simp [State.dropReqs]

/-! ### Machine/KnotOps -/

@[simp] theorem State.sendTree_keel (s : State) (kind dst k phase err) :
    (s.sendTree kind dst k phase err).keel = s.keel := by
  unfold State.sendTree
  split <;> simp

@[simp] theorem State.sendTrees_keel (s : State) (kind k phase err l) :
    (s.sendTrees kind k phase err l).keel = s.keel := by
  induction l generalizing s with
  | nil => rfl
  | cons p t ih => simp [State.sendTrees, ih]

@[simp] theorem State.sendKnot_keel (s : State) (m) : (s.sendKnot m).keel = s.keel := by simp [State.sendKnot]
@[simp] theorem State.sendReply_keel (s : State) (k who op status) : (s.sendReply k who op status).keel = s.keel := by
  unfold State.sendReply
  split <;> simp

@[simp] theorem State.replyAll_keel (s : State) (k status l) : (s.replyAll k status l).keel = s.keel := by
  induction l generalizing s with
  | nil => rfl
  | cons p t ih => simp [State.replyAll, ih]

@[simp] theorem State.replySat_keel (s : State) (k l) : (s.replySat k l).keel = s.keel := by
  induction l generalizing s with
  | nil => rfl
  | cons p t ih => simp [State.replySat, ih]

@[simp] theorem State.retest_keel (s : State) (k kind) : (s.retest k kind).keel = s.keel := by simp [State.retest]
@[simp] theorem State.notifyAll_keel (s : State) (k l) : (s.notifyAll k l).keel = s.keel := by
  induction l generalizing s with
  | nil => rfl
  | cons p t ih => simp [State.notifyAll, ih]

@[simp] theorem State.notifyIf_keel (s : State) (old k) : (s.notifyIf old k).keel = s.keel := by simp [State.notifyIf]
@[simp] theorem State.barrierStep_keel (s : State) (k r) :
    (s.barrierStep k r).keel = s.keel := by simp [State.barrierStep]

@[simp] theorem State.abortKnot_keel (s : State) (k r told) :
    (s.abortKnot k r told).keel = s.keel := by simp [State.abortKnot]

@[simp] theorem State.knotApply_keel (s : State) (m) : (s.knotApply m).keel = s.keel := by
  unfold State.knotApply
  dsimp only
  repeat' split
  all_goals simp

@[simp] theorem State.abortRange_keel (s : State) (r k) : (s.abortRange r k).keel = s.keel := by
  induction k generalizing s r with
  | zero => simp [State.abortRange]
  | succ n ih => simp [State.abortRange, ih]

@[simp] theorem State.abortCtx_keel (s : State) (c l) : (s.abortCtx c l).keel = s.keel := by
  induction l generalizing s with
  | nil => rfl
  | cons p t ih => simp [State.abortCtx, ih]

/-! ### Machine/VecOps -/

@[simp] theorem State.vTouch_keel (s : State) (c t op w) : (s.vTouch c t op w).keel = s.keel := by
  unfold State.vTouch
  split <;> simp

@[simp] theorem State.vecIssue_keel (s : State) (c x op w) : (s.vecIssue c x op w).keel = s.keel := by
  refine State.coreAccess_keel fun s => State.issue_keel fun s => ?_
  extract_lets t u k n
  have hu : u.keel = s.keel := s.vTouch_keel _ _ _ _
  split
  · exact (u.raise_keel _ _ _).trans hu
  · split
    · exact (u.raise_keel _ _ _).trans hu
    · split
      · exact (u.raise_keel _ _ _).trans hu
      · split
        · exact (u.waitFor_keel _ _ _).trans hu
        · refine (State.pay_keel fun s => ?_).trans hu
          simp

/-! ### Machine/Ldst -/

@[simp] theorem State.eccAt_keel (s : State) (l e) : (s.eccAt l e).1.keel = s.keel := by
  unfold State.eccAt
  dsimp only
  repeat' split
  all_goals simp

@[simp] theorem State.farAccess_keel {s : State} {c x g send} (h : ∀ t : State, t.SameKeel (send t)) :
    (s.farAccess c x g send).keel = s.keel := by
  unfold State.farAccess
  split
  · simp
  · exact h s

@[simp] theorem State.load_keel (s : State) (c x w e n signed) : (s.load c x w e n signed).keel = s.keel := by
  refine State.issue_keel fun s => ?_
  dsimp only
  split
  · simp
  · split
    · simp
    · split
      · exact State.farAccess_keel fun s => by simp
      · split
        · split <;> simp
        · rw [State.sameKeel_iff, State.retire_keel, State.updSt_keel, State.updCore_keel, State.readBytes_keel,
            State.ticket_keel, State.eccAt_keel]

@[simp] theorem State.store_keel (s : State) (c x w n) : (s.store c x w n).keel = s.keel := by
  refine State.issue_keel fun s => ?_
  dsimp only
  split
  · simp
  · split
    · simp
    · split
      · exact State.farAccess_keel fun s => by simp
      · split <;> simp

@[simp] theorem execLd8u_keeps (s : State) (c x w e) : s.Keeps (execLd8u c x w e s) := by simp [execLd8u]
@[simp] theorem execLd16u_keeps (s : State) (c x w e) : s.Keeps (execLd16u c x w e s) := by simp [execLd16u]
@[simp] theorem execLd32u_keeps (s : State) (c x w e) : s.Keeps (execLd32u c x w e s) := by simp [execLd32u]
@[simp] theorem execLd64_keeps (s : State) (c x w e) : s.Keeps (execLd64 c x w e s) := by simp [execLd64]
@[simp] theorem execLd8s_keeps (s : State) (c x w e) : s.Keeps (execLd8s c x w e s) := by simp [execLd8s]
@[simp] theorem execLd16s_keeps (s : State) (c x w e) : s.Keeps (execLd16s c x w e s) := by simp [execLd16s]
@[simp] theorem execLd32s_keeps (s : State) (c x w e) : s.Keeps (execLd32s c x w e s) := by simp [execLd32s]
@[simp] theorem execSt8_keeps (s : State) (c x w) : s.Keeps (execSt8 c x w s) := by simp [execSt8]
@[simp] theorem execSt16_keeps (s : State) (c x w) : s.Keeps (execSt16 c x w s) := by simp [execSt16]
@[simp] theorem execSt32_keeps (s : State) (c x w) : s.Keeps (execSt32 c x w s) := by simp [execSt32]
@[simp] theorem execSt64_keeps (s : State) (c x w) : s.Keeps (execSt64 c x w s) := by simp [execSt64]
@[simp] theorem execScalarLoadReturn_keeps (s : State) (c k) : s.Keeps (execScalarLoadReturn c k s) := by
  unfold execScalarLoadReturn
  split <;> simp

/-! ### Machine/Seq -/

@[simp] theorem State.endProgGuards_keel (s : State) (c r) :
    (s.endProgGuards c r).keel = s.keel := by simp [State.endProgGuards]

@[simp] theorem execStartA_keeps (s : State) (c v) : s.Keeps (execStartA c v s) := by simp [execStartA]
@[simp] theorem execStartB_keeps (s : State) (c v) : s.Keeps (execStartB c v s) := by simp [execStartB]
@[simp] theorem execStopA_keeps (s : State) (c v) : s.Keeps (execStopA c v s) := by simp [execStopA]
@[simp] theorem execStopB_keeps (s : State) (c v) : s.Keeps (execStopB c v s) := by simp [execStopB]
@[simp] theorem execSeqPcWrite_keeps (s : State) (c x v) :
    s.Keeps (execSeqPcWrite c x v s) := by simp [execSeqPcWrite]

@[simp] theorem execSeqReelRingWrite_keeps (s : State) (c r v) :
    s.Keeps (execSeqReelRingWrite c r v s) := by simp [execSeqReelRingWrite]

@[simp] theorem execSeqCreditCapWrite_keeps (s : State) (c v) :
    s.Keeps (execSeqCreditCapWrite c v s) := by simp [execSeqCreditCapWrite]

@[simp] theorem execSeqArbWrite_keeps (s : State) (c v) : s.Keeps (execSeqArbWrite c v s) := by simp [execSeqArbWrite]
@[simp] theorem State.reelResume_keel (s : State) (c r v) :
    (s.reelResume c r v).keel = s.keel := by simp [State.reelResume]

@[simp] theorem execReelResumeFlush_keeps (s : State) (c r v) :
    s.Keeps (execReelResumeFlush c r v s) := by simp [execReelResumeFlush]

@[simp] theorem execReelResumeSkip_keeps (s : State) (c r v) :
    s.Keeps (execReelResumeSkip c r v s) := by simp [execReelResumeSkip]

/-! ### Machine/Reel -/

@[simp] theorem execReelGo_keeps (s : State) (c x w) : s.Keeps (execReelGo c x w s) := by simp [execReelGo]
@[simp] theorem execReelStat_keeps (s : State) (c x w) : s.Keeps (execReelStat c x w s) := by simp [execReelStat]
@[simp] theorem State.watchBlocks_keel (s : State) (c g l) : (s.watchBlocks c g l).keel = s.keel := by
  induction l generalizing s c g with
  | nil => simp [State.watchBlocks]
  | cons p t ih =>
    unfold State.watchBlocks
    split <;> simp [ih]

@[simp] theorem State.addGuard_keel (s : State) (c r idx b) : (s.addGuard c r idx b).1.keel = s.keel := by
  unfold State.addGuard
  split <;> simp

@[simp] theorem State.rowReads_keel (s : State) (c r d k) : (s.rowReads c r d k).1.keel = s.keel := by
  induction k generalizing s c r d with
  | zero => simp [State.rowReads]
  | succ n ih => simp [State.rowReads, ih]

@[simp] theorem execReelDescStart_keeps (s : State) (c r) : s.Keeps (execReelDescStart c r s) := by
  refine .next (State.coreAccess_keel fun s => ?_)
  split
  · simp
  · dsimp only
    repeat' split
    all_goals simp

@[simp] theorem State.rowRead_keel (s : State) (d far i) :
    (s.rowRead d far i).1.keel = s.keel := by simp [State.rowRead]

@[simp] theorem State.rowsMove_keel (s : State) (c r gen d w far i n) :
    (s.rowsMove c r gen d w far i n).1.keel = s.keel := by
  induction n generalizing s i with
  | zero => rfl
  | succ n ih =>
    rw [State.rowsMove]
    dsimp only
    split
    · simp
    · split
      · simp
      · split
        · split
          · simp
          · simp [ih]
        · split <;> simp [ih]

@[simp] theorem State.reelArrive_keel (s : State) (c d err) :
    (s.reelArrive c d err).keel = s.keel := by simp [State.reelArrive]

@[simp] theorem State.reelFinish_keel (s : State) (c r p) :
    (s.reelFinish c r p).keel = s.keel := by simp [State.reelFinish]

@[simp] theorem State.reelMark_keel (s : State) (c r code) :
    (s.reelMark c r code).keel = s.keel := by simp [State.reelMark]

@[simp] theorem execReelDescComplete_keeps (s : State) (c r e) : s.Keeps (execReelDescComplete c r e s) := by
  refine .next (State.coreAccess_keel fun s => ?_)
  split
  · simp
  · split
    · simp
    · dsimp only
      repeat' split
      all_goals simp

@[simp] theorem execReelDescFail_keeps (s : State) (c r) : s.Keeps (execReelDescFail c r s) := by
  unfold execReelDescFail
  split <;> simp

@[simp] theorem execStaleNotice_keeps (s : State) (k) : s.Keeps (execStaleNotice k s) := by
  unfold execStaleNotice
  split <;> simp

@[simp] theorem State.updGuard_keel (s : State) (c g f) : (s.updGuard c g f).keel = s.keel := by simp [State.updGuard]
@[simp] theorem State.recopied_keel (s : State) (c g q) : (s.recopied c g q).keel = s.keel := by simp [State.recopied]
@[simp] theorem execGuardRecopyDone_keeps (s : State) (c guard) : s.Keeps (execGuardRecopyDone c guard s) := by
  refine .next (State.coreAccess_keel fun s => ?_)
  split
  · simp
  · split <;> simp

/-! ### Machine/Bal -/

@[simp] theorem execBalStepWrite_keeps (s : State) (st v) :
    s.Keeps (execBalStepWrite st v s) := by simp [execBalStepWrite]

@[simp] theorem execBalSnapMapWrite_keeps (s : State) (st v) :
    s.Keeps (execBalSnapMapWrite st v s) := by simp [execBalSnapMapWrite]

@[simp] theorem execArm_keeps (s : State) (st v) : s.Keeps (execArm st v s) := by simp [execArm]
@[simp] theorem execLoad_keeps (s : State) (st v) : s.Keeps (execLoad st v s) := by simp [execLoad]
@[simp] theorem execBalLoadDone_keeps (s : State) (st) : s.Keeps (execBalLoadDone st s) := by
  refine .next (State.access_keel fun s => ?_)
  extract_lets b bad r m
  split
  · rfl
  · split
    · exact s.updBal_keel _ _
    · have hread : r.1.keel = s.keel := s.readBytes_keel _ _
      split <;> exact (State.updBal_keel _ _ _).trans hread

@[simp] theorem State.mapped_keel (s : State) (st a) : (s.mapped st a).1.keel = s.keel := by simp [State.mapped]
@[simp] theorem State.snapCopy_keel (s : State) (st g h a) :
    (s.snapCopy st g h a).keel = s.keel := by simp [State.snapCopy]

@[simp] theorem State.snapFirst_keel (s : State) (st g h a) :
    (s.snapFirst st g h a).keel = s.keel := by simp [State.snapFirst]

@[simp] theorem State.recPart_keel (s : State) (a n) : (s.recPart a n).1.keel = s.keel := by simp [State.recPart]
@[simp] theorem State.recSlots_keel (s : State) (g a nv k) : (s.recSlots g a nv k).1.keel = s.keel := by
  induction k generalizing s g a nv with
  | zero => simp [State.recSlots]
  | succ n ih => simp [State.recSlots, ih]

@[simp] theorem State.putSlots_keel (s : State) (g a e0 n q k) : (s.putSlots g a e0 n q k).keel = s.keel := by
  induction k generalizing s g a e0 n q with
  | zero => simp [State.putSlots]
  | succ n ih => simp [State.putSlots, ih]

@[simp] theorem State.grads_keel (s : State) (a gs n) : (s.grads a gs n).1.keel = s.keel := by simp [State.grads]
@[simp] theorem State.balPiece_keel (s : State) (st g v gs ga h e0 n) :
    (s.balPiece st g v gs ga h e0 n).1.keel = s.keel := by
  simp only [State.balPiece]
  split <;> simp

@[simp] theorem State.balPieces_keel (s : State) (st g v gs a l) : (s.balPieces st g v gs a l).1.keel = s.keel := by
  induction l generalizing s st g v gs a with
  | nil => simp [State.balPieces]
  | cons p t ih => simp [State.balPieces, ih]

@[simp] theorem State.balRows_keel (s : State) (st g v b k) : (s.balRows st g v b k).keel = s.keel := by
  induction k generalizing s st g v b with
  | zero => simp [State.balRows]
  | succ n ih => simp [State.balRows, ih]

@[simp] theorem State.balApply_keel (s : State) (st residue q) :
    (s.balApply st residue q).keel = s.keel := by simp [State.balApply]

@[simp] theorem State.balForward_keel (s : State) (q l) : (s.balForward q l).keel = s.keel := by
  induction l generalizing s with
  | nil => rfl
  | cons p t ih => simp [State.balForward, ih]

@[simp] theorem State.balTake_keel (s : State) (st residue) : (s.balTake st residue).keel = s.keel := by
  simp only [State.balTake]
  split <;> simp

@[simp] theorem State.judged_keel (s : State) (cr id f) : (s.judged cr id f).keel = s.keel := by simp [State.judged]
@[simp] theorem State.segDiscard_keel (s : State) (st cr id f) :
    (s.segDiscard st cr id f).keel = s.keel := by simp [State.segDiscard]

@[simp] theorem State.balJudge_keel (s : State) (st) : (s.balJudge st).keel = s.keel := by
  unfold State.balJudge
  dsimp only
  split
  · rfl
  · split
    · rfl
    · repeat' split
      all_goals simp

@[simp] theorem State.balOpened_keel (s : State) (st) : (s.balOpened st).keel = s.keel := by
  refine State.keel_foldl (fun s h => ?_) _ _
  split
  · split <;> simp
  · rfl

@[simp] theorem State.balNext_keel (s : State) (st residue) :
    (s.balNext st residue).keel = s.keel := by simp [State.balNext]

@[simp] theorem State.updProg_keel (s : State) (c r i f) :
    (s.updProg c r i f).keel = s.keel := by simp [State.updProg]

@[simp] theorem State.segBytes_keel (s : State) (p) : (s.segBytes p).1.keel = s.keel := by simp [State.segBytes]
@[simp] theorem State.sendSegment_keel (s : State) (c r kind) : (s.sendSegment c r kind).1.keel = s.keel := by
  unfold State.sendSegment
  dsimp only
  repeat' split
  all_goals simp

@[simp] theorem State.segment_keel (s : State) (c r kind residue) : (s.segment c r kind residue).keel = s.keel := by
  unfold State.segment
  split <;> simp

@[simp] theorem execOpenSegment_keeps (s : State) (c r) : s.Keeps (execOpenSegment c r s) := by simp [execOpenSegment]
@[simp] theorem execRunSegment_keeps (s : State) (c r residue) :
    s.Keeps (execRunSegment c r residue s) := by simp [execRunSegment]

@[simp] theorem execListSegment_keeps (s : State) (c r residue) :
    s.Keeps (execListSegment c r residue s) := by simp [execListSegment]

@[simp] theorem execBalSegmentForwarded_keeps (s : State) (st residue) :
    s.Keeps (execBalSegmentForwarded st residue s) := by simp [execBalSegmentForwarded]

@[simp] theorem execBalSegmentComplete_keeps (s : State) (id) :
    s.Keeps (execBalSegmentComplete id s) := by simp [execBalSegmentComplete]

@[simp] theorem State.sweepChunks_keel (s : State) (st g k x) : (s.sweepChunks st g k x).1.keel = s.keel := by
  induction k generalizing s st g x with
  | zero => simp [State.sweepChunks]
  | succ n ih =>
    unfold State.sweepChunks
    repeat' split
    all_goals simp [ih]

@[simp] theorem State.sweepGroups_keel (s : State) (st n gi h) : (s.sweepGroups st n gi h).1.keel = s.keel := by
  induction n generalizing s gi h with
  | zero => rfl
  | succ n ih =>
    rw [State.sweepGroups]
    dsimp only
    split
    · split
      · simp
      · simp [ih]
    · exact ih _ _ _

@[simp] theorem State.sweepStep_keel (s : State) (st) : (s.sweepStep st).keel = s.keel := by
  simp only [State.sweepStep]
  split <;> simp

@[simp] theorem execSnapSweep_keeps (s : State) (st) : s.Keeps (execSnapSweep st s) := by simp [execSnapSweep]

/-! ### Machine/Tile -/

@[simp] theorem execArbGrant_keeps (s : State) (c) : s.Keeps (execArbGrant c s) := by simp [execArbGrant]
@[simp] theorem State.owRead_keel (s : State) (d line e0 n) :
    (s.owRead d line e0 n).1.keel = s.keel := by simp [State.owRead]

@[simp] theorem State.owLines_keel (s : State) (d e0 n a k) : (s.owLines d e0 n a k).1.keel = s.keel := by
  induction k generalizing s d e0 n a with
  | zero => simp [State.owLines]
  | succ n ih => simp [State.owLines, ih]

@[simp] theorem State.operands_keel (s : State) (c t) : (s.operands c t).1.keel = s.keel := by simp [State.operands]
@[simp] theorem State.termLine_keel (s : State) (c cb sc x j l) : (s.termLine c cb sc x j l).1.keel = s.keel := by
  induction l generalizing s j with
  | nil => rfl
  | cons w l ih =>
    rw [State.termLine]
    dsimp only
    rw [ih]
    split <;> simp

@[simp] theorem State.termLines_keel (s : State) (c sc job on ws l) :
    (s.termLines c sc job on ws l).1.keel = s.keel := by
  induction l generalizing s with
  | nil => rfl
  | cons p t ih => simp [State.termLines, ih]

@[simp] theorem State.laneTerms_keel (s : State) (c rt) :
    (s.laneTerms c rt).keel = s.keel := by simp [State.laneTerms]

@[simp] theorem State.topkClear_keel (s : State) (c o bs k) : (s.topkClear c o bs k).keel = s.keel := by
  induction k generalizing s c o bs with
  | zero => simp [State.topkClear]
  | succ n ih => simp [State.topkClear, ih]

@[simp] theorem State.topkClears_keel (s : State) (c l) : (s.topkClears c l).keel = s.keel := by
  induction l generalizing s with
  | nil => rfl
  | cons p t ih => simp [State.topkClears, ih]

@[simp] theorem State.topkApply_keel (s : State) (c) : (s.topkApply c).keel = s.keel := by
  simp only [State.topkApply]
  split <;> simp

@[simp] theorem State.runTile_keel (s : State) (c t o) : (s.runTile c t o).keel = s.keel := by simp [State.runTile]
@[simp] theorem State.tileBegin_keel (s : State) (c t) : (s.tileBegin c t).keel = s.keel := by simp [State.tileBegin]
@[simp] theorem execTileStart_keeps (s : State) (c e) : s.Keeps (execTileStart c e s) := by
  refine .next (State.coreAccess_keel fun s => ?_)
  dsimp only
  split
  · simp
  · split
    · simp
    · split <;> simp

/-! ### Machine/Tail -/

@[simp] theorem State.endLoftGuards_keel (s : State) (c o n) :
    (s.endLoftGuards c o n).keel = s.keel := by simp [State.endLoftGuards]

@[simp] theorem State.loftWrite_keel (s : State) (c o bs) :
    (s.loftWrite c o bs).keel = s.keel := by simp [State.loftWrite]

@[simp] theorem State.arrayFail_keel (s : State) (c kind prow col seq) :
    (s.arrayFail c kind prow col seq).keel = s.keel := by simp [State.arrayFail]

@[simp] theorem State.laneFail_keel (s : State) (c) : (s.laneFail c).keel = s.keel := by simp [State.laneFail]
@[simp] theorem State.drainFail_keel (s : State) (c rt fail) : (s.drainFail c rt fail).keel = s.keel := by
  unfold State.drainFail
  split
  · simp
  · split <;> simp

@[simp] theorem State.tailScr_keel (s : State) (c o n) : (s.tailScr c o n).1.keel = s.keel := by simp [State.tailScr]
@[simp] theorem State.jobVal_keel (s : State) (c pscr entry off bf) :
    (s.jobVal c pscr entry off bf).1.keel = s.keel := by simp [State.jobVal]

@[simp] theorem State.derivOut_keel (s : State) (c j l e d) :
    (s.derivOut c j l e d).1.keel = s.keel := by simp [State.derivOut]

@[simp] theorem State.lineVals_keel (s : State) (c rt a l) : (s.lineVals c rt a l).1.keel = s.keel := by
  induction l generalizing s with
  | nil => rfl
  | cons p t ih => simp [State.lineVals, ih]

@[simp] theorem State.lineAcc_keel (s : State) (c rt l lts) :
    (s.lineAcc c rt l lts).keel = s.keel := by simp [State.lineAcc]

@[simp] theorem State.stashLine_keel (s : State) (c rt a m ds) :
    (s.stashLine c rt a m ds).keel = s.keel := by simp [State.stashLine]

@[simp] theorem State.topkLine_keel (s : State) (c rt a m ds) :
    (s.topkLine c rt a m ds).keel = s.keel := by simp [State.topkLine]

@[simp] theorem State.tailLine_keel (s : State) (c rt a od m l) :
    (s.tailLine c rt a od m l).1.keel = s.keel := by simp [State.tailLine]

@[simp] theorem State.tailLines_keel (s : State) (c rt a od n k x y) :
    (s.tailLines c rt a od n k x y).1.keel = s.keel := by
  induction k generalizing s c rt a od n x y with
  | zero => simp [State.tailLines]
  | succ n ih => simp [State.tailLines, ih]

@[simp] theorem State.arrXfault_keel (s : State) (c seq) :
    (s.arrXfault c seq).keel = s.keel := by simp [State.arrXfault]

@[simp] theorem State.spoolRead_keel (s : State) (c row n) :
    (s.spoolRead c row n).keel = s.keel := by simp [State.spoolRead]

@[simp] theorem State.drain_keel (s : State) (c rt) : (s.drain c rt).keel = s.keel := by simp [State.drain]
@[simp] theorem State.releaseJob_keel (s : State) (c t) :
    (s.releaseJob c t).keel = s.keel := by simp [State.releaseJob]

@[simp] theorem State.tileDone_keel (s : State) (c rt fail) :
    (s.tileDone c rt fail).keel = s.keel := by simp [State.tileDone]

@[simp] theorem execTileComplete_keeps (s : State) (c fail residue) :
    s.Keeps (execTileComplete c fail residue s) := by
  refine .next (State.coreAccess_keel fun s => ?_)
  dsimp only
  split
  · simp
  · split
    · simp
    · split <;> simp

@[simp] theorem execSpillStart_keeps (s : State) (c) : s.Keeps (execSpillStart c s) := by
  simp only [execSpillStart]
  split <;> simp

@[simp] theorem State.spillOut_keel (s : State) (c t) : (s.spillOut c t).keel = s.keel := by simp [State.spillOut]
@[simp] theorem State.spillFail_keel (s : State) (c kind seq a fail) :
    (s.spillFail c kind seq a fail).keel = s.keel := by
  unfold State.spillFail
  split
  · simp
  · split
    · simp
    · split <;> simp

@[simp] theorem State.spillDone_keel (s : State) (c t seq fail) :
    (s.spillDone c t seq fail).keel = s.keel := by simp [State.spillDone]

@[simp] theorem execSpillComplete_keeps (s : State) (c fail residue) :
    s.Keeps (execSpillComplete c fail residue s) := by
  refine .next (State.coreAccess_keel fun s => ?_)
  dsimp only
  split
  · simp
  · split
    · simp
    · split <;> simp

@[simp] theorem execArrayAccessFail_keeps (s : State) (c seq write addr) :
    s.Keeps (execArrayAccessFail c seq write addr s) := by
  unfold execArrayAccessFail
  split <;> simp

/-! ### Machine/Cor -/

@[simp] theorem State.corIssue_keel (s : State) (c x expand w) : (s.corIssue c x expand w).keel = s.keel := by
  refine State.coreAccess_keel fun s => State.issue_keel fun s => ?_
  dsimp only
  split
  · simp
  · split
    · exact (State.raise_keel _ _ _ _).trans (State.touchAll_keel _ _ _)
    · split
      · exact (State.waitFor_keel _ _ _ _).trans (State.touchAll_keel _ _ _)
      · refine (State.pay_keel fun s => ?_).trans (State.touchAll_keel _ _ _)
        exact (State.retire_keel _ _ _).trans ((State.updCore_keel _ _ _).trans (s.ticket_keel c))

@[simp] theorem execCorProj_keeps (s : State) (c x w) : s.Keeps (execCorProj c x w s) := by simp [execCorProj]
@[simp] theorem execCorExpand_keeps (s : State) (c x w) : s.Keeps (execCorExpand c x w s) := by simp [execCorExpand]
@[simp] theorem State.lanePut_keel (s : State) (c o acc vs) :
    (s.lanePut c o acc vs).keel = s.keel := by simp [State.lanePut]

@[simp] theorem State.projLines_keel (s : State) (c l ad fac a k) : (s.projLines c l ad fac a k).1.keel = s.keel := by
  induction k generalizing s c l ad fac a with
  | zero => simp [State.projLines]
  | succ n ih => simp [State.projLines, ih]

@[simp] theorem State.expandLines_keel (s : State) (c l fac a k) : (s.expandLines c l fac a k).keel = s.keel := by
  induction k generalizing s c l fac a with
  | zero => simp [State.expandLines]
  | succ n ih => simp [State.expandLines, ih]

@[simp] theorem State.corRun_keel (s : State) (c o) : (s.corRun c o).keel = s.keel := by simp [State.corRun]
@[simp] theorem execCorOpComplete_keeps (s : State) (c e mismatch) : s.Keeps (execCorOpComplete c e mismatch s) := by
  refine .next (State.coreAccess_keel fun s => ?_)
  dsimp only
  split
  · simp
  · split
    · simp
    · split
      · simp
      · split <;> simp

/-! ### Machine/Cred -/

@[simp] theorem execCrdGet_keeps (s : State) (c x w) : s.Keeps (execCrdGet c x w s) := by simp [execCrdGet]
@[simp] theorem execCrdWait_keeps (s : State) (c x w) : s.Keeps (execCrdWait c x w s) := by simp [execCrdWait]
@[simp] theorem execCrdGive_keeps (s : State) (c x w) : s.Keeps (execCrdGive c x w s) := by simp [execCrdGive]
@[simp] theorem execCreditDeal_keeps (s : State) (k) : s.Keeps (execCreditDeal k s) := by
  unfold execCreditDeal
  split <;> simp

/-! ### Machine/Ctrl -/

@[simp] theorem State.jump_keel {s : State} {c x pc before} (h : ∀ t : State, t.SameKeel (before t)) :
    (s.jump c x pc before).keel = s.keel := by
  unfold State.jump
  split
  · simp
  · exact h s

@[simp] theorem execNop_keeps (s : State) (c x w) : s.Keeps (execNop c x w s) := by simp [execNop]
@[simp] theorem execHalt_keeps (s : State) (c x w) : s.Keeps (execHalt c x w s) := by simp [execHalt]
@[simp] theorem execBr_keeps (s : State) (c x w) : s.Keeps (execBr c x w s) := by simp [execBr]
@[simp] theorem execCall_keeps (s : State) (c x w) : s.Keeps (execCall c x w s) := by simp [execCall]
@[simp] theorem execJr_keeps (s : State) (c x w) : s.Keeps (execJr c x w s) := by simp [execJr]
@[simp] theorem execTwait_keeps (s : State) (c x w) : s.Keeps (execTwait c x w s) := by simp [execTwait]
@[simp] theorem execRwait_keeps (s : State) (c x w) : s.Keeps (execRwait c x w s) := by simp [execRwait]
@[simp] theorem execFence_keeps (s : State) (c x w) : s.Keeps (execFence c x w s) := by simp [execFence]
@[simp] theorem execSynci_keeps (s : State) (c x w) : s.Keeps (execSynci c x w s) := by simp [execSynci]
@[simp] theorem execEvent_keeps (s : State) (c x w) : s.Keeps (execEvent c x w s) := by simp [execEvent]

/-! ### Machine/PortOps -/

@[simp] theorem State.peerTo_keel (s : State) (d st) : (s.peerTo d st).keel = s.keel := by simp [State.peerTo]
@[simp] theorem State.eraseKeys_keel (s : State) (d) : (s.eraseKeys d).keel = s.keel := by simp [State.eraseKeys]
@[simp] theorem State.loseRouted_keel (s : State) (l) : (s.loseRouted l).keel = s.keel := by
  induction l generalizing s with
  | nil => rfl
  | cons p t ih => simp [State.loseRouted, ih]

@[simp] theorem State.leaveUp_keel (s : State) (d st) : (s.leaveUp d st).keel = s.keel := by simp [State.leaveUp]
@[simp] theorem State.loseAll_keel (s : State) (l) : (s.loseAll l).keel = s.keel := by
  induction l generalizing s with
  | nil => rfl
  | cons p t ih => simp [State.loseAll, ih]

@[simp] theorem State.clearPort_keel (s : State) (p) : (s.clearPort p).keel = s.keel := by simp [State.clearPort]
@[simp] theorem State.losePartner_keel (s : State) (p) :
    (s.losePartner p).keel = s.keel := by simp [State.losePartner]

@[simp] theorem State.holdPort_keel (s : State) (p) : (s.holdPort p).keel = s.keel := by simp [State.holdPort]
@[simp] theorem State.meetPeers_keel (s : State) (l) : (s.meetPeers l).keel = s.keel := by
  induction l generalizing s with
  | nil => rfl
  | cons p t ih => simp [State.meetPeers, ih]

@[simp] theorem State.becomeUp_keel (s : State) (d) : (s.becomeUp d).keel = s.keel := by simp [State.becomeUp]
@[simp] theorem State.nak_keel (s : State) (p) : (s.nak p).keel = s.keel := by simp [State.nak]
@[simp] theorem State.nakOn_keel (s : State) (p) : (s.nakOn p).keel = s.keel := by simp [State.nakOn]
@[simp] theorem State.hsRefuse_keel (s : State) (p d) : (s.hsRefuse p d).keel = s.keel := by simp [State.hsRefuse]
@[simp] theorem State.learnFp_keel (s : State) (d fp) : (s.learnFp d fp).keel = s.keel := by simp [State.learnFp]
@[simp] theorem State.sendHs_keel (s : State) (p kind eph nonce pnonce) :
    (s.sendHs p kind eph nonce pnonce).keel = s.keel := by simp [State.sendHs]

@[simp] theorem State.startLink_keel (s : State) (p) : (s.startLink p).keel = s.keel := by simp [State.startLink]
@[simp] theorem State.portSilent_keel (s : State) (p) : (s.portSilent p).keel = s.keel := by simp [State.portSilent]
@[simp] theorem State.takeKeys_keel (s : State) (d z salt) : (s.takeKeys d z salt).keel = s.keel := by
  unfold State.takeKeys
  split <;> simp

@[simp] theorem State.linkUp_keel (s : State) (p z salt b) :
    (s.linkUp p z salt b).keel = s.keel := by simp [State.linkUp]

@[simp] theorem State.e2eUp_keel (s : State) (d z salt fp) :
    (s.e2eUp d z salt fp).keel = s.keel := by simp [State.e2eUp]

@[simp] theorem State.newEpoch_keel (s : State) (b) : (s.newEpoch b).keel = s.keel := by simp [State.newEpoch]
@[simp] theorem State.rxClear_keel (s : State) (p b) : (s.rxClear p b).1.keel = s.keel := by simp [State.rxClear]
@[simp] theorem State.rxCheck_keel (s : State) (p b) : (s.rxCheck p b).1.keel = s.keel := by
  unfold State.rxCheck
  split <;> simp

@[simp] theorem State.forward_keel (s : State) (p b) : (s.forward p b).keel = s.keel := by
  unfold State.forward
  split
  · rfl
  · split <;> simp

@[simp] theorem State.rxBad_keel (s : State) (p h b) : (s.rxBad p h b).keel = s.keel := by simp [State.rxBad]
@[simp] theorem State.rxAccept_keel (s : State) (p h b) : (s.rxAccept p h b).keel = s.keel := by simp [State.rxAccept]
@[simp] theorem State.rxBlock_keel {s : State} {p h b crc body} (hbody : ∀ t : State, t.SameKeel (body t)) :
    (s.rxBlock p h b crc body).keel = s.keel := by
  simp [State.rxBlock, fun t => (State.sameKeel_iff _ _).mp (hbody t)]

@[simp] theorem State.rxIn_keel {s : State} {p h b crc body} (hbody : ∀ (t : State) b, t.SameKeel (body t b)) :
    (s.rxIn p h b crc body).keel = s.keel := by
  refine State.rxBlock_keel fun s => ?_
  dsimp only
  split
  · exact (hbody _ _).trans (by simp)
  · simp

@[simp] theorem State.rx_keel {s : State} {p h b crc cls kind body} (hbody : ∀ (t : State) b, t.SameKeel (body t b)) :
    (s.rx p h b crc cls kind body).keel = s.keel := by
  unfold State.rx
  split
  · rfl
  · exact State.access_keel fun s => State.rxIn_keel hbody

/-! ### Machine/RedOps -/

@[simp] theorem State.updArmed_keel (s : State) (b f) : (s.updArmed b f).keel = s.keel := by simp [State.updArmed]
@[simp] theorem State.words16_keel (s : State) (a n) : (s.words16 a n).1.keel = s.keel := by simp [State.words16]
@[simp] theorem State.covers_keel (s : State) (a) : (s.covers a).1.keel = s.keel := by simp [State.covers]
@[simp] theorem State.redArrive_keel (s : State) (b knot done) :
    (s.redArrive b knot done).keel = s.keel := by simp [State.redArrive]

@[simp] theorem State.sendReduceData_keel (s : State) (ctx dev bs k) :
    (s.sendReduceData ctx dev bs k).keel = s.keel := by
  induction k generalizing s ctx dev bs with
  | zero => simp [State.sendReduceData]
  | succ n ih => simp [State.sendReduceData, ih]

@[simp] theorem State.sendPart_keel (s : State) (a dev slot seg part addr) :
    (s.sendPart a dev slot seg part addr).keel = s.keel := by simp [State.sendPart]

@[simp] theorem State.sendParts_keel (s : State) (a dev slot seg) (at') (k) :
    (s.sendParts a dev slot seg at' k).keel = s.keel := by
  induction k generalizing s a dev slot seg at' with
  | zero => simp [State.sendParts]
  | succ n ih => simp [State.sendParts, ih]

@[simp] theorem State.sendResults_keel (s : State) (a l) : (s.sendResults a l).keel = s.keel := by
  induction l generalizing s with
  | nil => rfl
  | cons p t ih => simp [State.sendResults, ih]

@[simp] theorem State.partIn_keel (s : State) (b k p) : (s.partIn b k p).keel = s.keel := by
  unfold State.partIn
  dsimp only
  repeat' split
  all_goals simp

@[simp] theorem State.copyParts_keel (s : State) (a slot seg k) : (s.copyParts a slot seg k).keel = s.keel := by
  induction k generalizing s a slot seg with
  | zero => simp [State.copyParts]
  | succ n ih => simp [State.copyParts, ih]

@[simp] theorem State.putSegs_keel (s : State) (a devs l) : (s.putSegs a devs l).keel = s.keel := by
  induction l generalizing s with
  | nil => rfl
  | cons p t ih => simp [State.putSegs, ih]

@[simp] theorem State.redPut_keel (s : State) (a) : (s.redPut a).keel = s.keel := by simp [State.redPut]
@[simp] theorem State.redDone_keel (s : State) (b) : (s.redDone b).keel = s.keel := by
  unfold State.redDone
  split <;> simp

@[simp] theorem State.redOwn_keel (s : State) (a) : (s.redOwn a).keel = s.keel := by simp [State.redOwn]
@[simp] theorem State.redSee_keel (s : State) (k old new a) : (s.redSee k old new a).keel = s.keel := by
  unfold State.redSee
  dsimp only
  repeat' split
  all_goals simp

@[simp] theorem State.redSeeAll_keel (s : State) (k old new l) : (s.redSeeAll k old new l).keel = s.keel := by
  induction l generalizing s with
  | nil => rfl
  | cons p t ih => simp [State.redSeeAll, ih]

@[simp] theorem State.redAfter_keel (s : State) (old k) : (s.redAfter old k).keel = s.keel := by simp [State.redAfter]
@[simp] theorem State.redArrived_keel (s : State) (m) : (s.redArrived m).keel = s.keel := by
  unfold State.redArrived
  dsimp only
  repeat' split
  all_goals simp

/-! ### Machine/Red -/

@[simp] theorem State.redFail_keel (s : State) (code b) : (s.redFail code b).keel = s.keel := by simp [State.redFail]
@[simp] theorem State.redRecord_keel (s : State) (b) : (s.redRecord b).1.keel = s.keel := by simp [State.redRecord]
@[simp] theorem State.redArm_keel (s : State) (b) : (s.redArm b).keel = s.keel := by simp [State.redArm]
@[simp] theorem execTthRedArm_keeps (s : State) (v) : s.Keeps (execTthRedArm v s) := by simp [execTthRedArm]
@[simp] theorem State.redCopies_keel (s : State) (a cv p k) : (s.redCopies a cv p k).1.keel = s.keel := by
  induction k generalizing s a cv p with
  | zero => simp [State.redCopies]
  | succ n ih => simp [State.redCopies, ih]

@[simp] theorem execPortAdderTake_keeps (s : State) (bucket part) : s.Keeps (execPortAdderTake bucket part s) := by
  refine .next ?_
  split
  · simp
  · split
    · simp
    · split <;> simp

@[simp] theorem State.adderDone_keel (s : State) (a bucket part p) :
    (s.adderDone a bucket part p).keel = s.keel := by simp [State.adderDone]

@[simp] theorem execPortAdderDone_keeps (s : State) (bucket part residue) :
    s.Keeps (execPortAdderDone bucket part residue s) := by
  unfold execPortAdderDone
  dsimp only
  repeat' split
  all_goals simp

/-! ### Machine/Teth -/

@[simp] theorem State.farOp_keel (s : State) (m) : (s.farOp m).keel = s.keel := by
  unfold State.farOp
  dsimp only
  repeat' split
  all_goals simp

@[simp] theorem State.takeMsg_keel (s : State) (m) : (s.takeMsg m).keel = s.keel := by
  unfold State.takeMsg
  dsimp only
  repeat' split
  all_goals simp

@[simp] theorem State.takeMsgs_keel (s : State) (l) : (s.takeMsgs l).keel = s.keel := by
  induction l generalizing s with
  | nil => rfl
  | cons p t ih => simp [State.takeMsgs, ih]

@[simp] theorem execBridle_keeps (s : State) (p h b crc) : s.Keeps (execBridle p h b crc s) := by simp [execBridle]
@[simp] theorem State.linkRefuse_keel (s : State) (p d) :
    (s.linkRefuse p d).keel = s.keel := by simp [State.linkRefuse]

@[simp] theorem State.e2eRefuse_keel (s : State) (p d) : (s.e2eRefuse p d).keel = s.keel := by simp [State.e2eRefuse]
@[simp] theorem State.drawHs_keel (s : State) : s.drawHs.1.keel = s.keel := by simp [State.drawHs]
@[simp] theorem State.helloLink_keel (s : State) (p pl) :
    (s.helloLink p pl).keel = s.keel := by simp [State.helloLink]

@[simp] theorem State.helloE2e_keel (s : State) (p pl) : (s.helloE2e p pl).keel = s.keel := by simp [State.helloE2e]
@[simp] theorem execHello_keeps (s : State) (p h b) : s.Keeps (execHello p h b s) := by simp [execHello]
@[simp] theorem State.replyLink_keel (s : State) (p pl) : (s.replyLink p pl).keel = s.keel := by
  unfold State.replyLink
  split <;> simp

@[simp] theorem State.replyE2e_keel (s : State) (p pl) : (s.replyE2e p pl).keel = s.keel := by
  simp only [State.replyE2e]
  split <;> simp

@[simp] theorem execHelloReply_keeps (s : State) (p h b) :
    s.Keeps (execHelloReply p h b s) := by simp [execHelloReply]

@[simp] theorem State.confirmLink_keel (s : State) (p pl) : (s.confirmLink p pl).keel = s.keel := by
  unfold State.confirmLink
  split <;> simp

@[simp] theorem State.confirmE2e_keel (s : State) (p pl) : (s.confirmE2e p pl).keel = s.keel := by
  simp only [State.confirmE2e]
  split <;> simp

@[simp] theorem execConfirm_keeps (s : State) (p h b) : s.Keeps (execConfirm p h b s) := by simp [execConfirm]
@[simp] theorem State.answer_keel (s : State) (b kind tag pmask fault pl) :
    (s.answer b kind tag pmask fault pl).keel = s.keel := by simp [State.answer]

@[simp] theorem State.reqStatus_keel (s : State) (p a) :
    (s.reqStatus p a).1.keel = s.keel := by simp [State.reqStatus]

@[simp] theorem State.readEntry_keel (s : State) (p b a tag) :
    (s.readEntry p b a tag).keel = s.keel := by simp [State.readEntry]

@[simp] theorem State.readEntries_keel (s : State) (p b l) : (s.readEntries p b l).keel = s.keel := by
  induction l generalizing s with
  | nil => rfl
  | cons p t ih => simp [State.readEntries, ih]

@[simp] theorem State.readReqIn_keel (s : State) (p b) : (s.readReqIn p b).keel = s.keel := by simp [State.readReqIn]
@[simp] theorem execReadReq_keeps (s : State) (p h b crc) : s.Keeps (execReadReq p h b crc s) := by simp [execReadReq]
@[simp] theorem execWriteHdr_keeps (s : State) (p h b crc) :
    s.Keeps (execWriteHdr p h b crc s) := by simp [execWriteHdr]

@[simp] theorem State.writeEntry_keel (s : State) (p b a tag len) :
    (s.writeEntry p b a tag len).keel = s.keel := by simp [State.writeEntry]

@[simp] theorem State.writeDataIn_keel (s : State) (p b) : (s.writeDataIn p b).keel = s.keel := by
  unfold State.writeDataIn
  dsimp only
  repeat' split
  all_goals simp

@[simp] theorem execWriteData_keeps (s : State) (p h b crc) :
    s.Keeps (execWriteData p h b crc s) := by simp [execWriteData]

@[simp] theorem State.farAnswer_keel (s : State) (c x code done) :
    (s.farAnswer c x code done).keel = s.keel := by simp [State.farAnswer]

@[simp] theorem State.endReq_keel (s : State) (q code d) : (s.endReq q code d).keel = s.keel := by
  unfold State.endReq
  split <;> simp

@[simp] theorem execReadData_keeps (s : State) (p h b crc) : s.Keeps (execReadData p h b crc s) := by
  refine .next (State.rx_keel fun s b => ?_)
  split
  · simp
  · split
    · simp
    · split <;> simp

@[simp] theorem State.ackWrites_keel (s : State) (b l) : (s.ackWrites b l).keel = s.keel := by
  induction l generalizing s b with
  | nil => simp [State.ackWrites]
  | cons p t ih =>
    unfold State.ackWrites
    split <;> simp [ih]

@[simp] theorem execWriteAck_keeps (s : State) (p h b crc) :
    s.Keeps (execWriteAck p h b crc s) := by simp [execWriteAck]

@[simp] theorem State.redGot_keel (s : State) (q) : (s.redGot q).keel = s.keel := by simp [State.redGot]
@[simp] theorem execReduceHdr_keeps (s : State) (p h b crc) :
    s.Keeps (execReduceHdr p h b crc s) := by simp [execReduceHdr]

@[simp] theorem State.reduceDataIn_keel (s : State) (b) : (s.reduceDataIn b).keel = s.keel := by
  simp only [State.reduceDataIn]
  split <;> simp

@[simp] theorem execReduceData_keeps (s : State) (p h b crc) :
    s.Keeps (execReduceData p h b crc s) := by simp [execReduceData]

@[simp] theorem execLink_keeps (s : State) (p h b payload crc) : s.Keeps (execLink p h b payload crc s) := by
  unfold execLink
  dsimp only
  repeat' split
  all_goals simp

@[simp] theorem execTetherBadBlock_keeps (s : State) (p h b payload crc) :
    s.Keeps (execTetherBadBlock p h b payload crc s) := by simp [execTetherBadBlock]

@[simp] theorem execTetherResendTimeout_keeps (s : State) (p) :
    s.Keeps (execTetherResendTimeout p s) := by simp [execTetherResendTimeout]

@[simp] theorem execLinkBlockTimer_keeps (s : State) (p) :
    s.Keeps (execLinkBlockTimer p s) := by simp [execLinkBlockTimer]

@[simp] theorem execTetherTrained_keeps (s : State) (p) :
    s.Keeps (execTetherTrained p s) := by simp [execTetherTrained]

@[simp] theorem execPmaLockLost_keeps (s : State) (p) : s.Keeps (execPmaLockLost p s) := by simp [execPmaLockLost]
@[simp] theorem execTetherRetrainDone_keeps (s : State) (p ok long) :
    s.Keeps (execTetherRetrainDone p ok long s) := by simp [execTetherRetrainDone]

@[simp] theorem execPeerPortSilence_keeps (s : State) (p) :
    s.Keeps (execPeerPortSilence p s) := by simp [execPeerPortSilence]

@[simp] theorem execPeerWatchTimeout_keeps (s : State) (dev) :
    s.Keeps (execPeerWatchTimeout dev s) := by simp [execPeerWatchTimeout]

@[simp] theorem State.beatPeers_keel (s : State) (l) : (s.beatPeers l).keel = s.keel := by
  induction l generalizing s with
  | nil => rfl
  | cons p t ih => simp [State.beatPeers, ih]

@[simp] theorem execPeerHeartbeatTimer_keeps (s : State) :
    s.Keeps (execPeerHeartbeatTimer s) := by simp [execPeerHeartbeatTimer]

@[simp] theorem State.retryE2e_keel (s : State) (p l) : (s.retryE2e p l).keel = s.keel := by
  induction l generalizing s with
  | nil => rfl
  | cons p t ih => simp [State.retryE2e, ih]

@[simp] theorem execHandshakeRetry_keeps (s : State) (p) :
    s.Keeps (execHandshakeRetry p s) := by simp [execHandshakeRetry]

@[simp] theorem State.tthCtrl_keel (s : State) (p v) : (s.tthCtrl p v).keel = s.keel := by simp [State.tthCtrl]
@[simp] theorem execTthRetrain_keeps (s : State) (p v) : s.Keeps (execTthRetrain p v s) := by simp [execTthRetrain]
@[simp] theorem execTthDownWrite_keeps (s : State) (p v) :
    s.Keeps (execTthDownWrite p v s) := by simp [execTthDownWrite]

@[simp] theorem State.peerStageWrite_keel (s : State) (dev word v) :
    (s.peerStageWrite dev word v).keel = s.keel := by simp [State.peerStageWrite]

@[simp] theorem execPeerEntryStage_keeps (s : State) (dev word v) :
    s.Keeps (execPeerEntryStage dev word v s) := by simp [execPeerEntryStage]

@[simp] theorem State.peerReplace_keel (s : State) (dev v) :
    (s.peerReplace dev v).keel = s.keel := by simp [State.peerReplace]

@[simp] theorem execPeerEntryReplace_keeps (s : State) (dev v) :
    s.Keeps (execPeerEntryReplace dev v s) := by simp [execPeerEntryReplace]

/-! ### Machine/Ctx -/

@[simp] theorem State.ctxBad_keel (s : State) : s.ctxBad.keel = s.keel := by simp [State.ctxBad]
@[simp] theorem State.ctxCmd_keel (s : State) (v) : (s.ctxCmd v).keel = s.keel := by
  unfold State.ctxCmd
  dsimp only
  repeat' split
  all_goals simp

@[simp] theorem execCtxOpen_keeps (s : State) (v) : s.Keeps (execCtxOpen v s) := by simp [execCtxOpen]
@[simp] theorem execCtxClose_keeps (s : State) (v) : s.Keeps (execCtxClose v s) := by simp [execCtxClose]
@[simp] theorem State.publishGen_keel (s : State) (c gen l) : (s.publishGen c gen l).keel = s.keel := by
  induction l generalizing s with
  | nil => rfl
  | cons p t ih => simp [State.publishGen, ih]

@[simp] theorem State.failReqs_keel (s : State) (l) : (s.failReqs l).keel = s.keel := by
  induction l generalizing s with
  | nil => rfl
  | cons p t ih => simp [State.failReqs, ih]

@[simp] theorem execCtxDrainEnd_keeps (s : State) (ctx) : s.Keeps (execCtxDrainEnd ctx s) := by simp [execCtxDrainEnd]
@[simp] theorem execCtxRangeWrite_keeps (s : State) (ctx v) :
    s.Keeps (execCtxRangeWrite ctx v s) := by simp [execCtxRangeWrite]

@[simp] theorem execCtxGenWrite_keeps (s : State) (ctx v) :
    s.Keeps (execCtxGenWrite ctx v s) := by simp [execCtxGenWrite]

@[simp] theorem State.ctxCfg_keel (s : State) (ctx v) : (s.ctxCfg ctx v).keel = s.keel := by simp [State.ctxCfg]

/-! ### Machine/EnvOps -/

@[simp] theorem State.writeCosts_keel (s : State) (p) : (s.writeCosts p).keel = s.keel := by
  refine State.keel_foldl (fun s l => ?_) _ _
  split <;> simp

@[simp] theorem State.requestMv_keel (s : State) (mv) : (s.requestMv mv).keel = s.keel := by simp [State.requestMv]
@[simp] theorem State.requestPt_keel (s : State) (p) : (s.requestPt p).keel = s.keel := by simp [State.requestPt]
@[simp] theorem State.setPhase_keel (s : State) (p) : (s.setPhase p).keel = s.keel := by simp [State.setPhase]
@[simp] theorem State.moveIdle_keel (s : State) : s.moveIdle.keel = s.keel := by simp [State.moveIdle]
@[simp] theorem State.abandonRaise_keel (s : State) : s.abandonRaise.keel = s.keel := by simp [State.abandonRaise]
@[simp] theorem State.moveBurners_keel (s : State) : s.moveBurners.keel = s.keel := by
  unfold State.moveBurners
  split <;> simp

@[simp] theorem State.dramTemps_keel (s : State) (a l) : (s.dramTemps a l).keel = s.keel := by
  induction l generalizing s a with
  | nil => simp [State.dramTemps]
  | cons p t ih => simp [State.dramTemps, ih]

@[simp] theorem State.sample_keel (s : State) (x) : (s.sample x).keel = s.keel := by
  simp only [State.sample]
  split <;> simp

@[simp] theorem State.sampleBudget_keel (s : State) : s.sampleBudget.keel = s.keel := by simp [State.sampleBudget]
@[simp] theorem State.moveLimits_keel (s : State) (ePkg hi lo) :
    (s.moveLimits ePkg hi lo).keel = s.keel := by simp [State.moveLimits]

@[simp] theorem State.openRec_keel (s : State) (t code limit) :
    (s.openRec t code limit).keel = s.keel := by simp [State.openRec]

@[simp] theorem State.mapOpen_keel (s : State) (f l) : (s.mapOpen f l).keel = s.keel := by
  induction l generalizing s with
  | nil => rfl
  | cons p l ih =>
    obtain ⟨b, i⟩ := p
    cases i <;> simp [State.mapOpen, ih]

@[simp] theorem State.records_keel (s : State) (t l) : (s.records t l).keel = s.keel := by
  induction l generalizing s t with
  | nil => simp [State.records]
  | cons p t ih =>
    unfold State.records
    split <;> simp [ih]

@[simp] theorem State.sendPace_keel (s : State) (type seq reason rate duration) :
    (s.sendPace type seq reason rate duration).keel = s.keel := by simp [State.sendPace]

@[simp] theorem State.notify_keel (s : State) (t) : (s.notify t).keel = s.keel := by
  unfold State.notify
  dsimp only
  repeat' split
  all_goals simp

@[simp] theorem State.sendReports_keel (s : State) (l) : (s.sendReports l).keel = s.keel := by
  induction l generalizing s with
  | nil => simp [State.sendReports]
  | cons p t ih =>
    unfold State.sendReports
    split <;> simp [ih]

@[simp] theorem State.sendDeals_keel (s : State) (share iseq l) : (s.sendDeals share iseq l).keel = s.keel := by
  induction l generalizing s share iseq with
  | nil => simp [State.sendDeals]
  | cons p t ih =>
    unfold State.sendDeals
    split <;> simp [ih]

@[simp] theorem State.deal_keel (s : State) (b ePkg spent) :
    (s.deal b ePkg spent).keel = s.keel := by simp [State.deal]

@[simp] theorem State.boundaryWork_keel (s : State) (b) :
    (s.boundaryWork b).keel = s.keel := by simp [State.boundaryWork]

@[simp] theorem State.boundaryDone_keel (s : State) : s.boundaryDone.keel = s.keel := by
  unfold State.boundaryDone
  split <;> simp

@[simp] theorem State.boundaryLate_keel (s : State) : s.boundaryLate.keel = s.keel := by
  unfold State.boundaryLate
  split <;> simp

@[simp] theorem State.sagWarn_keel (s : State) (rail mv) :
    (s.sagWarn rail mv).keel = s.keel := by simp [State.sagWarn]

@[simp] theorem State.sagSampled_keel (s : State) (old) :
    (s.sagSampled old).keel = s.keel := by simp [State.sagSampled]

@[simp] theorem State.boundaryBegin_keel (s : State) : s.boundaryBegin.keel = s.keel := by simp [State.boundaryBegin]

/-! ### Machine/Time -/

@[simp] theorem State.tickCores_keel (s : State) (n l) : (s.tickCores n l).keel = s.keel := by
  induction l generalizing s with
  | nil => rfl
  | cons p t ih => simp [State.tickCores, ih]

@[simp] theorem State.tickBy_keel (s : State) (n) : (s.tickBy n).keel = s.keel := by simp [State.tickBy]

/-! ### Machine/Env -/

@[simp] theorem execCoreReport_keeps (s : State) (k) : s.Keeps (execCoreReport k s) := by
  unfold execCoreReport
  split <;> simp

@[simp] theorem execCreditReturn_keeps (s : State) (k) : s.Keeps (execCreditReturn k s) := by
  unfold execCreditReturn
  split <;> simp

@[simp] theorem State.setCur_keel (s : State) (p) : (s.setCur p).keel = s.keel := by simp [State.setCur]
@[simp] theorem State.stepsDone_keel (s : State) : s.stepsDone.keel = s.keel := by simp [State.stepsDone]
@[simp] theorem execBurnerStep_keeps (s : State) : s.Keeps (execBurnerStep s) := by
  unfold execBurnerStep
  split <;> simp

@[simp] theorem execRailRaiseTimeout_keeps (s : State) : s.Keeps (execRailRaiseTimeout s) := by
  unfold execRailRaiseTimeout
  split <;> simp

@[simp] theorem execSagWarning_keeps (s : State) (rail mv) :
    s.Keeps (execSagWarning rail mv s) := by simp [execSagWarning]

@[simp] theorem execEnvArm_keeps (s : State) (v) : s.Keeps (execEnvArm v s) := by simp [execEnvArm]
@[simp] theorem execEnvPaceWrite_keeps (s : State) (v) : s.Keeps (execEnvPaceWrite v s) := by simp [execEnvPaceWrite]
@[simp] theorem execSlackNotice_keeps (s : State) (k) : s.Keeps (execSlackNotice k s) := by
  unfold execSlackNotice
  split <;> simp

@[simp] theorem execResumeNotice_keeps (s : State) (k) : s.Keeps (execResumeNotice k s) := by
  unfold execResumeNotice
  split <;> simp

@[simp] theorem execNoticeExpiry_keeps (s : State) (src) :
    s.Keeps (execNoticeExpiry src s) := by simp [execNoticeExpiry]

@[simp] theorem State.readTicks_keel (s : State) : s.readTicks.1.keel = s.keel := by simp [State.readTicks]
@[simp] theorem State.readEnergy_keel (s : State) : s.readEnergy.1.keel = s.keel := by simp [State.readEnergy]
@[simp] theorem execKeelTicksRead_keeps (s : State) (w) :
    s.Keeps (execKeelTicksRead w s) := by simp [execKeelTicksRead]

@[simp] theorem execEnvWsEnergyRead_keeps (s : State) (w) :
    s.Keeps (execEnvWsEnergyRead w s) := by simp [execEnvWsEnergyRead]

@[simp] theorem execCoreSleep_keeps (s : State) (c) : s.Keeps (execCoreSleep c s) := by simp [execCoreSleep]
@[simp] theorem execCoreWake_keeps (s : State) (c) : s.Keeps (execCoreWake c s) := by simp [execCoreWake]
@[simp] theorem State.envRead_keel (s : State) (off) : (s.envRead off).1.keel = s.keel := by simp [State.envRead]

/-! ### Machine/Watch -/

@[simp] theorem execWatchNorm_keeps (s : State) (c x w) : s.Keeps (execWatchNorm c x w s) := by simp [execWatchNorm]
@[simp] theorem State.mergeAll_keel (s : State) (c l) : (s.mergeAll c l).keel = s.keel := by
  induction l generalizing s with
  | nil => rfl
  | cons p t ih => simp [State.mergeAll, ih]

@[simp] theorem execWatchClose_keeps (s : State) (c x w) :
    s.Keeps (execWatchClose c x w s) := by simp [execWatchClose]

@[simp] theorem execWatchLoad_keeps (s : State) (c x w) : s.Keeps (execWatchLoad c x w s) := by simp [execWatchLoad]
@[simp] theorem execWatchVerdict_keeps (s : State) (c x w) : s.Keeps (execWatchVerdict c x w s) := by
  refine .next (State.coreAccess_keel fun s => State.issue_keel fun s => ?_)
  dsimp only
  split
  · simp
  · split <;> simp

@[simp] theorem State.stepWait_keel (s : State) (c x n) : (s.stepWait c x n).keel = s.keel := by simp [State.stepWait]
@[simp] theorem execWatchStep_keeps (s : State) (c x w) : s.Keeps (execWatchStep c x w s) := by simp [execWatchStep]
@[simp] theorem State.stepSlots_keel (s : State) (base ovf a k) : (s.stepSlots base ovf a k).1.keel = s.keel := by
  induction k generalizing s base ovf a with
  | zero => simp [State.stepSlots]
  | succ n ih => simp [State.stepSlots, ih]

@[simp] theorem State.tableStep_keel (s : State) (c base ovf) : (s.tableStep c base ovf).keel = s.keel := by
  unfold State.tableStep
  dsimp only
  rw [State.keel_ite, State.event_keel, ite_self, State.writeBytes_keel, State.writeBytes_keel, State.stepSlots_keel,
    State.readBytes_keel, State.readBytes_keel]

@[simp] theorem State.stepReply_keel (s : State) (c x status) :
    (s.stepReply c x status).keel = s.keel := by simp [State.stepReply]

@[simp] theorem State.mergeSlot_keel (s : State) (m) : (s.mergeSlot m).keel = s.keel := by simp [State.mergeSlot]
@[simp] theorem State.mergeTold_keel (s : State) (k m) : (s.mergeTold k m).keel = s.keel := by simp [State.mergeTold]
@[simp] theorem execWatchMerge_keeps (s : State) (k) : s.Keeps (execWatchMerge k s) := by
  unfold execWatchMerge
  split <;> simp

@[simp] theorem execWatchBaseWrite_keeps (s : State) (c hi v) :
    s.Keeps (execWatchBaseWrite c hi v s) := by simp [execWatchBaseWrite]

/-! ### Machine/Knt -/

@[simp] theorem State.knIssue_keel (s : State) (c x w op src) : (s.knIssue c x w op src).keel = s.keel := by
  refine State.issue_keel fun s => ?_
  dsimp only
  split
  · simp
  · split <;> simp

@[simp] theorem execKnArrive_keeps (s : State) (c x w) : s.Keeps (execKnArrive c x w s) := by simp [execKnArrive]
@[simp] theorem execKnWait_keeps (s : State) (c x w) : s.Keeps (execKnWait c x w s) := by simp [execKnWait]
@[simp] theorem execKnGive_keeps (s : State) (c x w) : s.Keeps (execKnGive c x w s) := by simp [execKnGive]
@[simp] theorem execKnTake_keeps (s : State) (c x w) : s.Keeps (execKnTake c x w s) := by simp [execKnTake]
@[simp] theorem execKnSet_keeps (s : State) (c x w) : s.Keeps (execKnSet c x w s) := by simp [execKnSet]
@[simp] theorem execKnStore_keeps (s : State) (c x w) : s.Keeps (execKnStore c x w s) := by simp [execKnStore]
@[simp] theorem execKnRead_keeps (s : State) (c x w) : s.Keeps (execKnRead c x w s) := by simp [execKnRead]
@[simp] theorem execKnAbort_keeps (s : State) (c x w) : s.Keeps (execKnAbort c x w s) := by simp [execKnAbort]
@[simp] theorem State.arriving_keel (s : State) (l) : (s.arriving l).1.keel = s.keel := by
  induction l generalizing s with
  | nil => rfl
  | cons p t ih => simp [State.arriving, ih]

@[simp] theorem State.applyMsgs_keel (s : State) (l) : (s.applyMsgs l).keel = s.keel := by
  induction l generalizing s with
  | nil => rfl
  | cons p t ih => simp [State.applyMsgs, ih]

@[simp] theorem State.knotEcc_keel (s : State) (k e) : (s.knotEcc k e).keel = s.keel := by
  unfold State.knotEcc
  dsimp only
  repeat' split
  all_goals simp

@[simp] theorem State.hear_keel (s : State) (a b) : (s.hear a b).keel = s.keel := by simp [State.hear]
@[simp] theorem State.knotAnswer_keel (s : State) (c x d ticket stop status) :
    (s.knotAnswer c x d ticket stop status).keel = s.keel := by simp [State.knotAnswer]

@[simp] theorem State.stepStopped_keel (s : State) (c x) :
    (s.stepStopped c x).keel = s.keel := by simp [State.stepStopped]

@[simp] theorem State.stepsGo_keel (s : State) (c) : (s.stepsGo c).keel = s.keel := by
  unfold State.stepsGo
  dsimp only
  repeat' split
  all_goals simp

@[simp] theorem State.verdictReply_keel (s : State) (c n status) :
    (s.verdictReply c n status).keel = s.keel := by simp [State.verdictReply]

@[simp] theorem State.takeReply_keel (s : State) (r) : (s.takeReply r).keel = s.keel := by
  unfold State.takeReply
  split <;> simp

@[simp] theorem State.treeDrop_keel (s : State) : s.treeDrop.keel = s.keel := by simp [State.treeDrop]
@[simp] theorem State.treeMsg_keel {s : State} {k kind body} (h : ∀ (t : State) m r, t.SameKeel (body t m r)) :
    (s.treeMsg k kind body).keel = s.keel := by
  unfold State.treeMsg
  split
  · rfl
  · split
    · rfl
    · dsimp only
      split
      · simp
      · split
        · simp
        · split
          · simp
          · exact h _ _ _

@[simp] theorem execTreeArrive_keeps (s : State) (k) : s.Keeps (execTreeArrive k s) := by simp [execTreeArrive]
@[simp] theorem execTreeDone_keeps (s : State) (k) : s.Keeps (execTreeDone k s) := by simp [execTreeDone]
@[simp] theorem execTreeAbort_keeps (s : State) (k) : s.Keeps (execTreeAbort k s) := by simp [execTreeAbort]
@[simp] theorem execBridleHeartbeatTimer_keeps (s : State) (tether n) :
    s.Keeps (execBridleHeartbeatTimer tether n s) := by simp [execBridleHeartbeatTimer]

@[simp] theorem execKnotEntryStage_keeps (s : State) (w knot word v) :
    s.Keeps (execKnotEntryStage w knot word v s) := by simp [execKnotEntryStage]

@[simp] theorem State.replaceKnot_keel (s : State) (w knot v) : (s.replaceKnot w knot v).keel = s.keel := by
  simp only [State.replaceKnot]
  split <;> simp

@[simp] theorem execKnotEntryReplace_keeps (s : State) (w knot v) :
    s.Keeps (execKnotEntryReplace w knot v s) := by simp [execKnotEntryReplace]

@[simp] theorem State.pairOp_keel (s : State) (g op knot) : (s.pairOp g op knot).keel = s.keel := by
  unfold State.pairOp
  dsimp only
  repeat' split
  all_goals simp

@[simp] theorem State.pairWrite_keel (s : State) (g op knot) :
    (s.pairWrite g op knot).keel = s.keel := by simp [State.pairWrite]

@[simp] theorem execKntOpArrive_keeps (s : State) (g knot) :
    s.Keeps (execKntOpArrive g knot s) := by simp [execKntOpArrive]

@[simp] theorem execKntOpWait_keeps (s : State) (g knot) : s.Keeps (execKntOpWait g knot s) := by simp [execKntOpWait]
@[simp] theorem execKntOpGive_keeps (s : State) (g knot) : s.Keeps (execKntOpGive g knot s) := by simp [execKntOpGive]
@[simp] theorem execKntOpTake_keeps (s : State) (g knot) : s.Keeps (execKntOpTake g knot s) := by simp [execKntOpTake]
@[simp] theorem execKntOpSet_keeps (s : State) (g knot) : s.Keeps (execKntOpSet g knot s) := by simp [execKntOpSet]
@[simp] theorem execKntOpStore_keeps (s : State) (g knot) :
    s.Keeps (execKntOpStore g knot s) := by simp [execKntOpStore]

@[simp] theorem execKntOpRead_keeps (s : State) (g knot) : s.Keeps (execKntOpRead g knot s) := by simp [execKntOpRead]
@[simp] theorem execKntOpAbort_keeps (s : State) (g knot) :
    s.Keeps (execKntOpAbort g knot s) := by simp [execKntOpAbort]

@[simp] theorem State.notifyWrite_keel (s : State) (n v) :
    (s.notifyWrite n v).keel = s.keel := by simp [State.notifyWrite]

@[simp] theorem execKntNotifyWrite_keeps (s : State) (n v) :
    s.Keeps (execKntNotifyWrite n v s) := by simp [execKntNotifyWrite]

/-! ### Machine/Loft -/

@[simp] theorem State.dropCopy_keel (s : State) (c i) : (s.dropCopy c i).keel = s.keel := by simp [State.dropCopy]
@[simp] theorem State.spillCopy_keel (s : State) (c entry p) :
    (s.spillCopy c entry p).keel = s.keel := by simp [State.spillCopy]

@[simp] theorem State.recallCopy_keel (s : State) (c entry p) :
    (s.recallCopy c entry p).keel = s.keel := by simp [State.recallCopy]

@[simp] theorem execLoftSpillDone_keeps (s : State) (c entry) : s.Keeps (execLoftSpillDone c entry s) := by
  refine .next (State.coreAccess_keel fun s => ?_)
  split
  · simp
  · split <;> simp

@[simp] theorem execLoftRecallStart_keeps (s : State) (c) : s.Keeps (execLoftRecallStart c s) := by
  unfold execLoftRecallStart
  dsimp only
  repeat' split
  all_goals simp

@[simp] theorem execLoftRecallDone_keeps (s : State) (c entry) : s.Keeps (execLoftRecallDone c entry s) := by
  refine .next (State.coreAccess_keel fun s => ?_)
  split
  · simp
  · split <;> simp

@[simp] theorem State.loftReleaseAll_keel (s : State) (c l) : (s.loftReleaseAll c l).keel = s.keel := by
  induction l generalizing s with
  | nil => rfl
  | cons p t ih => simp [State.loftReleaseAll, ih]

@[simp] theorem State.loftRel_keel (s : State) (c v) : (s.loftRel c v).keel = s.keel := by simp [State.loftRel]
@[simp] theorem execLoftRelease_keeps (s : State) (c v) : s.Keeps (execLoftRelease c v s) := by simp [execLoftRelease]
@[simp] theorem execLoftReleaseAll_keeps (s : State) (c v) :
    s.Keeps (execLoftReleaseAll c v s) := by simp [execLoftReleaseAll]

@[simp] theorem execLoftConfigWrite_keeps (s : State) (c off v) :
    s.Keeps (execLoftConfigWrite c off v s) := by simp [execLoftConfigWrite]

/-! ### Machine/Icmp -/

@[simp] theorem State.startDad_keel (s : State) : s.startDad.keel = s.keel := by simp [State.startDad]

/-! ### Machine/RigOps -/

@[simp] theorem State.requestHolds_keel (s : State) (m) : (s.requestHolds m).keel = s.keel := by
  have hcores (s : State) (l : List Nat) (f : Core → Core) : (l.foldl (fun s c => s.updCore c f) s).keel = s.keel :=
    State.keel_foldl (fun s c => s.updCore_keel c f) _ _
  unfold State.requestHolds
  split <;> simp [hcores]

@[simp] theorem State.bindCore_keel (s : State) (c) : (s.bindCore c).keel = s.keel := by simp [State.bindCore]
@[simp] theorem State.bindCores_keel (s : State) (old l) : (s.bindCores old l).keel = s.keel := by
  induction l generalizing s with
  | nil => rfl
  | cons p t ih => simp [State.bindCores, ih]

@[simp] theorem State.takeRows_keel (s : State) : s.takeRows.keel = s.keel := by simp [State.takeRows]
@[simp] theorem State.allocKnots_keel (s : State) : s.allocKnots.keel = s.keel := by simp [State.allocKnots]
@[simp] theorem State.applySeeds_keel (s : State) (l) : (s.applySeeds l).keel = s.keel := by
  induction l generalizing s with
  | nil => rfl
  | cons p t ih => simp [State.applySeeds, ih]

@[simp] theorem State.applyTether_keel (s : State) (full b) : (s.applyTether full b).keel = s.keel := by
  have hroles (s : State) (l : List Nat) (f : Nat → Port → Port) : (l.foldl (fun s p => s.updPort p (f p)) s).keel = s.keel :=
    State.keel_foldl (fun s p => s.updPort_keel p _) _ _
  have hgone (s : State) (l : List Nat) : (l.foldl (fun s d => s.peerTo d .absent) s).keel = s.keel :=
    State.keel_foldl (fun s d => s.peerTo_keel d .absent) _ _
  simp [State.applyTether, hroles, hgone]

@[simp] theorem State.retable_keel (s : State) (l) : (s.retable l).keel = s.keel := by
  induction l generalizing s with
  | nil => rfl
  | cons p t ih => simp [State.retable, ih]

@[simp] theorem State.applyImage_keel (s : State) (m) : (s.applyImage m).keel = s.keel := by
  unfold State.applyImage
  dsimp only
  generalize m.frame 6 = tether
  cases tether <;> simp

/-! ### Machine/Rig -/

@[simp] theorem State.aperture_keel (s : State) (w off v) : (s.aperture w off v).keel = s.keel := by
  unfold State.aperture
  split <;> simp

@[simp] theorem execApertureWrite_keeps (s : State) (w off v) :
    s.Keeps (execApertureWrite w off v s) := by simp [execApertureWrite]

@[simp] theorem State.rigRefuse_keel (s : State) (code frame detail) :
    (s.rigRefuse code frame detail).keel = s.keel := by simp [State.rigRefuse]

@[simp] theorem State.rigBusy_keel (s : State) : s.rigBusy.keel = s.keel := by simp [State.rigBusy]
@[simp] theorem State.beginVerify_keel (s : State) : s.beginVerify.keel = s.keel := by simp [State.beginVerify]
@[simp] theorem State.rigVerify_keel (s : State) : s.rigVerify.keel = s.keel := by
  unfold State.rigVerify
  split
  · simp
  · split <;> simp

@[simp] theorem execVerify_keeps (s : State) (w) : s.Keeps (execVerify w s) := by simp [execVerify]
@[simp] theorem State.beginCommit_keel (s : State) : s.beginCommit.keel = s.keel := by
  unfold State.beginCommit
  split
  · simp
  · split
    · simp
    · rw [State.ancSubmit_keel, State.requestHolds_keel, State.updRig_keel]

@[simp] theorem State.rigCommit_keel (s : State) : s.rigCommit.keel = s.keel := by
  unfold State.rigCommit
  split
  · simp
  · split <;> simp

@[simp] theorem execCommit_keeps (s : State) (w) : s.Keeps (execCommit w s) := by simp [execCommit]
@[simp] theorem execRigVerifyDone_keeps (s : State) : s.Keeps (execRigVerifyDone s) := by
  unfold execRigVerifyDone
  dsimp only
  repeat' split
  all_goals simp

@[simp] theorem execRigQuietTimeout_keeps (s : State) :
    s.Keeps (execRigQuietTimeout s) := by simp [execRigQuietTimeout]

@[simp] theorem State.rigAbort_keel (s : State) : s.rigAbort.keel = s.keel := by
  unfold State.rigAbort
  split <;> simp

@[simp] theorem execAbort_keeps (s : State) (w) : s.Keeps (execAbort w s) := by simp [execAbort]
@[simp] theorem execFlashImageLoaded_keeps (s : State) (img fw) : s.Keeps (execFlashImageLoaded img fw s) := by
  unfold execFlashImageLoaded
  dsimp only
  repeat' split
  all_goals simp

@[simp] theorem State.rigRead_keel (s : State) (off) : (s.rigRead off).1.keel = s.keel := by simp [State.rigRead]
@[simp] theorem State.rigWrite_keel (s : State) (w off v) : (s.rigWrite w off v).keel = s.keel := by
  unfold State.rigWrite
  repeat' split
  all_goals simp

/-! ### Machine/Keel -/

@[simp] theorem State.ancMoored_keel (s : State) : s.ancMoored.keel = s.keel := State.ancPump_keel _ _
@[simp] theorem State.holdCores_keel (s : State) (l) : (s.holdCores l).keel = s.keel := by
  induction l generalizing s with
  | nil => rfl
  | cons p t ih => simp [State.holdCores, ih]

@[simp] theorem State.bootAnchor_keel (s : State) : s.bootAnchor.keel = s.keel := rfl
@[simp] theorem State.stackTrained_keel (s : State) (bad st) :
    (s.stackTrained bad st).keel = s.keel := by simp [State.stackTrained]

@[simp] theorem State.waitGons_keel (s : State) :
    s.waitGons.keel = s.keel := State.keel_foldl (fun s g => s.updGon_keel g _) _ _

@[simp] theorem State.flashFirmware_keel (s : State) : s.flashFirmware.keel = s.keel := by simp [State.flashFirmware]
@[simp] theorem execHostLinkUp_keeps (s : State) : s.Keeps (execHostLinkUp s) := by
  unfold execHostLinkUp
  split <;> simp

@[simp] theorem execHostLinkDown_keeps (s : State) : s.Keeps (execHostLinkDown s) := by
  unfold execHostLinkDown
  split <;> simp

/-! ### Machine/Rip -/

@[simp] theorem State.ringEvent_keel (s : State) (b) : (s.ringEvent b).keel = s.keel := by simp [State.ringEvent]
@[simp] theorem State.eventIn_keel (s : State) (k m) : (s.eventIn k m).keel = s.keel := by simp [State.eventIn]
@[simp] theorem execEventMessage_keeps (s : State) (k) : s.Keeps (execEventMessage k s) := by
  unfold execEventMessage
  split <;> simp

@[simp] theorem execStallWatchdogExpiry_keeps (s : State) (c) :
    s.Keeps (execStallWatchdogExpiry c s) := by simp [execStallWatchdogExpiry]

@[simp] theorem execWaitWatchdogExpiry_keeps (s : State) (c x) :
    s.Keeps (execWaitWatchdogExpiry c x s) := by simp [execWaitWatchdogExpiry]

@[simp] theorem State.resetGon_keel (s : State) (g) : (s.resetGon g).keel = s.keel := by simp [State.resetGon]
@[simp] theorem execGonWatchdogExpiry_keeps (s : State) (g) : s.Keeps (execGonWatchdogExpiry g s) := by
  unfold execGonWatchdogExpiry
  split <;> simp

@[simp] theorem State.pet_keel (s : State) (g) : (s.pet g).keel = s.keel := by simp [State.pet]
@[simp] theorem execRipPet_keeps (s : State) (g) : s.Keeps (execRipPet g s) := by simp [execRipPet]
@[simp] theorem State.bindTo_keel (s : State) (l c fencedC) :
    (s.bindTo l c fencedC).keel = s.keel := by simp [State.bindTo]

@[simp] theorem execSpareReady_keeps (s : State) (c ok) : s.Keeps (execSpareReady c ok s) := by
  unfold execSpareReady
  split <;> simp

@[simp] theorem execBurnerLockLost_keeps (s : State) (mesh n) :
    s.Keeps (execBurnerLockLost mesh n s) := by simp [execBurnerLockLost]

@[simp] theorem State.keyed_keel {s : State} {v ok body} (h : ∀ t : State, t.SameKeel (body t)) :
    (s.keyed v ok body).keel = s.keel := by
  unfold State.keyed
  split
  · exact h s
  · rfl

@[simp] theorem State.fenceReq_keel (s : State) (v) : (s.fenceReq v).keel = s.keel := by simp [State.fenceReq]
@[simp] theorem State.dieReq_keel (s : State) (v) : (s.dieReq v).keel = s.keel := by simp [State.dieReq]
@[simp] theorem execRipFenceReq_keeps (s : State) (v) : s.Keeps (execRipFenceReq v s) := by simp [execRipFenceReq]
@[simp] theorem execRipDieReset_keeps (s : State) (v) : s.Keeps (execRipDieReset v s) := by simp [execRipDieReset]
@[simp] theorem execRipCodeClr_keeps (s : State) (v) : s.Keeps (execRipCodeClr v s) := by simp [execRipCodeClr]
@[simp] theorem execRipEvtBaseWrite_keeps (s : State) (hi v) :
    s.Keeps (execRipEvtBaseWrite hi v s) := by simp [execRipEvtBaseWrite]

@[simp] theorem State.resetCores_keel (s : State) (d) : (s.resetCores d).keel = s.keel := by
  unfold State.resetCores
  rw [State.updRig_keel]
  exact State.keel_foldl (fun s i => s.setCore_keel _ _) _ _

@[simp] theorem State.failCores_keel (s : State) (d l) : (s.failCores d l).keel = s.keel := by
  induction l generalizing s with
  | nil => rfl
  | cons p t ih => simp [State.failCores, ih]

@[simp] theorem State.rebindNow_keel (s : State) (l f d) : (s.rebindNow l f d).keel = s.keel := by
  unfold State.rebindNow
  split <;> simp

@[simp] theorem State.rebindAll_keel (s : State) (d l) : (s.rebindAll d l).keel = s.keel := by
  induction l generalizing s with
  | nil => rfl
  | cons p t ih => simp [State.rebindAll, ih]

@[simp] theorem State.stackReset_keel (s : State) (bad st) :
    (s.stackReset bad st).keel = s.keel := by simp [State.stackReset]

@[simp] theorem State.portReset_keel (s : State) (p) : (s.portReset p).keel = s.keel := by simp [State.portReset]
@[simp] theorem State.knotReset_keel (s : State) (d) : (s.knotReset d).keel = s.keel := by simp [State.knotReset]
@[simp] theorem State.loseTraffic_keel (s : State) (d) :
    (s.loseTraffic d).keel = s.keel := by simp [State.loseTraffic]

@[simp] theorem State.restartGons_keel (s : State) (d) :
    (s.restartGons d).keel = s.keel := by simp [State.restartGons]

@[simp] theorem execDieResetDone_keeps (s : State) (d failed badStacks) :
    s.Keeps (execDieResetDone d failed badStacks s) := by simp [execDieResetDone]

@[simp] theorem State.ripRead_keel (s : State) (off) : (s.ripRead off).1.keel = s.keel := by simp [State.ripRead]

/-! ### Machine/Link -/

@[simp] theorem State.linkTake_keel (s : State) (st toStack f) : (s.linkTake st toStack f).keel = s.keel := by
  unfold State.linkTake
  dsimp only
  repeat' split
  all_goals simp

@[simp] theorem State.linkReceive_keel (s : State) (st toStack seq b) :
    (s.linkReceive st toStack seq b).keel = s.keel := by simp [State.linkReceive]

/-! ### Machine/Stk -/

@[simp] theorem execStackRequest_keeps (s : State) (st q) :
    s.Keeps (execStackRequest st q s) := by simp [execStackRequest]

@[simp] theorem execStackRequestService_keeps (s : State) (st bank ups) :
    s.Keeps (execStackRequestService st bank ups s) := by
  unfold execStackRequestService
  dsimp only
  repeat' split
  all_goals simp

@[simp] theorem execBankOpen_keeps (s : State) (st k) : s.Keeps (execBankOpen st k s) := by
  unfold execBankOpen
  split <;> simp

@[simp] theorem execStackWriteAck_keeps (s : State) (st k) : s.Keeps (execStackWriteAck st k s) := by
  unfold execStackWriteAck
  split <;> simp

@[simp] theorem execStackLinkFrame_keeps (s : State) (st toStack send f ups) :
    s.Keeps (execStackLinkFrame st toStack send f ups s) := by
  unfold execStackLinkFrame
  dsimp only
  repeat' split
  all_goals simp

@[simp] theorem execStackLinkResendTimeout_keeps (s : State) (st toStack) :
    s.Keeps (execStackLinkResendTimeout st toStack s) := by
  unfold execStackLinkResendTimeout
  dsimp only
  repeat' split
  all_goals simp

@[simp] theorem execStackLinkRetrainDone_keeps (s : State) (st ok) :
    s.Keeps (execStackLinkRetrainDone st ok s) := by simp [execStackLinkRetrainDone]

@[simp] theorem execScrubRead_keeps (s : State) (st ups) : s.Keeps (execScrubRead st ups s) := by simp [execScrubRead]
@[simp] theorem execRefresh_keeps (s : State) (st bank) : s.Keeps (execRefresh st bank s) := by simp [execRefresh]
@[simp] theorem execSelfRefreshEntry_keeps (s : State) (st) :
    s.Keeps (execSelfRefreshEntry st s) := by simp [execSelfRefreshEntry]

/-! ### Machine/Vec -/

@[simp] theorem State.vecXfault_keel (s : State) (c id x) :
    (s.vecXfault c id x).keel = s.keel := by simp [State.vecXfault]

@[simp] theorem State.gatherPieces_keel (s : State) (fails l) : (s.gatherPieces fails l).1.keel = s.keel := by
  induction l generalizing s with
  | nil => rfl
  | cons p l ih =>
    rw [State.gatherPieces]
    split
    next t bs ht =>
      split at ht
      · cases ht
      · exact (ih t).trans (State.readPiece_keel ht)
    next => exact ih s

@[simp] theorem State.gather_keel (s : State) (fails rq l) : (s.gather fails rq l).1.keel = s.keel := by
  induction l generalizing s with
  | nil => rfl
  | cons p t ih => simp [State.gather, ih]

@[simp] theorem State.askRuns_keel (s : State) (who ctx l) : (s.askRuns who ctx l).1.keel = s.keel := by
  induction l generalizing s with
  | nil => rfl
  | cons p t ih => simp [State.askRuns, ih]

@[simp] theorem State.putRuns_keel (s : State) (i c bs l) : (s.putRuns i c bs l).1.keel = s.keel := by
  induction l generalizing s with
  | nil => rfl
  | cons p t ih => simp [State.putRuns, ih]

@[simp] theorem State.vQuant_keel (s : State) (c i) : (s.vQuant c i).1.keel = s.keel := by
  unfold State.vQuant
  dsimp only
  generalize QRes.sr _ = sr
  cases sr <;> simp

@[simp] theorem State.vecBegin_keel (s : State) (c i) : (s.vecBegin c i).keel = s.keel := by
  simp only [State.vecBegin]
  split <;> simp

@[simp] theorem execVecInstrStart_keeps (s : State) (c e) : s.Keeps (execVecInstrStart c e s) := by
  refine .next (State.coreAccess_keel fun s => ?_)
  dsimp only
  split
  · simp
  · split
    · simp
    · split <;> simp

@[simp] theorem State.vecResult_keel (s : State) (c i) : (s.vecResult c i).1.keel = s.keel := by
  unfold State.vecResult
  split <;> simp

@[simp] theorem execVecInstrComplete_keeps (s : State) (c id mismatch) :
    s.Keeps (execVecInstrComplete c id mismatch s) := by
  refine .next (State.coreAccess_keel fun s => ?_)
  split
  · simp
  next i _ =>
    split
    · simp
    · split
      · simp
      · dsimp only
        generalize (s.vecResult c i).2.1.scalar = scalar
        cases scalar <;> simp

@[simp] theorem execVecAccessFail_keeps (s : State) (c id addr) : s.Keeps (execVecAccessFail c id addr s) := by
  unfold execVecAccessFail
  split <;> simp

@[simp] theorem execVecSrStateWrite_keeps (s : State) (c v) :
    s.Keeps (execVecSrStateWrite c v s) := by simp [execVecSrStateWrite]

@[simp] theorem execClear_keeps (s : State) (c v) : s.Keeps (execClear c v s) := by simp [execClear]
@[simp] theorem execVecClearDone_keeps (s : State) (c) : s.Keeps (execVecClearDone c s) := by simp [execVecClearDone]

/-! ### Machine/Regs -/

@[simp] theorem State.after_keel (s : State) (o) (h : s.Keeps o) : (s.after o).keel = s.keel := by
  unfold State.after
  split
  · exact h _ rfl
  · rfl

@[simp] theorem State.seqRead_keel (s : State) (c off) : (s.seqRead c off).1.keel = s.keel := by
  unfold State.seqRead
  split <;> simp

@[simp] theorem State.arrRead_keel (s : State) (c off) : (s.arrRead c off).1.keel = s.keel := by
  unfold State.arrRead
  split <;> simp

@[simp] theorem State.vecRead_keel (s : State) (c off) : (s.vecRead c off).1.keel = s.keel := by
  unfold State.vecRead
  split <;> simp

@[simp] theorem State.coreRead_keel (s : State) (c off) :
    (s.coreRead c off).1.keel = s.keel := by simp [State.coreRead]

@[simp] theorem State.coreRegWrite_keel (s : State) (c off v) : (s.coreRegWrite c off v).keel = s.keel := by
  unfold State.coreRegWrite
  split <;> simp

@[simp] theorem State.balRead_keel (s : State) (st off) : (s.balRead st off).1.keel = s.keel := by
  unfold State.balRead
  split <;> simp

@[simp] theorem State.stkRead_keel (s : State) (st off) : (s.stkRead st off).1.keel = s.keel := by
  unfold State.stkRead
  split <;> simp

@[simp] theorem State.stkWrite_keel (s : State) (st off v) : (s.stkWrite st off v).keel = s.keel := by
  unfold State.stkWrite
  split <;> simp

@[simp] theorem State.portRead_keel (s : State) (p off) : (s.portRead p off).1.keel = s.keel := by
  unfold State.portRead
  split <;> simp

@[simp] theorem State.portWrite_keel (s : State) (p off v) : (s.portWrite p off v).keel = s.keel := by
  unfold State.portWrite
  split <;> simp

@[simp] theorem State.tethRead_keel (s : State) (off) : (s.tethRead off).1.keel = s.keel := by
  unfold State.tethRead
  dsimp only
  repeat' split
  all_goals simp

@[simp] theorem State.tethWrite_keel (s : State) (off v) : (s.tethWrite off v).keel = s.keel := by
  unfold State.tethWrite
  dsimp only
  split
  · split <;> simp
  · split
    case h_4 => split <;> rfl
    all_goals simp

@[simp] theorem State.gonRead_keel (s : State) (off) : (s.gonRead off).1.keel = s.keel := by
  unfold State.gonRead
  dsimp only
  repeat' split
  all_goals simp

@[simp] theorem State.gonWrite_keel (s : State) (off v) : (s.gonWrite off v).keel = s.keel := by
  unfold State.gonWrite
  dsimp only
  repeat' split
  all_goals simp

@[simp] theorem State.keelRead_keel (s : State) (off) : (s.keelRead off).1.keel = s.keel := by simp [State.keelRead]
@[simp] theorem State.hostRead_keel (s : State) (off) : (s.hostRead off).1.keel = s.keel := by
  unfold State.hostRead
  split <;> simp

@[simp] theorem State.ctrlRead_keel (s : State) (off) : (s.ctrlRead off).1.keel = s.keel := by simp [State.ctrlRead]
@[simp] theorem execRcRegisterRead_keeps (s : State) (w off) :
    s.Keeps (execRcRegisterRead w off s) := by simp [execRcRegisterRead]

/-! ### Machine/Host -/

@[simp] theorem State.badDgram_keel (s : State) : s.badDgram.keel = s.keel := by simp [State.badDgram]
@[simp] theorem State.authFail_keel (s : State) : s.authFail.keel = s.keel := by simp [State.authFail]
@[simp] theorem State.rateOk_keel (s : State) : s.rateOk.1.keel = s.keel := by simp [State.rateOk]
@[simp] theorem State.announceTo_keel (s : State) (addr port nonce) :
    (s.announceTo addr port nonce).keel = s.keel := by simp [State.announceTo]

@[simp] theorem execDiscover_keeps (s : State) (addr port nonce) :
    s.Keeps (execDiscover addr port nonce s) := by simp [execDiscover]

@[simp] theorem execAnnounceTimer_keeps (s : State) : s.Keeps (execAnnounceTimer s) := by simp [execAnnounceTimer]
@[simp] theorem execAttest_keeps (s : State) (addr port nonce start) :
    s.Keeps (execAttest addr port nonce start s) := by simp [execAttest]

@[simp] theorem State.helloRefuse_keel (s : State) (addr port) :
    (s.helloRefuse addr port).keel = s.keel := by simp [State.helloRefuse]

@[simp] theorem State.helloTake_keel (s : State) (addr port n eph nonce body) :
    (s.helloTake addr port n eph nonce body).keel = s.keel := by
  unfold State.helloTake
  split <;> simp

@[simp] theorem execHostHello_keeps (s : State) (addr port body) : s.Keeps (execHostHello addr port body s) := by
  unfold execHostHello
  dsimp only
  repeat' split
  all_goals simp

@[simp] theorem State.openSession_keel (s : State) (n b) :
    (s.openSession n b).keel = s.keel := by simp [State.openSession]

@[simp] theorem execHostConfirm_keeps (s : State) (sess body) :
    s.Keeps (execHostConfirm sess body s) := by simp [execHostConfirm]

@[simp] theorem execHostConfirmTimeout_keeps (s : State) (sess) :
    s.Keeps (execHostConfirmTimeout sess s) := by simp [execHostConfirmTimeout]

@[simp] theorem State.resendDgrams_keel (s : State) (n) :
    (s.resendDgrams n).keel = s.keel := by simp [State.resendDgrams]

@[simp] theorem State.takeAck_keel (s : State) (n ack) : (s.takeAck n ack).keel = s.keel := by simp [State.takeAck]
@[simp] theorem State.rxDgram_keel {s : State} {type d body} (h : ∀ (t : State) b, t.SameKeel (body t b)) :
    (s.rxDgram type d body).keel = s.keel := by
  unfold State.rxDgram
  dsimp only
  split
  · rfl
  · split
    · simp
    · split
      · simp
      · split
        · simp
        · split
          · rfl
          · exact (h _ _).trans (by simp)

@[simp] theorem State.readOut_keel (s : State) (n c step poison k x) :
    (s.readOut n c step poison k x).keel = s.keel := by
  induction k generalizing s n c step poison x with
  | zero => simp [State.readOut]
  | succ n ih => simp [State.readOut, ih]

@[simp] theorem State.updCmd_keel (s : State) (n id f) : (s.updCmd n id f).keel = s.keel := by simp [State.updCmd]
@[simp] theorem State.putData_keel (s : State) (n c l) : (s.putData n c l).keel = s.keel := by
  induction l generalizing s with
  | nil => rfl
  | cons p t ih => simp [State.putData, ih]

@[simp] theorem State.writeDone_keel (s : State) (n id) : (s.writeDone n id).keel = s.keel := by
  unfold State.writeDone
  split <;> simp

@[simp] theorem State.startRd32_keel (s : State) (n c) : (s.startRd32 n c).keel = s.keel := by
  unfold State.startRd32
  dsimp only
  split <;> simp

@[simp] theorem State.startWrite_keel (s : State) (n c) :
    (s.startWrite n c).keel = s.keel := by simp [State.startWrite]

@[simp] theorem State.startRead_keel (s : State) (n c) : (s.startRead n c).keel = s.keel := by simp [State.startRead]
@[simp] theorem State.startKnot_keel (s : State) (n c) : (s.startKnot n c).keel = s.keel := by
  unfold State.startKnot
  dsimp only
  repeat' split
  all_goals simp

@[simp] theorem State.takeData_keel (s : State) (n c off bs) :
    (s.takeData n c off bs).keel = s.keel := by simp [State.takeData]

@[simp] theorem execHostData_keeps (s : State) (h head data tag) : s.Keeps (execHostData h head data tag s) := by
  refine .next (State.access_keel fun s => State.rxDgram_keel fun s b => ?_)
  split <;> simp

@[simp] theorem execAckonly_keeps (s : State) (d) : s.Keeps (execAckonly d s) := by simp [execAckonly]
@[simp] theorem execHostClose_keeps (s : State) (d) : s.Keeps (execHostClose d s) := by simp [execHostClose]
@[simp] theorem execHostAckTimer_keeps (s : State) (sess) :
    s.Keeps (execHostAckTimer sess s) := by simp [execHostAckTimer]

@[simp] theorem execHostResendTimeout_keeps (s : State) (sess) : s.Keeps (execHostResendTimeout sess s) := by
  unfold execHostResendTimeout
  split <;> simp

@[simp] theorem execHostSessionIdle_keeps (s : State) (sess) :
    s.Keeps (execHostSessionIdle sess s) := by simp [execHostSessionIdle]

@[simp] theorem State.dupFound_keel (s : State) : s.dupFound.keel = s.keel := by simp [State.dupFound]
@[simp] theorem execNeighbourSolicitation_keeps (s : State) (src target dad) :
    s.Keeps (execNeighbourSolicitation src target dad s) := by simp [execNeighbourSolicitation]

@[simp] theorem execNeighbourAdvertisement_keeps (s : State) (target) :
    s.Keeps (execNeighbourAdvertisement target s) := by simp [execNeighbourAdvertisement]

@[simp] theorem execEchoRequest_keeps (s : State) (src data) :
    s.Keeps (execEchoRequest src data s) := by simp [execEchoRequest]

@[simp] theorem execPause_keeps (s : State) (quanta priority) :
    s.Keeps (execPause quanta priority s) := by simp [execPause]

@[simp] theorem execBadDatagram_keeps (s : State) (why) : s.Keeps (execBadDatagram why s) := by
  cases why <;> simp [execBadDatagram]

/-! ### Machine/Rail -/

@[simp] theorem State.ackBoard_keel (s : State) (seq status) :
    (s.ackBoard seq status).keel = s.keel := by simp [State.ackBoard]

@[simp] theorem State.board_keel {s : State} {seq status body} (h : ∀ t : State, t.SameKeel (body t)) :
    (s.board seq status body).keel = s.keel := by
  unfold State.board
  dsimp only
  split
  · rfl
  · split
    · rfl
    · exact h _

@[simp] theorem execBudget_keeps (s : State) (seq v data) : s.Keeps (execBudget seq v data s) := by simp [execBudget]
@[simp] theorem execEnergy_keeps (s : State) (x y data) : s.Keeps (execEnergy x y data s) := by
  unfold execEnergy
  split <;> simp

@[simp] theorem execSetOk_keeps (s : State) (seq v d) : s.Keeps (execSetOk seq v d s) := by
  refine .next (State.board_keel fun s => ?_)
  split
  · split <;> simp
  · simp

@[simp] theorem execAlert_keeps (s : State) (seq v x) : s.Keeps (execAlert seq v x s) := by simp [execAlert]
@[simp] theorem execStatusTimer_keeps (s : State) : s.Keeps (execStatusTimer s) := by
  unfold execStatusTimer
  split <;> simp

@[simp] theorem execRcBadFrame_keeps (s : State) (type seq x data) :
    s.Keeps (execRcBadFrame type seq x data s) := by simp [execRcBadFrame]

/-! ### Machine/Salu -/

@[simp] theorem State.salu_keel (s : State) (c x imm w f) : (s.salu c x imm w f).keel = s.keel := by simp [State.salu]
@[simp] theorem State.saluDiv_keel (s : State) (c x imm w f) :
    (s.saluDiv c x imm w f).keel = s.keel := by simp [State.saluDiv]

@[simp] theorem execAdd_keeps (s : State) (c x imm w) : s.Keeps (execAdd c x imm w s) := by simp [execAdd]
@[simp] theorem execSub_keeps (s : State) (c x imm w) : s.Keeps (execSub c x imm w s) := by simp [execSub]
@[simp] theorem execAnd_keeps (s : State) (c x imm w) : s.Keeps (execAnd c x imm w s) := by simp [execAnd]
@[simp] theorem execOr_keeps (s : State) (c x imm w) : s.Keeps (execOr c x imm w s) := by simp [execOr]
@[simp] theorem execXor_keeps (s : State) (c x imm w) : s.Keeps (execXor c x imm w s) := by simp [execXor]
@[simp] theorem execShl_keeps (s : State) (c x imm w) : s.Keeps (execShl c x imm w s) := by simp [execShl]
@[simp] theorem execShr_keeps (s : State) (c x imm w) : s.Keeps (execShr c x imm w s) := by simp [execShr]
@[simp] theorem execSra_keeps (s : State) (c x imm w) : s.Keeps (execSra c x imm w s) := by simp [execSra]
@[simp] theorem execMul_keeps (s : State) (c x imm w) : s.Keeps (execMul c x imm w s) := by simp [execMul]
@[simp] theorem execMulh_keeps (s : State) (c x imm w) : s.Keeps (execMulh c x imm w s) := by simp [execMulh]
@[simp] theorem execMulhu_keeps (s : State) (c x imm w) : s.Keeps (execMulhu c x imm w s) := by simp [execMulhu]
@[simp] theorem execDiv_keeps (s : State) (c x imm w) : s.Keeps (execDiv c x imm w s) := by simp [execDiv]
@[simp] theorem execDivu_keeps (s : State) (c x imm w) : s.Keeps (execDivu c x imm w s) := by simp [execDivu]
@[simp] theorem execRem_keeps (s : State) (c x imm w) : s.Keeps (execRem c x imm w s) := by simp [execRem]
@[simp] theorem execRemu_keeps (s : State) (c x imm w) : s.Keeps (execRemu c x imm w s) := by simp [execRemu]
@[simp] theorem execMin_keeps (s : State) (c x imm w) : s.Keeps (execMin c x imm w s) := by simp [execMin]
@[simp] theorem execMax_keeps (s : State) (c x imm w) : s.Keeps (execMax c x imm w s) := by simp [execMax]
@[simp] theorem execMinu_keeps (s : State) (c x imm w) : s.Keeps (execMinu c x imm w s) := by simp [execMinu]
@[simp] theorem execMaxu_keeps (s : State) (c x imm w) : s.Keeps (execMaxu c x imm w s) := by simp [execMaxu]
@[simp] theorem execMov_keeps (s : State) (c x imm w) : s.Keeps (execMov c x imm w s) := by simp [execMov]
@[simp] theorem execMovh_keeps (s : State) (c x imm w) : s.Keeps (execMovh c x imm w s) := by simp [execMovh]

/-! ### Machine/Scmp -/

@[simp] theorem State.retP_keel (s : State) (c x r v) : (s.retP c x r v).keel = s.keel := by simp [State.retP]
@[simp] theorem State.retA_keel (s : State) (c x r v) : (s.retA c x r v).keel = s.keel := by simp [State.retA]
@[simp] theorem State.cmp_keel (s : State) (c x w f) : (s.cmp c x w f).keel = s.keel := by simp [State.cmp]
@[simp] theorem State.cmpi_keel (s : State) (c x w f) : (s.cmpi c x w f).keel = s.keel := by simp [State.cmpi]
@[simp] theorem State.plog_keel (s : State) (c x w f) : (s.plog c x w f).keel = s.keel := by simp [State.plog]
@[simp] theorem execCmpEq_keeps (s : State) (c x w) : s.Keeps (execCmpEq c x w s) := by simp [execCmpEq]
@[simp] theorem execCmpNe_keeps (s : State) (c x w) : s.Keeps (execCmpNe c x w s) := by simp [execCmpNe]
@[simp] theorem execCmpLt_keeps (s : State) (c x w) : s.Keeps (execCmpLt c x w s) := by simp [execCmpLt]
@[simp] theorem execCmpLe_keeps (s : State) (c x w) : s.Keeps (execCmpLe c x w s) := by simp [execCmpLe]
@[simp] theorem execCmpLtu_keeps (s : State) (c x w) : s.Keeps (execCmpLtu c x w s) := by simp [execCmpLtu]
@[simp] theorem execCmpLeu_keeps (s : State) (c x w) : s.Keeps (execCmpLeu c x w s) := by simp [execCmpLeu]
@[simp] theorem execCmpiEq_keeps (s : State) (c x w) : s.Keeps (execCmpiEq c x w s) := by simp [execCmpiEq]
@[simp] theorem execCmpiNe_keeps (s : State) (c x w) : s.Keeps (execCmpiNe c x w s) := by simp [execCmpiNe]
@[simp] theorem execCmpiLt_keeps (s : State) (c x w) : s.Keeps (execCmpiLt c x w s) := by simp [execCmpiLt]
@[simp] theorem execCmpiLe_keeps (s : State) (c x w) : s.Keeps (execCmpiLe c x w s) := by simp [execCmpiLe]
@[simp] theorem execCmpiLtu_keeps (s : State) (c x w) : s.Keeps (execCmpiLtu c x w s) := by simp [execCmpiLtu]
@[simp] theorem execCmpiLeu_keeps (s : State) (c x w) : s.Keeps (execCmpiLeu c x w s) := by simp [execCmpiLeu]
@[simp] theorem execPand_keeps (s : State) (c x w) : s.Keeps (execPand c x w s) := by simp [execPand]
@[simp] theorem execPor_keeps (s : State) (c x w) : s.Keeps (execPor c x w s) := by simp [execPor]
@[simp] theorem execPxor_keeps (s : State) (c x w) : s.Keeps (execPxor c x w s) := by simp [execPxor]
@[simp] theorem execPandn_keeps (s : State) (c x w) : s.Keeps (execPandn c x w s) := by simp [execPandn]
@[simp] theorem State.retOff_keel (s : State) (c x w i) : (s.retOff c x w i).keel = s.keel := by simp [State.retOff]
@[simp] theorem execAdda_keeps (s : State) (c x w) : s.Keeps (execAdda c x w s) := by simp [execAdda]
@[simp] theorem execAddai_keeps (s : State) (c x w) : s.Keeps (execAddai c x w s) := by simp [execAddai]
@[simp] theorem execMova_keeps (s : State) (c x w) : s.Keeps (execMova c x w s) := by simp [execMova]
@[simp] theorem execMovs_keeps (s : State) (c x w) : s.Keeps (execMovs c x w s) := by simp [execMovs]
@[simp] theorem execSetdev_keeps (s : State) (c x w) : s.Keeps (execSetdev c x w s) := by simp [execSetdev]
@[simp] theorem execSetsp_keeps (s : State) (c x w) : s.Keeps (execSetsp c x w s) := by simp [execSetsp]
@[simp] theorem execSelf_keeps (s : State) (c x w) : s.Keeps (execSelf c x w s) := by simp [execSelf]

/-! ### Machine/VecRows -/

@[simp] theorem execVadd_keeps (s : State) (c x w) : s.Keeps (execVadd c x w s) := by simp [execVadd]
@[simp] theorem execVsub_keeps (s : State) (c x w) : s.Keeps (execVsub c x w s) := by simp [execVsub]
@[simp] theorem execVmul_keeps (s : State) (c x w) : s.Keeps (execVmul c x w s) := by simp [execVmul]
@[simp] theorem execVmin_keeps (s : State) (c x w) : s.Keeps (execVmin c x w s) := by simp [execVmin]
@[simp] theorem execVmax_keeps (s : State) (c x w) : s.Keeps (execVmax c x w s) := by simp [execVmax]
@[simp] theorem execVabs_keeps (s : State) (c x w) : s.Keeps (execVabs c x w s) := by simp [execVabs]
@[simp] theorem execVand_keeps (s : State) (c x w) : s.Keeps (execVand c x w s) := by simp [execVand]
@[simp] theorem execVor_keeps (s : State) (c x w) : s.Keeps (execVor c x w s) := by simp [execVor]
@[simp] theorem execVxor_keeps (s : State) (c x w) : s.Keeps (execVxor c x w s) := by simp [execVxor]
@[simp] theorem execVandn_keeps (s : State) (c x w) : s.Keeps (execVandn c x w s) := by simp [execVandn]
@[simp] theorem execVshl_keeps (s : State) (c x w) : s.Keeps (execVshl c x w s) := by simp [execVshl]
@[simp] theorem execVshr_keeps (s : State) (c x w) : s.Keeps (execVshr c x w s) := by simp [execVshr]
@[simp] theorem execVsra_keeps (s : State) (c x w) : s.Keeps (execVsra c x w s) := by simp [execVsra]
@[simp] theorem execVpopc_keeps (s : State) (c x w) : s.Keeps (execVpopc c x w s) := by simp [execVpopc]
@[simp] theorem execVfadd_keeps (s : State) (c x w) : s.Keeps (execVfadd c x w s) := by simp [execVfadd]
@[simp] theorem execVfsub_keeps (s : State) (c x w) : s.Keeps (execVfsub c x w s) := by simp [execVfsub]
@[simp] theorem execVfmul_keeps (s : State) (c x w) : s.Keeps (execVfmul c x w s) := by simp [execVfmul]
@[simp] theorem execVfma_keeps (s : State) (c x w) : s.Keeps (execVfma c x w s) := by simp [execVfma]
@[simp] theorem execVfmin_keeps (s : State) (c x w) : s.Keeps (execVfmin c x w s) := by simp [execVfmin]
@[simp] theorem execVfmax_keeps (s : State) (c x w) : s.Keeps (execVfmax c x w s) := by simp [execVfmax]
@[simp] theorem execVfabs_keeps (s : State) (c x w) : s.Keeps (execVfabs c x w s) := by simp [execVfabs]
@[simp] theorem execVfneg_keeps (s : State) (c x w) : s.Keeps (execVfneg c x w s) := by simp [execVfneg]
@[simp] theorem execVcvt_keeps (s : State) (c x w) : s.Keeps (execVcvt c x w s) := by simp [execVcvt]
@[simp] theorem execVexp2_keeps (s : State) (c x w) : s.Keeps (execVexp2 c x w s) := by simp [execVexp2]
@[simp] theorem execVexp_keeps (s : State) (c x w) : s.Keeps (execVexp c x w s) := by simp [execVexp]
@[simp] theorem execVlog2_keeps (s : State) (c x w) : s.Keeps (execVlog2 c x w s) := by simp [execVlog2]
@[simp] theorem execVln_keeps (s : State) (c x w) : s.Keeps (execVln c x w s) := by simp [execVln]
@[simp] theorem execVrcp_keeps (s : State) (c x w) : s.Keeps (execVrcp c x w s) := by simp [execVrcp]
@[simp] theorem execVsqrt_keeps (s : State) (c x w) : s.Keeps (execVsqrt c x w s) := by simp [execVsqrt]
@[simp] theorem execVrsqrt_keeps (s : State) (c x w) : s.Keeps (execVrsqrt c x w s) := by simp [execVrsqrt]
@[simp] theorem execVdiv_keeps (s : State) (c x w) : s.Keeps (execVdiv c x w s) := by simp [execVdiv]
@[simp] theorem execVtanh_keeps (s : State) (c x w) : s.Keeps (execVtanh c x w s) := by simp [execVtanh]
@[simp] theorem execVsigm_keeps (s : State) (c x w) : s.Keeps (execVsigm c x w s) := by simp [execVsigm]
@[simp] theorem execVerf_keeps (s : State) (c x w) : s.Keeps (execVerf c x w s) := by simp [execVerf]
@[simp] theorem execVsinpi_keeps (s : State) (c x w) : s.Keeps (execVsinpi c x w s) := by simp [execVsinpi]
@[simp] theorem execVcospi_keeps (s : State) (c x w) : s.Keeps (execVcospi c x w s) := by simp [execVcospi]
@[simp] theorem execVredSum_keeps (s : State) (c x w) : s.Keeps (execVredSum c x w s) := by simp [execVredSum]
@[simp] theorem execVredProd_keeps (s : State) (c x w) : s.Keeps (execVredProd c x w s) := by simp [execVredProd]
@[simp] theorem execVredMax_keeps (s : State) (c x w) : s.Keeps (execVredMax c x w s) := by simp [execVredMax]
@[simp] theorem execVredMin_keeps (s : State) (c x w) : s.Keeps (execVredMin c x w s) := by simp [execVredMin]
@[simp] theorem execVredCount_keeps (s : State) (c x w) : s.Keeps (execVredCount c x w s) := by simp [execVredCount]
@[simp] theorem execVredMean_keeps (s : State) (c x w) : s.Keeps (execVredMean c x w s) := by simp [execVredMean]
@[simp] theorem execVredSumsq_keeps (s : State) (c x w) : s.Keeps (execVredSumsq c x w s) := by simp [execVredSumsq]
@[simp] theorem execVtredSum_keeps (s : State) (c x w) : s.Keeps (execVtredSum c x w s) := by simp [execVtredSum]
@[simp] theorem execVtredSumsq_keeps (s : State) (c x w) :
    s.Keeps (execVtredSumsq c x w s) := by simp [execVtredSumsq]

@[simp] theorem execVtredMax_keeps (s : State) (c x w) : s.Keeps (execVtredMax c x w s) := by simp [execVtredMax]
@[simp] theorem execVtredMin_keeps (s : State) (c x w) : s.Keeps (execVtredMin c x w s) := by simp [execVtredMin]
@[simp] theorem execVsmax_keeps (s : State) (c x w) : s.Keeps (execVsmax c x w s) := by simp [execVsmax]
@[simp] theorem execVtopk_keeps (s : State) (c x w) : s.Keeps (execVtopk c x w s) := by simp [execVtopk]
@[simp] theorem execVcmpk_keeps (s : State) (c x w) : s.Keeps (execVcmpk c x w s) := by simp [execVcmpk]
@[simp] theorem execVquant_keeps (s : State) (c x w) : s.Keeps (execVquant c x w s) := by simp [execVquant]
@[simp] theorem execVdeq_keeps (s : State) (c x w) : s.Keeps (execVdeq c x w s) := by simp [execVdeq]
@[simp] theorem execVld_keeps (s : State) (c x w) : s.Keeps (execVld c x w s) := by simp [execVld]
@[simp] theorem execVst_keeps (s : State) (c x w) : s.Keeps (execVst c x w s) := by simp [execVst]
@[simp] theorem execVmov_keeps (s : State) (c x w) : s.Keeps (execVmov c x w s) := by simp [execVmov]
@[simp] theorem execVfill_keeps (s : State) (c x w) : s.Keeps (execVfill c x w s) := by simp [execVfill]
@[simp] theorem execVtransp_keeps (s : State) (c x w) : s.Keeps (execVtransp c x w s) := by simp [execVtransp]
@[simp] theorem execVspl_keeps (s : State) (c x w) : s.Keeps (execVspl c x w s) := by simp [execVspl]
@[simp] theorem execVsplexp_keeps (s : State) (c x w) : s.Keeps (execVsplexp c x w s) := by simp [execVsplexp]
@[simp] theorem execVflags_keeps (s : State) (c x w) : s.Keeps (execVflags c x w s) := by simp [execVflags]

/-! ### The transitions (R25 to R30) -/

/-- t is in a legal mode if s is. -/
def State.LegalStep (s t : State) : Prop := s.keel.ok = true → t.keel.ok = true

/-- A command that answers o keeps a legal mode. -/
def State.KeepsLegal (s : State) (o : Host.Outcome State Fault Refusal) : Prop := ∀ t, o = .next t → s.LegalStep t

theorem State.KeepsLegal.next {s t : State} (h : s.LegalStep t) : s.KeepsLegal (.next t) := fun _ hu => by cases hu; exact h

theorem State.SameKeel.legal {s t : State} (h : s.SameKeel t) : s.LegalStep t := fun hs => (congrArg KeelSt.ok h).trans hs

theorem State.Keeps.legal {s : State} {o} (h : s.Keeps o) : s.KeepsLegal o := fun t ht => (h t ht).legal

theorem State.LegalStep.refl (s : State) : s.LegalStep s := id

theorem State.LegalStep.trans {s t u : State} (h : s.LegalStep t) (k : t.LegalStep u) : s.LegalStep u := k ∘ h

theorem State.LegalStep.ite {s t u : State} {c : Prop} [Decidable c] (h : s.LegalStep t) (k : s.LegalStep u) :
    s.LegalStep (if c then t else u) := by
  split
  · exact h
  · exact k

/-- Outside KEEL, and in KEEL with no transition in progress and the boot ROM not stopped, nothing of the boot ROM is left. -/
theorem KeelSt.ok.idle {k : KeelSt} (h : k.ok = true) (hk : k.state = .keel → k.target = .keel ∧ k.stopped = false) :
    k.booting = false ∧ k.stopped = false := by
  obtain ⟨st, tg, _, _, _, _, _, b, p, _⟩ := k
  cases st <;> cases tg <;> cases b <;> cases p <;> simp_all [KeelSt.ok]

/-- A pair of STATE and TARGET in which the boot ROM neither runs nor has stopped (R26, R27). -/
def restPairs : List (DevState × DevState) :=
  [(.off, .off), (.keel, .keel), (.moored, .moored), (.moored, .rigged), (.rigged, .rigged), (.aloft, .aloft),
    (.aloft, .rigged)]

theorem KeelSt.ok_of_restPairs {k : KeelSt} (h : (k.state, k.target) ∈ restPairs) (hb : k.booting = false)
    (hs : k.stopped = false) : k.ok = true := by
  obtain ⟨st, tg, _, _, _, _, _, b, p, _⟩ := k
  cases hb; cases hs
  simp only [restPairs, List.mem_cons, Prod.mk.injEq, List.not_mem_nil, or_false] at h
  rcases h with ⟨rfl, rfl⟩ | ⟨rfl, rfl⟩ | ⟨rfl, rfl⟩ | ⟨rfl, rfl⟩ | ⟨rfl, rfl⟩ | ⟨rfl, rfl⟩ | ⟨rfl, rfl⟩ <;> rfl

theorem State.setDev_keel (s : State) (st tg) : (s.setDev st tg).keel = { s.keel with state := st, target := tg } := rfl

/-- A transition between two states, or its end, with the boot ROM neither running nor stopped. -/
theorem State.setDev_ok {s : State} {st tg} (h : (st, tg) ∈ restPairs) (hb : s.keel.booting = false)
    (hs : s.keel.stopped = false) : (s.setDev st tg).keel.ok = true := KeelSt.ok_of_restPairs h hb hs

theorem State.enterKeel_ok (s : State) : s.enterKeel.keel.ok = true := State.setDev_ok (by decide) rfl rfl
theorem State.pkgReset_ok (s : State) (code) : (s.pkgReset code).keel.ok = true := State.enterKeel_ok _
theorem State.pkgFault_ok (s : State) (code) : (s.pkgFault code).keel.ok = true := State.pkgReset_ok _ _
theorem State.pkgFault_legal (s t : State) (code) : s.LegalStep (t.pkgFault code) := fun _ => t.pkgFault_ok code

/-! ### Operations with a body -/

theorem State.access_legal {s : State} {src core f} (h : ∀ t : State, s.SameKeel t → t.LegalStep (f t)) :
    s.LegalStep (s.access src core f) := by
  unfold State.access
  dsimp only
  split
  · exact fun hs => h { s with acc := { src, core } } rfl hs
  · exact State.SameKeel.legal (by simp)

theorem State.coreAccess_legal {s : State} {c f} (h : ∀ t : State, t.LegalStep (f t)) : s.LegalStep (s.coreAccess c f) :=
  State.access_legal fun t _ => h t

theorem State.board_legal {s : State} {seq status body} (h : ∀ t : State, s.SameKeel t → t.LegalStep (body t)) :
    s.LegalStep (s.board seq status body) := by
  unfold State.board
  dsimp only
  split
  · exact .refl s
  · split
    · exact State.SameKeel.legal (s.ackBoard_keel _ _)
    · exact fun hs => h _ rfl hs

theorem State.keyed_legal {s : State} {v ok body} (h : ∀ t : State, t.LegalStep (body t)) :
    s.LegalStep (s.keyed v ok body) := by
  unfold State.keyed
  split
  · exact h s
  · exact State.SameKeel.legal (s.updRip_keel _)

theorem State.rxDgram_legal {s : State} {type d body} (h : ∀ (t : State) b, t.LegalStep (body t b)) :
    s.LegalStep (s.rxDgram type d body) := by
  unfold State.rxDgram
  dsimp only
  split
  · exact .refl s
  · split
    · exact State.SameKeel.legal (by simp)
    · split
      · exact State.SameKeel.legal (by simp)
      · split
        · exact State.SameKeel.legal (by simp)
        · split
          · exact .refl s
          · exact (State.SameKeel.legal (by simp)).trans (h _ _)

/-! ### Package resets and the interval boundary -/

theorem State.bridleFault_legal (s : State) (n) : s.LegalStep (s.bridleFault n) := by
  unfold State.bridleFault
  dsimp only
  split
  · exact State.SameKeel.legal (by simp)
  · exact State.pkgFault_legal _ _ _

theorem State.replyIn_legal (s : State) (k r bad) : s.LegalStep (s.replyIn k r bad) := by
  unfold State.replyIn
  split
  · exact fun hs => State.bridleFault_legal _ _ hs
  · exact State.SameKeel.legal (by simp)

theorem State.pkgReq_legal (s : State) (v) : s.LegalStep (s.pkgReq v) := by
  refine State.keyed_legal fun s => ?_
  split
  · exact State.pkgFault_legal _ _ _
  · exact .refl s

theorem State.boundary_legal (s : State) (x) : s.LegalStep (s.boundary x) := by
  unfold State.boundary
  dsimp only
  split
  · exact State.pkgFault_legal _ _ _
  · exact State.SameKeel.legal (by simp)

theorem State.toBoundary_legal (s : State) (x) : s.LegalStep (s.toBoundary x) :=
  (State.SameKeel.legal (s.tickBy_keel _)).trans (State.boundary_legal _ x)

theorem State.idleTick_legal (s : State) : s.LegalStep s.idleTick := by
  have htick : s.LegalStep (s.tickBy 1) := State.SameKeel.legal (s.tickBy_keel 1)
  unfold State.idleTick
  split
  · exact .refl s
  · dsimp only
    split
    · exact htick.trans (State.boundary_legal _ _)
    · exact htick

/-! ### Requests, and what writes them -/

theorem State.unrig_keel (s : State) : s.unrig.keel = { s.keel with state := .moored, target := .moored } := by
  rw [State.unrig, State.setDev_keel, State.ancMoored_keel]
  exact congrArg (fun k : KeelSt => { k with state := .moored, target := .moored }) s.boundaryLate_keel

/-- A request is accepted in a state that is not KEEL (R27, R28). -/
theorem State.reqOk_state {s : State} {q} (h : s.reqOk q = true) : s.keel.state ≠ .keel := by
  intro hk
  simp [State.reqOk, hk] at h

theorem State.reqGo_ok {s : State} (q) (hb : s.keel.booting = false) (hs : s.keel.stopped = false) :
    (s.reqGo q).keel.ok = true := by
  unfold State.reqGo
  split
  · exact s.enterKeel_ok
  · rw [State.unrig_keel]
    exact KeelSt.ok_of_restPairs (by simp [restPairs]) hb hs
  · exact State.setDev_ok (by decide) hb hs
  · exact State.setDev_ok (by decide) hb hs

theorem State.request_legal (s : State) (q) : s.LegalStep (s.request q) := by
  intro hs
  unfold State.request
  dsimp only
  split
  next hok =>
    obtain ⟨hboot, hstop⟩ := KeelSt.ok.idle hs fun hk => absurd hk (State.reqOk_state hok)
    exact State.reqGo_ok q hboot hstop
  next => exact hs

theorem State.ripWrite_legal (s : State) (off v) : s.LegalStep (s.ripWrite off v) := by
  have hrip (f : RipSt → RipSt) : s.LegalStep (s.updRip f) := State.SameKeel.legal (s.updRip_keel f)
  have hfence := State.SameKeel.legal (s.fenceReq_keel v)
  have hdie := State.SameKeel.legal (s.dieReq_keel v)
  have hpet (g : Nat) := State.SameKeel.legal (s.pet_keel g)
  exact .ite (hrip _) (.ite (hrip _) (.ite (hrip _) (.ite (hrip _) (.ite hfence (.ite hdie (.ite (s.pkgReq_legal v)
    (.ite (hrip _) (.ite (hrip _) (.ite (hrip _) (.ite (hpet _) (.refl s)))))))))))

theorem State.keelWrite_legal (s : State) (off v) : s.LegalStep (s.keelWrite off v) := by
  unfold State.keelWrite
  split
  · exact s.request_legal _
  · split
    · exact s.ripWrite_legal off v
    · exact .refl s

theorem State.ctrlWrite_legal (s : State) (w off v) : s.LegalStep (s.ctrlWrite w off v) := by
  have hanc := State.SameKeel.legal (s.ancWrite_keel (off - 0x100000) v)
  have hrig := State.SameKeel.legal (s.rigWrite_keel w (off - 0x200000) v)
  have hhost := State.SameKeel.legal (s.updHost_keel fun h => h.write (off - 0x300000) v)
  have hport := State.SameKeel.legal (s.portWrite_keel ((off - 0x400000) / 0x10000) (off % 0x10000) v)
  have hteth := State.SameKeel.legal (s.tethWrite_keel (off - 0x400000) v)
  have hgon := State.SameKeel.legal (s.gonWrite_keel (off - 0x800000) v)
  have hknot (k : Nat) := State.SameKeel.legal (s.replaceKnot_keel w k v)
  have hpair (g : Nat) (f : KPair → KPair) := State.SameKeel.legal (s.updPair_keel g f)
  have hpeer (d : Nat) := State.SameKeel.legal (s.peerReplace_keel d v)
  have hstage (d i : Nat) := State.SameKeel.legal (s.peerStageWrite_keel d i v)
  have hstk (st : Nat) := State.SameKeel.legal (s.stkWrite_keel st (off % 0x100000) v)
  have hcore (c : Nat) := State.SameKeel.legal (s.coreRegWrite_keel c (off % 0x100000) v)
  exact .ite (s.keelWrite_legal off v) (.ite hanc (.ite hrig (.ite hhost (.ite hport (.ite hteth (.ite hgon
    (.ite (.ite (hknot _) (hpair _ _)) (.ite (.ite (.refl s) (.ite (hpeer _) (hstage _ _))) (.ite (hstk _) (hcore _))))))))))

/-! ### Commands of a session -/

theorem State.startWr32_legal (s : State) (n c) : s.LegalStep (s.startWr32 n c) := by
  have hend (t : State) (code) : t.LegalStep (t.cmdEnd n c.id code) := State.SameKeel.legal (t.cmdEnd_keel _ _ _)
  unfold State.startWr32
  dsimp only
  split
  · exact hend s _
  · split
    · exact (hend s _).trans (State.ctrlWrite_legal _ _ _ _)
    · exact (State.ctrlWrite_legal _ _ _ _).trans (hend _ _)

theorem State.startCmd_legal (s : State) (n c) : s.LegalStep (s.startCmd n c) := by
  unfold State.startCmd
  extract_lets u
  have hu : s.LegalStep u := State.SameKeel.legal (s.updCmd_keel n c.id _)
  have hend (code) : u.LegalStep (u.cmdEnd n c.id code) := State.SameKeel.legal (u.cmdEnd_keel _ _ _)
  refine hu.trans (.ite (hend 3) ?_)
  split
  · exact State.SameKeel.legal (u.startRd32_keel n c)
  · exact u.startWr32_legal n c
  · exact State.SameKeel.legal (u.startWrite_keel n c)
  · exact State.SameKeel.legal (u.startRead_keel n c)
  · exact State.SameKeel.legal (u.startKnot_keel n c)
  · exact (hend _).trans (State.request_legal _ _)
  · exact hend 3

theorem State.tryStart_legal (s : State) (n id) : s.LegalStep (s.tryStart n id) := by
  unfold State.tryStart
  split
  · split
    · exact s.startCmd_legal n _
    · exact .refl s
  · exact .refl s

theorem State.takeCmd_legal (s : State) (n queue k) : s.LegalStep (s.takeCmd n queue k) := by
  unfold State.takeCmd
  dsimp only
  split
  · exact State.SameKeel.legal (by simp)
  · exact (State.SameKeel.legal (s.updSess_keel n _)).trans (State.tryStart_legal _ _ _)

theorem State.rxCmd_legal (s : State) (is d) : s.LegalStep (s.rxCmd is d) := by
  unfold State.rxCmd
  split
  · exact State.access_legal fun s _ => State.rxDgram_legal fun s b => s.takeCmd_legal _ _ _
  · exact .refl s

/-! ### The rise, bring-up and commits -/

theorem State.bootStop_ok (s : State) (cause) : (s.bootStop cause).keel.ok = true := rfl

/-- A change of the knots' registers leaves the keel domain as it is. -/
theorem State.heardNow_keel (s : State) (n : Nat) :
    s.SameKeel { s with knot := { s.knot with heard := sset 0 s.knot.heard n s.env.ticks } } := rfl

theorem State.reachRigged_keel (s : State) (bad) :
    (s.reachRigged bad).keel = { s.keel with state := .rigged, target := .rigged } := by
  unfold State.reachRigged
  extract_lets t u v
  have hv : v.keel = s.keel :=
    calc v.keel = u.keel := State.keel_foldl (fun s n => s.heardNow_keel n) _ _
      _ = t.keel := (State.holdCores_keel _ _).trans t.waitGons_keel
      _ = s.keel := State.keel_foldl (fun s st => s.stackTrained_keel bad st) _ _
  rw [State.flashFirmware_keel, State.setDev_keel, hv]

theorem State.bringUp_keel (s : State) : s.bringUp.keel = { s.keel with state := .moored, target := .rigged } := by
  unfold State.bringUp
  extract_lets t u
  have hu : u.keel = s.keel :=
    calc u.keel = t.keel := State.keel_foldl (fun s p => s.updPort_keel p _) _ _
      _ = s.keel := State.keel_foldl (fun s i => s.updStk_keel i _) _ _
  rw [State.setDev_keel, hu]

/-- A commit applied in MOORED starts the bring-up. -/
theorem State.commitDone_legal (s : State) (m) : s.LegalStep (s.commitDone m) := by
  intro hs
  unfold State.commitDone
  extract_lets t1 t2 t3 t4 t5 t6
  have ht : t6.keel = s.keel := by
    have h5 : t5.keel = t4.keel := by
      simp only [t5, State.keel_ite, State.bindOwner_keel, ite_self]
    rw [State.ancEnd_keel, h5, State.ancSubmit_keel, State.rigResult_keel, State.updRig_keel, State.unhold_keel,
      State.applyImage_keel]
  split
  next hm =>
    rw [ht] at hm
    obtain ⟨hboot, hstop⟩ := KeelSt.ok.idle hs fun hk => by simp [hk] at hm
    rw [State.bringUp_keel, ht]
    exact KeelSt.ok_of_restPairs (by simp [restPairs]) hboot hstop
  next => rwa [ht]

/-! ### The commands -/

theorem execKeelPowerOn_legal (s : State) (en quad) : s.KeepsLegal (execKeelPowerOn en quad s) := by
  refine .next ?_
  split
  next hoff =>
    intro hs
    obtain ⟨hboot, hstop⟩ := KeelSt.ok.idle hs fun hk => by simp [hoff] at hk
    exact State.setDev_ok (by decide) hboot hstop
  next => exact .refl s

theorem execKeelRailLost_legal (s : State) : s.KeepsLegal (execKeelRailLost s) := .next fun _ => rfl

theorem execStow_legal (s : State) (w) : s.KeepsLegal (execStow w s) := by
  refine .next ?_
  split
  · exact s.request_legal 1
  · exact .refl s

theorem execUnrig_legal (s : State) (w) : s.KeepsLegal (execUnrig w s) := by
  refine .next ?_
  split
  · exact s.request_legal 2
  · exact .refl s

theorem execLand_legal (s : State) (w) : s.KeepsLegal (execLand w s) := by
  refine .next ?_
  split
  · exact s.request_legal 3
  · exact .refl s

theorem execLaunch_legal (s : State) (w) : s.KeepsLegal (execLaunch w s) := by
  refine .next ?_
  split
  · exact s.request_legal 4
  · exact .refl s

theorem execLandComplete_legal (s : State) : s.KeepsLegal (execLandComplete s) := by
  refine .next ?_
  split
  next h =>
    intro hs
    obtain ⟨hboot, hstop⟩ := KeelSt.ok.idle hs fun hk => by simp [hk] at h
    have hk := s.holdCores_keel s.rig.live.bind
    exact State.setDev_ok (by decide) (by rw [hk, hboot]) (by rw [hk, hstop])
  next => exact .refl s

/-- While the boot ROM runs the device rises from KEEL and has not stopped there. -/
theorem KeelSt.ok.rising {k : KeelSt} (h : k.ok = true) (hs : k.state = .keel) (hb : k.booting = true) : k.stopped = false := by
  obtain ⟨st, tg, _, _, _, _, _, b, p, _⟩ := k
  cases tg <;> cases p <;> simp_all [KeelSt.ok]

theorem KeelSt.ok_of_rising {k : KeelSt} (hs : k.state = .keel) (ht : k.target = .moored) (hb : k.booting = true)
    (hp : !k.stopped) : k.ok = true := by
  simp_all [KeelSt.ok]

theorem execBootRomComplete_legal (s : State) (kat puf entropy gon0) :
    s.KeepsLegal (execBootRomComplete kat puf entropy gon0 s) := by
  refine .next ?_
  split
  next h =>
    refine .ite (fun _ => rfl) (.ite (fun _ => rfl) (.ite (fun _ => rfl) ?_))
    intro hs
    extract_lets t u v code w
    have hw : w.keel = s.keel := by
      have hv : v.keel = s.keel := s.bootAnchor_keel
      rw [← hv, State.keel_ite, State.updGon_keel, State.latch_keel, State.report_keel, ite_self]
    refine State.setDev_ok (by decide) rfl ?_
    exact (congrArg KeelSt.stopped hw).trans <| KeelSt.ok.rising hs h.1 h.2
  next => exact .refl s

theorem execEntropyHealthFail_legal (s : State) : s.KeepsLegal (execEntropyHealthFail s) :=
  .next (.ite (State.pkgFault_legal _ _ _) (.refl s))

theorem execRiggedReached_legal (s : State) (bad) : s.KeepsLegal (execRiggedReached bad s) := by
  refine .next ?_
  split
  next h =>
    obtain ⟨hst, htg⟩ := h
    intro hs
    obtain ⟨hboot, hstop⟩ := KeelSt.ok.idle hs fun hk => by simp [hst] at hk
    refine State.access_legal (fun t ht _ => ?_) hs
    rw [State.reachRigged_keel, (State.sameKeel_iff _ _).mp ht]
    exact KeelSt.ok_of_restPairs (by simp [restPairs]) hboot hstop
  next => exact .refl s

theorem execKnotOpAtHome_legal (s : State) (ks e) : s.KeepsLegal (execKnotOpAtHome ks e s) := by
  refine .next (State.access_legal fun s _ => ?_)
  extract_lets r t
  have hr : s.LegalStep r.1 := State.SameKeel.legal (s.arriving_keel _)
  split
  · exact .refl s
  · exact hr.trans (State.bridleFault_legal _ _)
  · refine hr.trans (State.SameKeel.legal ?_)
    exact (State.applyMsgs_keel _ _).trans <| (State.knotEcc_keel _ _ _).trans <|
      State.keel_foldl (fun s q => s.hear_keel _ _) _ _

theorem execKeelVoteDisagree_legal (s : State) (bit) : s.KeepsLegal (execKeelVoteDisagree bit s) := by
  refine .next ?_
  split
  · exact .refl s
  · exact .ite (fun _ => State.pkgReset_ok _ _) fun hs => hs

theorem execThermalTrip_legal (s : State) (logic n celsius) : s.KeepsLegal (execThermalTrip logic n celsius s) :=
  .next (.ite (State.pkgFault_legal _ _ _) (.refl s))

theorem execSupplySagReset_legal (s : State) (rail mv) : s.KeepsLegal (execSupplySagReset rail mv s) :=
  .next (.ite (State.pkgFault_legal _ _ _) (.refl s))

theorem execRipPkgReset_legal (s : State) (v) : s.KeepsLegal (execRipPkgReset v s) :=
  .next (.ite (s.pkgReq_legal _) (.refl s))

theorem execKnotReply_legal (s : State) (m) : s.KeepsLegal (execKnotReply m s) := by
  refine .next ?_
  split
  · exact .refl s
  · refine .ite (.refl s) ?_
    split
    · exact State.coreAccess_legal fun s => s.replyIn_legal _ _ _
    · exact s.replyIn_legal _ _ _

theorem execRegisterWrite_legal (s : State) (w off v) : s.KeepsLegal (execRegisterWrite w off v s) :=
  .next (.ite (State.access_legal fun s _ => s.ctrlWrite_legal w off _) (.refl s))

theorem execEnvelopeInterval_legal (s : State) (x) : s.KeepsLegal (execEnvelopeInterval x s) := by
  refine .next ?_
  split
  · exact .refl s
  · exact s.toBoundary_legal x

theorem execHeartbeat_legal (s : State) (tether m) : s.KeepsLegal (execHeartbeat tether m s) := by
  refine .next (.ite (State.SameKeel.legal (by simp)) (.ite (.ite ?_ (fun hs => hs)) (.refl s)))
  exact fun hs => State.bridleFault_legal _ _ hs

theorem execBridleLinkLost_legal (s : State) (tether n) : s.KeepsLegal (execBridleLinkLost tether n s) := by
  refine .next (.ite (State.SameKeel.legal (s.portSilent_keel n)) (.ite (.refl s) (.ite (State.SameKeel.legal ?_)
    (State.pkgFault_legal _ _ _))))
  exact State.dieFault_keel _ _ _

theorem execRailsGood_legal (s : State) (seq v d) : s.KeepsLegal (execRailsGood seq v d s) := by
  refine .next (State.board_legal fun s _ => ?_)
  split
  next h =>
    obtain ⟨_, hst, htg, hstop⟩ := h
    exact fun _ => KeelSt.ok_of_rising rfl rfl rfl hstop
  next => exact .refl s

theorem execRcReset_legal (s : State) (seq v d) : s.KeepsLegal (execRcReset seq v d s) :=
  .next (.ite (State.board_legal fun _ _ => State.pkgFault_legal _ _ _) (State.board_legal fun s _ => .refl s))

theorem execRcStow_legal (s : State) (seq v d) : s.KeepsLegal (execRcStow seq v d s) :=
  .next (.ite (State.board_legal fun s _ _ => s.enterKeel_ok) (State.board_legal fun s _ => .refl s))

theorem execHostCmdStart_legal (s : State) (n id) : s.KeepsLegal (execHostCmdStart n id s) :=
  .next (State.access_legal fun s _ => s.tryStart_legal n id)

theorem execRigApply_legal (s : State) : s.KeepsLegal (execRigApply s) := by
  refine .next (.ite ?_ (.refl s))
  split
  · exact .refl s
  · refine .ite (.refl s) ?_
    split
    · exact State.SameKeel.legal (s.rigReject_keel _ _ _)
    · exact s.commitDone_legal _

theorem execAnchorOpDone_legal (s : State) (badSig) : s.KeepsLegal (execAnchorOpDone badSig s) := by
  refine .next ?_
  split
  · exact .ite (State.pkgFault_legal _ _ _) (State.SameKeel.legal (by simp))
  · exact .ite (State.pkgFault_legal _ _ _) (State.SameKeel.legal (by simp))
  · exact State.SameKeel.legal (by simp)
  · exact State.SameKeel.legal (by simp)
  · exact State.access_legal fun s _ => State.SameKeel.legal (by simp)
  · exact .refl s

theorem execRd32_legal (s : State) (h b) : s.KeepsLegal (execRd32 h b s) := .next (s.rxCmd_legal _ _)
theorem execWr32_legal (s : State) (h b) : s.KeepsLegal (execWr32 h b s) := .next (s.rxCmd_legal _ _)
theorem execWrite_legal (s : State) (h b) : s.KeepsLegal (execWrite h b s) := .next (s.rxCmd_legal _ _)
theorem execRead_legal (s : State) (h b) : s.KeepsLegal (execRead h b s) := .next (s.rxCmd_legal _ _)
theorem execKnot_legal (s : State) (h b) : s.KeepsLegal (execKnot h b s) := .next (s.rxCmd_legal _ _)
theorem execState_legal (s : State) (h b) : s.KeepsLegal (execState h b s) := .next (s.rxCmd_legal _ _)

/-- Every command keeps a legal mode. -/
theorem exec_keepsLegal (i : Instr) (s : State) : s.KeepsLegal (exec i s) :=
  match i with
  | .keelPowerOn flashEn flashQuad => execKeelPowerOn_legal s flashEn flashQuad
  | .keelRailLost => execKeelRailLost_legal s
  | .stow w => execStow_legal s w
  | .unrig w => execUnrig_legal s w
  | .land w => execLand_legal s w
  | .launch w => execLaunch_legal s w
  | .landComplete => execLandComplete_legal s
  | .bootRomComplete kat puf entropy gon0 => execBootRomComplete_legal s kat puf entropy gon0
  | .entropyHealthFail => execEntropyHealthFail_legal s
  | .riggedReached badStacks => execRiggedReached_legal s badStacks
  | .hostLinkUp => (execHostLinkUp_keeps s).legal
  | .nop c x w => (execNop_keeps s c x w).legal
  | .halt c x w => (execHalt_keeps s c x w).legal
  | .br c x w => (execBr_keeps s c x w).legal
  | .call c x w => (execCall_keeps s c x w).legal
  | .jr c x w => (execJr_keeps s c x w).legal
  | .twait c x w => (execTwait_keeps s c x w).legal
  | .rwait c x w => (execRwait_keeps s c x w).legal
  | .fence c x w => (execFence_keeps s c x w).legal
  | .synci c x w => (execSynci_keeps s c x w).legal
  | .event c x w => (execEvent_keeps s c x w).legal
  | .add c x imm w => (execAdd_keeps s c x imm w).legal
  | .sub c x imm w => (execSub_keeps s c x imm w).legal
  | .and c x imm w => (execAnd_keeps s c x imm w).legal
  | .or c x imm w => (execOr_keeps s c x imm w).legal
  | .xor c x imm w => (execXor_keeps s c x imm w).legal
  | .shl c x imm w => (execShl_keeps s c x imm w).legal
  | .shr c x imm w => (execShr_keeps s c x imm w).legal
  | .sra c x imm w => (execSra_keeps s c x imm w).legal
  | .mul c x imm w => (execMul_keeps s c x imm w).legal
  | .mulh c x imm w => (execMulh_keeps s c x imm w).legal
  | .mulhu c x imm w => (execMulhu_keeps s c x imm w).legal
  | .div c x imm w => (execDiv_keeps s c x imm w).legal
  | .divu c x imm w => (execDivu_keeps s c x imm w).legal
  | .rem c x imm w => (execRem_keeps s c x imm w).legal
  | .remu c x imm w => (execRemu_keeps s c x imm w).legal
  | .min c x imm w => (execMin_keeps s c x imm w).legal
  | .max c x imm w => (execMax_keeps s c x imm w).legal
  | .minu c x imm w => (execMinu_keeps s c x imm w).legal
  | .maxu c x imm w => (execMaxu_keeps s c x imm w).legal
  | .mov c x imm w => (execMov_keeps s c x imm w).legal
  | .movh c x imm w => (execMovh_keeps s c x imm w).legal
  | .cmpEq c x w => (execCmpEq_keeps s c x w).legal
  | .cmpNe c x w => (execCmpNe_keeps s c x w).legal
  | .cmpLt c x w => (execCmpLt_keeps s c x w).legal
  | .cmpLe c x w => (execCmpLe_keeps s c x w).legal
  | .cmpLtu c x w => (execCmpLtu_keeps s c x w).legal
  | .cmpLeu c x w => (execCmpLeu_keeps s c x w).legal
  | .cmpiEq c x w => (execCmpiEq_keeps s c x w).legal
  | .cmpiNe c x w => (execCmpiNe_keeps s c x w).legal
  | .cmpiLt c x w => (execCmpiLt_keeps s c x w).legal
  | .cmpiLe c x w => (execCmpiLe_keeps s c x w).legal
  | .cmpiLtu c x w => (execCmpiLtu_keeps s c x w).legal
  | .cmpiLeu c x w => (execCmpiLeu_keeps s c x w).legal
  | .pand c x w => (execPand_keeps s c x w).legal
  | .por c x w => (execPor_keeps s c x w).legal
  | .pxor c x w => (execPxor_keeps s c x w).legal
  | .pandn c x w => (execPandn_keeps s c x w).legal
  | .adda c x w => (execAdda_keeps s c x w).legal
  | .addai c x w => (execAddai_keeps s c x w).legal
  | .mova c x w => (execMova_keeps s c x w).legal
  | .movs c x w => (execMovs_keeps s c x w).legal
  | .setdev c x w => (execSetdev_keeps s c x w).legal
  | .setsp c x w => (execSetsp_keeps s c x w).legal
  | .self c x w => (execSelf_keeps s c x w).legal
  | .ld8u c x w e => (execLd8u_keeps s c x w e).legal
  | .ld16u c x w e => (execLd16u_keeps s c x w e).legal
  | .ld32u c x w e => (execLd32u_keeps s c x w e).legal
  | .ld64 c x w e => (execLd64_keeps s c x w e).legal
  | .ld8s c x w e => (execLd8s_keeps s c x w e).legal
  | .ld16s c x w e => (execLd16s_keeps s c x w e).legal
  | .ld32s c x w e => (execLd32s_keeps s c x w e).legal
  | .st8 c x w => (execSt8_keeps s c x w).legal
  | .st16 c x w => (execSt16_keeps s c x w).legal
  | .st32 c x w => (execSt32_keeps s c x w).legal
  | .st64 c x w => (execSt64_keeps s c x w).legal
  | .scalarLoadReturn c k => (execScalarLoadReturn_keeps s c k).legal
  | .reelGo c x w => (execReelGo_keeps s c x w).legal
  | .reelStat c x w => (execReelStat_keeps s c x w).legal
  | .reelDescStart c r => (execReelDescStart_keeps s c r).legal
  | .reelDescComplete c r e => (execReelDescComplete_keeps s c r e).legal
  | .reelDescFail c r => (execReelDescFail_keeps s c r).legal
  | .crdGet c x w => (execCrdGet_keeps s c x w).legal
  | .crdWait c x w => (execCrdWait_keeps s c x w).legal
  | .crdGive c x w => (execCrdGive_keeps s c x w).legal
  | .startA c v => (execStartA_keeps s c v).legal
  | .startB c v => (execStartB_keeps s c v).legal
  | .stopA c v => (execStopA_keeps s c v).legal
  | .stopB c v => (execStopB_keeps s c v).legal
  | .seqPcWrite c x v => (execSeqPcWrite_keeps s c x v).legal
  | .seqReelRingWrite c r v => (execSeqReelRingWrite_keeps s c r v).legal
  | .seqCreditCapWrite c v => (execSeqCreditCapWrite_keeps s c v).legal
  | .seqArbWrite c v => (execSeqArbWrite_keeps s c v).legal
  | .reelResumeFlush c r v => (execReelResumeFlush_keeps s c r v).legal
  | .reelResumeSkip c r v => (execReelResumeSkip_keeps s c r v).legal
  | .creditDeal k => (execCreditDeal_keeps s k).legal
  | .arbGrant c => (execArbGrant_keeps s c).legal
  | .tileStart c e => (execTileStart_keeps s c e).legal
  | .tileComplete c fail residue => (execTileComplete_keeps s c fail residue).legal
  | .spillStart c => (execSpillStart_keeps s c).legal
  | .spillComplete c fail residue => (execSpillComplete_keeps s c fail residue).legal
  | .arrChkTimerExpiry c => (execArrChkTimerExpiry_keeps s c).legal
  | .arrayAccessFail c seq write addr => (execArrayAccessFail_keeps s c seq write addr).legal
  | .arrFwd c x m w => (execArrFwd_keeps s c x m w).legal
  | .arrIg c x m w => (execArrIg_keeps s c x m w).legal
  | .arrWg c x m w => (execArrWg_keeps s c x m w).legal
  | .arrDist c x m w => (execArrDist_keeps s c x m w).legal
  | .arrSpill c x m w => (execArrSpill_keeps s c x m w).legal
  | .forceCheck c v => (execForceCheck_keeps s c v).legal
  | .arrInjectArm c v => (execArrInjectArm_keeps s c v).legal
  | .arrInjectCancel c v => (execArrInjectCancel_keeps s c v).legal
  | .arrTopkArm c v => (execArrTopkArm_keeps s c v).legal
  | .corProj c x w => (execCorProj_keeps s c x w).legal
  | .corExpand c x w => (execCorExpand_keeps s c x w).legal
  | .corOpComplete c e mismatch => (execCorOpComplete_keeps s c e mismatch).legal
  | .watchNorm c x w => (execWatchNorm_keeps s c x w).legal
  | .watchClose c x w => (execWatchClose_keeps s c x w).legal
  | .watchLoad c x w => (execWatchLoad_keeps s c x w).legal
  | .watchVerdict c x w => (execWatchVerdict_keeps s c x w).legal
  | .watchStep c x w => (execWatchStep_keeps s c x w).legal
  | .watchMerge k => (execWatchMerge_keeps s k).legal
  | .watchBaseWrite c hi v => (execWatchBaseWrite_keeps s c hi v).legal
  | .vadd c x w => (execVadd_keeps s c x w).legal
  | .vsub c x w => (execVsub_keeps s c x w).legal
  | .vmul c x w => (execVmul_keeps s c x w).legal
  | .vmin c x w => (execVmin_keeps s c x w).legal
  | .vmax c x w => (execVmax_keeps s c x w).legal
  | .vabs c x w => (execVabs_keeps s c x w).legal
  | .vand c x w => (execVand_keeps s c x w).legal
  | .vor c x w => (execVor_keeps s c x w).legal
  | .vxor c x w => (execVxor_keeps s c x w).legal
  | .vandn c x w => (execVandn_keeps s c x w).legal
  | .vshl c x w => (execVshl_keeps s c x w).legal
  | .vshr c x w => (execVshr_keeps s c x w).legal
  | .vsra c x w => (execVsra_keeps s c x w).legal
  | .vpopc c x w => (execVpopc_keeps s c x w).legal
  | .vfadd c x w => (execVfadd_keeps s c x w).legal
  | .vfsub c x w => (execVfsub_keeps s c x w).legal
  | .vfmul c x w => (execVfmul_keeps s c x w).legal
  | .vfma c x w => (execVfma_keeps s c x w).legal
  | .vfmin c x w => (execVfmin_keeps s c x w).legal
  | .vfmax c x w => (execVfmax_keeps s c x w).legal
  | .vfabs c x w => (execVfabs_keeps s c x w).legal
  | .vfneg c x w => (execVfneg_keeps s c x w).legal
  | .vcvt c x w => (execVcvt_keeps s c x w).legal
  | .vexp2 c x w => (execVexp2_keeps s c x w).legal
  | .vexp c x w => (execVexp_keeps s c x w).legal
  | .vlog2 c x w => (execVlog2_keeps s c x w).legal
  | .vln c x w => (execVln_keeps s c x w).legal
  | .vrcp c x w => (execVrcp_keeps s c x w).legal
  | .vsqrt c x w => (execVsqrt_keeps s c x w).legal
  | .vrsqrt c x w => (execVrsqrt_keeps s c x w).legal
  | .vdiv c x w => (execVdiv_keeps s c x w).legal
  | .vtanh c x w => (execVtanh_keeps s c x w).legal
  | .vsigm c x w => (execVsigm_keeps s c x w).legal
  | .verf c x w => (execVerf_keeps s c x w).legal
  | .vsinpi c x w => (execVsinpi_keeps s c x w).legal
  | .vcospi c x w => (execVcospi_keeps s c x w).legal
  | .vredSum c x w => (execVredSum_keeps s c x w).legal
  | .vredProd c x w => (execVredProd_keeps s c x w).legal
  | .vredMax c x w => (execVredMax_keeps s c x w).legal
  | .vredMin c x w => (execVredMin_keeps s c x w).legal
  | .vredCount c x w => (execVredCount_keeps s c x w).legal
  | .vredMean c x w => (execVredMean_keeps s c x w).legal
  | .vredSumsq c x w => (execVredSumsq_keeps s c x w).legal
  | .vtredSum c x w => (execVtredSum_keeps s c x w).legal
  | .vtredSumsq c x w => (execVtredSumsq_keeps s c x w).legal
  | .vtredMax c x w => (execVtredMax_keeps s c x w).legal
  | .vtredMin c x w => (execVtredMin_keeps s c x w).legal
  | .vsmax c x w => (execVsmax_keeps s c x w).legal
  | .vtopk c x w => (execVtopk_keeps s c x w).legal
  | .vcmpk c x w => (execVcmpk_keeps s c x w).legal
  | .vquant c x w => (execVquant_keeps s c x w).legal
  | .vdeq c x w => (execVdeq_keeps s c x w).legal
  | .vld c x w => (execVld_keeps s c x w).legal
  | .vst c x w => (execVst_keeps s c x w).legal
  | .vmov c x w => (execVmov_keeps s c x w).legal
  | .vfill c x w => (execVfill_keeps s c x w).legal
  | .vtransp c x w => (execVtransp_keeps s c x w).legal
  | .vspl c x w => (execVspl_keeps s c x w).legal
  | .vsplexp c x w => (execVsplexp_keeps s c x w).legal
  | .vflags c x w => (execVflags_keeps s c x w).legal
  | .vecInstrStart c e => (execVecInstrStart_keeps s c e).legal
  | .vecInstrComplete c id mismatch => (execVecInstrComplete_keeps s c id mismatch).legal
  | .vecAccessFail c id addr => (execVecAccessFail_keeps s c id addr).legal
  | .vecSrStateWrite c v => (execVecSrStateWrite_keeps s c v).legal
  | .clear c v => (execClear_keeps s c v).legal
  | .vecClearDone c => (execVecClearDone_keeps s c).legal
  | .loftSpillDone c entry => (execLoftSpillDone_keeps s c entry).legal
  | .loftRecallStart c => (execLoftRecallStart_keeps s c).legal
  | .loftRecallDone c entry => (execLoftRecallDone_keeps s c entry).legal
  | .loftRelease c v => (execLoftRelease_keeps s c v).legal
  | .loftReleaseAll c v => (execLoftReleaseAll_keeps s c v).legal
  | .loftConfigWrite c off v => (execLoftConfigWrite_keeps s c off v).legal
  | .stackRequest st q => (execStackRequest_keeps s st q).legal
  | .stackRequestService st bank ups => (execStackRequestService_keeps s st bank ups).legal
  | .bankOpen st k => (execBankOpen_keeps s st k).legal
  | .stackWriteAck st k => (execStackWriteAck_keeps s st k).legal
  | .stackLinkFrame st toStack send f ups => (execStackLinkFrame_keeps s st toStack send f ups).legal
  | .stackLinkResendTimeout st toStack => (execStackLinkResendTimeout_keeps s st toStack).legal
  | .stackLinkRetrainDone st ok => (execStackLinkRetrainDone_keeps s st ok).legal
  | .scrubRead st ups => (execScrubRead_keeps s st ups).legal
  | .refresh st bank => (execRefresh_keeps s st bank).legal
  | .selfRefreshEntry st => (execSelfRefreshEntry_keeps s st).legal
  | .staleNotice k => (execStaleNotice_keeps s k).legal
  | .guardRecopyDone c guard => (execGuardRecopyDone_keeps s c guard).legal
  | .load st v => (execLoad_keeps s st v).legal
  | .balLoadDone st => (execBalLoadDone_keeps s st).legal
  | .openSegment c r => (execOpenSegment_keeps s c r).legal
  | .runSegment c r residue => (execRunSegment_keeps s c r residue).legal
  | .listSegment c r residue => (execListSegment_keeps s c r residue).legal
  | .balSegmentForwarded st residue => (execBalSegmentForwarded_keeps s st residue).legal
  | .balSegmentComplete id => (execBalSegmentComplete_keeps s id).legal
  | .balStepWrite st v => (execBalStepWrite_keeps s st v).legal
  | .balSnapMapWrite st v => (execBalSnapMapWrite_keeps s st v).legal
  | .arm st v => (execArm_keeps s st v).legal
  | .snapSweep st => (execSnapSweep_keeps s st).legal
  | .knArrive c x w => (execKnArrive_keeps s c x w).legal
  | .knWait c x w => (execKnWait_keeps s c x w).legal
  | .knGive c x w => (execKnGive_keeps s c x w).legal
  | .knTake c x w => (execKnTake_keeps s c x w).legal
  | .knSet c x w => (execKnSet_keeps s c x w).legal
  | .knStore c x w => (execKnStore_keeps s c x w).legal
  | .knRead c x w => (execKnRead_keeps s c x w).legal
  | .knAbort c x w => (execKnAbort_keeps s c x w).legal
  | .knotOpAtHome ks e => execKnotOpAtHome_legal s ks e
  | .knotReply m => execKnotReply_legal s m
  | .treeArrive k => (execTreeArrive_keeps s k).legal
  | .treeDone k => (execTreeDone_keeps s k).legal
  | .treeAbort k => (execTreeAbort_keeps s k).legal
  | .heartbeat tether m => execHeartbeat_legal s tether m
  | .bridleHeartbeatTimer tether n => (execBridleHeartbeatTimer_keeps s tether n).legal
  | .bridleLinkLost tether n => execBridleLinkLost_legal s tether n
  | .eventMessage k => (execEventMessage_keeps s k).legal
  | .knotEntryStage w knot word v => (execKnotEntryStage_keeps s w knot word v).legal
  | .knotEntryReplace w knot v => (execKnotEntryReplace_keeps s w knot v).legal
  | .kntOpArrive g knot => (execKntOpArrive_keeps s g knot).legal
  | .kntOpWait g knot => (execKntOpWait_keeps s g knot).legal
  | .kntOpGive g knot => (execKntOpGive_keeps s g knot).legal
  | .kntOpTake g knot => (execKntOpTake_keeps s g knot).legal
  | .kntOpSet g knot => (execKntOpSet_keeps s g knot).legal
  | .kntOpStore g knot => (execKntOpStore_keeps s g knot).legal
  | .kntOpRead g knot => (execKntOpRead_keeps s g knot).legal
  | .kntOpAbort g knot => (execKntOpAbort_keeps s g knot).legal
  | .kntNotifyWrite n v => (execKntNotifyWrite_keeps s n v).legal
  | .bridle p h b crc => (execBridle_keeps s p h b crc).legal
  | .hello p h b => (execHello_keeps s p h b).legal
  | .helloReply p h b => (execHelloReply_keeps s p h b).legal
  | .confirm p h b => (execConfirm_keeps s p h b).legal
  | .readReq p h b crc => (execReadReq_keeps s p h b crc).legal
  | .readData p h b crc => (execReadData_keeps s p h b crc).legal
  | .writeHdr p h b crc => (execWriteHdr_keeps s p h b crc).legal
  | .writeData p h b crc => (execWriteData_keeps s p h b crc).legal
  | .writeAck p h b crc => (execWriteAck_keeps s p h b crc).legal
  | .reduceHdr p h b crc => (execReduceHdr_keeps s p h b crc).legal
  | .reduceData p h b crc => (execReduceData_keeps s p h b crc).legal
  | .link p h b payload crc => (execLink_keeps s p h b payload crc).legal
  | .tetherResendTimeout p => (execTetherResendTimeout_keeps s p).legal
  | .linkBlockTimer p => (execLinkBlockTimer_keeps s p).legal
  | .tetherTrained p => (execTetherTrained_keeps s p).legal
  | .pmaLockLost p => (execPmaLockLost_keeps s p).legal
  | .tetherRetrainDone p ok long => (execTetherRetrainDone_keeps s p ok long).legal
  | .peerPortSilence p => (execPeerPortSilence_keeps s p).legal
  | .peerWatchTimeout dev => (execPeerWatchTimeout_keeps s dev).legal
  | .peerHeartbeatTimer => (execPeerHeartbeatTimer_keeps s).legal
  | .handshakeRetry p => (execHandshakeRetry_keeps s p).legal
  | .tthRetrain p v => (execTthRetrain_keeps s p v).legal
  | .tthDownWrite p v => (execTthDownWrite_keeps s p v).legal
  | .peerEntryStage dev word v => (execPeerEntryStage_keeps s dev word v).legal
  | .peerEntryReplace dev v => (execPeerEntryReplace_keeps s dev v).legal
  | .tthRedArm v => (execTthRedArm_keeps s v).legal
  | .portAdderTake bucket part => (execPortAdderTake_keeps s bucket part).legal
  | .portAdderDone bucket part residue => (execPortAdderDone_keeps s bucket part residue).legal
  | .ctxOpen v => (execCtxOpen_keeps s v).legal
  | .ctxClose v => (execCtxClose_keeps s v).legal
  | .ctxDrainEnd ctx => (execCtxDrainEnd_keeps s ctx).legal
  | .ctxRangeWrite ctx v => (execCtxRangeWrite_keeps s ctx v).legal
  | .ctxGenWrite ctx v => (execCtxGenWrite_keeps s ctx v).legal
  | .envelopeInterval x => execEnvelopeInterval_legal s x
  | .coreReport k => (execCoreReport_keeps s k).legal
  | .creditReturn k => (execCreditReturn_keeps s k).legal
  | .burnerStep => (execBurnerStep_keeps s).legal
  | .railRaiseTimeout => (execRailRaiseTimeout_keeps s).legal
  | .sagWarning rail mv => (execSagWarning_keeps s rail mv).legal
  | .supplySagReset rail mv => execSupplySagReset_legal s rail mv
  | .thermalTrip logic n celsius => execThermalTrip_legal s logic n celsius
  | .envArm v => (execEnvArm_keeps s v).legal
  | .envPaceWrite v => (execEnvPaceWrite_keeps s v).legal
  | .slackNotice k => (execSlackNotice_keeps s k).legal
  | .resumeNotice k => (execResumeNotice_keeps s k).legal
  | .noticeExpiry src => (execNoticeExpiry_keeps s src).legal
  | .keelTicksRead w => (execKeelTicksRead_keeps s w).legal
  | .envWsEnergyRead w => (execEnvWsEnergyRead_keeps s w).legal
  | .coreSleep c => (execCoreSleep_keeps s c).legal
  | .coreWake c => (execCoreWake_keeps s c).legal
  | .apertureWrite w off v => (execApertureWrite_keeps s w off v).legal
  | .verify w => (execVerify_keeps s w).legal
  | .rigVerifyDone => (execRigVerifyDone_keeps s).legal
  | .commit w => (execCommit_keeps s w).legal
  | .rigApply => execRigApply_legal s
  | .rigQuietTimeout => (execRigQuietTimeout_keeps s).legal
  | .abort w => (execAbort_keeps s w).legal
  | .flashImageLoaded img fw => (execFlashImageLoaded_keeps s img fw).legal
  | .quote w => (execQuote_keeps s w).legal
  | .extend w mr => (execExtend_keeps s w mr).legal
  | .challenge w => (execChallenge_keeps s w).legal
  | .token w => (execToken_keeps s w).legal
  | .firmware w => (execFirmware_keeps s w).legal
  | .debugClose w => (execDebugClose_keeps s w).legal
  | .anchorOpDone badSig => execAnchorOpDone_legal s badSig
  | .discover addr port nonce => (execDiscover_keeps s addr port nonce).legal
  | .announceTimer => (execAnnounceTimer_keeps s).legal
  | .attest addr port nonce start => (execAttest_keeps s addr port nonce start).legal
  | .hostHello addr port body => (execHostHello_keeps s addr port body).legal
  | .hostConfirm sess body => (execHostConfirm_keeps s sess body).legal
  | .hostConfirmTimeout sess => (execHostConfirmTimeout_keeps s sess).legal
  | .rd32 h b => execRd32_legal s h b
  | .wr32 h b => execWr32_legal s h b
  | .write h b => execWrite_legal s h b
  | .read h b => execRead_legal s h b
  | .knot h b => execKnot_legal s h b
  | .state h b => execState_legal s h b
  | .hostCmdStart sess id => execHostCmdStart_legal s sess id
  | .hostData h head data tag => (execHostData_keeps s h head data tag).legal
  | .ackonly d => (execAckonly_keeps s d).legal
  | .hostClose d => (execHostClose_keeps s d).legal
  | .hostAckTimer sess => (execHostAckTimer_keeps s sess).legal
  | .hostResendTimeout sess => (execHostResendTimeout_keeps s sess).legal
  | .hostSessionIdle sess => (execHostSessionIdle_keeps s sess).legal
  | .neighbourSolicitation src target dad => (execNeighbourSolicitation_keeps s src target dad).legal
  | .neighbourAdvertisement target => (execNeighbourAdvertisement_keeps s target).legal
  | .echoRequest src data => (execEchoRequest_keeps s src data).legal
  | .pause quanta priority => (execPause_keeps s quanta priority).legal
  | .stallWatchdogExpiry c => (execStallWatchdogExpiry_keeps s c).legal
  | .waitWatchdogExpiry c x => (execWaitWatchdogExpiry_keeps s c x).legal
  | .gonWatchdogExpiry g => (execGonWatchdogExpiry_keeps s g).legal
  | .ripPet g => (execRipPet_keeps s g).legal
  | .spareReady c ok => (execSpareReady_keeps s c ok).legal
  | .burnerLockLost mesh n => (execBurnerLockLost_keeps s mesh n).legal
  | .keelVoteDisagree bit => execKeelVoteDisagree_legal s bit
  | .ripFenceReq v => (execRipFenceReq_keeps s v).legal
  | .ripDieReset v => (execRipDieReset_keeps s v).legal
  | .ripPkgReset v => execRipPkgReset_legal s v
  | .ripCodeClr v => (execRipCodeClr_keeps s v).legal
  | .ripEvtBaseWrite hi v => (execRipEvtBaseWrite_keeps s hi v).legal
  | .dieResetDone d failed badStacks => (execDieResetDone_keeps s d failed badStacks).legal
  | .railsGood seq v data => execRailsGood_legal s seq v data
  | .budget seq v data => (execBudget_keeps s seq v data).legal
  | .energy seq v data => (execEnergy_keeps s seq v data).legal
  | .setOk seq v data => (execSetOk_keeps s seq v data).legal
  | .alert seq v data => (execAlert_keeps s seq v data).legal
  | .rcReset seq v data => execRcReset_legal s seq v data
  | .rcStow seq v data => execRcStow_legal s seq v data
  | .statusTimer => (execStatusTimer_keeps s).legal
  | .rcRegisterRead w off => (execRcRegisterRead_keeps s w off).legal
  | .registerWrite w off v => execRegisterWrite_legal s w off v
  | .tetherBadBlock p h b payload crc => (execTetherBadBlock_keeps s p h b payload crc).legal
  | .badDatagram why => (execBadDatagram_keeps s why).legal
  | .rcBadFrame type seq v data => (execRcBadFrame_keeps s type seq v data).legal
  | .hostLinkDown => (execHostLinkDown_keeps s).legal

/-- Settles O5: an idle tick keeps a legal mode, and so does every command. -/
theorem everyStepKeepsALegalMode : Obligations.EveryStepKeepsALegalMode := by
  intro s t hs hstep
  unfold step at hstep
  split at hstep
  · cases hstep
    exact s.idleTick_legal hs
  next i rest _ => exact exec_keepsLegal i { s with pending := rest } t hstep hs

end Sys2Proof.Machine
end

section
/-! The device after reset (O6, O60), and KEEL_DEV_STATE (O59). -/

namespace Sys2Proof.Machine

/-! ### The windows of control space -/

/-- A read in the window of a tether port (R568). -/
theorem State.ctrlRead_portWindow (s : State) {p off : Nat} (hp : p < 12) (hoff : off < 0x10000) :
    s.ctrlRead (0x400000 + p * 0x10000 + off) = s.portRead p off := by
  have hdiv : (0x400000 + p * 0x10000 + off - 0x400000) / 0x10000 = p := by omega
  have hmod : (0x400000 + p * 0x10000 + off) % 0x10000 = off := by omega
  rw [State.ctrlRead, if_neg (by omega), if_neg (by omega), if_neg (by omega), if_neg (by omega), if_pos (by omega),
    hdiv, hmod]

/-- A read in the window of the tether unit above its ports (R568). -/
theorem State.ctrlRead_tethWindow (s : State) {off : Nat} (h : 0x4C0000 ≤ off) (hlt : off < 0x500000) :
    s.ctrlRead off = s.tethRead (off - 0x400000) := by
  rw [State.ctrlRead, if_neg (by omega), if_neg (by omega), if_neg (by omega), if_neg (by omega), if_neg (by omega),
    if_pos hlt]

/-- A read in the window of a stack (R568). -/
theorem State.ctrlRead_stkWindow (s : State) {t off : Nat} (ht : t < 16) (hoff : off < 0x100000) :
    s.ctrlRead (0x2000000 + t * 0x100000 + off) = s.stkRead t off := by
  have hdiv : (0x2000000 + t * 0x100000 + off - 0x2000000) / 0x100000 = t := by omega
  have hmod : (0x2000000 + t * 0x100000 + off) % 0x100000 = off := by omega
  rw [State.ctrlRead, if_neg (by omega), if_neg (by omega), if_neg (by omega), if_neg (by omega), if_neg (by omega),
    if_neg (by omega), if_neg (by omega), if_neg (by omega), if_neg (by omega), if_pos (by omega), hdiv, hmod]

/-- A read in the window of a core (R568). -/
theorem State.ctrlRead_coreWindow (s : State) {c off : Nat} (hoff : off < 0x100000) :
    s.ctrlRead (0x10000000 + c * 0x100000 + off) = s.coreRead c off := by
  have hdiv : (0x10000000 + c * 0x100000 + off - 0x10000000) / 0x100000 = c := by omega
  have hmod : (0x10000000 + c * 0x100000 + off) % 0x100000 = off := by omega
  rw [State.ctrlRead, if_neg (by omega), if_neg (by omega), if_neg (by omega), if_neg (by omega), if_neg (by omega),
    if_neg (by omega), if_neg (by omega), if_neg (by omega), if_neg (by omega), if_neg (by omega), hdiv, hmod]

/-- The word at offset w of the record of context c (R440). -/
def State.ctxRead (s : State) (c w : Nat) : Reading :=
  match w with
  | 0 => (s, (s.ctx c).drain)
  | 4 => (s, (s.ctx c).hi * 0x10000 + (s.ctx c).lo)
  | 8 => (s, (s.ctx c).stateWord)
  | _ => (s.updCtx c (fun x => { x with drops := 0 }), (s.ctx c).drops)

/-- A read of the record of a transfer context (R440). -/
theorem State.tethRead_ctx (s : State) {c w : Nat} (hc : c < 4096) (hw : w < 16) :
    s.tethRead (0xE0000 + 16 * c + w) = s.ctxRead c w := by
  have hdiv : (0xE0000 + 16 * c + w - 0xE0000) / 16 = c := by omega
  have hmod : (0xE0000 + 16 * c + w) % 16 = w := by omega
  unfold State.tethRead
  extract_lets t rc c' x
  have hc' : c' = c := hdiv
  have hx : x = s.ctx c := congrArg s.ctx hdiv
  rw [if_pos (by omega), hmod, hc', hx]
  rfl

theorem State.ctrlRead_ctx (s : State) {c w : Nat} (hc : c < 4096) (hw : w < 16) :
    s.ctrlRead (0x4E0000 + 16 * c + w) = s.ctxRead c w := by
  have hoff : 0x4E0000 + 16 * c + w - 0x400000 = 0xE0000 + 16 * c + w := by omega
  rw [State.ctrlRead_tethWindow _ (by omega) (by omega), hoff, State.tethRead_ctx _ hc hw]

/-! ### Registers after reset (chapter 18) -/

/-- After reset every port, stack and core is as its type's default. -/
theorem State.reset_port (p : Nat) : State.reset.port p = {} := rfl
theorem State.reset_stk (t : Nat) : State.reset.stk t = {} := rfl
theorem State.reset_core (c : Nat) : State.reset.core c = {} := rfl

theorem State.reset_portRead (p off : Nat) : (State.reset.portRead p off).2 = (State.reset.portRead 0 off).2 := by
  unfold State.portRead
  rw [State.reset_port p, State.reset_port 0]
  split <;> rfl

theorem State.reset_balRead (t off : Nat) : (State.reset.balRead t off).2 = (State.reset.balRead 0 off).2 := by
  unfold State.balRead
  rw [State.reset_stk t, State.reset_stk 0]
  split <;> rfl

theorem State.reset_stkRead (t off : Nat) : (State.reset.stkRead t off).2 = (State.reset.stkRead 0 off).2 := by
  unfold State.stkRead
  rw [State.reset_stk t, State.reset_stk 0]
  split
  case h_19 => exact State.reset_balRead t off
  all_goals rfl

theorem State.reset_seqRead (c off : Nat) : (State.reset.seqRead c off).2 = (State.reset.seqRead 0 off).2 := by
  unfold State.seqRead
  rw [State.reset_core c, State.reset_core 0]
  repeat' split
  all_goals rfl

theorem State.reset_arrRead (c off : Nat) : (State.reset.arrRead c off).2 = (State.reset.arrRead 0 off).2 := by
  unfold State.arrRead
  rw [State.reset_core c, State.reset_core 0]
  repeat' split
  all_goals rfl

theorem State.reset_vecRead (c off : Nat) : (State.reset.vecRead c off).2 = (State.reset.vecRead 0 off).2 := by
  unfold State.vecRead
  rw [State.reset_core c, State.reset_core 0]
  repeat' split
  all_goals rfl

theorem State.reset_coreRead (c off : Nat) : (State.reset.coreRead c off).2 = (State.reset.coreRead 0 off).2 := by
  unfold State.coreRead
  split
  · exact State.reset_seqRead c off
  · split
    · exact State.reset_arrRead c off
    · exact State.reset_vecRead c off

/-- After reset every context's record is as its type's default, but record 0xFFF is OPEN (R420). -/
theorem State.reset_ctx (c : Nat) : State.reset.ctx c = if c = 0xFFF then { state := .opened, gen := 0 } else {} := rfl

theorem State.reset_ctxRead (c : Nat) : ∀ r ∈ ctxResets, (State.reset.ctxRead c r.1).2 = r.2 := by
  simp only [ctxResets, List.forall_mem_cons, State.ctxRead, State.reset_ctx c]
  split <;> exact ⟨rfl, rfl, rfl, List.forall_mem_nil _⟩

theorem State.reset_ctxState (c : Nat) : (State.reset.ctxRead c 8).2 = if c = 0xFFF then 0x10000 else 0 := by
  change (State.reset.ctx c).stateWord = _
  rw [State.reset_ctx]
  split <;> rfl

/-- The registers of ports, contexts, stacks and cores stand within the sizes of their windows. -/
theorem resets_inWindow : (∀ r ∈ portResets, r.1 < 0x10000) ∧ (∀ r ∈ ctxResets, r.1 < 16)
    ∧ (∀ r ∈ stackResets, r.1 < 0x100000) ∧ ∀ r ∈ coreResets, r.1 < 0x100000 := by decide

/-- Settles O6. -/
theorem resetIsInALegalMode : Obligations.ResetIsInALegalMode := ⟨rfl, State.memOk_reset, rfl, rfl⟩

/-- Settles O60: the first port, stack and core are read, and every other one answers as the first. -/
theorem resetValuesOfRegisters : Obligations.ResetValuesOfRegisters := by
  obtain ⟨hport, hctx, hstk, hcore⟩ := resets_inWindow
  refine ⟨by decide, fun p hp r hr => ?_, fun c hc => ?_, fun t ht r hr => ?_, fun c hc r hr => ?_⟩
  · rw [State.ctrlRead_portWindow _ hp (hport r hr), State.reset_portRead]
    exact (show ∀ r ∈ portResets, (State.reset.portRead 0 r.1).2 = r.2 by decide) r hr
  · exact ⟨fun r hr => (congrArg Prod.snd (State.ctrlRead_ctx _ hc (hctx r hr))).trans (State.reset_ctxRead c r hr),
      (congrArg Prod.snd (State.ctrlRead_ctx _ hc (by decide))).trans (State.reset_ctxState c)⟩
  · rw [State.ctrlRead_stkWindow _ ht (hstk r hr), State.reset_stkRead]
    exact (show ∀ r ∈ stackResets, (State.reset.stkRead 0 r.1).2 = r.2 by decide) r hr
  · rw [State.ctrlRead_coreWindow _ (hcore r hr), State.reset_coreRead]
    exact (show ∀ r ∈ coreResets, (State.reset.coreRead 0 r.1).2 = r.2 by decide) r hr

/-! ### KEEL_DEV_STATE (R25) -/

theorem DevState.code_lt (d : DevState) : d.code < 5 := by cases d <;> decide

theorem DevState.code_injective {d e : DevState} (h : d.code = e.code) : d = e := by
  cases d <;> cases e <;> simp_all [DevState.code]

theorem State.ctrlRead_devState (s : State) : s.ctrlRead 0x100 = (s, s.devWord) := rfl

/-- KEEL_DEV_STATE is read-only: a write matches no branch of its window's write. -/
theorem State.ctrlWrite_devState (s : State) (w : Who) (v : Nat) : s.ctrlWrite w 0x100 v = s := rfl

/-- Two three-bit codes, the first at bit 8 and the second at bit 0. -/
theorem fld_codes {a b : Nat} (ha : a < 5) (hb : b < 5) : fld 2 0 (a * 256 + b) = b ∧ fld 10 8 (a * 256 + b) = a := by
  simp only [fld, Nat.shiftRight_eq_div_pow]
  omega

/-- Settles O59, from the equations of the register's read and write. -/
theorem deviceStateRegister : Obligations.DeviceStateRegister := by
  refine ⟨rfl, fun s => ⟨s.keel.state.code_lt, s.keel.target.code_lt, fun _ => DevState.code_injective, fun h => ?_⟩,
    fun w v s hup hw => ⟨exec_registerWrite_keelDomain hw hup rfl (State.ctrlWrite_devState _ w _), ?_⟩⟩
  · rw [State.devWord, h]
    omega
  · obtain ⟨hstate, htarget⟩ := fld_codes s.keel.target.code_lt s.keel.state.code_lt
    exact ⟨_, exec_rcRegisterRead_keelDomain hw hup s.ctrlRead_devState, rfl, hstate, htarget, rfl⟩

end Sys2Proof.Machine
end

section
/-! The requests of KEEL_STATE_REQ (O30), power-on, bring-up, land and the host link (O31). -/

namespace Sys2Proof.Machine

/-! ### What a request leaves alone in the anchor -/

/-- The anchor of t is that of s. -/
def State.SameAnc (s t : State) : Prop := t.anc = s.anc

@[simp] theorem State.sameAnc_iff (s t : State) : s.SameAnc t ↔ t.anc = s.anc := ⟨fun h => h, fun h => h⟩

@[simp] theorem State.anc_ite (c : Prop) [Decidable c] (s t : State) :
    (if c then s else t).anc = if c then s.anc else t.anc :=
  apply_ite State.anc c s t

@[simp] theorem State.anc_foldl {α : Type} {f : State → α → State} (h : ∀ (s : State) a, s.SameAnc (f s a)) (l : List α)
    (s : State) : (l.foldl f s).anc = s.anc := by
  induction l generalizing s with
  | nil => rfl
  | cons a l ih => rw [List.foldl_cons, ih]; exact h s a

@[simp] theorem State.sendRc_anc (s : State) (type value data) :
    (s.sendRc type value data).anc = s.anc := by simp [State.sendRc]

@[simp] theorem State.closeRec_anc (s : State) (t i) : (s.closeRec t i).anc = s.anc := by
  unfold State.closeRec
  split <;> simp

@[simp] theorem State.nextFseq_anc (s : State) (cls dst ctx) : (s.nextFseq cls dst ctx).2.anc = s.anc := rfl
@[simp] theorem State.sendBroadcast_anc (s : State) (msg) :
    (s.sendBroadcast msg).anc = s.anc := State.anc_foldl (fun s p => s.updPort_anc p _) _ _

@[simp] theorem State.writeCosts_anc (s : State) (p) : (s.writeCosts p).anc = s.anc := by
  refine State.anc_foldl (fun s l => ?_) _ _
  split <;> simp

@[simp] theorem State.requestMv_anc (s : State) (mv) : (s.requestMv mv).anc = s.anc := by simp [State.requestMv]
@[simp] theorem State.requestPt_anc (s : State) (p) : (s.requestPt p).anc = s.anc := by simp [State.requestPt]
@[simp] theorem State.setPhase_anc (s : State) (p) : (s.setPhase p).anc = s.anc := by simp [State.setPhase]
@[simp] theorem State.moveIdle_anc (s : State) : s.moveIdle.anc = s.anc := by simp [State.moveIdle]
@[simp] theorem State.abandonRaise_anc (s : State) : s.abandonRaise.anc = s.anc := by simp [State.abandonRaise]
@[simp] theorem State.moveBurners_anc (s : State) : s.moveBurners.anc = s.anc := by
  unfold State.moveBurners
  split <;> simp

@[simp] theorem State.moveLimits_anc (s : State) (ePkg hi lo) :
    (s.moveLimits ePkg hi lo).anc = s.anc := by simp [State.moveLimits]

@[simp] theorem State.openRec_anc (s : State) (t code limit) :
    (s.openRec t code limit).anc = s.anc := by simp [State.openRec]

@[simp] theorem State.mapOpen_anc (s : State) (f l) : (s.mapOpen f l).anc = s.anc := by
  induction l generalizing s with
  | nil => rfl
  | cons p l ih =>
    obtain ⟨b, i⟩ := p
    cases i <;> simp [State.mapOpen, ih]

@[simp] theorem State.records_anc (s : State) (t l) : (s.records t l).anc = s.anc := by
  induction l generalizing s t with
  | nil => simp [State.records]
  | cons p t ih =>
    unfold State.records
    split <;> simp [ih]

@[simp] theorem State.sendPace_anc (s : State) (type seq reason rate duration) :
    (s.sendPace type seq reason rate duration).anc = s.anc := by simp [State.sendPace]

@[simp] theorem State.notify_anc (s : State) (t) : (s.notify t).anc = s.anc := by
  unfold State.notify
  dsimp only
  repeat' split
  all_goals simp

@[simp] theorem State.sendDeals_anc (s : State) (share iseq l) : (s.sendDeals share iseq l).anc = s.anc := by
  induction l generalizing s share iseq with
  | nil => simp [State.sendDeals]
  | cons p t ih =>
    unfold State.sendDeals
    split <;> simp [ih]

@[simp] theorem State.deal_anc (s : State) (b ePkg spent) :
    (s.deal b ePkg spent).anc = s.anc := by simp [State.deal]

@[simp] theorem State.boundaryWork_anc (s : State) (b) :
    (s.boundaryWork b).anc = s.anc := by simp [State.boundaryWork]

@[simp] theorem State.boundaryLate_anc (s : State) : s.boundaryLate.anc = s.anc := by
  unfold State.boundaryLate
  split <;> simp

@[simp] theorem AncSt.extend_owner (a : AncSt) (mr kind serial fp digest) :
    (a.extend mr kind serial fp digest).owner = a.owner := by
  unfold AncSt.extend
  dsimp only
  split <;> rfl

/-- No operation of the anchor changes the owner when it starts. -/
@[simp] theorem State.ancPump_owner (s : State) (l) : (s.ancPump l).anc.owner = s.anc.owner := by
  induction l generalizing s with
  | nil => rfl
  | cons o l ih =>
    cases o with
    | extend => exact (ih _).trans (AncSt.extend_owner _ _ _ _ _ _)
    | _ => rfl

/-- The anchor alone changes when its queue moves on. -/
theorem State.ancPump_eq (s : State) (l) : s.ancPump l = { s with anc := (s.ancPump l).anc } := by
  induction l generalizing s with
  | nil => rfl
  | cons o l ih =>
    cases o with
    | extend => exact ih _
    | _ => rfl

/-! ### The transitions -/

theorem State.setDev_eq (s : State) (st tg) :
    s.setDev st tg = { s with keel := (s.setDev st tg).keel, env := (s.setDev st tg).env } := rfl

/-- Closing the throttle records changes the envelope alone, and no tick passes. -/
theorem State.closeRecs_eq (s : State) (l) : s.closeRecs l = { s with env := (s.closeRecs l).env } := by
  induction l generalizing s with
  | nil => rfl
  | cons p l ih =>
    obtain ⟨b, i⟩ := p
    cases i with
    | none => exact ih s
    | some i => exact ih _

theorem State.closeRecs_ticks (s : State) (l) : (s.closeRecs l).env.ticks = s.env.ticks := by
  induction l generalizing s with
  | nil => rfl
  | cons p l ih =>
    obtain ⟨b, i⟩ := p
    cases i with
    | none => exact ih s
    | some i => exact ih _

/-- What KEEL keeps: the queue, the owner key, the ripcord registers and the time (R26). -/
theorem State.enterKeel_eq (s : State) : s.enterKeel =
    { s.powerDown with keel := { s.keel with booting := false, stopped := false, state := .keel, target := .keel },
                       env := s.enterKeel.env } := by
  unfold State.enterKeel
  rw [State.closeRecs_eq]
  rfl

theorem State.enterKeel_ticks (s : State) : s.enterKeel.env.ticks = s.env.ticks := State.closeRecs_ticks _ _

theorem State.ancMoored_eq (s : State) : s.ancMoored = { s with anc := s.ancMoored.anc } := State.ancPump_eq _ _

theorem State.ancMoored_owner (s : State) : s.ancMoored.anc.owner = s.anc.owner := State.ancPump_owner _ _

/-- UNRIG loses the stacks, the tether unit and the live copy, and keeps the owner (R496, R502). -/
theorem State.unrig_loses (s : State) :
    s.unrig.stks = [] ∧ s.unrig.teth = {} ∧ s.unrig.rig.live = {} ∧ s.unrig.anc.owner = s.anc.owner := by
  have howner : s.unrig.anc.owner = s.anc.owner :=
    (State.ancMoored_owner _).trans (congrArg AncSt.owner s.boundaryLate_anc)
  refine ⟨?_, ?_, ?_, howner⟩
  all_goals
    rw [State.unrig, State.setDev_eq, State.ancMoored_eq]

/-- STOW loses the same, and keeps the owner (R26, R502). -/
theorem State.enterKeel_loses (s : State) :
    s.enterKeel.stks = [] ∧ s.enterKeel.teth = {} ∧ s.enterKeel.rig.live = {} ∧ s.enterKeel.anc.owner = s.anc.owner := by
  rw [State.enterKeel_eq]
  exact ⟨rfl, rfl, rfl, rfl⟩

/-! ### Requests -/

/-- The decision of a request (R28, R29). -/
def State.decided (s : State) (q : Nat) : State :=
  s.updKeel (fun k => { k with resDone := true, resTo := q, resStatus := if s.reqOk q then 0 else 2 })

theorem State.request_refused {s : State} {q : Nat} (h : s.reqOk q = false) : s.request q = s.decided q := by
  simp [State.request, State.decided, h]

theorem State.request_accepted {s : State} {q : Nat} (h : s.reqOk q = true) : s.request q = (s.decided q).reqGo q := by
  simp [State.request, State.decided, h]

/-- A request is accepted where R27 gives a transition and none is in progress. -/
theorem State.reqOk_iff (s : State) {q : Nat} (hq : q ∈ requestRows.map Prod.snd) :
    s.reqOk q = (if s.keel.target = s.keel.state then transition s.keel.state q else none).isSome := by
  simp only [requestRows, List.map_cons, List.map_nil, List.mem_cons, List.not_mem_nil, or_false] at hq
  unfold State.reqOk
  generalize s.keel.state = st, s.keel.target = tg
  rcases hq with rfl | rfl | rfl | rfl <;> cases st <;> cases tg <;> rfl

theorem exec_requestRow {s : State} {w : Who} (hup : s.ctrlUp = true) (hw : s.whoOk w = true) :
    ∀ r ∈ requestRows, exec (r.1 w) s = .next (s.request r.2) := by
  have hgo (q : Nat) : (Host.Outcome.next (if s.ctrlUp && s.whoOk w then s.request q else s) :
      Host.Outcome State Fault Refusal) = .next (s.request q) := by simp [hup, hw]
  simp only [requestRows, List.forall_mem_cons]
  exact ⟨hgo 1, hgo 2, hgo 3, hgo 4, List.forall_mem_nil _⟩

/-- An accepted request: where it leads, and what it loses or leaves alone. -/
theorem State.request_transition {s : State} {q : Nat} {p : DevState × DevState} (hok : s.reqOk q = true)
    (hp : transition s.keel.state q = some p) :
    (s.request q).keel = { s.keel with state := p.1, target := p.2, resDone := true, resTo := q, resStatus := 0,
                                       booting := (s.request q).keel.booting, stopped := (s.request q).keel.stopped }
      ∧ (3 ≤ q → s.request q = { s with keel := (s.request q).keel, env := (s.request q).env })
      ∧ (q ≤ 2 → (s.request q).stks = [] ∧ (s.request q).teth = {} ∧ (s.request q).rig.live = {}
          ∧ (s.request q).anc.owner = s.anc.owner) := by
  have hst : (s.decided q).keel = { s.keel with resDone := true, resTo := q, resStatus := 0 } := by
    simp [State.decided, State.updKeel, hok]
  rw [State.request_accepted hok]
  unfold transition at hp
  split at hp <;> cases hp
  · refine ⟨?_, fun h => absurd h (by decide), fun _ => (s.decided 1).enterKeel_loses⟩
    rw [State.reqGo, State.enterKeel_eq, hst]
  · refine ⟨?_, fun h => absurd h (by decide), fun _ => (s.decided 2).unrig_loses⟩
    rw [State.reqGo, State.unrig_keel, hst]
  · refine ⟨?_, fun _ => rfl, fun h => absurd h (by decide)⟩
    rw [State.reqGo, State.setDev_keel, hst]
  · refine ⟨?_, fun _ => rfl, fun h => absurd h (by decide)⟩
    rw [show (s.decided 4).reqGo 4 = (s.decided 4).setDev .aloft .aloft from rfl, State.setDev_keel, hst]

/-- A frame of the board that has no effect, and is not the last one again. -/
theorem State.board_id {s : State} {seq status : Nat} (hoff : s.keel.state ≠ .off) (hnew : s.env.boardSeq ≠ some (seq % 256)) :
    s.board seq status id = s.acked (seq % 256) status := by
  unfold State.board
  dsimp only
  split
  next h => exact absurd h hoff
  next => rw [if_neg hnew]; rfl

/-- Settles O30: the four rows are requests, decided by R27's table. -/
theorem stateRequests : Obligations.StateRequests := by
  intro s
  refine ⟨fun r hr w hup hw => ⟨_, exec_requestRow hup hw r hr, ?_⟩, fun seq v d hoff hnew hmode => ?_⟩
  · have hiff := s.reqOk_iff (List.mem_map_of_mem hr)
    cases hp : (if s.keel.target = s.keel.state then transition s.keel.state r.2 else none) with
    | none =>
      have hbad : s.reqOk r.2 = false := by rw [hiff, hp]; rfl
      rw [State.request_refused hbad]
      exact ⟨rfl, rfl, by simp [State.decided, State.updKeel, hbad], rfl, rfl, rfl⟩
    | some p =>
      have hok : s.reqOk r.2 = true := by rw [hiff, hp]; rfl
      obtain ⟨hkeel, hthree, htwo⟩ := State.request_transition hok (Option.ite_none_right_eq_some.mp hp).2
      rw [hkeel]
      exact ⟨rfl, rfl, rfl, rfl, rfl, fun h => (hthree h).trans (by rw [← hkeel]), htwo⟩
  · have hstow : ¬ (s.keel.state = .moored ∧ s.keel.target = .moored) := by tauto
    change Host.Outcome.next (if _ then _ else _) = _
    rw [if_neg hstow, State.board_id hoff hnew]

end Sys2Proof.Machine
end

section
/-! Power-on, the boot ROM, bring-up, land and the host link (O31). -/

namespace Sys2Proof.Machine

/-! ### Package resets (R30, R558) -/

/-- The code latched of a fault of package scope: the first one since RIP_CODE was cleared, or of the same tick (R558). -/
theorem State.latch_first {s : State} {pkg : Bool} {code : Nat} (h : s.rip.code = 0) : (s.latch pkg code).rip.code = code := by
  simp [State.latch, h]

theorem State.latch_later {s : State} {pkg : Bool} {code : Nat} (h : s.rip.code ≠ 0) (hat : s.rip.codeAt ≠ some s.env.ticks) :
    (s.latch pkg code).rip.code = s.rip.code ∧ (s.latch pkg code).rip.more = true := by
  simp [State.latch, h, hat]

theorem State.closeRecs_rip (s : State) (l) : (s.closeRecs l).rip = s.rip := by rw [State.closeRecs_eq]

/-- A package reset keeps the owner and the time, and of the ripcord registers what was latched. -/
theorem State.pkgReset_resetTo (s : State) (code : Nat) : s.ResetTo (s.pkgReset code) code := by
  have hticks : (s.pkgReset code).env.ticks = s.env.ticks := (State.enterKeel_ticks _).trans (State.closeRecs_ticks _ _)
  have hrip : (s.pkgReset code).rip.code = (s.latch true code).rip.code
      ∧ (s.pkgReset code).rip.more = (s.latch true code).rip.more := by
    rw [State.pkgReset, State.enterKeel_eq, State.closeRecs_eq]
    exact ⟨rfl, rfl⟩
  have hanc : (s.pkgReset code).anc.owner = s.anc.owner := by
    rw [State.pkgReset, State.enterKeel_eq, State.closeRecs_eq]
    rfl
  rw [State.ResetTo, hticks, hanc, hrip.1, hrip.2]
  have heq : s.pkgReset code = _ := State.enterKeel_eq _
  exact ⟨congrArg (·.keel.state) heq, congrArg (·.keel.target) heq, congrArg State.stks heq, congrArg State.teth heq,
    congrArg State.knot heq, congrArg State.rig heq, rfl, rfl, State.latch_first, State.latch_later⟩

theorem State.pkgFault_resetTo (s : State) (code : Nat) : s.ResetTo (s.pkgFault code) code :=
  State.pkgReset_resetTo (s.report code) code

/-! ### The boot ROM (R498, R499) -/

/-- The first extend of an empty log leaves one record. -/
theorem AncSt.extend_log_length (a : AncSt) (mr kind serial fp digest) (h : a.log = []) :
    (a.extend mr kind serial fp digest).log.length = 1 := by
  simp [AncSt.extend, h]

theorem State.bootAnchor_eq (s : State) : s.bootAnchor = { s with anc := s.bootAnchor.anc } := rfl

theorem State.bootAnchor_log (s : State) : s.bootAnchor.anc.log.length = 1 := AncSt.extend_log_length _ _ _ _ _ _ rfl

theorem State.bootAnchor_owner (s : State) : s.bootAnchor.anc.owner = s.anc.owner := AncSt.extend_owner _ _ _ _ _ _

theorem exec_bootRomComplete_passed {s : State} (gon0 : Bool) (hst : s.keel.state = .keel) (hb : s.keel.booting = true) :
    ∃ t, exec (.bootRomComplete true true true gon0) s = .next t ∧ t.keel.state = .moored
      ∧ t.keel.target = .moored ∧ t.keel.booting = false ∧ t.anc = s.bootAnchor.anc
      ∧ t.host.link = .training ∧ t.stks = s.stks ∧ t.cores = s.cores ∧ (gon0 = true → (t.gon 0).mode = 1) := by
  have h : s.keel.state = .keel ∧ s.keel.booting := ⟨hst, hb⟩
  cases gon0 with
  | true =>
    refine ⟨_, congrArg Host.Outcome.next (if_pos h), rfl, rfl, rfl, rfl, rfl, rfl, rfl, fun _ => ?_⟩
    show ((State.updGon _ 0 (fun g => { g with mode := 1 })).gon 0).mode = 1
    rw [State.gon_updGon]
  | false => exact ⟨_, congrArg Host.Outcome.next (if_pos h), rfl, rfl, rfl, rfl, rfl, rfl, rfl, nofun⟩

/-- A failed test stops the rise in KEEL, with its code latched. -/
theorem State.bootStop_stops (s : State) (cause : Nat) :
    (s.bootStop cause).keel.state = .keel ∧ (s.bootStop cause).keel.target = .keel ∧ (s.bootStop cause).keel.stopped = true
      ∧ (s.bootStop cause).keel.booting = false ∧ (s.rip.code = 0 → (s.bootStop cause).rip.code = ripCode 1 1 cause) :=
  ⟨rfl, rfl, rfl, rfl, fun h => State.latch_first (s := s.report (ripCode 1 1 cause)) h⟩

theorem exec_bootRomComplete_failed {s : State} {kat puf entropy : Bool} (gon0 : Bool) (hst : s.keel.state = .keel)
    (hb : s.keel.booting = true) (h : (kat && puf && entropy) = false) :
    exec (.bootRomComplete kat puf entropy gon0) s
      = .next (s.bootStop (if kat then (if entropy then 0x0102 else 0x0103) else 0x0101)) := by
  have hbooting : s.keel.state = .keel ∧ s.keel.booting := ⟨hst, hb⟩
  refine congrArg Host.Outcome.next ((if_pos hbooting).trans ?_)
  cases kat with
  | false => rfl
  | true =>
    cases entropy with
    | false => rfl
    | true =>
      cases puf with
      | false => rfl
      | true => cases h

/-! ### Bring-up (R494) -/

/-- A stack after its training: in FAULT where it failed, and otherwise ready, with nothing stored (R306, R494). -/
def Stack.Trained (t : Stack) (bad : List Nat) (i : Nat) : Prop :=
  t.state = (if bad.contains i then .fault else .ready) ∧ (bad.contains i = false → t.mem = [])

theorem State.stk_report (s : State) (code i : Nat) : (s.report code).stk i = s.stk i := rfl

theorem State.stackTrained_trained (s : State) (bad : List Nat) (st : Nat) :
    ((s.stackTrained bad st).stk st).Trained bad st := by
  unfold State.stackTrained Stack.Trained
  cases h : bad.contains st with
  | true =>
    rw [if_pos rfl, State.stk_report, State.stk_updStk]
    exact ⟨rfl, nofun⟩
  | false =>
    rw [if_neg Bool.false_ne_true, State.stk_updStk]
    exact ⟨rfl, fun _ => rfl⟩

theorem State.stackTrained_other (s : State) (bad : List Nat) {st i : Nat} (h : i ≠ st) :
    (s.stackTrained bad st).stk i = s.stk i := by
  unfold State.stackTrained
  split
  · rw [State.stk_report, State.stk_updStk_other _ _ _ h]
  · exact State.stk_updStk_other _ _ _ h

/-- Every stack of a list is trained once its turn has come. -/
theorem State.foldl_stackTrained (bad : List Nat) (l : List Nat) (s : State) {i : Nat} (h : i ∈ l ∨ (s.stk i).Trained bad i) :
    ((l.foldl (fun s st => s.stackTrained bad st) s).stk i).Trained bad i := by
  induction l generalizing s with
  | nil => exact h.resolve_left List.not_mem_nil
  | cons st l ih =>
    refine ih _ ?_
    by_cases hi : i = st
    · exact .inr (hi ▸ s.stackTrained_trained bad st)
    · rw [State.stackTrained_other s bad hi]
      exact h.imp_left fun hmem => (List.mem_cons.mp hmem).resolve_left hi

theorem State.stackTrained_rig (s : State) (bad st) : (s.stackTrained bad st).rig = s.rig := by
  unfold State.stackTrained
  split <;> rfl

theorem State.foldl_stackTrained_rig (bad : List Nat) (l : List Nat) (s : State) :
    (l.foldl (fun s st => s.stackTrained bad st) s).rig = s.rig := by
  induction l generalizing s with
  | nil => rfl
  | cons st l ih => exact (ih _).trans (s.stackTrained_rig bad st)

theorem State.foldl_updGon_eq (f : Gon → Gon) (l : List Nat) (s : State) :
    l.foldl (fun s g => s.updGon g f) s = { s with gons := (l.foldl (fun s g => s.updGon g f) s).gons } := by
  induction l generalizing s with
  | nil => rfl
  | cons g l ih => exact ih _

theorem State.waitGons_eq (s : State) : s.waitGons = { s with gons := s.waitGons.gons } := State.foldl_updGon_eq _ _ s

/-- Cores held asleep are all that changes. -/
theorem State.holdCores_eq (s : State) (l) : s.holdCores l = { s with cores := (s.holdCores l).cores } := by
  induction l generalizing s with
  | nil => rfl
  | cons p l ih =>
    obtain ⟨i, c⟩ := p
    rw [State.holdCores]
    split
    · exact ih s
    · exact ih _

/-- The stacks and the live configuration at the end of bring-up, before the firmware in flash is taken. -/
theorem State.reachRigged_stk {s : State} (bad : List Nat) (hflash : s.rig.flashOk = false) {st : Nat} (hst : st < 16) :
    ((s.reachRigged bad).stk st).Trained bad st := by
  have hnone (t : State) (h : t.rig.flashOk = false) : t.flashFirmware = t := by simp [State.flashFirmware, h]
  have htrained := State.foldl_stackTrained bad (List.range 16) s (.inl (List.mem_range.mpr hst))
  have hrig := State.foldl_stackTrained_rig bad (List.range 16) s
  unfold State.reachRigged
  generalize (List.range 16).foldl (fun s st => s.stackTrained bad st) s = t at htrained hrig
  extract_lets t' u v
  have huv : v = { u with knot := v.knot } := rfl
  have hu : u = { t.waitGons with cores := u.cores } := State.holdCores_eq _ _
  have hstks : v.stks = t.stks := by rw [huv, hu, State.waitGons_eq]
  have hflash' : v.rig.flashOk = false := by rw [huv, hu, State.waitGons_eq, hrig, hflash]
  rw [hnone (v.setDev .rigged .rigged) hflash']
  change (sget {} v.stks st).Trained bad st
  rw [hstks]
  exact htrained

/-! ### Land (R27) -/

theorem Core.holdAsleep_fenced (k : Core) : k.holdAsleep.fenced = k.fenced := by
  unfold Core.holdAsleep
  split <;> rfl

theorem Core.holdAsleep_asleep {k : Core} (h : k.fenced = false) : k.holdAsleep.asleep = true := by simp [Core.holdAsleep, h]

/-- A core that is not fenced is held asleep once its turn has come. -/
theorem State.holdCores_asleep (l : List (Nat × Nat)) (s : State) {c : Nat} (hf : (s.core c).fenced = false)
    (h : (∃ i, (i, c + 1) ∈ l) ∨ (s.core c).asleep = true) : ((s.holdCores l).core c).asleep = true := by
  induction l generalizing s with
  | nil => exact h.resolve_left (by simp)
  | cons p l ih =>
    obtain ⟨i, d⟩ := p
    rw [State.holdCores]
    split
    next hd =>
      refine ih s hf (h.imp_left ?_)
      rintro ⟨j, hj⟩
      refine ⟨j, (List.mem_cons.mp hj).resolve_left ?_⟩
      rintro ⟨⟩
      cases hd
    next hd =>
      by_cases hc : c = d - 1
      · subst hc
        refine ih _ ?_ (.inr ?_)
        · rw [State.core_updCore, Core.holdAsleep_fenced, hf]
        · rw [State.core_updCore, Core.holdAsleep_asleep hf]
      · rw [← State.core_updCore_other s (d - 1) Core.holdAsleep hc] at hf
        refine ih _ hf ?_
        rw [State.core_updCore_other s (d - 1) Core.holdAsleep hc]
        refine h.imp_left ?_
        rintro ⟨j, hj⟩
        refine ⟨j, (List.mem_cons.mp hj).resolve_left ?_⟩
        rintro ⟨⟩
        exact hc (Nat.add_sub_cancel _ _).symm

theorem mem_of_sget {α : Type} {d : α} {m : Sparse α} {k : Nat} (h : sget d m k ≠ d) : (k, sget d m k) ∈ m := by
  induction m with
  | nil => exact absurd rfl h
  | cons p m ih =>
    obtain ⟨j, v⟩ := p
    rw [sget] at h ⊢
    split
    next hk => simp [hk]
    next hk =>
      rw [if_neg hk] at h
      exact List.mem_cons_of_mem _ (ih h)

/-- A logical core that is bound is in the binding table. -/
theorem State.mem_bind_of_phys {s : State} {l c : Nat} (h : s.phys l = some c) : (l, c + 1) ∈ s.rig.live.bind := by
  unfold State.phys at h
  split at h
  · split at h
    next => cases h
    next n hn =>
      cases h
      have hmem : (l, sget 0 s.rig.live.bind l) ∈ s.rig.live.bind := mem_of_sget (by rw [hn]; exact Nat.succ_ne_zero _)
      rwa [hn] at hmem
  · cases h

/-! ### The host link (R517, R580) -/

theorem State.emitTx_eq (s : State) (d : Tx) : s.emitTx d = { s with host := (s.emitTx d).host } := by
  unfold State.emitTx
  dsimp only
  split
  · rfl
  · split <;> rfl

theorem State.emitTx_link (s : State) (d : Tx) : (s.emitTx d).host.link = s.host.link := by
  unfold State.emitTx
  dsimp only
  split
  · rfl
  · split <;> rfl

theorem State.startDad_eq (s : State) : s.startDad = { s with host := s.startDad.host } := by
  unfold State.startDad
  rw [State.emitTx_eq, State.emitTx_eq]

theorem State.startDad_link (s : State) : s.startDad.host.link = s.host.link :=
  (State.emitTx_link _ _).trans (State.emitTx_link _ _)

/-! ### The statement -/

/-- Power-on (R27, R581). -/
theorem exec_keelPowerOn {s : State} (en quad : Bool) (hoff : s.keel.state = .off) :
    exec (.keelPowerOn en quad) s
      = .next ((s.updKeel (fun k => { k with flashEn := en, flashQuad := quad })).setDev .keel .keel) := by
  change Host.Outcome.next (match s.keel.state with | .off => _ | _ => _) = _
  rw [hoff]

/-- Settles O31, from the equation of each command. -/
theorem powerAndBringUp : Obligations.PowerAndBringUp := by
  intro s
  refine ⟨fun en quad hoff => ⟨_, exec_keelPowerOn en quad hoff, rfl, rfl, rfl, rfl, rfl⟩,
    ⟨_, rfl, rfl, rfl, rfl, rfl, rfl, rfl, rfl, rfl, rfl, rfl⟩,
    fun hst hb => ⟨fun gon0 => ?_, fun kat puf entropy gon0 h => ?_⟩,
    fun hup => ⟨_, congrArg Host.Outcome.next (if_pos hup), s.pkgFault_resetTo _⟩, fun bad hst htg hserved => ?_,
    fun hst htg hlanded => ?_, fun hlink => ?_, fun hlink => ?_⟩
  · obtain ⟨t, ht, h1, h2, h3, hanc, hrest⟩ := exec_bootRomComplete_passed gon0 hst hb
    refine ⟨t, ht, h1, h2, h3, ?_, ?_, hrest⟩
    · rw [hanc, State.bootAnchor_log]
    · rw [hanc, State.bootAnchor_owner]
  · refine ⟨_, exec_bootRomComplete_failed gon0 hst hb h, ?_⟩
    obtain ⟨h1, h2, h3, h4, hcode⟩ := s.bootStop_stops (if kat then (if entropy then 0x0102 else 0x0103) else 0x0101)
    refine ⟨h1, h2, h3, h4, fun h0 => (hcode h0).trans ?_⟩
    cases kat <;> cases entropy <;> rfl
  · refine ⟨_, congrArg Host.Outcome.next ((if_pos ⟨hst, htg⟩).trans (s.access_served _ _ _ hserved)), ?_⟩
    have hkeel := State.reachRigged_keel { s with acc := { src := .gondola 0, core := none } } bad
    refine ⟨congrArg KeelSt.state hkeel, congrArg KeelSt.target hkeel, fun hflash st hst16 => ?_⟩
    exact State.reachRigged_stk (s := { s with acc := { src := .gondola 0, core := none } }) bad hflash hst16
  · refine ⟨_, congrArg Host.Outcome.next (if_pos ⟨hst, htg, hlanded⟩), rfl, rfl, fun l c hl hf => ?_, ?_⟩
    · exact State.holdCores_asleep _ s hf (.inl ⟨l, State.mem_bind_of_phys hl⟩)
    · rw [State.setDev_eq, State.holdCores_eq]
  · refine ⟨({ s with host := { s.host with link := .up } } : State).startDad, ?_, State.startDad_link _, State.startDad_eq _⟩
    change Host.Outcome.next (match s.host.link with | .training => _ | _ => _) = _
    rw [hlink]
  · change Host.Outcome.next (match s.host.link with | .up => _ | _ => _) = _
    rw [hlink]

end Sys2Proof.Machine
end

section
/-! Received blocks: the order and the CRC on a link, blocks for other devices, and the checks of R407 (O45). -/

namespace Sys2Proof.Machine

/-! ### What a port keeps of its receiving side when it sends -/

/-- A port that has sent, or has taken credits and acknowledgements in: what it expects, its link key, its flows and what it
has counted of received blocks are as before. -/
structure Port.KeepsRx (p q : Port) : Prop where
  expect : q.expect = p.expect
  linkKey : q.linkKey = p.linkKey
  rxFlows : q.rxFlows = p.rxFlows
  authFail : q.authFail = p.authFail
  replay : q.replay = p.replay
  hopDrops : q.hopDrops = p.hopDrops
  noRoute : q.noRoute = p.noRoute
  fwdBlocks : q.fwdBlocks = p.fwdBlocks

theorem Port.KeepsRx.refl (p : Port) : p.KeepsRx p := ⟨rfl, rfl, rfl, rfl, rfl, rfl, rfl, rfl⟩

theorem Port.KeepsRx.trans {p q r : Port} (h : p.KeepsRx q) (k : q.KeepsRx r) : p.KeepsRx r :=
  ⟨k.1.trans h.1, k.2.trans h.2, k.3.trans h.3, k.4.trans h.4, k.5.trans h.5, k.6.trans h.6, k.7.trans h.7, k.8.trans h.8⟩

theorem Port.keepsRx_setCred (p : Port) (cls n) : p.KeepsRx (p.setCred cls n) := by
  unfold Port.setCred
  split <;> exact ⟨rfl, rfl, rfl, rfl, rfl, rfl, rfl, rfl⟩

theorem Port.keepsRx_setSeen (p : Port) (cls n) : p.KeepsRx (p.setSeen cls n) := by
  unfold Port.setSeen
  split <;> exact ⟨rfl, rfl, rfl, rfl, rfl, rfl, rfl, rfl⟩

theorem Port.keepsRx_tell (p : Port) (cls n) : p.KeepsRx (p.tell cls n) := by
  unfold Port.tell
  split <;> exact ⟨rfl, rfl, rfl, rfl, rfl, rfl, rfl, rfl⟩

theorem Port.keepsRx_free (p : Port) (cls) : p.KeepsRx (p.free cls) := by
  unfold Port.free
  split <;> exact ⟨rfl, rfl, rfl, rfl, rfl, rfl, rfl, rfl⟩

theorem Port.keepsRx_emit (p : Port) (b) : p.KeepsRx (p.emit b) :=
  (p.keepsRx_tell p.hop.credCls p.hop.cred).trans ⟨rfl, rfl, rfl, rfl, rfl, rfl, rfl, rfl⟩

theorem Port.keepsRx_sendOne {p q : Port} (h : p.sendOne = some q) : p.KeepsRx q := by
  unfold Port.sendOne at h
  split at h
  · cases h
  · split at h
    · cases h
    next c _ =>
      split at h
      · cases h
      next x _ =>
        cases h
        have hdrop : p.KeepsRx { p with waiting := dropCls c p.waiting } := ⟨rfl, rfl, rfl, rfl, rfl, rfl, rfl, rfl⟩
        exact (hdrop.trans (Port.keepsRx_setCred _ _ _)).trans (Port.keepsRx_emit _ _)

theorem Port.keepsRx_pump (n : Nat) (p : Port) : p.KeepsRx (Port.pump n p) := by
  induction n generalizing p with
  | zero => exact .refl p
  | succ n ih =>
    rw [Port.pump]
    split
    · exact .refl p
    next q hq => exact (Port.keepsRx_sendOne hq).trans (ih q)

theorem Port.keepsRx_flush (p : Port) : p.KeepsRx p.flush := Port.keepsRx_pump _ p

theorem Port.keepsRx_acked (p : Port) (n) : p.KeepsRx (p.acked n) := by
  unfold Port.acked
  dsimp only
  split <;> exact ⟨rfl, rfl, rfl, rfl, rfl, rfl, rfl, rfl⟩

theorem Port.keepsRx_credited (p : Port) (cls n) : p.KeepsRx (p.credited cls n) := by
  unfold Port.credited
  split
  · exact .refl p
  · exact (p.keepsRx_setCred _ _).trans (Port.keepsRx_setSeen _ _ _)

theorem Port.keepsRx_takeHop (p : Port) (h now) : p.KeepsRx (p.takeHop h now) :=
  (((p.keepsRx_acked _).trans (Port.keepsRx_credited _ _ _)).trans (Port.keepsRx_flush _)).trans
    ⟨rfl, rfl, rfl, rfl, rfl, rfl, rfl, rfl⟩

/-! ### What a received block changes outside its port -/

/-- From s to t the tether unit alone has changed. -/
def State.OnlyTeth (s t : State) : Prop := t = { s with teth := t.teth }

theorem State.OnlyTeth.trans {s t u : State} (h : s.OnlyTeth t) (k : t.OnlyTeth u) : s.OnlyTeth u := by
  rw [State.OnlyTeth] at *
  rw [h] at k
  exact k

theorem State.onlyTeth_updPort (s : State) (p f) : s.OnlyTeth (s.updPort p f) := rfl
theorem State.onlyTeth_updCtx (s : State) (c f) : s.OnlyTeth (s.updCtx c f) := rfl
theorem State.onlyTeth_sendLink (s : State) (p) : s.OnlyTeth (s.sendLink p) := by
  unfold State.sendLink
  exact s.onlyTeth_updPort p _

theorem State.onlyTeth_nak (s : State) (p) : s.OnlyTeth (s.nak p) :=
  (s.onlyTeth_updPort p _).trans (State.onlyTeth_sendLink _ p)

theorem State.onlyTeth_nakOn (s : State) (p) : s.OnlyTeth (s.nakOn p) := by
  unfold State.nakOn
  split
  · rfl
  · exact s.onlyTeth_nak p

theorem State.onlyTeth_rxBad (s : State) (p h b) : s.OnlyTeth (s.rxBad p h b) := by
  have hcrc := s.onlyTeth_updPort p (fun q => { q with crcErr := cnt q.crcErr 1 })
  unfold State.rxBad
  extract_lets t u
  split
  · exact hcrc
  · split
    · exact hcrc.trans (State.onlyTeth_nakOn t p)
    · have hfails : s.OnlyTeth u := hcrc.trans (t.onlyTeth_updPort p _)
      split
      · exact hfails.trans (u.onlyTeth_updPort p _)
      · exact hfails.trans (u.onlyTeth_nak p)

theorem State.onlyTeth_forward (s : State) (p b) : s.OnlyTeth (s.forward p b) := by
  unfold State.forward
  split
  · exact s.onlyTeth_updPort p _
  · split
    · exact s.onlyTeth_updPort p _
    · exact (s.onlyTeth_updPort p _).trans (State.onlyTeth_updPort _ _ _)

theorem State.onlyTeth_newEpoch (s : State) (b) : s.OnlyTeth (s.newEpoch b) := by
  unfold State.newEpoch
  split <;> rfl

/-! ### A link: order and CRC (R396 to R398) -/

theorem State.port_sendLink (s : State) (p) : ∃ sent linkSeq b r q, (s.sendLink p).port p
    = { s.port p with sent := sent, linkSeq := linkSeq, toldBridle := b, toldResp := r, toldReq := q } := by
  rw [State.sendLink, State.port_updPort]
  split
  · exact ⟨_, _, _, _, _, rfl⟩
  · exact ⟨_, _, _, _, _, rfl⟩

/-- The CRC error and the failure of the block expected are counted. -/
def State.failed (s : State) (p : Nat) : State :=
  (s.updPort p (fun q => { q with crcErr := cnt q.crcErr 1 })).updPort p (fun q => { q with fails := q.fails + 1 })

theorem State.port_failed (s : State) (p : Nat) :
    (s.failed p).port p = { s.port p with crcErr := cnt (s.port p).crcErr 1, fails := (s.port p).fails + 1 } := by
  rw [State.failed, State.port_updPort, State.port_updPort]

/-- The block expected fails its CRC: the eighth failure in succession retrains the port, an earlier one brings a NAK. -/
theorem State.rxBad_expected {s : State} {p : Nat} {h : Hop} {b : Block} (hcls : b.cls ≠ 3)
    (hseq : h.lseq = (s.port p).expect) :
    s.rxBad p h b = if 8 ≤ ((s.failed p).port p).fails then (s.failed p).updPort p Port.retrain else (s.failed p).nak p := by
  have hexpect : h.lseq = ((s.updPort p (fun q => { q with crcErr := cnt q.crcErr 1 })).port p).expect := by
    rw [State.port_updPort, hseq]
  exact (if_neg hcls).trans (if_neg (not_not.mpr hexpect))

theorem State.port_nak (s : State) (p) : ∃ sent linkSeq b r q, (s.nak p).port p
    = { s.port p with naked := true, sent := sent, linkSeq := linkSeq, toldBridle := b, toldResp := r, toldReq := q } := by
  obtain ⟨sent, linkSeq, b, r, q, h⟩ := (s.updPort p (fun q => { q with naked := true })).port_sendLink p
  rw [State.port_updPort] at h
  exact ⟨sent, linkSeq, b, r, q, h⟩

/-- After a NAK, once for each block that fails to come, the port expects the same block. -/
theorem State.port_nakOn (s : State) (p) : ((s.nakOn p).port p).naked = true ∧ ((s.nakOn p).port p).expect = (s.port p).expect
    ∧ ((s.nakOn p).port p).heard = (s.port p).heard ∧ ((s.nakOn p).port p).crcErr = (s.port p).crcErr := by
  unfold State.nakOn
  split
  next h => exact ⟨h, rfl, rfl, rfl⟩
  next =>
    obtain ⟨_, _, _, _, _, h⟩ := s.port_nak p
    rw [h]
    exact ⟨rfl, rfl, rfl, rfl⟩

/-- The port after the block expected has failed its CRC. -/
theorem State.rxBad_failedOn {s : State} {p : Nat} {h : Hop} {b : Block} (hcls : b.cls ≠ 3)
    (hseq : h.lseq = (s.port p).expect) :
    s.FailedOn (s.rxBad p h b) p ∧ ((s.rxBad p h b).port p).crcErr = cnt (s.port p).crcErr 1 := by
  have honly : s.OnlyTeth (s.rxBad p h b) := s.onlyTeth_rxBad p h b
  rw [State.rxBad_expected hcls hseq, State.port_failed] at honly ⊢
  unfold State.FailedOn
  by_cases hfails : 7 ≤ (s.port p).fails
  · have height : 8 ≤ (s.port p).fails + 1 := by omega
    rw [if_pos height] at honly ⊢
    rw [if_pos hfails, if_pos hfails, State.port_updPort, State.port_failed]
    exact ⟨⟨rfl, honly, rfl, rfl⟩, rfl⟩
  · have height : ¬ 8 ≤ (s.port p).fails + 1 := by omega
    rw [if_neg height] at honly ⊢
    obtain ⟨_, _, _, _, _, hport⟩ := (s.failed p).port_nak p
    rw [if_neg hfails, if_neg hfails, hport, State.port_failed]
    exact ⟨⟨rfl, honly, rfl, rfl, rfl⟩, rfl⟩

/-- Another block fails its CRC: the port goes on expecting the same one. -/
theorem State.rxBad_other {s : State} {p : Nat} {h : Hop} {b : Block} (hcls : b.cls ≠ 3) (hseq : h.lseq ≠ (s.port p).expect) :
    ((s.rxBad p h b).port p).naked = true ∧ ((s.rxBad p h b).port p).expect = (s.port p).expect
      ∧ ((s.rxBad p h b).port p).crcErr = cnt (s.port p).crcErr 1 := by
  have hport := State.port_updPort s p (fun q => { q with crcErr := cnt q.crcErr 1 })
  obtain ⟨hnaked, hexpect, _, hcrc⟩ := (s.updPort p (fun q => { q with crcErr := cnt q.crcErr 1 })).port_nakOn p
  have hseq' : h.lseq ≠ ((s.updPort p (fun q => { q with crcErr := cnt q.crcErr 1 })).port p).expect := by rwa [hport]
  have heq : s.rxBad p h b = (s.updPort p (fun q => { q with crcErr := cnt q.crcErr 1 })).nakOn p :=
    (if_neg hcls).trans (if_pos hseq')
  rw [heq]
  rw [hport] at hexpect hcrc
  exact ⟨hnaked, hexpect, hcrc⟩

/-! ### The checks of R407 -/

/-- The flows after a block's number has been noted. -/
def State.noted (s : State) (p : Nat) (b : Block) : State :=
  if blkOfLink b then s.updPort p (fun q => { q with rxFlows := noteFseq b q.rxFlows })
  else { s with teth := { s.teth with flows := noteFseq b s.teth.flows } }

theorem State.newEpoch_of_link {s : State} {b : Block} (h : blkOfLink b = true) : s.newEpoch b = s := by
  simp [State.newEpoch, h]

theorem State.flowsFor_eq (s : State) (p : Nat) (b : Block) :
    s.flowsFor p b = if blkOfLink b then ((s.newEpoch b).port p).rxFlows else (s.newEpoch b).teth.flows := by
  unfold State.flowsFor
  split
  next h => rw [State.newEpoch_of_link h]
  next => rfl

/-- A repeated number (check 2). -/
theorem State.rxClear_replay {s : State} {p : Nat} {b : Block} (h : isReplay b (s.flowsFor p b) = true) :
    s.rxClear p b = ((s.newEpoch b).updPort p (fun q => { q with replay := cnt q.replay 1 }), none) := by
  rw [State.flowsFor_eq] at h
  exact if_pos h

/-- A context that does not take the block (check 3). -/
theorem State.rxClear_drop {s : State} {p : Nat} {b : Block} (h : isReplay b (s.flowsFor p b) = false)
    (hctx : ¬ ((s.newEpoch b).noted p b).CtxTakes b) :
    s.rxClear p b = (((s.newEpoch b).noted p b).updCtx b.ctx (fun t => { t with drops := cnt t.drops 1 }), none) := by
  rw [State.flowsFor_eq] at h
  refine (if_neg (by rw [h]; exact Bool.false_ne_true)).trans (if_pos ?_)
  unfold State.CtxTakes at hctx
  obtain ⟨hcls, hbad⟩ := Classical.not_imp.mp hctx
  refine ⟨hcls, ?_⟩
  change b.ctx = 0xFFF ∨ (((s.newEpoch b).noted p b).ctx b.ctx).state = .closed ∨
    (((s.newEpoch b).noted p b).ctx b.ctx).gen ≠ b.gen ∨ b.src < (((s.newEpoch b).noted p b).ctx b.ctx).lo ∨
    (((s.newEpoch b).noted p b).ctx b.ctx).hi < b.src
  by_contra hgood
  simp only [not_or, Nat.not_lt, ne_eq, not_not] at hgood
  exact hbad hgood

/-! ### A block that is accepted -/

/-- Accepting a block moves the number expected on, and leaves the rest of the port's receiving side as it is. -/
theorem State.rxAccept_keepsRx (s : State) (p h b) :
    ({ s.port p with expect := ((s.port p).expect + 1) % 65536 } : Port).KeepsRx ((s.rxAccept p h b).port p) := by
  rw [State.rxAccept, State.port_updPort]
  have hhop := (s.port p).keepsRx_takeHop h s.env.ticks
  generalize (s.port p).takeHop h s.env.ticks = q at hhop
  have hnext : ({ s.port p with expect := ((s.port p).expect + 1) % 65536 } : Port).KeepsRx
      { q with expect := (q.expect + 1) % 65536, fails := 0, naked := false } :=
    ⟨by rw [hhop.expect], hhop.linkKey, hhop.rxFlows, hhop.authFail, hhop.replay, hhop.hopDrops, hhop.noRoute, hhop.fwdBlocks⟩
  dsimp only
  split
  · exact hnext
  · exact hnext.trans (Port.keepsRx_free _ _)

theorem State.onlyTeth_rxAccept (s : State) (p h b) : s.OnlyTeth (s.rxAccept p h b) := by
  unfold State.rxAccept
  exact s.onlyTeth_updPort p _

theorem State.rxAccept_ctxs (s : State) (p h b) : (s.rxAccept p h b).teth.ctxs = s.teth.ctxs := rfl

theorem State.rxAccept_route (s : State) (p h b d r c) : (s.rxAccept p h b).route d r c = s.route d r c := rfl

theorem State.rxAccept_openRx (s : State) (p h b b') : (s.rxAccept p h b).openRx p b' = s.openRx p b' := by
  unfold State.openRx
  rw [(s.rxAccept_keepsRx p h b).linkKey]
  rfl

theorem State.newEpoch_port (s : State) (b q) : (s.newEpoch b).port q = s.port q := by
  unfold State.newEpoch
  split <;> rfl

theorem State.newEpoch_ctxs (s : State) (b) : (s.newEpoch b).teth.ctxs = s.teth.ctxs := by
  unfold State.newEpoch
  split <;> rfl

theorem State.noted_expect (s : State) (p b) : ((s.noted p b).port p).expect = (s.port p).expect := by
  unfold State.noted
  split
  · rw [State.port_updPort]
  · rfl

theorem State.noted_ctxs (s : State) (p b) : (s.noted p b).teth.ctxs = s.teth.ctxs := by
  unfold State.noted
  split <;> rfl

theorem State.onlyTeth_noted (s : State) (p b) : s.OnlyTeth (s.noted p b) := by
  unfold State.noted
  split
  · exact s.onlyTeth_updPort p _
  · rfl

theorem State.rxAccept_flowsFor (s : State) (p h b c) : (s.rxAccept p h b).flowsFor p c = s.flowsFor p c := by
  unfold State.flowsFor
  rw [(s.rxAccept_keepsRx p h b).rxFlows]
  split
  · rfl
  next hlink =>
    unfold State.newEpoch
    rw [if_neg hlink, if_neg hlink]
    rfl

theorem State.ctx_congr {s t : State} (h : t.teth.ctxs = s.teth.ctxs) (c : Nat) : t.ctx c = s.ctx c := by
  unfold State.ctx
  rw [h]

theorem State.ctxTakes_congr {s t : State} (h : t.teth.ctxs = s.teth.ctxs) (b : Block) : t.CtxTakes b ↔ s.CtxTakes b := by
  unfold State.CtxTakes
  rw [State.ctx_congr h]

theorem State.ctx_updCtx_drops (s : State) (c : Nat) :
    ((s.updCtx c (fun t => { t with drops := cnt t.drops 1 })).ctx c).drops = cnt (s.ctx c).drops 1 := by
  unfold State.ctx State.updCtx
  split <;> simp

theorem State.rxCheck_none {s : State} {p : Nat} {b : Block} (h : s.openRx p b = none) :
    s.rxCheck p b = (s.updPort p Port.authBad, none) := by
  rw [State.rxCheck, h]

theorem State.rxCheck_some {s : State} {p : Nat} {b c : Block} (h : s.openRx p b = some c) :
    s.rxCheck p b = s.rxClear p c := by
  rw [State.rxCheck, h]

/-- A port that has handed a block to a port keeps its receiving side. -/
theorem State.sendOn_keepsRx (s : State) (o p : Nat) (b how) : (s.port p).KeepsRx ((s.sendOn o b how).port p) := by
  unfold State.sendOn
  by_cases ho : p = o
  · subst ho
    rw [State.port_updPort]
    have hwait : (s.port p).KeepsRx { s.port p with waiting := (s.port p).waiting ++ [{ blk := b, how }] } :=
      ⟨rfl, rfl, rfl, rfl, rfl, rfl, rfl, rfl⟩
    exact hwait.trans (Port.keepsRx_flush _)
  · rw [State.port_updPort_other _ _ _ ho]
    exact .refl _

/-- A block for another device is forwarded, or counted when it has no hop left or no route (R414). -/
theorem State.forward_counts (s : State) (p : Nat) (b : Block) :
    ((s.forward p b).port p).expect = (s.port p).expect
      ∧ (b.hops = 0 → ((s.forward p b).port p).hopDrops = cnt (s.port p).hopDrops 1)
      ∧ (b.hops ≠ 0 → s.route b.dst b.src b.ctx = none → ((s.forward p b).port p).noRoute = cnt (s.port p).noRoute 1)
      ∧ (b.hops ≠ 0 → (s.route b.dst b.src b.ctx).isSome = true →
          ((s.forward p b).port p).fwdBlocks = cnt (s.port p).fwdBlocks 1) := by
  unfold State.forward
  split
  next h0 =>
    rw [State.port_updPort]
    exact ⟨rfl, fun _ => rfl, fun h => absurd h0 h, fun h => absurd h0 h⟩
  next h0 =>
    split
    next hr =>
      rw [State.port_updPort]
      refine ⟨rfl, fun h => absurd h h0, fun _ _ => rfl, fun _ h => ?_⟩
      cases hr.symm.trans (Option.some_get h).symm
    next o hr =>
      have hkeep := (s.updPort p (fun q => { q with fwdBlocks := cnt q.fwdBlocks 1 })).sendOn_keepsRx o p
        { b with hops := b.hops - 1 } .done
      rw [State.port_updPort] at hkeep
      refine ⟨hkeep.expect, fun h => absurd h h0, fun _ h => ?_, fun _ _ => hkeep.fwdBlocks⟩
      cases hr.symm.trans h

/-- The state while port p takes a block in: its accesses to memory are the port's. -/
def State.receiving (s : State) (p : Nat) : State := { s with acc := { src := .tether p } }

theorem State.receiving_flowsFor (s : State) (p q : Nat) (b : Block) : (s.receiving p).flowsFor q b = s.flowsFor q b := by
  unfold State.flowsFor
  split
  · rfl
  · unfold State.newEpoch
    split <;> rfl

/-- A block changes the tether unit alone, and nothing of the access is left. -/
theorem State.rx_of_rxIn {s u : State} {p : Nat} {h : Hop} {b : Block} {crc cls kind : Nat} {body : State → Block → State}
    (hcls : b.cls = cls) (hkind : b.kind = kind) (hin : (s.receiving p).rxIn p h b crc body = u)
    (honly : (s.receiving p).OnlyTeth u) : s.rx p h b crc cls kind body = { s with teth := u.teth } := by
  have hnone : u.acc.stop = none := by
    rw [honly]
    rfl
  have hin' : ({ s with acc := { src := .tether p, core := none } } : State).rxIn p h b crc body = u := hin
  rw [State.rx, if_neg (by simp [hcls, hkind])]
  unfold State.access
  simp only [hin', hnone]
  rw [honly]
  rfl

section
variable {s : State} {p : Nat} {h : Hop} {b : Block} {crc : Nat} {body : State → Block → State}

theorem State.rxIn_badCrc (hwin : s.portWin p = true) (hup : (s.port p).state = .up) (hcrc : crc32c (wireBody h b) ≠ crc) :
    s.rxIn p h b crc body = s.rxBad p h b := by
  simp [State.rxIn, State.rxBlock, hwin, hup, hcrc]

theorem State.rxIn_otherNumber (hwin : s.portWin p = true) (hup : (s.port p).state = .up) (hcrc : crc32c (wireBody h b) = crc)
    (hseq : h.lseq ≠ (s.port p).expect) : s.rxIn p h b crc body = s.nakOn p := by
  simp [State.rxIn, State.rxBlock, State.rxNext, hwin, hup, hcrc, hseq]

theorem State.rxIn_forOther (harr : s.Arrives p h b crc) (hkind : kindOk b.cls b.kind = true) (hfor : ¬ s.ForMe b) :
    s.rxIn p h b crc body = (s.rxAccept p h b).forward p b := by
  obtain ⟨hwin, hup, hcrc, hseq⟩ := harr
  unfold State.ForMe at hfor
  have hself : ¬ (b.dst = (s.rxAccept p h b).teth.self ∨ b.dst = 0xFFFF ∧ b.cls = 0) := hfor
  simp [State.rxIn, State.rxBlock, State.rxNext, hwin, hup, hcrc, hseq, hkind, hself]

theorem State.rxIn_refused {u : State} (harr : s.Arrives p h b crc) (hkind : kindOk b.cls b.kind = true) (hfor : s.ForMe b)
    (hcheck : (s.rxAccept p h b).rxCheck p b = (u, none)) : s.rxIn p h b crc body = u := by
  obtain ⟨hwin, hup, hcrc, hseq⟩ := harr
  unfold State.ForMe at hfor
  have hself : b.dst = (s.rxAccept p h b).teth.self ∨ b.dst = 0xFFFF ∧ b.cls = 0 := hfor
  simp [State.rxIn, State.rxBlock, State.rxNext, hwin, hup, hcrc, hseq, hkind, hself, hcheck]

end

/-! ### What becomes of a block -/

section
variable {s : State} {p : Nat} {h : Hop} {b : Block} {crc cls kind : Nat} {body : State → Block → State}
variable (hcls : b.cls = cls) (hkind : b.kind = kind)
include hcls hkind

theorem State.rx_badCrc (h3 : cls ≠ 3) (hwin : s.portWin p = true) (hup : (s.port p).state = .up)
    (hcrc : crc32c (wireBody h b) ≠ crc) :
    ∃ t, s.rx p h b crc cls kind body = t ∧ (t.port p).crcErr = cnt (s.port p).crcErr 1 ∧ t = { s with teth := t.teth }
      ∧ (h.lseq = (s.port p).expect → s.FailedOn t p)
      ∧ (h.lseq ≠ (s.port p).expect → (t.port p).naked = true ∧ (t.port p).expect = (s.port p).expect) := by
  subst hcls
  refine ⟨_, State.rx_of_rxIn rfl hkind (State.rxIn_badCrc (s := s.receiving p) hwin hup hcrc)
    (State.onlyTeth_rxBad _ p h b), ?_⟩
  by_cases hseq : h.lseq = (s.port p).expect
  · obtain ⟨⟨hexpect, _, hstate⟩, hcount⟩ := State.rxBad_failedOn (s := s.receiving p) h3 hseq
    exact ⟨hcount, rfl, fun _ => ⟨hexpect, rfl, hstate⟩, fun hne => absurd hseq hne⟩
  · obtain ⟨hnaked, hexpect, hcount⟩ := State.rxBad_other (s := s.receiving p) h3 hseq
    exact ⟨hcount, rfl, fun heq => absurd heq hseq, fun _ => ⟨hnaked, hexpect⟩⟩

theorem State.rx_otherNumber (hwin : s.portWin p = true) (hup : (s.port p).state = .up)
    (hcrc : crc32c (wireBody h b) = crc) (hseq : h.lseq ≠ (s.port p).expect) :
    ∃ t, s.rx p h b crc cls kind body = t ∧ (t.port p).naked = true ∧ (t.port p).expect = (s.port p).expect
      ∧ (t.port p).heard = (s.port p).heard ∧ t = { s with teth := t.teth } := by
  obtain ⟨hnaked, hexpect, hheard, _⟩ := (s.receiving p).port_nakOn p
  exact ⟨_, State.rx_of_rxIn hcls hkind (State.rxIn_otherNumber (s := s.receiving p) hwin hup hcrc hseq)
    (State.onlyTeth_nakOn _ p), hnaked, hexpect, hheard, rfl⟩

theorem State.rx_forOther (hok : kindOk cls kind = true) (harr : s.Arrives p h b crc) (hfor : ¬ s.ForMe b) :
    ∃ t, s.rx p h b crc cls kind body = t ∧ (t.port p).expect = ((s.port p).expect + 1) % 65536 ∧ t = { s with teth := t.teth }
      ∧ (b.hops = 0 → (t.port p).hopDrops = cnt (s.port p).hopDrops 1)
      ∧ (b.hops ≠ 0 → s.route b.dst b.src b.ctx = none → (t.port p).noRoute = cnt (s.port p).noRoute 1)
      ∧ (b.hops ≠ 0 → (s.route b.dst b.src b.ctx).isSome = true → (t.port p).fwdBlocks = cnt (s.port p).fwdBlocks 1) := by
  subst hcls hkind
  have hin := State.rxIn_forOther (s := s.receiving p) (body := body) harr hok hfor
  have honly := ((s.receiving p).onlyTeth_rxAccept p h b).trans (State.onlyTeth_forward _ p b)
  refine ⟨_, State.rx_of_rxIn rfl rfl hin honly, ?_⟩
  obtain ⟨hexpect, hhops, hroute, hforward⟩ := ((s.receiving p).rxAccept p h b).forward_counts p b
  have hkeep : ({ s.port p with expect := ((s.port p).expect + 1) % 65536 } : Port).KeepsRx _ :=
    (s.receiving p).rxAccept_keepsRx p h b
  refine ⟨hexpect.trans hkeep.expect, rfl, fun h0 => ?_, fun h0 hr => ?_, fun h0 hr => ?_⟩
  · exact (hhops h0).trans (by rw [hkeep.hopDrops])
  · exact (hroute h0 hr).trans (by rw [hkeep.noRoute])
  · exact (hforward h0 hr).trans (by rw [hkeep.fwdBlocks])

/-- A block for this device that one of the checks of R407 turns down. -/
theorem State.rx_of_rxCheck (hok : kindOk cls kind = true) (harr : s.Arrives p h b crc) (hfor : s.ForMe b) {u : State}
    (hcheck : ((s.receiving p).rxAccept p h b).rxCheck p b = (u, none)) (honly : ((s.receiving p).rxAccept p h b).OnlyTeth u) :
    s.rx p h b crc cls kind body = { s with teth := u.teth } := by
  subst hcls hkind
  exact State.rx_of_rxIn rfl rfl (State.rxIn_refused (s := s.receiving p) harr hok hfor hcheck)
    (((s.receiving p).onlyTeth_rxAccept p h b).trans honly)

theorem State.rx_unauthentic (hok : kindOk cls kind = true) (harr : s.Arrives p h b crc) (hfor : s.ForMe b)
    (hopen : s.openRx p b = none) :
    ∃ t, s.rx p h b crc cls kind body = t ∧ (t.port p).expect = ((s.port p).expect + 1) % 65536
      ∧ (t.port p).auth = true ∧ (t.port p).authFail = cnt (s.port p).authFail 1 ∧ t = { s with teth := t.teth } := by
  have hkeep := (s.receiving p).rxAccept_keepsRx p h b
  have hcheck := State.rxCheck_none (((s.receiving p).rxAccept_openRx p h b b).trans hopen)
  have hport := ((s.receiving p).rxAccept p h b).port_updPort p Port.authBad
  refine ⟨_, State.rx_of_rxCheck hcls hkind hok harr hfor hcheck (State.onlyTeth_updPort _ p _), ?_, ?_, ?_, rfl⟩
  · exact (congrArg Port.expect hport).trans hkeep.expect
  · exact congrArg Port.auth hport
  · refine (congrArg Port.authFail hport).trans ?_
    exact congrArg (cnt · 1) hkeep.authFail

theorem State.rx_replay (hok : kindOk cls kind = true) (harr : s.Arrives p h b crc) (hfor : s.ForMe b) {c : Block}
    (hopen : s.openRx p b = some c) (hreplay : isReplay c (s.flowsFor p c) = true) :
    ∃ t, s.rx p h b crc cls kind body = t ∧ (t.port p).expect = ((s.port p).expect + 1) % 65536
      ∧ (t.port p).replay = cnt (s.port p).replay 1 ∧ t = { s with teth := t.teth } := by
  have hkeep := (s.receiving p).rxAccept_keepsRx p h b
  have hflows : isReplay c (((s.receiving p).rxAccept p h b).flowsFor p c) = true := by
    rw [State.rxAccept_flowsFor, State.receiving_flowsFor]
    exact hreplay
  have hcheck := (State.rxCheck_some (((s.receiving p).rxAccept_openRx p h b b).trans hopen)).trans
    (State.rxClear_replay hflows)
  have hport := (((s.receiving p).rxAccept p h b).newEpoch c).port_updPort p (fun q => { q with replay := cnt q.replay 1 })
  rw [State.newEpoch_port] at hport
  refine ⟨_, State.rx_of_rxCheck hcls hkind hok harr hfor hcheck
    ((State.onlyTeth_newEpoch _ c).trans (State.onlyTeth_updPort _ p _)), ?_, ?_, rfl⟩
  · exact (congrArg Port.expect hport).trans hkeep.expect
  · refine (congrArg Port.replay hport).trans ?_
    exact congrArg (cnt · 1) hkeep.replay

theorem State.rx_ctxRefused (hok : kindOk cls kind = true) (harr : s.Arrives p h b crc) (hfor : s.ForMe b) {c : Block}
    (hopen : s.openRx p b = some c) (hreplay : isReplay c (s.flowsFor p c) = false) (hctx : ¬ s.CtxTakes c) :
    ∃ t, s.rx p h b crc cls kind body = t ∧ (t.port p).expect = ((s.port p).expect + 1) % 65536
      ∧ (t.ctx c.ctx).drops = cnt (s.ctx c.ctx).drops 1 ∧ t = { s with teth := t.teth } := by
  have hkeep := (s.receiving p).rxAccept_keepsRx p h b
  have hflows : isReplay c (((s.receiving p).rxAccept p h b).flowsFor p c) = false := by
    rw [State.rxAccept_flowsFor, State.receiving_flowsFor]
    exact hreplay
  have hctxs : ((((s.receiving p).rxAccept p h b).newEpoch c).noted p c).teth.ctxs = s.teth.ctxs :=
    (State.noted_ctxs _ p c).trans (State.newEpoch_ctxs _ c)
  have hcheck := (State.rxCheck_some (((s.receiving p).rxAccept_openRx p h b b).trans hopen)).trans
    (State.rxClear_drop hflows (mt (State.ctxTakes_congr hctxs c).mp hctx))
  refine ⟨_, State.rx_of_rxCheck hcls hkind hok harr hfor hcheck
    (((State.onlyTeth_newEpoch _ c).trans (State.onlyTeth_noted _ p c)).trans (State.onlyTeth_updCtx _ _ _)), ?_, ?_, rfl⟩
  · have hexpect := (((s.receiving p).rxAccept p h b).newEpoch c).noted_expect p c
    rw [State.newEpoch_port] at hexpect
    exact hexpect.trans hkeep.expect
  · refine (State.ctx_updCtx_drops ((((s.receiving p).rxAccept p h b).newEpoch c).noted p c) c.ctx).trans ?_
    rw [State.ctx_congr hctxs]

end

/-! ### The commands of received blocks -/

/-- Every row is a received block of its class and kind; what it does with one for this device is its own. -/
theorem exec_rxRow : ∀ row ∈ ([(.bridle, 0, 1), (.readReq, 2, 2), (.writeHdr, 2, 3), (.writeData, 2, 4), (.readData, 1, 5),
      (.writeAck, 1, 6), (.reduceHdr, 2, 7), (.reduceData, 2, 8)] : List ((Nat → Hop → Block → Nat → Instr) × Nat × Nat)),
    kindOk row.2.1 row.2.2 = true ∧ row.2.1 ≠ 3 ∧ ∃ body : Nat → State → Block → State, ∀ p h b crc s,
      exec (row.1 p h b crc) s = .next (s.rx p h b crc row.2.1 row.2.2 (body p)) := by
  simp only [List.forall_mem_cons]
  refine ⟨⟨rfl, by decide, _, fun _ _ _ _ _ => rfl⟩, ⟨rfl, by decide, _, fun _ _ _ _ _ => rfl⟩,
    ⟨rfl, by decide, _, fun _ _ _ _ _ => rfl⟩, ⟨rfl, by decide, _, fun _ _ _ _ _ => rfl⟩,
    ⟨rfl, by decide, _, fun _ _ _ _ _ => rfl⟩, ⟨rfl, by decide, _, fun _ _ _ _ _ => rfl⟩,
    ⟨rfl, by decide, _, fun _ _ _ _ _ => rfl⟩, ⟨rfl, by decide, _, fun _ _ _ _ _ => rfl⟩, List.forall_mem_nil _⟩

/-- Settles O45, from what becomes of a received block of any class and kind. -/
theorem blocksOnALink : Obligations.BlocksOnALink := by
  intro row hrow p h b crc s hcls hkind hwin hup
  obtain ⟨hok, h3, body, hexec⟩ := exec_rxRow row hrow
  extract_lets u
  refine ⟨fun hcrc => ?_, fun hcrc hseq => ?_, fun harr hfor => ?_, fun harr hfor => ⟨fun hopen => ?_, fun c hopen =>
    ⟨fun hreplay => ?_, fun hreplay hctx => ?_⟩⟩⟩
  all_goals rw [hexec]
  · obtain ⟨t, ht, hrest⟩ := State.rx_badCrc hcls hkind h3 hwin hup hcrc
    exact ⟨t, congrArg _ ht, hrest⟩
  · obtain ⟨t, ht, hrest⟩ := State.rx_otherNumber hcls hkind hwin hup hcrc hseq
    exact ⟨t, congrArg _ ht, hrest⟩
  · obtain ⟨t, ht, hrest⟩ := State.rx_forOther hcls hkind hok harr hfor
    exact ⟨t, congrArg _ ht, hrest⟩
  · obtain ⟨t, ht, hrest⟩ := State.rx_unauthentic hcls hkind hok harr hfor hopen
    exact ⟨t, congrArg _ ht, hrest⟩
  · obtain ⟨t, ht, hrest⟩ := State.rx_replay hcls hkind hok harr hfor hopen hreplay
    exact ⟨t, congrArg _ ht, hrest⟩
  · obtain ⟨t, ht, hrest⟩ := State.rx_ctxRefused hcls hkind hok harr hfor hopen hreplay hctx
    exact ⟨t, congrArg _ ht, hrest⟩

end Sys2Proof.Machine
end

section
/-! The commands of a host session (O54). -/

namespace Sys2Proof.Machine

/-! ### The access at hand

A command of a session runs as an access of the host. What it does apart from reads and writes of device memory does not
depend on the access at hand, and keeps it. -/

/-- The state with another access at hand. -/
def State.withAcc (s : State) (acc : AccSt) : State := { s with acc }

section
variable (s : State) (acc : AccSt)

@[simp] theorem State.withAcc_keel : (s.withAcc acc).keel = s.keel := rfl
@[simp] theorem State.withAcc_env : (s.withAcc acc).env = s.env := rfl

end

theorem State.ite_withAcc {c : Prop} [Decidable c] {s t s' t' : State} {acc : AccSt} (hs : s' = s.withAcc acc)
    (ht : t' = t.withAcc acc) : (if c then s' else t') = (if c then s else t).withAcc acc := by
  split
  · exact hs
  · exact ht

theorem State.foldl_withAcc {α : Type} {f : State → α → State} {acc : AccSt}
    (h : ∀ (s : State) a, f (s.withAcc acc) a = (f s a).withAcc acc) (l : List α) (s : State) :
    l.foldl f (s.withAcc acc) = (l.foldl f s).withAcc acc := by
  induction l generalizing s with
  | nil => rfl
  | cons a l ih => rw [List.foldl_cons, h, ih, List.foldl_cons]

/-! #### Requests of the device's states -/

theorem State.mapOpen_withAcc (s : State) (acc f l) : (s.withAcc acc).mapOpen f l = (s.mapOpen f l).withAcc acc := by
  induction l generalizing s with
  | nil => rfl
  | cons p l ih =>
    obtain ⟨b, i⟩ := p
    cases i with
    | none => exact ih s
    | some i => exact ih (s.updEnv (fun e => { e with ring := sset {} e.ring i (f (sget {} e.ring i)) }))

theorem State.closeRec_withAcc (s : State) (acc t i) : (s.withAcc acc).closeRec t i = (s.closeRec t i).withAcc acc := by
  cases i <;> rfl

/-- What the boundary at tick t does to the record of one cause (R464). -/
def State.record (s : State) (t code : Nat) : State :=
  match s.env.openRecs.find? (fun p => p.1 == code) with
  | some p =>
    if (s.reasonAt code).1 then s
    else (s.closeRec t p.2).updEnv (fun e => { e with openRecs := e.openRecs.filter (fun q => q.1 ≠ code) })
  | none => if (s.reasonAt code).1 then s.openRec t code (s.reasonAt code).2 else s

theorem State.records_cons (s : State) (t code l) : s.records t (code :: l) = (s.record t code).records t l := rfl

theorem State.record_withAcc (s : State) (acc t code) : (s.withAcc acc).record t code = (s.record t code).withAcc acc := by
  have hat : (s.withAcc acc).reasonAt code = s.reasonAt code := rfl
  simp only [State.record, hat, State.withAcc_env, State.closeRec_withAcc]
  cases s.env.openRecs.find? (fun p => p.1 == code) with
  | some p => exact State.ite_withAcc rfl rfl
  | none => exact State.ite_withAcc rfl rfl

theorem State.records_withAcc (s : State) (acc t l) : (s.withAcc acc).records t l = (s.records t l).withAcc acc := by
  induction l generalizing s with
  | nil => rfl
  | cons code l ih => rw [State.records_cons, State.record_withAcc, ih, State.records_cons]

theorem State.moveLimits_withAcc (s : State) (acc ePkg hi lo) :
    (s.withAcc acc).moveLimits ePkg hi lo = (s.moveLimits ePkg hi lo).withAcc acc := rfl

theorem State.writeCosts_withAcc (s : State) (acc p) : (s.withAcc acc).writeCosts p = (s.writeCosts p).withAcc acc := by
  unfold State.writeCosts
  extract_lets cs put
  have hput (s : State) (l : Nat) : put (s.withAcc acc) l = (put s l).withAcc acc := by
    unfold put
    have hphys : (s.withAcc acc).phys l = s.phys l := rfl
    simp only [hphys]
    cases s.phys l with
    | some c => exact State.ite_withAcc rfl rfl
    | none => rfl
  generalize List.range 384 = ls
  exact State.foldl_withAcc hput _ { s with env := { s.env with costPt := p } }

theorem State.setPhase_withAcc (s : State) (acc p) : (s.withAcc acc).setPhase p = (s.setPhase p).withAcc acc := rfl

theorem State.requestPt_withAcc (s : State) (acc p) : (s.withAcc acc).requestPt p = (s.requestPt p).withAcc acc := rfl

theorem State.moveIdle_withAcc (s : State) (acc) : (s.withAcc acc).moveIdle = s.moveIdle.withAcc acc := by
  unfold State.moveIdle
  refine State.ite_withAcc rfl (State.ite_withAcc ?_ rfl)
  change (((State.withAcc { s with env := { s.env with setWas := s.env.setReq } } acc).writeCosts _).requestPt _).setPhase _ = _
  rw [State.writeCosts_withAcc, State.requestPt_withAcc, State.setPhase_withAcc]
  rfl

theorem State.abandonRaise_withAcc (s : State) (acc) : (s.withAcc acc).abandonRaise = s.abandonRaise.withAcc acc := by
  have h : (if s.tables then (s.withAcc acc).writeCosts s.env.cur else s.withAcc acc)
      = (if s.tables then s.writeCosts s.env.cur else s).withAcc acc := State.ite_withAcc (s.writeCosts_withAcc acc _) rfl
  exact congrArg (fun u : State => (u.requestMv u.env.setWas).setPhase .idle) h

theorem State.moveBurners_withAcc (s : State) (acc) : (s.withAcc acc).moveBurners = s.moveBurners.withAcc acc := by
  simp only [State.moveBurners, State.withAcc_env]
  cases s.env.phase with
  | idle => exact s.moveIdle_withAcc acc
  | waitSet g =>
    refine State.ite_withAcc rfl ?_
    rw [State.abandonRaise_withAcc, State.moveIdle_withAcc]
  | stepping g => exact State.ite_withAcc rfl rfl

theorem State.sendBroadcast_withAcc (s : State) (acc msg) :
    (s.withAcc acc).sendBroadcast msg = (s.sendBroadcast msg).withAcc acc := by
  unfold State.sendBroadcast
  extract_lets me n b me' n' b'
  exact State.foldl_withAcc (f := fun s p => s.updPort p (fun q => q.bridle me 0xFFFF msg b .link)) (fun _ _ => rfl) _ n'.2

theorem State.sendPace_withAcc (s : State) (acc type seq reason rate duration) :
    (s.withAcc acc).sendPace type seq reason rate duration = (s.sendPace type seq reason rate duration).withAcc acc :=
  State.sendBroadcast_withAcc s acc _

/-- The notice that goes out at tick t when a is the first reason of those that hold (R466). -/
def State.noticeNow (s : State) (t a : Nat) : OwnNotice :=
  { seq := s.env.ownSeq, rate := s.env.target, start := t, duration := s.env.noticeDur ((s.binding noticeReasons).headD a) }

theorem State.notify_withAcc (s : State) (acc t) : (s.withAcc acc).notify t = (s.notify t).withAcc acc := by
  unfold State.notify
  have hat (c : Nat) : (s.withAcc acc).reasonAt c = s.reasonAt c := rfl
  have hbind (l) : (s.withAcc acc).binding l = s.binding l := rfl
  simp only [hat, hbind, State.withAcc_env]
  refine State.ite_withAcc rfl ?_
  cases noticeReasons.filter (fun c => (s.reasonAt c).1) with
  | nil =>
    cases s.env.own with
    | some o => exact State.sendPace_withAcc { s with env := { s.env with own := none, lastSend := some t } } acc _ _ _ _ _
    | none => rfl
  | cons a l =>
    exact State.ite_withAcc (State.sendPace_withAcc { s with env := { s.env with
      own := some (s.noticeNow t a), ownSeq := (s.env.ownSeq + 1) % 16, lastSend := some t } } acc _ _ _ _ _) rfl

theorem State.sendDeals_withAcc (s : State) (acc share iseq l) :
    (s.withAcc acc).sendDeals share iseq l = (s.sendDeals share iseq l).withAcc acc := by
  induction l generalizing s with
  | nil => rfl
  | cons r l ih =>
    have hphys : (s.withAcc acc).phys r.core = s.phys r.core := rfl
    simp only [State.sendDeals, hphys]
    cases s.phys r.core with
    | some c => exact ih (s.updEnv (fun e => { e with msgs := e.msgs ++ [EnvMsg.deal c share iseq e.cur] }))
    | none => exact ih s

theorem State.deal_withAcc (s : State) (acc b ePkg spent) :
    (s.withAcc acc).deal b ePkg spent = (s.deal b ePkg spent).withAcc acc := by
  unfold State.deal
  simp only [State.withAcc_env, State.withAcc_keel, State.sendDeals_withAcc]
  split <;> rfl

/-- The target that the controller sets at a boundary (R445). -/
def State.boundaryTarget (s : State) (ePkg : Nat) : State :=
  if s.tables then { s with env := { s.env with target := s.choose ePkg } } else s

theorem State.boundaryTarget_withAcc (s : State) (acc ePkg) :
    (s.withAcc acc).boundaryTarget ePkg = (s.boundaryTarget ePkg).withAcc acc :=
  State.ite_withAcc rfl rfl

/-- What the boundary does with the rails on: limits, target, records, notices, credits and burners (R443). -/
def State.boundaryPlan (s : State) (b : Boundary) (ePkg spent short : Nat) (hi lo : Bool) : State :=
  let s := (s.moveLimits ePkg hi lo).boundaryTarget ePkg
  let s := s.mapOpen (ThrRec.addShort short) s.env.openRecs
  let s := s.records b.tick [1, 2, 3, 4, 5, 6, 7]
  let s := s.mapOpen (ThrRec.lowestPeer s.env.lowest) s.env.openRecs
  ((s.notify b.tick).deal b ePkg spent).moveBurners

theorem State.boundaryPlan_withAcc (s : State) (acc b ePkg spent short hi lo) :
    (s.withAcc acc).boundaryPlan b ePkg spent short hi lo = (s.boundaryPlan b ePkg spent short hi lo).withAcc acc := by
  simp only [State.boundaryPlan, State.moveLimits_withAcc, State.boundaryTarget_withAcc, State.mapOpen_withAcc,
    State.records_withAcc, State.notify_withAcc, State.deal_withAcc, State.moveBurners_withAcc, State.withAcc_env]

/-- The units that the reports of an interval have spent (R443). -/
def EnvSt.intervalSpent (e : EnvSt) : Nat := ((e.reports.map (·.spent)).sum) / 16

/-- The package energy of an interval (R443). -/
def State.intervalEnergy (s : State) (b : Boundary) : Nat :=
  match b.energy with
  | some uj => uj
  | none => s.env.intervalSpent + (if s.tables then (s.powerAt s.env.cur).other * 10 else 0)

/-- The interval's energy is counted, and the notices that have run out are dropped. -/
def State.boundaryStart (s : State) (b : Boundary) : State :=
  { s with env := { s.env.addEnergy (s.intervalEnergy b) with
      due := none, held := s.env.held.filter (fun h => decide (b.tick < h.expiry)) } }

/-- Whether the stalls of an interval are above the high threshold (R446). -/
def EnvSt.stallsHigh (e : EnvSt) (b : Boundary) : Bool :=
  decide (e.stallHi * (e.reports.length * b.ac) < (e.reports.map (·.stall)).sum * 256)

/-- Whether the stalls of an interval are below the low threshold (R446). -/
def EnvSt.stallsLow (e : EnvSt) (b : Boundary) : Bool :=
  decide ((e.reports.map (·.stall)).sum * 256 < e.stallLo * (e.reports.length * b.ac))
    || (e.reports.length == 0 && decide (0 < e.stallLo))

theorem State.boundaryWork_eq (s : State) (b : Boundary) :
    s.boundaryWork b = if (s.boundaryStart b).railsOn then
        (s.boundaryStart b).boundaryPlan b (s.intervalEnergy b) s.env.intervalSpent ((s.env.reports.map (·.short)).sum)
          (s.env.stallsHigh b) (s.env.stallsLow b)
      else (s.boundaryStart b).updEnv (fun e => { e with carry := e.carry + b.given, reports := [] }) := by
  unfold State.boundaryWork
  extract_lets e spent ePkg n stall short hi lo held counted start limited src aimed
  have hstart : s.boundaryStart b = start := rfl
  have henergy : s.intervalEnergy b = ePkg := rfl
  have hspent : s.env.intervalSpent = spent := rfl
  have hhi : s.env.stallsHigh b = hi := rfl
  have hlo : s.env.stallsLow b = lo := rfl
  have haimed : (start.moveLimits ePkg hi lo).boundaryTarget ePkg = aimed := rfl
  rw [hstart, henergy, hspent, hhi, hlo]
  unfold State.boundaryPlan
  rw [haimed]
  clear_value aimed start hi lo ePkg spent
  exact if_congr Iff.rfl rfl rfl

theorem State.boundaryWork_withAcc (s : State) (acc b) : (s.withAcc acc).boundaryWork b = (s.boundaryWork b).withAcc acc := by
  have hstart : (s.withAcc acc).boundaryStart b = (s.boundaryStart b).withAcc acc := rfl
  rw [State.boundaryWork_eq, State.boundaryWork_eq, hstart]
  exact State.ite_withAcc (State.boundaryPlan_withAcc _ acc b _ _ _ _ _) rfl

theorem State.boundaryLate_withAcc (s : State) (acc) : (s.withAcc acc).boundaryLate = s.boundaryLate.withAcc acc := by
  unfold State.boundaryLate
  simp only [State.withAcc_env, State.boundaryWork_withAcc]
  split <;> rfl

theorem State.closeRecs_withAcc (s : State) (acc l) : (s.withAcc acc).closeRecs l = (s.closeRecs l).withAcc acc := by
  induction l generalizing s with
  | nil => rfl
  | cons p l ih =>
    rw [State.closeRecs, State.withAcc_env, State.closeRec_withAcc, ih, State.closeRecs]

theorem State.enterKeel_withAcc (s : State) (acc) : (s.withAcc acc).enterKeel = s.enterKeel.withAcc acc := by
  have h := State.closeRecs_withAcc s.powerDown acc s.env.openRecs
  exact congrArg (fun u : State =>
    ({ u with keel := { u.keel with booting := false, stopped := false } } : State).setDev .keel .keel) h

theorem State.ancPump_withAcc (s : State) (acc l) : (s.withAcc acc).ancPump l = (s.ancPump l).withAcc acc := by
  induction l generalizing s with
  | nil => rfl
  | cons o l ih =>
    cases o with
    | extend mr kind serial fp digest => exact ih { s with anc := s.anc.extend mr kind serial fp digest }
    | _ => rfl

theorem State.ancMoored_withAcc (s : State) (acc) : (s.withAcc acc).ancMoored = s.ancMoored.withAcc acc := by
  unfold State.ancMoored
  extract_lets _ _ _ _ _ ops _ drawn
  exact State.ancPump_withAcc (drawn.1.updAnc (fun a => { a with challenge := drawn.2 })) acc ops

theorem State.unrig_withAcc (s : State) (acc) : (s.withAcc acc).unrig = s.unrig.withAcc acc := by
  unfold State.unrig
  rw [State.boundaryLate_withAcc]
  extract_lets _ _ _ _ _ _ _ _ _ down
  exact congrArg (·.setDev .moored .moored) (State.ancMoored_withAcc down acc)

theorem State.reqGo_withAcc (s : State) (acc q) : (s.withAcc acc).reqGo q = (s.reqGo q).withAcc acc := by
  unfold State.reqGo
  split
  · exact s.enterKeel_withAcc acc
  · exact s.unrig_withAcc acc
  · rfl
  · rfl

/-- A request of a transition does not look at the access at hand (R28). -/
theorem State.request_withAcc (s : State) (acc q) : (s.withAcc acc).request q = (s.request q).withAcc acc :=
  State.ite_withAcc (State.reqGo_withAcc
    (s.updKeel (fun k => { k with resDone := true, resTo := q, resStatus := if s.reqOk q then 0 else 2 })) acc q) rfl

/-! #### What a command that ignores the access at hand does -/

/-- A function of the state that does not look at the access at hand, and keeps it. -/
def AccFree (f : State → State) : Prop := ∀ (s : State) acc, f (s.withAcc acc) = (f s).withAcc acc

theorem AccFree.acc_eq {f : State → State} (h : AccFree f) (s : State) : (f s).acc = s.acc := by
  rw [show f s = (f s).withAcc s.acc from h s s.acc]
  rfl

theorem AccFree.comp {f g : State → State} (hg : AccFree g) (hf : AccFree f) : AccFree (fun s => g (f s)) :=
  fun s acc => (congrArg g (hf s acc)).trans (hg (f s) acc)

/-- An access that is not stopped ends with the access at hand as it was. -/
theorem State.access_of_stop_none {s u : State} {src core f} (h : f (s.withAcc { src, core }) = u)
    (hu : u.acc.stop = none) : s.access src core f = u.withAcc s.acc := by
  have hdef : s.access src core f = match (f (s.withAcc { src, core })).acc.stop with
    | none => (f (s.withAcc { src, core })).withAcc s.acc
    | some w => s.stopped src w := by rfl
  rw [hdef, h, hu]

theorem State.access_of_withAcc {s t : State} {src core f} (h : f (s.withAcc { src, core }) = t.withAcc { src, core })
    (ht : t.acc = s.acc) : s.access src core f = t := by
  rw [State.access_of_stop_none h rfl, ← ht]
  rfl

/-- The state with another host port. -/
def State.withHost (s : State) (h : HostSt) : State := { s with host := h }

/-- A change of the host port that depends on the port and the clock alone. -/
def HostOp (f : State → State) : Prop :=
  ∀ s t : State, s.host = t.host → s.env.ticks = t.env.ticks → f s = s.withHost (f t).host

theorem HostOp.eq_withHost {f : State → State} (h : HostOp f) (s : State) : f s = s.withHost (f s).host := h s s rfl rfl

theorem HostOp.accFree {f : State → State} (h : HostOp f) : AccFree f := by
  intro s acc
  rw [h (s.withAcc acc) s rfl rfl, h s s rfl rfl]
  rfl

theorem HostOp.id : HostOp (fun s => s) := fun _ _ h _ => h ▸ rfl

theorem HostOp.comp {f g : State → State} (hg : HostOp g) (hf : HostOp f) : HostOp (fun s => g (f s)) := by
  intro s t hh ht
  have hs : f s = s.withHost (f t).host := hf s t hh ht
  have hclock : (f s).env.ticks = (f t).env.ticks := by
    rw [hs, hf t t rfl rfl]
    exact ht
  have h : g (f s) = (f s).withHost (g (f t)).host := hg (f s) (f t) (by rw [hs]; rfl) hclock
  exact h.trans (congrArg (·.withHost (g (f t)).host) hs)

/-- The port and the clock may choose what to do. -/
theorem HostOp.bind {g : HostSt → Nat → State → State} (h : ∀ x k, HostOp (g x k)) :
    HostOp (fun s => g s.host s.env.ticks s) := by
  intro s t hh ht
  simpa only [hh, ht] using h t.host t.env.ticks s t hh ht

theorem HostOp.ite {p : HostSt → Nat → Prop} [∀ x k, Decidable (p x k)] {f g : State → State} (hf : HostOp f)
    (hg : HostOp g) : HostOp (fun s => if p s.host s.env.ticks then f s else g s) :=
  HostOp.bind (g := fun x k s => if p x k then f s else g s) (fun x k => by
    by_cases h : p x k
    · simpa only [if_pos h] using hf
    · simpa only [if_neg h] using hg)

theorem HostOp.updHost (f : HostSt → HostSt) : HostOp (fun s => s.updHost f) :=
  fun s _ hh _ => congrArg (fun h => s.withHost (f h)) hh

theorem HostOp.updSess (n f) : HostOp (fun s => s.updSess n f) :=
  HostOp.updHost (fun h => { h with sessions := sset {} h.sessions n (f (sget {} h.sessions n)) })

/-- Slot n of the port. -/
def HostSt.slot (h : HostSt) (n : Nat) : Session := sget {} h.sessions n

theorem HostOp.foldl {α : Type} {f : State → α → State} (h : ∀ a, HostOp (fun s => f s a)) (l : List α) :
    HostOp (fun s => l.foldl f s) := by
  induction l with
  | nil => exact HostOp.id
  | cons a l ih => exact HostOp.comp ih (h a)

/-! #### What the port sends -/

theorem HostOp.emitTx (d : Tx) : HostOp (fun s => s.emitTx d) :=
  HostOp.ite (p := fun x _ => x.link ≠ .up ∨ x.dup) HostOp.id
    (HostOp.ite (p := fun x k => k < x.paused) (HostOp.updHost (fun h => { h with heldTx := h.heldTx ++ [d] }))
      (HostOp.updHost (fun h => { h with sent := h.sent ++ [h.frame d] })))

/-- A session with a datagram of its own sent: `b` are its bytes and k is the clock. -/
def Session.sends (q : Session) (b : List Byte) (k : Nat) : Session :=
  { q with nextSeq := q.nextSeq + 1, owed := false, unacked := q.unacked ++ [{ seq := q.nextSeq, bytes := b, at' := k }] }

theorem HostOp.sendNow (n type body) : HostOp (fun s => s.sendNow n type body) :=
  HostOp.bind (g := fun x k s =>
      let b := dgSeal (x.slot n).txKey type n (x.slot n).nextSeq (x.slot n).expect body
      (s.updSess n (fun q => q.sends b k)).emitTx (.dgram (x.slot n).addr (x.slot n).port b))
    (fun _ _ => HostOp.comp (HostOp.emitTx _) (HostOp.updSess n _))

theorem HostOp.sendSess (n type body) : HostOp (fun s => s.sendSess n type body) :=
  HostOp.ite (p := fun x _ => !(x.slot n).isOpen) HostOp.id
    (HostOp.ite (p := fun x _ => 1024 ≤ (x.slot n).unacked.length ∨ !((x.slot n).outq.isEmpty))
      (HostOp.updSess n _) (HostOp.sendNow n type body))

theorem HostOp.sendRest (n l) : HostOp (fun s => s.sendRest n l) := by
  induction l with
  | nil => exact HostOp.updSess n _
  | cons d l ih =>
    exact HostOp.ite (p := fun x _ => 1024 ≤ (x.slot n).unacked.length) (HostOp.updSess n _)
      (HostOp.comp ih (HostOp.sendNow n d.1 d.2))

theorem HostOp.cmdDone (n id status value) : HostOp (fun s => s.cmdDone n id status value) := by
  refine HostOp.bind (g := fun x _ s => match (x.slot n).cmds.find? (fun c => c.id == id) with
    | none => s
    | some c => (s.updSess n (fun q => { q with cmds := q.cmds.filter (fun c => c.id ≠ id) })).sendSess n 0x21
        (respBytes c.cmd.op status c.cmd.tag value)) (fun x _ => ?_)
  cases (x.slot n).cmds.find? (fun c => c.id == id) with
  | none => exact HostOp.id
  | some c => exact HostOp.comp (HostOp.sendSess n _ _) (HostOp.updSess n _)

theorem HostOp.cmdEnd (n id status) : HostOp (fun s => s.cmdEnd n id status) := by
  refine HostOp.bind (g := fun x _ s => match (x.slot n).cmds.find? (fun c => c.id == id) with
    | none => s
    | some c => s.cmdDone n id status (Config.freeResp c.cmd.op c.cmd.tag).toNat) (fun x _ => ?_)
  cases (x.slot n).cmds.find? (fun c => c.id == id) with
  | none => exact HostOp.id
  | some c => exact HostOp.cmdDone n id status _

theorem HostOp.resendDgrams (n) : HostOp (fun s => s.resendDgrams n) :=
  HostOp.bind (g := fun x k s => (x.slot n).unacked.foldl
      (fun (s : State) (d : Unacked) => s.emitTx (.dgram (x.slot n).addr (x.slot n).port d.bytes))
      ((s.updHost (fun h => { h with resends := cnt h.resends (x.slot n).unacked.length })).updSess n
        (fun q => { q with unacked := q.unacked.map (fun d => { d with at' := k }) })))
    (fun _ _ => HostOp.comp (HostOp.foldl (fun _ => HostOp.emitTx _) _)
      (HostOp.comp (HostOp.updSess n _) (HostOp.updHost _)))

/-- What an ACK does to its session when it is not above the next number: `run` is how often the value has come (R525). -/
def Session.acked (q : Session) (ack run : Nat) : Session :=
  { q with unacked := q.unacked.filter (fun d => decide (ack ≤ d.seq)), lastAck := ack, dupAcks := if run = 3 then 0 else run }

/-- How often in succession an ACK has come (R525). -/
def Session.ackRun (q : Session) (ack : Nat) : Nat :=
  if ack = q.nextSeq then 0 else if ack = q.lastAck then q.dupAcks + 1 else 1

theorem HostOp.takeAck (n ack) : HostOp (fun s => s.takeAck n ack) := by
  have hrest : HostOp (fun s => s.sendRest n (s.sess n).outq) :=
    HostOp.bind (g := fun x _ s => s.sendRest n (x.slot n).outq) (fun _ _ => HostOp.sendRest n _)
  refine HostOp.bind (g := fun x _ s => if (x.slot n).nextSeq < ack then s
    else
      let s := s.updSess n (fun q => q.acked ack ((x.slot n).ackRun ack))
      let s := if (x.slot n).ackRun ack = 3 then s.resendDgrams n else s
      s.sendRest n (s.sess n).outq) (fun x _ => ?_)
  by_cases hlow : (x.slot n).nextSeq < ack
  · simpa only [if_pos hlow] using HostOp.id
  · by_cases hrun : (x.slot n).ackRun ack = 3
    · simpa only [if_neg hlow, if_pos hrun] using
        HostOp.comp hrest
          (HostOp.comp (HostOp.resendDgrams n) (HostOp.updSess n (fun q => q.acked ack ((x.slot n).ackRun ack))))
    · simpa only [if_neg hlow, if_neg hrun] using
        HostOp.comp hrest (HostOp.updSess n (fun q => q.acked ack ((x.slot n).ackRun ack)))

theorem HostOp.tookHeader (d : Dgram) : HostOp (fun s => s.tookHeader d) :=
  HostOp.comp (HostOp.takeAck d.sess d.ack) (HostOp.updSess d.sess _)

theorem HostOp.updCmd (n id f) : HostOp (fun s => s.updCmd n id f) := HostOp.updSess n _

theorem HostOp.badDgram : HostOp State.badDgram := HostOp.updHost _

/-! #### Commands of a session -/

theorem State.sess_updSess_same (s : State) (n f) : (s.updSess n f).sess n = f (s.sess n) :=
  sget_sset_same s.host.sessions n (f (s.sess n))

theorem State.updSess_congr {s : State} {n f g} (h : f (s.sess n) = g (s.sess n)) : s.updSess n f = s.updSess n g := by
  simp only [State.updSess, h]

theorem sendKnot_accFree (m : KMsg) : AccFree (fun s => s.sendKnot m) := fun _ _ => State.ite_withAcc rfl rfl

theorem State.rxDgram_of_takes {s : State} {type d pt} (h : s.Takes type d pt) (body : State → List Byte → State) :
    s.rxDgram type d body = body (s.tookHeader d) pt := by
  obtain ⟨hhears, hform, hopen, hseq⟩ := h
  simp only [State.rxDgram, hhears, hform, hopen, hseq, lt_irrefl, if_false, Bool.not_true, Bool.false_eq_true]
  rfl

theorem exec_cmd_eq_rxCmd : ∀ r ∈ ([(.rd32, fun o => !([2, 3, 4, 5, 6].contains o)), (.wr32, fun o => o == 2),
      (.write, fun o => o == 3), (.read, fun o => o == 4), (.knot, fun o => o == 5), (.state, fun o => o == 6)] :
      List ((DgramHead → Sealed → Instr) × (Nat → Bool))),
    ∀ (s : State) (d : Dgram), exec (r.1 d.toDgramHead d.toSealed) s = .next (s.rxCmd r.2 d) := by
  intro r hr s d
  simp only [List.mem_cons, List.not_mem_nil, or_false] at hr
  rcases hr with rfl | rfl | rfl | rfl | rfl | rfl <;> rfl

theorem State.rxCmd_of_takes {s : State} {is d pt} (h : s.Takes 0x20 d pt) (hop : is (hostCmdOf pt).op = true) :
    s.rxCmd is d = s.access .host none (fun s => s.rxDgram 0x20 d (fun s b => s.takeCmd d.sess d.queue (hostCmdOf b))) := by
  obtain ⟨-, -, hopen, -⟩ := h
  simp only [State.rxCmd, hopen, Option.all_some, hop, if_true]

/-- A command that its session takes finds 64 open: it is answered FULL (R534). -/
theorem State.rxCmd_full {s : State} {is d pt} (h : s.Takes 0x20 d pt) (hop : is (hostCmdOf pt).op = true)
    (hfull : 64 ≤ ((s.tookHeader d).sess d.sess).cmds.length) :
    s.rxCmd is d = (s.tookHeader d).sendSess d.sess 0x21 (respBytes (hostCmdOf pt).op 4 (hostCmdOf pt).tag
      (Config.freeResp (hostCmdOf pt).op (hostCmdOf pt).tag).toNat) := by
  rw [State.rxCmd_of_takes h hop]
  have hsend := HostOp.comp (HostOp.sendSess d.sess 0x21 (respBytes (hostCmdOf pt).op 4 (hostCmdOf pt).tag
    (Config.freeResp (hostCmdOf pt).op (hostCmdOf pt).tag).toNat)) (HostOp.tookHeader d)
  refine State.access_of_withAcc ?_ (hsend.accFree.acc_eq s)
  have htakes : (s.withAcc { src := .host }).Takes 0x20 d pt := h
  rw [State.rxDgram_of_takes htakes, show (s.withAcc _).tookHeader d = _ from (HostOp.tookHeader d).accFree s _]
  exact (if_pos hfull).trans ((HostOp.sendSess _ _ _).accFree _ _)

/-- A command that its session takes is queued under the next id, and starts if it may (R534). -/
theorem State.rxCmd_queued {s : State} {is d pt} (h : s.Takes 0x20 d pt) (hop : is (hostCmdOf pt).op = true)
    (hroom : ((s.tookHeader d).sess d.sess).cmds.length < 64) {b : State}
    (hb : b = (s.tookHeader d).updSess d.sess (fun q => { q with
          nextId := q.nextId + 1, cmds := q.cmds ++ [{ id := q.nextId, queue := d.queue, cmd := hostCmdOf pt }] }))
    (hserved : b.served .host none (fun u => u.tryStart d.sess ((s.tookHeader d).sess d.sess).nextId) = true) :
    s.rxCmd is d = b.access .host none (fun u => u.tryStart d.sess ((s.tookHeader d).sess d.sess).nextId) := by
  rw [State.rxCmd_of_takes h hop]
  have hstop : ((b.withAcc { src := .host }).tryStart d.sess ((s.tookHeader d).sess d.sess).nextId).acc.stop = none :=
    Option.isNone_iff_eq_none.mp hserved
  have hacc : b.acc = s.acc := by
    rw [hb]
    exact (HostOp.tookHeader d).accFree.acc_eq s
  rw [State.access_of_stop_none (s := b) rfl hstop, hacc]
  refine State.access_of_stop_none ?_ hstop
  have htakes : (s.withAcc { src := .host }).Takes 0x20 d pt := h
  rw [State.rxDgram_of_takes htakes, show (s.withAcc _).tookHeader d = _ from (HostOp.tookHeader d).accFree s _, hb]
  exact if_neg (Nat.not_le.mpr hroom)

/-- The state in which a command runs: it has started, and the access at hand is the host's. -/
theorem State.access_tryStart_of_stop_none {s u : State} {n c} (hc : (s.sess n).cmds.find? (fun e => e.id == c.id) = some c)
    (hstart : (s.sess n).canStart c = true) (hu : (s.withAcc { src := .host }).startCmd n c = u) (hstop : u.acc.stop = none) :
    s.access .host none (fun s => s.tryStart n c.id) = u.withAcc s.acc := by
  refine State.access_of_stop_none ?_ hstop
  rw [← hu]
  have hc' : ((s.withAcc { src := .host }).sess n).cmds.find? (fun e => e.id == c.id) = some c := hc
  simp only [State.tryStart, hc']
  exact if_pos hstart

/-- Command c of session n has started (R534). -/
abbrev State.begun (s : State) (n : Nat) (c : CmdSt) : State := s.updCmd n c.id (fun c => { c with started := true })

theorem State.startCmd_of_plain (s : State) (n) {c : CmdSt} (hrsv : c.cmd.rsv = false) :
    s.startCmd n c = match c.cmd.op with
      | 1 => (s.begun n c).startRd32 n c
      | 2 => (s.begun n c).startWr32 n c
      | 3 => (s.begun n c).startWrite n c
      | 4 => (s.begun n c).startRead n c
      | 5 => (s.begun n c).startKnot n c
      | 6 => (s.begun n c).startState n c
      | _ => (s.begun n c).cmdEnd n c.id 3 :=
  if_neg (by rw [hrsv]; exact Bool.false_ne_true)

/-- An OP that R531 does not name, or a reserved byte (R536). -/
theorem State.startCmd_invalid (s : State) (n) {c : CmdSt} (h : c.cmd.rsv = true ∨ c.cmd.op = 0 ∨ 6 < c.cmd.op) :
    s.startCmd n c = (s.begun n c).cmdEnd n c.id 3 := by
  cases hrsv : c.cmd.rsv with
  | true => exact if_pos hrsv
  | false =>
    have hop : c.cmd.op = 0 ∨ 6 < c.cmd.op := by simpa only [hrsv, Bool.false_eq_true, false_or] using h
    rw [State.startCmd_of_plain s n hrsv]
    split
    case h_7 => rfl
    all_goals omega

section
variable {s : State} {n : Nat} {c : CmdSt}

theorem exec_hostCmdStart_of_stop_none {u : State} (hc : (s.sess n).cmds.find? (fun e => e.id == c.id) = some c)
    (hstart : (s.sess n).canStart c = true) (hu : (s.withAcc { src := .host }).startCmd n c = u) (hstop : u.acc.stop = none) :
    exec (.hostCmdStart n c.id) s = .next (u.withAcc s.acc) :=
  congrArg Host.Outcome.next (State.access_tryStart_of_stop_none hc hstart hu hstop)

/-- A command that does not look at the access at hand runs as it stands. -/
theorem exec_hostCmdStart_of_accFree {f : State → State} (hf : AccFree f)
    (hc : (s.sess n).cmds.find? (fun e => e.id == c.id) = some c) (hstart : (s.sess n).canStart c = true)
    (hrun : (s.withAcc { src := .host }).startCmd n c = f ((s.begun n c).withAcc { src := .host })) :
    exec (.hostCmdStart n c.id) s = .next (f (s.begun n c)) := by
  rw [exec_hostCmdStart_of_stop_none hc hstart (hrun.trans (hf _ _)) rfl]
  have hacc : (f (s.begun n c)).acc = s.acc := hf.acc_eq (s.begun n c)
  rw [← hacc]
  rfl

/-- A command that may not start yet waits (R534). -/
theorem exec_hostCmdStart_of_not_canStart (hc : (s.sess n).cmds.find? (fun e => e.id == c.id) = some c)
    (hwait : (s.sess n).canStart c = false) : exec (.hostCmdStart n c.id) s = .next s := by
  refine congrArg Host.Outcome.next (State.access_of_withAcc ?_ rfl)
  have hc' : ((s.withAcc { src := .host }).sess n).cmds.find? (fun e => e.id == c.id) = some c := hc
  simp only [State.tryStart, hc']
  exact if_neg (Bool.not_eq_true _ ▸ hwait)

theorem cmdEnd_accFree (n id status) : AccFree (fun s => s.cmdEnd n id status) := (HostOp.cmdEnd n id status).accFree

theorem cmdEnd_acc (s : State) (n id status) : (s.cmdEnd n id status).acc = s.acc := (cmdEnd_accFree n id status).acc_eq s

end

/-! #### Reads of control space -/

/-- The port with its counters cleared. -/
def HostSt.uncounted (h : HostSt) : HostSt :=
  { h with authFail := 0, resends := 0, rlDrops := 0, fcsErr := 0, badDgram := 0 }

/-- A read of a register: neither its value nor what it clears depends on the access at hand; the clock stays, and of the
host port it clears counters only. -/
def PlainRead (r : State → Reading) : Prop :=
  ∀ s acc, r (s.withAcc acc) = ((r s).1.withAcc acc, (r s).2) ∧ (r s).1.env.ticks = s.env.ticks
    ∧ (r s).1.host.uncounted = s.host.uncounted

theorem PlainRead.ite {c : Prop} [Decidable c] {f g : State → Reading} (hf : PlainRead f) (hg : PlainRead g) :
    PlainRead (fun s => if c then f s else g s) := by
  by_cases h : c
  · simpa only [if_pos h] using hf
  · simpa only [if_neg h] using hg

theorem balRead_plain (st off) : PlainRead (fun s => s.balRead st off) := by
  intro s acc
  unfold State.balRead
  dsimp only
  split
  all_goals exact ⟨rfl, rfl, rfl⟩

theorem stkRead_plain (st off) : PlainRead (fun s => s.stkRead st off) := by
  intro s acc
  unfold State.stkRead
  dsimp only
  split
  case h_19 => exact balRead_plain st off s acc
  all_goals exact ⟨rfl, rfl, rfl⟩

theorem seqRead_plain (c off) : PlainRead (fun s => s.seqRead c off) := by
  intro s acc
  unfold State.seqRead
  dsimp only
  split
  case h_13 => split_ifs <;> exact ⟨rfl, rfl, rfl⟩
  all_goals exact ⟨rfl, rfl, rfl⟩

theorem arrRead_plain (c off) : PlainRead (fun s => s.arrRead c off) := by
  intro s acc
  unfold State.arrRead
  dsimp only
  split
  case h_25 => split_ifs <;> exact ⟨rfl, rfl, rfl⟩
  all_goals exact ⟨rfl, rfl, rfl⟩

theorem vecRead_plain (c off) : PlainRead (fun s => s.vecRead c off) := by
  intro s acc
  unfold State.vecRead
  dsimp only
  split
  case h_14 => split_ifs <;> exact ⟨rfl, rfl, rfl⟩
  all_goals exact ⟨rfl, rfl, rfl⟩

theorem coreRead_plain (c off) : PlainRead (fun s => s.coreRead c off) :=
  PlainRead.ite (seqRead_plain c off) (PlainRead.ite (arrRead_plain c off) (vecRead_plain c off))

theorem portRead_plain (p off) : PlainRead (fun s => s.portRead p off) := by
  intro s acc
  unfold State.portRead
  dsimp only
  split
  all_goals exact ⟨rfl, rfl, rfl⟩

theorem hostRead_plain (off) : PlainRead (fun s => s.hostRead off) := by
  intro s acc
  unfold State.hostRead
  generalize leAt macBytes 4 2 = macHi
  dsimp only
  split
  case h_11 => split_ifs <;> exact ⟨rfl, rfl, rfl⟩
  all_goals exact ⟨rfl, rfl, rfl⟩

theorem ancRead_plain (off) : PlainRead (fun s => s.ancRead off) := by
  dsimp only [State.ancRead]
  repeat' apply PlainRead.ite
  all_goals exact fun s acc => ⟨rfl, rfl, rfl⟩

theorem rigRead_plain (off) : PlainRead (fun s => s.rigRead off) := by
  dsimp only [State.rigRead]
  repeat' apply PlainRead.ite
  all_goals exact fun s acc => ⟨rfl, rfl, rfl⟩

theorem ripRead_plain (off) : PlainRead (fun s => s.ripRead off) := by
  dsimp only [State.ripRead]
  repeat' apply PlainRead.ite
  all_goals exact fun s acc => ⟨rfl, rfl, rfl⟩

theorem envRead_plain (off) : PlainRead (fun s => s.envRead off) := by
  dsimp only [State.envRead]
  repeat' apply PlainRead.ite
  all_goals exact fun s acc => ⟨rfl, rfl, rfl⟩

theorem keelRead_plain (off) : PlainRead (fun s => s.keelRead off) := by
  dsimp only [State.keelRead]
  refine PlainRead.ite ?_ (PlainRead.ite ?_ (PlainRead.ite (ripRead_plain off) (envRead_plain off)))
  all_goals exact fun s acc => ⟨rfl, rfl, rfl⟩

/-- Word k of a context's registers (R440). -/
def State.ctxWord (s : State) (c k : Nat) : Reading :=
  match k with
  | 0 => (s, (s.ctx c).drain)
  | 4 => (s, (s.ctx c).hi * 0x10000 + (s.ctx c).lo)
  | 8 => (s, (s.ctx c).stateWord)
  | _ => (s.updCtx c (fun x => { x with drops := 0 }), (s.ctx c).drops)

theorem ctxWord_plain (c k) : PlainRead (fun s => s.ctxWord c k) := by
  intro s acc
  unfold State.ctxWord
  dsimp only
  split
  all_goals exact ⟨rfl, rfl, rfl⟩

theorem tethRead_plain (off) : PlainRead (fun s => s.tethRead off) := by
  refine PlainRead.ite (ctxWord_plain ((off - 0xE0000) / 16) (off % 16)) (PlainRead.ite ?_ ?_)
  · exact fun s acc => ⟨rfl, rfl, rfl⟩
  · intro s acc
    dsimp only
    split
    all_goals exact ⟨rfl, rfl, rfl⟩

theorem gonRead_plain (off) : PlainRead (fun s => s.gonRead off) := by
  dsimp only [State.gonRead]
  refine PlainRead.ite ?_ (PlainRead.ite ?_ (PlainRead.ite ?_ ?_))
  · exact fun s acc => ⟨rfl, rfl, rfl⟩
  · intro s acc
    dsimp only
    split
    all_goals exact ⟨rfl, rfl, rfl⟩
  · exact fun s acc => ⟨rfl, rfl, rfl⟩
  · intro s acc
    dsimp only
    split
    all_goals exact ⟨rfl, rfl, rfl⟩

/-- A read of any register of control space (R565). -/
theorem ctrlRead_plain (off) : PlainRead (fun s => s.ctrlRead off) := by
  have hkn : PlainRead (fun s => (s, (s.kn ((off - 0x1000000) / 16)).word (off / 4 % 4))) := fun s acc => ⟨rfl, rfl, rfl⟩
  have hpeer : PlainRead (fun s => (s, s.peerWord ((off - 0x1400000) / 32) (off / 4 % 8))) := fun s acc => ⟨rfl, rfl, rfl⟩
  exact .ite (keelRead_plain _) <| .ite (ancRead_plain _) <| .ite (rigRead_plain _) <| .ite (hostRead_plain _) <|
    .ite (portRead_plain _ _) <| .ite (tethRead_plain _) <| .ite (gonRead_plain _) <| .ite hkn <| .ite hpeer <|
    .ite (stkRead_plain _ _) (coreRead_plain _ _)

/-! #### What a session's commands become -/

theorem find?_map_of_same {α : Type} {p : α → Bool} {f : α → α} (hp : ∀ a, p (f a) = p a) (l : List α) :
    (l.map f).find? p = (l.find? p).map f := by
  rw [List.find?_map, show p ∘ f = p from funext hp]

/-- The change of the commands of a session that `updCmd` makes. -/
def onCmd (id : Nat) (f : CmdSt → CmdSt) (e : CmdSt) : CmdSt := if e.id = id then f e else e

theorem onCmd_id {id : Nat} {f : CmdSt → CmdSt} (hf : ∀ e, (f e).id = e.id) (e : CmdSt) : (onCmd id f e).id = e.id := by
  unfold onCmd
  split
  · exact hf e
  · rfl

theorem State.updCmd_sess (s : State) (n id f) :
    (s.updCmd n id f).sess n = { s.sess n with cmds := (s.sess n).cmds.map (onCmd id f) } :=
  s.sess_updSess_same n _

theorem State.updCmd_find {s : State} {n} {c : CmdSt} {f} (hf : ∀ e, (f e).id = e.id)
    (hc : (s.sess n).cmds.find? (fun e => e.id == c.id) = some c) :
    ((s.updCmd n c.id f).sess n).cmds.find? (fun e => e.id == c.id) = some (f c) := by
  rw [State.updCmd_sess, find?_map_of_same (fun e => by rw [onCmd_id hf]), hc]
  exact congrArg some (if_pos rfl)

theorem filter_map_onCmd {id : Nat} {f : CmdSt → CmdSt} (hf : ∀ e, (f e).id = e.id) (l : List CmdSt) :
    (l.map (onCmd id f)).filter (fun e => e.id ≠ id) = l.filter (fun e => e.id ≠ id) := by
  induction l with
  | nil => rfl
  | cons e l ih =>
    by_cases h : e.id = id
    · simpa [onCmd_id hf, h] using ih
    · simpa [onCmd_id hf, h, onCmd] using ih

/-- Command id of session n is gone (R531). -/
def State.dropCmd (s : State) (n id : Nat) : State :=
  s.updSess n (fun q => { q with cmds := q.cmds.filter (fun e => e.id ≠ id) })

theorem State.dropCmd_sess (s : State) (n id) :
    (s.dropCmd n id).sess n = { s.sess n with cmds := (s.sess n).cmds.filter (fun e => e.id ≠ id) } :=
  s.sess_updSess_same n _

theorem State.cmdDone_of_find {s : State} {n id status value c} (hc : (s.sess n).cmds.find? (fun e => e.id == id) = some c) :
    s.cmdDone n id status value = (s.dropCmd n id).sendSess n 0x21 (respBytes c.cmd.op status c.cmd.tag value) := by
  simp only [State.cmdDone, hc]
  rfl

theorem State.emitTx_of_hostSends {s : State} (h : s.hostSends) (d : Tx) :
    s.emitTx d = s.updHost (fun h => { h with sent := h.sent ++ [h.frame d] }) := by
  obtain ⟨hup, hdup, hpause⟩ := h
  have hlink : s.host.link = .up := by
    unfold State.hostUp at hup
    split at hup
    · assumption
    · cases hup
  have hsends : ¬(s.host.link ≠ .up ∨ s.host.dup = true) := by simp [hlink, hdup]
  exact (if_neg hsends).trans (if_neg (Nat.not_lt.mpr hpause))

/-- A session that may send takes the next number for what it sends, and it leaves at once (R525). -/
theorem State.sendSess_of_sends {s : State} {n} (h : s.sessSends n) (type body) :
    ((s.sendSess n type body).sess n).cmds = (s.sess n).cmds
      ∧ (s.sendSess n type body).host.sent = s.host.sent ++ [s.host.frame (s.nextDgram n type body)] := by
  obtain ⟨hsend, hopen, hroom, hq⟩ := h
  have hnow : s.sendSess n type body = s.sendNow n type body := by
    simp only [State.sendSess, hopen, Nat.not_le.mpr hroom, hq, Bool.not_true, Bool.false_eq_true, List.isEmpty_nil, or_self,
      if_false]
  rw [hnow]
  unfold State.sendNow
  extract_lets q b
  rw [State.emitTx_of_hostSends (s := s.updSess n _) hsend]
  have hcmds := congrArg Session.cmds (s.sess_updSess_same n (fun q => q.sends b s.env.ticks))
  exact ⟨hcmds, rfl⟩

theorem HostSt.eq_of_uncounted {g h : HostSt} (e : g.uncounted = h.uncounted) {α : Type} (p : HostSt → α)
    (hp : ∀ x : HostSt, p x.uncounted = p x) : p g = p h := by
  rw [← hp g, e, hp h]

/-- What a response to a read of control space leaves: the command is gone, and the response has been sent (R531). -/
theorem cmdDone_after_read {s u : State} {n c v op} (hc : (s.sess n).cmds.find? (fun e => e.id == c.id) = some c)
    (hsends : s.sessSends n) (hticks : u.env.ticks = (s.begun n c).env.ticks)
    (hhost : u.host.uncounted = (s.begun n c).host.uncounted) (hop : c.cmd.op = op) :
    ((u.cmdDone n c.id 0 v).sess n).cmds = (s.sess n).cmds.filter (fun e => e.id ≠ c.id)
      ∧ (u.cmdDone n c.id 0 v).host.sent = s.host.sent ++ [s.host.frame (s.nextDgram n 0x21 (respBytes op 0 c.cmd.tag v))] := by
  have hslots : u.host.sessions = (s.begun n c).host.sessions := HostSt.eq_of_uncounted hhost HostSt.sessions (fun _ => rfl)
  have hsess : u.sess n = (s.begun n c).sess n := congrArg (fun m => sget ({} : Session) m n) hslots
  have hfind : (u.sess n).cmds.find? (fun e => e.id == c.id) = some { c with started := true } := by
    rw [hsess]
    exact State.updCmd_find (f := fun c => { c with started := true }) (fun _ => rfl) hc
  have hw : (u.dropCmd n c.id).sess n = { s.sess n with cmds := (s.sess n).cmds.filter (fun e => e.id ≠ c.id) } := by
    rw [State.dropCmd_sess, hsess, State.updCmd_sess]
    dsimp only
    rw [filter_map_onCmd (f := fun c => { c with started := true }) (fun _ => rfl)]
  obtain ⟨⟨hup, hdup, hpause⟩, hopen, hroom, hq⟩ := hsends
  have hlink : u.host.link = s.host.link := HostSt.eq_of_uncounted hhost HostSt.link (fun _ => rfl)
  have hsends : (u.dropCmd n c.id).sessSends n := by
    refine ⟨⟨?_, (HostSt.eq_of_uncounted hhost HostSt.dup (fun _ => rfl)).trans hdup, ?_⟩, ?_, ?_, ?_⟩
    · exact (congrArg (fun l => match l with | LinkState.up => true | _ => false) hlink).trans hup
    · exact (HostSt.eq_of_uncounted hhost HostSt.paused (fun _ => rfl)).trans_le (hpause.trans_eq hticks.symm)
    · rw [hw]; exact hopen
    · rw [hw]; exact hroom
    · rw [hw]; exact hq
  obtain ⟨hcmds, hsent⟩ := State.sendSess_of_sends hsends 0x21 (respBytes op 0 c.cmd.tag v)
  have hframe : (u.dropCmd n c.id).host.frame = s.host.frame := HostSt.eq_of_uncounted hhost HostSt.frame (fun _ => rfl)
  have hout : (u.dropCmd n c.id).host.sent = s.host.sent := HostSt.eq_of_uncounted hhost HostSt.sent (fun _ => rfl)
  have hnext : (u.dropCmd n c.id).nextDgram n = s.nextDgram n := by
    unfold State.nextDgram
    rw [hw]
  rw [State.cmdDone_of_find hfind]
  subst hop
  refine ⟨hcmds.trans (congrArg Session.cmds hw), hsent.trans ?_⟩
  rw [hframe, hout, hnext]

theorem State.begun_withAcc (s : State) (acc n c) : (s.withAcc acc).begun n c = (s.begun n c).withAcc acc := rfl

theorem State.startWr32_of_ok {s : State} {n} {c : CmdSt} (hok : s.ctrlOk (aOff c.cmd.addr) = true) :
    s.startWr32 n c = if aOff c.cmd.addr = 0x300004 ∨ aOff c.cmd.addr = 0x300008 then
        (s.cmdEnd n c.id 0).ctrlWrite .owner (aOff c.cmd.addr) (fld 31 0 c.cmd.val)
      else (s.ctrlWrite .owner (aOff c.cmd.addr) (fld 31 0 c.cmd.val)).cmdEnd n c.id 0 :=
  if_neg (by simp only [hok, Bool.not_true, Bool.false_eq_true, not_false_iff])

theorem State.ctrlWrite_hst {s : State} {w off v} (h : off = 0x300004 ∨ off = 0x300008) :
    s.ctrlWrite w off v = s.updHost (fun x => x.write (off - 0x300000) v) := by
  rcases h with rfl | rfl <;> rfl

theorem State.hostSpan_pos {s : State} {a n} (h : s.hostSpan a n = true) : 0 < n := by
  simp only [State.hostSpan, Bool.and_eq_true, decide_eq_true_eq] at h
  omega

/-- A READ of one datagram (R533). -/
theorem State.readOut_one {s u : State} {n step} {c : CmdSt} {bs} (hpos : 0 < c.cmd.val) (hone : c.cmd.val ≤ step)
    (hread : s.readMem c.cmd.addr c.cmd.val = (u, bs, false)) :
    s.readOut n c step false (c.cmd.val / step + 2) 0
      = (u.sendSess n 0x22 (dataBytes c.cmd.tag 0 (bs.map (·.1)))).cmdEnd n c.id (if bs.any (·.2) then 5 else 0) := by
  have hlen : Nat.min step (c.cmd.val - 0) = c.cmd.val := Nat.min_eq_right hone
  rw [State.readOut, if_neg (Nat.not_le.mpr hpos), hlen, Nat.add_zero, hread]
  simp only [Bool.false_eq_true, if_false, Bool.false_or, Nat.zero_add]
  rw [State.readOut, if_pos hone]

theorem request_accFree (q) : AccFree (fun s => s.request q) := fun s acc => s.request_withAcc acc q

/-! #### The start of each command -/

section
variable {s : State} {n : Nat} {c : CmdSt} (hc : (s.sess n).cmds.find? (fun e => e.id == c.id) = some c)
  (hstart : (s.sess n).canStart c = true)
include hc hstart

theorem exec_start_invalid (h : c.cmd.rsv = true ∨ c.cmd.op = 0 ∨ 6 < c.cmd.op) :
    exec (.hostCmdStart n c.id) s = .next ((s.begun n c).cmdEnd n c.id 3) :=
  exec_hostCmdStart_of_accFree (cmdEnd_accFree n c.id 3) hc hstart (State.startCmd_invalid _ n h)

section
variable (hrsv : c.cmd.rsv = false)
include hrsv

theorem exec_start_rd32_refused (hop : c.cmd.op = 1) (hno : (s.begun n c).ctrlOk (aOff c.cmd.addr) = false) :
    exec (.hostCmdStart n c.id) s = .next ((s.begun n c).cmdEnd n c.id 1) := by
  refine exec_hostCmdStart_of_accFree (cmdEnd_accFree n c.id 1) hc hstart ?_
  simp only [State.startCmd_of_plain _ n hrsv, hop]
  exact if_neg (Bool.not_eq_true _ ▸ hno)

theorem exec_start_wr32_refused (hop : c.cmd.op = 2) (hno : (s.begun n c).ctrlOk (aOff c.cmd.addr) = false) :
    exec (.hostCmdStart n c.id) s = .next ((s.begun n c).cmdEnd n c.id 1) := by
  refine exec_hostCmdStart_of_accFree (cmdEnd_accFree n c.id 1) hc hstart ?_
  simp only [State.startCmd_of_plain _ n hrsv, hop]
  exact if_pos (Bool.not_eq_true' _ ▸ hno)

theorem exec_start_span_refused (hop : c.cmd.op = 3 ∨ c.cmd.op = 4)
    (hno : (s.begun n c).hostSpan c.cmd.addr c.cmd.val = false) :
    exec (.hostCmdStart n c.id) s = .next ((s.begun n c).cmdEnd n c.id 1) := by
  refine exec_hostCmdStart_of_accFree (cmdEnd_accFree n c.id 1) hc hstart ?_
  rcases hop with hop | hop
  all_goals
    simp only [State.startCmd_of_plain _ n hrsv, hop]
    exact if_neg (Bool.not_eq_true _ ▸ hno)

theorem exec_start_knot {op : KOp} (hop : c.cmd.op = 5) (hwin : (s.begun n c).knotWin (fld 17 0 c.cmd.arg) = true)
    (hminor : KOp.ofMinor (fld 31 28 c.cmd.arg) = some op)
    (hcheck : (s.begun n c).knotCheck op (fld 17 0 c.cmd.arg) none = none) :
    exec (.hostCmdStart n c.id) s = .next ((s.begun n c).sendKnot
      { who := .host n c.id, op, knot := fld 17 0 c.cmd.arg, arg := fld 31 0 c.cmd.val,
        err := (s.begun n c).arriveErr op (fld 17 0 c.cmd.arg) (fld 31 0 c.cmd.val), node := 94, agent := 2 }) := by
  refine exec_hostCmdStart_of_accFree (sendKnot_accFree _) hc hstart ?_
  have hwin' : ((s.withAcc { src := .host }).begun n c).knotWin (fld 17 0 c.cmd.arg) = true := hwin
  have hcheck' : ((s.withAcc { src := .host }).begun n c).knotCheck op (fld 17 0 c.cmd.arg) none = none := hcheck
  simp only [State.startCmd_of_plain _ n hrsv, hop, State.startKnot, hwin', hminor, hcheck', Bool.not_true, Bool.false_eq_true,
    if_false]
  rfl

theorem exec_start_state (hop : c.cmd.op = 6) :
    exec (.hostCmdStart n c.id) s = .next (((s.begun n c).cmdEnd n c.id
      (if (s.begun n c).reqOk (fld 2 0 c.cmd.val) then 0 else 2)).request (fld 2 0 c.cmd.val)) := by
  refine exec_hostCmdStart_of_accFree (AccFree.comp (request_accFree (fld 2 0 c.cmd.val))
    (cmdEnd_accFree n c.id (if (s.begun n c).reqOk (fld 2 0 c.cmd.val) then 0 else 2))) hc hstart ?_
  simp only [State.startCmd_of_plain _ n hrsv, hop]
  rfl

/-- An RD32 answers the register (R531, R532). -/
theorem exec_start_rd32 (hop : c.cmd.op = 1) (hok : (s.begun n c).ctrlOk (aOff c.cmd.addr) = true) (hsends : s.sessSends n) :
    ∃ t, exec (.hostCmdStart n c.id) s = .next t
      ∧ (t.sess n).cmds = (s.sess n).cmds.filter (fun e => e.id ≠ c.id)
      ∧ t.host.sent = s.host.sent ++ [s.host.frame (s.nextDgram n 0x21 (respBytes 1 0 c.cmd.tag
          ((s.begun n c).ctrlRead (aOff c.cmd.addr)).2))] := by
  have hread := ctrlRead_plain (aOff c.cmd.addr)
  refine ⟨_, exec_hostCmdStart_of_accFree (f := fun t => (t.ctrlRead (aOff c.cmd.addr)).1.cmdDone n c.id 0
    (t.ctrlRead (aOff c.cmd.addr)).2) (fun t acc => ?_) hc hstart ?_, ?_⟩
  · have hacc : (t.withAcc acc).ctrlRead (aOff c.cmd.addr) = _ := (hread t acc).1
    dsimp only
    rw [hacc]
    exact (HostOp.cmdDone n c.id 0 _).accFree _ acc
  · simp only [State.startCmd_of_plain _ n hrsv, hop]
    exact if_pos hok
  · obtain ⟨-, hticks, hhost⟩ := hread (s.begun n c) s.acc
    exact cmdDone_after_read hc hsends hticks hhost hop

/-- A WR32 writes the register, and HST_CTRL and HST_VLAN after the response (R531, R535). -/
theorem exec_start_wr32 (hop : c.cmd.op = 2) (hok : (s.begun n c).ctrlOk (aOff c.cmd.addr) = true)
    (hserved : (s.begun n c).served .host none (fun s => s.ctrlWrite .owner (aOff c.cmd.addr) (fld 31 0 c.cmd.val)) = true) :
    exec (.hostCmdStart n c.id) s = .next ((if aOff c.cmd.addr = 0x300004 ∨ aOff c.cmd.addr = 0x300008 then
        (((s.begun n c).withAcc { src := .host }).cmdEnd n c.id 0).ctrlWrite .owner (aOff c.cmd.addr) (fld 31 0 c.cmd.val)
      else (((s.begun n c).withAcc { src := .host }).ctrlWrite .owner (aOff c.cmd.addr) (fld 31 0 c.cmd.val)).cmdEnd n c.id
        0).withAcc s.acc) := by
  refine exec_hostCmdStart_of_stop_none hc hstart ?_ ?_
  · have hok' : ((s.begun n c).withAcc { src := .host }).ctrlOk (aOff c.cmd.addr) = true := hok
    simp only [State.startCmd_of_plain _ n hrsv, hop, State.begun_withAcc]
    exact State.startWr32_of_ok hok'
  · split
    next hhost =>
      rw [State.ctrlWrite_hst hhost, State.updHost_acc, cmdEnd_acc]
      rfl
    next =>
      rw [cmdEnd_acc]
      exact Option.isNone_iff_eq_none.mp hserved

/-- A WRITE without data so far waits for it (R533). -/
theorem exec_start_write (hop : c.cmd.op = 3) (hspan : (s.begun n c).hostSpan c.cmd.addr c.cmd.val = true)
    (hone : (s.sess n).cmds = [c]) (hearly : c.early = []) (hspans : c.spans = []) :
    ∃ t, exec (.hostCmdStart n c.id) s = .next t ∧ (t.sess n).cmds = [{ c with started := true }]
      ∧ t = { s with host := t.host } := by
  have hcmds : (((s.begun n c).updCmd n c.id (fun c => { c with early := [] })).sess n).cmds
      = [{ c with started := true }] := by
    rw [State.updCmd_sess, State.updCmd_sess, hone]
    simp only [List.map_cons, List.map_nil, onCmd, if_true, hearly]
  refine ⟨_, exec_hostCmdStart_of_accFree (HostOp.updCmd n c.id (fun c => { c with early := [] })).accFree hc hstart ?_,
    hcmds, rfl⟩
  simp only [State.startCmd_of_plain _ n hrsv, hop]
  refine (if_pos hspan).trans ?_
  rw [hearly]
  unfold State.writeDone State.putData
  have hcmds' : ((((s.withAcc { src := .host }).begun n c).updCmd n c.id (fun c => { c with early := [] })).sess n).cmds
      = [{ c with started := true }] := hcmds
  simp only [hcmds', List.find?_cons, beq_self_eq_true, hspans, List.nil_eq, List.cons_ne_nil, if_false]
  rfl

/-- A READ of one datagram sends its bytes and completes (R533). -/
theorem exec_start_read {u : State} {bs : List PByte} (hop : c.cmd.op = 4)
    (hspan : (s.begun n c).hostSpan c.cmd.addr c.cmd.val = true) (hone : c.cmd.val ≤ s.host.dataMax)
    (hread : ((s.begun n c).withAcc { src := .host }).readMem c.cmd.addr c.cmd.val = (u, bs, false))
    (hstop : u.acc.stop = none) :
    exec (.hostCmdStart n c.id) s = .next (((u.sendSess n 0x22 (dataBytes c.cmd.tag 0 (bs.map (·.1)))).cmdEnd n c.id
      (if bs.any (·.2) then 5 else 0)).withAcc s.acc) := by
  refine exec_hostCmdStart_of_stop_none hc hstart ?_ ?_
  · simp only [State.startCmd_of_plain _ n hrsv, hop]
    exact (if_pos hspan).trans (State.readOut_one (State.hostSpan_pos hspan) hone hread)
  · rw [cmdEnd_acc, (HostOp.sendSess n 0x22 _).accFree.acc_eq]
    exact hstop

end
end

/-! #### A write of memory leaves the host port as it is -/

@[simp] theorem State.host_ite (c : Prop) [Decidable c] (s t : State) :
    (if c then s else t).host = if c then s.host else t.host :=
  apply_ite State.host c s t

@[simp] theorem State.wakeStk_host (s : State) (st) : (s.wakeStk st).host = s.host := by simp [State.wakeStk]

@[simp] theorem State.ask_host (s : State) (st blk write) : (s.ask st blk write).host = s.host := by
  unfold State.ask
  dsimp only
  repeat' split
  all_goals simp

@[simp] theorem State.uncorr_host (s : State) (st cw kind) :
    (s.uncorr st cw kind).host = s.host := by simp [State.uncorr]

@[simp] theorem State.corr_host (s : State) (st cw) : (s.corr st cw).host = s.host := by simp [State.corr]

@[simp] theorem State.senseCw_host (s : State) (st cw kind) : (s.senseCw st cw kind).1.host = s.host := by
  simp only [State.senseCw]
  split <;> simp

@[simp] theorem State.writeCw_host (s : State) (st a bs) :
    (s.writeCw st a bs).host = s.host := by simp [State.writeCw]

@[simp] theorem State.writeCws_host (s : State) (st l x) : (s.writeCws st l x).host = s.host := by
  induction l generalizing s st x with
  | nil => simp [State.writeCws]
  | cons p t ih => simp [State.writeCws, ih]

@[simp] theorem State.tellStale_host (s : State) (l) : (s.tellStale l).host = s.host := by
  induction l generalizing s with
  | nil => rfl
  | cons p t ih => simp [State.tellStale, ih]

@[simp] theorem State.sendStale_host (s : State) (st l) :
    (s.sendStale st l).host = s.host := by simp [State.sendStale]

@[simp] theorem State.writeStk_host (s : State) (st a bs) :
    (s.writeStk st a bs).host = s.host := by simp [State.writeStk]

@[simp] theorem State.dropRanges_host (s : State) (c uid) :
    (s.dropRanges c uid).host = s.host := by simp [State.dropRanges]

@[simp] theorem State.endGuard_host (s : State) (c g) : (s.endGuard c g).host = s.host := by
  unfold State.endGuard
  split <;> simp

@[simp] theorem State.endGuards_host (s : State) (c l) : (s.endGuards c l).host = s.host := by
  induction l generalizing s with
  | nil => rfl
  | cons p t ih => simp [State.endGuards, ih]

@[simp] theorem State.endTouched_host (s : State) (copy a n l) : (s.endTouched copy a n l).host = s.host := by
  induction l generalizing s with
  | nil => rfl
  | cons p t ih => simp [State.endTouched, ih]

@[simp] theorem State.endWritten_host (s : State) (copy a n) :
    (s.endWritten copy a n).host = s.host := by simp [State.endWritten]

theorem State.writePiece_host {s t : State} {w a bs} (h : s.writePiece w a bs = some t) : t.host = s.host := by
  unfold State.writePiece at h
  dsimp only at h
  split at h
  · cases h
  · split at h <;> cases h <;> simp

@[simp] theorem State.writePieces_host (s : State) (w l bs) : (s.writePieces w l bs).1.host = s.host := by
  induction l generalizing s bs with
  | nil => rfl
  | cons p l ih =>
    rw [State.writePieces]
    split
    next t ht => rw [ih, State.writePiece_host ht]
    next => rfl

@[simp] theorem State.writeMem_host (s : State) (w a bs) :
    (s.writeMem w a bs).1.host = s.host := by simp [State.writeMem]

@[simp] theorem State.writeBytes_host (s : State) (w a bs) :
    (s.writeBytes w a bs).1.host = s.host := by simp [State.writeBytes]

/-! #### Data of a WRITE -/

/-- The body of a DATA datagram is taken (R533). -/
def State.rxData (s : State) (n : Nat) (b : List Byte) : State :=
  match (s.sess n).cmds.find? (fun c => c.cmd.op == 3 && c.cmd.tag == leAt b 0 4) with
  | some c => s.takeData n c (leAt b 8 8) (b.drop 16)
  | none => s.badDgram

theorem exec_hostData_eq (s : State) (d : Dgram) (m : Nat) :
    exec (.hostData d.toDgramHead (d.body.take m) (d.body.drop m) d.tag) s
      = .next (s.access .host none (fun s => s.rxDgram 0x22 d (fun s b => s.rxData d.sess b))) := by
  change Host.Outcome.next (s.access .host none (fun s =>
    s.rxDgram 0x22 ⟨d.toDgramHead, ⟨d.body.take m ++ d.body.drop m, d.tag⟩⟩ (fun s b => s.rxData d.sess b))) = _
  rw [List.take_append_drop]

theorem State.rxData_of_find {s : State} {d : Dgram} {pt : List Byte} {c : CmdSt}
    (hsome : ((s.tookHeader d).sess d.sess).cmds.find? (fun c => c.cmd.op == 3 && c.cmd.tag == leAt pt 0 4) = some c) :
    ((s.tookHeader d).withAcc { src := .host }).rxData d.sess pt
    = ((s.tookHeader d).withAcc { src := .host }).takeData d.sess c (leAt pt 8 8) (pt.drop 16) := by
  have hsome' : (((s.tookHeader d).withAcc { src := .host }).sess d.sess).cmds.find?
    (fun c => c.cmd.op == 3 && c.cmd.tag == leAt pt 0 4) = some c := hsome
  simp only [State.rxData, hsome']

/-- A command whose data covers an offset more (R533). -/
def CmdSt.spanned (e : CmdSt) (off : Nat) (bs : List Byte) : CmdSt :=
  { e with spans := if bs.isEmpty then e.spans else addSpan off (off + bs.length) e.spans }

/-- A command with data kept for its start (R533). -/
def CmdSt.kept (e : CmdSt) (off : Nat) (bs : List Byte) : CmdSt := { e with early := e.early ++ [(off, bs)] }

theorem State.takeData_of_fits {s : State} {n off} {c : CmdSt} {bs : List Byte} (h : off + bs.length ≤ c.cmd.val) :
    s.takeData n c off bs = if c.started then
        ((s.updCmd n c.id (fun e => e.spanned off bs)).putData n c [(off, bs)]).writeDone n c.id
      else (s.updCmd n c.id (fun e => e.spanned off bs)).updCmd n c.id (fun e => e.kept off bs) :=
  if_neg (Nat.not_lt.mpr h)

theorem State.updCmd_withAcc (s : State) (acc n id f) : (s.withAcc acc).updCmd n id f = (s.updCmd n id f).withAcc acc := rfl

theorem State.updCmd_congr {s : State} {n c f g} (hone : (s.sess n).cmds = [c]) (h : f c = g c) :
    s.updCmd n c.id f = s.updCmd n c.id g := by
  refine State.updSess_congr ?_
  simp only [hone, List.map_cons, List.map_nil, h]

section
variable {s : State} {d : Dgram} {m : Nat} {pt : List Byte} (h : s.Takes 0x22 d pt)
include h

theorem exec_hostData_of_stop_none {u : State} (hu : ((s.tookHeader d).withAcc { src := .host }).rxData d.sess pt = u)
    (hstop : u.acc.stop = none) :
    exec (.hostData d.toDgramHead (d.body.take m) (d.body.drop m) d.tag) s = .next (u.withAcc s.acc) := by
  rw [exec_hostData_eq]
  refine congrArg Host.Outcome.next (State.access_of_stop_none ?_ hstop)
  have htakes : (s.withAcc { src := .host }).Takes 0x22 d pt := h
  rw [State.rxDgram_of_takes htakes, show (s.withAcc _).tookHeader d = _ from (HostOp.tookHeader d).accFree s _]
  exact hu

theorem exec_hostData_of_hostOp {f : State → State} (hf : HostOp f)
    (hrun : ((s.tookHeader d).withAcc { src := .host }).rxData d.sess pt = f ((s.tookHeader d).withAcc { src := .host })) :
    exec (.hostData d.toDgramHead (d.body.take m) (d.body.drop m) d.tag) s = .next (f (s.tookHeader d)) := by
  rw [exec_hostData_of_stop_none h (hrun.trans (hf.accFree _ _)) rfl]
  have hacc : (f (s.tookHeader d)).acc = s.acc := (HostOp.comp hf (HostOp.tookHeader d)).accFree.acc_eq s
  rw [← hacc]
  rfl

/-- Data of no WRITE is counted (R533). -/
theorem exec_hostData_stray
    (hnone : ((s.tookHeader d).sess d.sess).cmds.find? (fun c => c.cmd.op == 3 && c.cmd.tag == leAt pt 0 4) = none) :
    exec (.hostData d.toDgramHead (d.body.take m) (d.body.drop m) d.tag) s = .next (s.tookHeader d).badDgram := by
  refine exec_hostData_of_hostOp h HostOp.badDgram ?_
  have hnone' : (((s.tookHeader d).withAcc { src := .host }).sess d.sess).cmds.find?
    (fun c => c.cmd.op == 3 && c.cmd.tag == leAt pt 0 4) = none := hnone
  simp only [State.rxData, hnone']

section
variable {c : CmdSt}
  (hsome : ((s.tookHeader d).sess d.sess).cmds.find? (fun c => c.cmd.op == 3 && c.cmd.tag == leAt pt 0 4) = some c)
include hsome

/-- Data beyond the length of its WRITE ends it (R536). -/
theorem exec_hostData_beyond (hlong : c.cmd.val < leAt pt 8 8 + (pt.drop 16).length) :
    exec (.hostData d.toDgramHead (d.body.take m) (d.body.drop m) d.tag) s = .next ((s.tookHeader d).cmdEnd d.sess c.id 3) := by
  refine exec_hostData_of_hostOp h (HostOp.cmdEnd d.sess c.id 3) ?_
  rw [State.rxData_of_find hsome]
  exact if_pos hlong

/-- Data of a WRITE that has not started is kept (R533). -/
theorem exec_hostData_early (hfits : leAt pt 8 8 + (pt.drop 16).length ≤ c.cmd.val) (hwait : c.started = false)
    (hone : ((s.tookHeader d).sess d.sess).cmds = [c]) :
    ∃ t, exec (.hostData d.toDgramHead (d.body.take m) (d.body.drop m) d.tag) s = .next t ∧ t = { s with host := t.host }
      ∧ ∃ e, (t.sess d.sess).cmds = [e] ∧ e.early = c.early ++ [(leAt pt 8 8, pt.drop 16)] ∧ e.cmd = c.cmd
        ∧ e.started = false := by
  have hop := HostOp.comp (HostOp.updCmd d.sess c.id (fun e => e.kept (leAt pt 8 8) (pt.drop 16)))
    (HostOp.updCmd d.sess c.id (fun e => e.spanned (leAt pt 8 8) (pt.drop 16)))
  refine ⟨_, exec_hostData_of_hostOp h hop ?_, (HostOp.comp hop (HostOp.tookHeader d)).eq_withHost s,
    (c.spanned (leAt pt 8 8) (pt.drop 16)).kept (leAt pt 8 8) (pt.drop 16), ?_, rfl, rfl, hwait⟩
  · rw [State.rxData_of_find hsome]
    rw [State.takeData_of_fits hfits]
    exact if_neg (by rw [hwait]; exact Bool.false_ne_true)
  · rw [State.updCmd_sess, State.updCmd_sess, hone]
    simp only [List.map_cons, List.map_nil, onCmd, if_true]
    exact congrArg (fun e => [e]) (if_pos rfl)

/-- The data of a WRITE that comes in one datagram is written, and completes it (R533). -/
theorem exec_hostData_whole {u : State} (hoff : leAt pt 8 8 = 0) (hlen : (pt.drop 16).length = c.cmd.val)
    (hne : pt.drop 16 ≠ []) (hstarted : c.started = true) (hspans : c.spans = [])
    (hone : ((s.tookHeader d).sess d.sess).cmds = [c])
    (hwrite : (((s.tookHeader d).updCmd d.sess c.id (fun c => { c with spans := [(0, c.cmd.val)] })).withAcc
      { src := .host }).writeBytes {} c.cmd.addr (pt.drop 16) = (u, true)) (hstop : u.acc.stop = none) :
    exec (.hostData d.toDgramHead (d.body.take m) (d.body.drop m) d.tag) s
      = .next ((u.cmdEnd d.sess c.id (if c.bad then 1 else 0)).withAcc s.acc) := by
  refine exec_hostData_of_stop_none h ?_ (by rw [cmdEnd_acc]; exact hstop)
  rw [State.rxData_of_find hsome, hoff]
  have hfits : 0 + (pt.drop 16).length ≤ c.cmd.val := by omega
  have hempty : (pt.drop 16).isEmpty = false := by rwa [List.isEmpty_eq_false_iff]
  have hspan : (s.tookHeader d).updCmd d.sess c.id (fun e => e.spanned 0 (pt.drop 16))
      = (s.tookHeader d).updCmd d.sess c.id (fun c => { c with spans := [(0, c.cmd.val)] }) :=
    State.updCmd_congr hone (by
      simp only [CmdSt.spanned, hempty, Bool.false_eq_true, if_false, hspans, addSpan, Nat.zero_add, hlen])
  have hhost : u.host = _ := (congrArg (fun r : State × Bool => r.1.host) hwrite).symm.trans (State.writeBytes_host _ _ _ _)
  have hcmds : (u.sess d.sess).cmds = [{ c with spans := [(0, c.cmd.val)] }] := by
    refine (congrArg (fun x : HostSt => (x.slot d.sess).cmds) hhost).trans ?_
    refine (congrArg Session.cmds (State.updCmd_sess _ d.sess c.id _)).trans ?_
    rw [hone]
    exact congrArg (fun e => [e]) (if_pos rfl)
  rw [State.takeData_of_fits hfits, if_pos hstarted, State.updCmd_withAcc, hspan]
  simp only [State.putData, Nat.add_zero, hwrite, if_true]
  unfold State.writeDone
  simp only [hcmds, List.find?_cons, beq_self_eq_true, if_true]

end
end

/-! #### The obligation -/

/-- Settles O54: a command that ignores the access at hand runs as it stands (`access_of_withAcc`), and one that reads or writes
memory, when it is served, keeps what it left but the access at hand (`access_of_stop_none`). -/
theorem hostCommands : Obligations.HostCommands := by
  unfold Obligations.HostCommands
  intro s
  refine ⟨fun r hr d pt hop htakes => ?_, fun n c hc => ?_, fun d m pt htakes => ?_⟩
  · refine ⟨fun hfull => ?_, fun hroom hserved => ?_⟩
    · rw [exec_cmd_eq_rxCmd r hr, State.rxCmd_full htakes hop hfull]
    · rw [exec_cmd_eq_rxCmd r hr, State.rxCmd_queued htakes hop hroom rfl hserved]
      rfl
  · refine ⟨exec_hostCmdStart_of_not_canStart hc, fun hstart => ⟨exec_start_invalid hc hstart, fun hrsv => ?_⟩⟩
    exact ⟨exec_start_rd32_refused hc hstart hrsv, exec_start_rd32 hc hstart hrsv, exec_start_wr32_refused hc hstart hrsv,
      exec_start_wr32 hc hstart hrsv, exec_start_write hc hstart hrsv, exec_start_span_refused hc hstart hrsv,
      fun u bs => exec_start_read hc hstart hrsv, fun op => exec_start_knot hc hstart hrsv, exec_start_state hc hstart hrsv⟩
  · refine ⟨exec_hostData_stray htakes, fun c hsome => ⟨exec_hostData_beyond htakes hsome, ?_, fun u => ?_⟩⟩
    · exact exec_hostData_early htakes hsome
    · exact exec_hostData_whole htakes hsome

end Sys2Proof.Machine
end

section
/-! The register files (O7), and scalar accesses that straddle two codewords (O14, O15). -/

namespace Sys2Proof.Machine

open Sys2Proof

@[simp] theorem StreamSt.a_setS (t : StreamSt) (r : Nat) (v : W64) : (t.setS r v).a = t.a := by
  unfold StreamSt.setS
  split <;> rfl

@[simp] theorem StreamSt.p_setS (t : StreamSt) (r : Nat) (v : W64) : (t.setS r v).p = t.p := by
  unfold StreamSt.setS
  split <;> rfl

@[simp] theorem StreamSt.s_setP (t : StreamSt) (r : Nat) (v : Bool) : (t.setP r v).s = t.s := by
  unfold StreamSt.setP
  split <;> rfl

@[simp] theorem StreamSt.a_setP (t : StreamSt) (r : Nat) (v : Bool) : (t.setP r v).a = t.a := by
  unfold StreamSt.setP
  split <;> rfl

/-- Settles O7: each register file is a finite map, and the fixed registers s0 and p0 are apart from it. -/
theorem registerFilesReadWhatWasWritten : Obligations.RegisterFilesReadWhatWasWritten := by
  unfold Obligations.RegisterFilesReadWhatWasWritten
  intro t r q v b
  exact ⟨t.getS_setS r q v, t.a_setS r v, t.p_setS r v, t.getP_setP r q b, t.s_setP r b, t.a_setP r b,
    t.getA_setA r q v, rfl, rfl⟩

/-! ### Accesses that straddle two codewords (R21, R84, R306) -/

/-- A running core whose scratch holds nothing, on a device that is ALOFT with ID 5: s1 holds 0x1122 and a3 names offset 0
of space 0. -/
def straddleCore : Core :=
  { sa := { state := .running, s := [(1, 0x1122)], a := [(3, 0x0005_0000_0000_0000)] } }

/-- A region whose local base is 63, the last byte of codeword 0 of stack 0; codeword 1 is poisoned. -/
def straddleState : State :=
  { State.reset with
    keel := { state := .aloft, target := .aloft },
    cores := [(0, straddleCore)],
    teth := { self := 5 },
    rig := { live := { bind := [(0, 1)], regions := [{ base := 0, size := 2 ^ 40, lbase := 63, set := 1, gran := 8 }] } },
    stks := [(0, { state := .ready, poisoned := [1] })] }

/-- An access with D = s1 and A = a3, at offset 0. -/
def straddleWord : InsnW := { low := BitVec.ofNat 48 (1 * 2 ^ 43 + 3 * 2 ^ 38) }

/-- The state a command leads to. -/
def State.ran (s : State) (e : Instr) : State :=
  match exec e s with
  | .next t => t
  | _ => s

theorem State.ran_of_exec {s t : State} {e : Instr} (h : exec e s = .next t) : s.ran e = t := by
  simp only [State.ran, h]

/-- Refutes O14: in a state whose live copy places a region at a byte that starts no codeword, an aligned access of two bytes
reads two codewords, while the statement asks for no error in the first of them alone. With the second one poisoned, the load
returns 0xFF for the byte in it. -/
theorem not_scalarLoadsOfThePackage : ¬ Obligations.ScalarLoadsOfThePackage := by
  unfold Obligations.ScalarLoadsOfThePackage
  intro h
  have hload := h.1 (.ld16u, 2, false) (by simp [loadRows]) 0 .a straddleWord straddleState
    (by decide) (by decide) (by decide) (by decide) (by decide) (by decide) (by decide) (by decide)
  obtain ⟨t, hexec, hloads, -⟩ := hload.2 (by decide)
  have hran := State.ran_of_exec hexec
  rw [← hran] at hloads
  revert hloads
  decide

/-- Refutes O15: in the same state the store of two bytes writes the clean codeword, and the byte in the poisoned one keeps its
value. -/
theorem not_scalarStoresOfThePackage : ¬ Obligations.ScalarStoresOfThePackage := by
  unfold Obligations.ScalarStoresOfThePackage
  intro h
  obtain ⟨t, hexec, -, -, hbytes, -⟩ := h (.st16, 2) (by simp [storeRows]) 0 .a straddleWord straddleState
    (by decide) (by decide) (by decide) (by decide) (by decide) (by decide) (by decide)
  have hwritten := hbytes (by decide)
  rw [← State.ran_of_exec hexec] at hwritten
  revert hwritten
  decide

end Sys2Proof.Machine
end

section
/-! The scalar arithmetic and moves (O10). -/

namespace Sys2Proof.Machine

open Sys2Proof

/-! ### The functions of R82 -/

theorem shl64_eq (a b : W64) : shl64 a b = a <<< b.toNat := by
  unfold shl64
  split
  · rfl
  · exact (BitVec.shiftLeft_eq_zero (by omega)).symm

theorem shr64_eq (a b : W64) : shr64 a b = a >>> b.toNat := by
  unfold shr64
  split
  · rfl
  · exact (BitVec.ushiftRight_eq_zero (by omega)).symm

theorem sra64_eq (a b : W64) : sra64 a b = a.sshiftRight b.toNat := by
  unfold sra64
  by_cases h : b.toNat ≤ 64
  · rw [show Nat.min b.toNat 64 = b.toNat from Nat.min_eq_left h]
  · rw [show Nat.min b.toNat 64 = 64 from Nat.min_eq_right (by omega)]
    refine BitVec.eq_of_getElem_eq fun i hi => ?_
    simp only [BitVec.getElem_sshiftRight]
    rw [dif_neg (by omega), dif_neg (by omega)]

theorem sgn_lt_iff (a b : W64) : sgn a < sgn b ↔ a.slt b = true := BitVec.slt_iff_toInt_lt.symm

theorem sgn_le_iff (a b : W64) : sgn a ≤ sgn b ↔ b.slt a = false := by
  rw [← Bool.not_eq_true, ← sgn_lt_iff, Int.not_lt]

theorem min64_eq (a b : W64) : (if sgn a ≤ sgn b then a else b) = if a.slt b then a else b := by
  by_cases h : sgn a = sgn b
  · rw [BitVec.eq_of_toInt_eq h, ite_self, ite_self]
  · exact if_congr (by rw [← sgn_lt_iff]; omega) rfl rfl

theorem max64_eq (a b : W64) : (if sgn a ≤ sgn b then b else a) = if a.slt b then b else a := by
  by_cases h : sgn a = sgn b
  · rw [BitVec.eq_of_toInt_eq h, ite_self, ite_self]
  · exact if_congr (by rw [← sgn_lt_iff]; omega) rfl rfl

theorem minu64_eq (a b : W64) : (if a.toNat ≤ b.toNat then a else b) = if a < b then a else b := by
  by_cases h : a.toNat = b.toNat
  · rw [BitVec.eq_of_toNat_eq h, ite_self, ite_self]
  · exact if_congr (by rw [BitVec.lt_def]; omega) rfl rfl

theorem maxu64_eq (a b : W64) : (if a.toNat ≤ b.toNat then b else a) = if a < b then b else a := by
  by_cases h : a.toNat = b.toNat
  · rw [BitVec.eq_of_toNat_eq h, ite_self, ite_self]
  · exact if_congr (by rw [BitVec.lt_def]; omega) rfl rfl

theorem div64_eq (a b : W64) : div64 a b = if b = 0 then 0 else a.sdiv b := by
  unfold div64 w64 sgn
  split
  · next h => subst h; simp
  · exact BitVec.eq_of_toInt_eq (by rw [BitVec.toInt_ofInt, BitVec.toInt_sdiv])

theorem divu64_eq (a b : W64) : divu64 a b = if b = 0 then 0 else a / b := by
  unfold divu64
  split
  · next h => subst h; simp
  · exact BitVec.eq_of_toNat_eq (by
      rw [BitVec.toNat_ofNat, BitVec.toNat_udiv, Nat.mod_eq_of_lt]
      exact Nat.lt_of_le_of_lt (Nat.div_le_self _ _) a.isLt)

theorem rem64_eq (a b : W64) : rem64 a b = if b = 0 then a else a.srem b := by
  unfold rem64 w64 sgn
  refine if_congr Iff.rfl rfl (BitVec.eq_of_toInt_eq ?_)
  rw [← BitVec.toInt_srem, BitVec.ofInt_toInt]

theorem remu64_eq (a b : W64) : remu64 a b = if b = 0 then a else a % b := by
  unfold remu64
  split
  · next h => subst h; simp
  · exact BitVec.eq_of_toNat_eq (by
      rw [BitVec.toNat_ofNat, BitVec.toNat_umod, Nat.mod_eq_of_lt]
      exact Nat.lt_of_le_of_lt (Nat.mod_le _ _) a.isLt)

/-! ### The instructions -/

/-- Each command of the rows is a scalar instruction with a function that is the row's. -/
theorem exec_aluRows : ∀ r ∈ aluRows, ∃ f : W64 → W64 → W64, (∀ c x imm w s, exec (r.1 c x imm w) s
    = .next (s.salu c x imm w f)) ∧ ∀ a b, f a b = r.2 a b := by
  unfold aluRows
  simp only [List.forall_mem_cons]
  refine ⟨⟨_, fun _ _ _ _ _ => rfl, fun _ _ => rfl⟩, ⟨_, fun _ _ _ _ _ => rfl, fun _ _ => rfl⟩,
    ⟨_, fun _ _ _ _ _ => rfl, fun _ _ => rfl⟩, ⟨_, fun _ _ _ _ _ => rfl, fun _ _ => rfl⟩,
    ⟨_, fun _ _ _ _ _ => rfl, fun _ _ => rfl⟩, ⟨_, fun _ _ _ _ _ => rfl, shl64_eq⟩, ⟨_, fun _ _ _ _ _ => rfl, shr64_eq⟩,
    ⟨_, fun _ _ _ _ _ => rfl, sra64_eq⟩, ⟨_, fun _ _ _ _ _ => rfl, fun _ _ => rfl⟩,
    ⟨_, fun _ _ _ _ _ => rfl, fun _ _ => rfl⟩, ⟨_, fun _ _ _ _ _ => rfl, fun _ _ => rfl⟩,
    ⟨_, fun _ _ _ _ _ => rfl, min64_eq⟩, ⟨_, fun _ _ _ _ _ => rfl, max64_eq⟩, ⟨_, fun _ _ _ _ _ => rfl, minu64_eq⟩,
    ⟨_, fun _ _ _ _ _ => rfl, maxu64_eq⟩, fun _ h => absurd h List.not_mem_nil⟩

theorem exec_divRows : ∀ r ∈ divRows, ∃ f : W64 → W64 → W64, (∀ c x imm w s, exec (r.1 c x imm w) s
    = .next (s.saluDiv c x imm w f)) ∧ ∀ a b, f a b = r.2 a b := by
  unfold divRows
  simp only [List.forall_mem_cons]
  exact ⟨⟨_, fun _ _ _ _ _ => rfl, div64_eq⟩, ⟨_, fun _ _ _ _ _ => rfl, divu64_eq⟩, ⟨_, fun _ _ _ _ _ => rfl, rem64_eq⟩,
    ⟨_, fun _ _ _ _ _ => rfl, remu64_eq⟩, fun _ h => absurd h List.not_mem_nil⟩

theorem State.updSt_updSt (s : State) (c : Nat) (x : Stream) (f g : StreamSt → StreamSt) :
    (s.updSt c x f).updSt c x g = s.updSt c x (fun t => g (f t)) := by
  simp [State.updSt, State.updCore]

/-- A change of a stream that keeps its pc, before its instruction writes a register and ends. -/
theorem State.updSt_retS (s : State) (c : Nat) (x : Stream) (f : StreamSt → StreamSt) (r : Nat) (v : W64)
    (h : (f ((s.core c).st x)).pc = ((s.core c).st x).pc) :
    (s.updSt c x f).retS c x r v
      = s.withStream c x (((f ((s.core c).st x)).setS r v).ended (((s.core c).st x).pc + 8)) := by
  rw [State.retS, State.updSt_updSt, State.updSt_retire _ _ _ _ (by rw [StreamSt.pc_setS, h])]

theorem toNat_movh (i : Nat) (v : W64) (h : i < 2 ^ 32) :
    (BitVec.ofNat 64 (i * 2 ^ 32 + v.toNat % 2 ^ 32)).toNat / 2 ^ 32 = i
      ∧ (BitVec.ofNat 64 (i * 2 ^ 32 + v.toNat % 2 ^ 32)).toNat % 2 ^ 32 = v.toNat % 2 ^ 32 := by
  rw [BitVec.toNat_ofNat]
  omega

theorem iImmU_lt (w : InsnW) : iImmU w < 2 ^ 32 := Nat.mod_lt _ (by decide)

/-- Settles O10: each row is `State.salu` or `State.saluDiv` with the row's function, and both end their stream's instruction with
sD written. -/
theorem scalarArithmeticAndMoves : Obligations.ScalarArithmeticAndMoves := by
  unfold Obligations.ScalarArithmeticAndMoves
  refine ⟨⟨fun r hr c x imm w s hacts hok => ?_, fun r hr c x imm w s hacts hok => ?_⟩, fun c x w s =>
    ⟨fun imm hacts hok hA => ?_, fun hacts hok hA => ?_⟩⟩
  · obtain ⟨f, hexec, hf⟩ := exec_aluRows r hr
    rw [hexec, State.salu, State.issue_acts s c x w _ hacts hok, State.retS_withStream, hf]
  · obtain ⟨f, hexec, hf⟩ := exec_divRows r hr
    rw [hexec, State.saluDiv, State.issue_acts s c x w _ hacts hok, State.updSt_retS _ _ _ _ _ _ rfl, hf]
    rfl
  · refine congrArg Host.Outcome.next ?_
    rw [State.issue_acts s c x w _ hacts (by simp [hok, hA]), State.retS_withStream]
  · refine ⟨_, congrArg Host.Outcome.next ?_, toNat_movh _ _ (iImmU_lt w)⟩
    rw [State.issue_acts s c x w _ hacts (by simp [hok, hA]), State.retS_withStream]

end Sys2Proof.Machine
end

section
/-! Comparisons, predicates and addresses (O11). -/

namespace Sys2Proof.Machine

open Sys2Proof

/-! ### Comparisons -/

theorem pfld_of_lt {n : Nat} (h : n < 8) : pfld n = true := by
  simp [pfld, Nat.div_eq_of_lt h]

theorem afld_of_lt {n : Nat} (h : n < 16) : afld n = true := by
  simp [afld, Nat.div_eq_of_lt h]

theorem ccEq_eq (a b : W64) : ccEq a b = decide (a = b) := rfl

theorem ccNe_eq (a b : W64) : ccNe a b = decide (a ≠ b) := by
  unfold ccNe
  by_cases h : a = b <;> simp [h]

theorem ccLt_eq (a b : W64) : ccLt a b = a.slt b := rfl

theorem ccLe_eq (a b : W64) : ccLe a b = a.sle b := rfl

theorem ccLtu_eq (a b : W64) : ccLtu a b = a.ult b := rfl

theorem ccLeu_eq (a b : W64) : ccLeu a b = a.ule b := rfl

/-- Both forms of each row are comparisons with a function that is the row's. -/
theorem exec_cmpRows : ∀ r ∈ cmpRows, ∃ f : W64 → W64 → Bool, (∀ c x w s, exec (r.1 c x w) s = .next (s.cmp c x w f))
    ∧ (∀ c x w s, exec (r.2.1 c x w) s = .next (s.cmpi c x w f)) ∧ ∀ a b, f a b = r.2.2 a b := by
  unfold cmpRows
  simp only [List.forall_mem_cons]
  exact ⟨⟨_, fun _ _ _ _ => rfl, fun _ _ _ _ => rfl, ccEq_eq⟩, ⟨_, fun _ _ _ _ => rfl, fun _ _ _ _ => rfl, ccNe_eq⟩,
    ⟨_, fun _ _ _ _ => rfl, fun _ _ _ _ => rfl, ccLt_eq⟩, ⟨_, fun _ _ _ _ => rfl, fun _ _ _ _ => rfl, ccLe_eq⟩,
    ⟨_, fun _ _ _ _ => rfl, fun _ _ _ _ => rfl, ccLtu_eq⟩, ⟨_, fun _ _ _ _ => rfl, fun _ _ _ _ => rfl, ccLeu_eq⟩,
    fun _ h => absurd h List.not_mem_nil⟩

theorem exec_predRows : ∀ r ∈ predRows, ∃ f : Bool → Bool → Bool, (∀ c x w s, exec (r.1 c x w) s = .next (s.plog c x w f))
    ∧ ∀ a b, f a b = r.2 a b := by
  unfold predRows
  simp only [List.forall_mem_cons]
  exact ⟨⟨_, fun _ _ _ _ => rfl, fun _ _ => rfl⟩, ⟨_, fun _ _ _ _ => rfl, fun _ _ => rfl⟩,
    ⟨_, fun _ _ _ _ => rfl, fun _ _ => rfl⟩, ⟨_, fun _ _ _ _ => rfl, fun _ _ => rfl⟩,
    fun _ h => absurd h List.not_mem_nil⟩

/-! ### Addresses -/

theorem aOff_eq_mod (a : Nat) : aOff a = a % 2 ^ 44 := by
  simp [aOff, fld]

theorem aDev_eq_div (a : W64) : aDev a.toNat = a.toNat / 2 ^ 48 := by
  have := a.isLt
  simp [aDev, fld, Nat.shiftRight_eq_div_pow]
  omega

theorem offOut_offSum (a : W64) (i : Int) : offOut (offSum a i)
    = decide ((a.toNat : Int) % 2 ^ 44 + i < 0 ∨ (2 : Int) ^ 44 ≤ (a.toNat : Int) % 2 ^ 44 + i) := by
  simp only [offOut, offSum, aOff_eq_mod, ← Bool.decide_or]
  norm_num

/-- The sum of an address keeps bits [63:44] and moves the offset modulo 2^44 (R83). -/
theorem toNat_offAdd (a : W64) (i : Int) : (offAdd a i).toNat / 2 ^ 44 = a.toNat / 2 ^ 44
    ∧ (((offAdd a i).toNat % 2 ^ 44 : Nat) : Int) = ((a.toNat : Int) + i) % 2 ^ 44 := by
  have ha := a.isLt
  have hw : wrap 44 (offSum a i) < 2 ^ 44 ∧ ((wrap 44 (offSum a i) : Nat) : Int) = ((a.toNat : Int) + i) % 2 ^ 44 := by
    unfold wrap offSum
    rw [aOff_eq_mod]
    omega
  rw [offAdd]
  generalize wrap 44 (offSum a i) = n at hw
  simp only [BitVec.toNat_ofNat]
  omega

/-- A word of fields that do not overlap reads them back. -/
theorem toNat_setDev (d a : Nat) (hd : d < 2 ^ 16) :
    (BitVec.ofNat 64 (d * 2 ^ 48 + a % 2 ^ 48)).toNat / 2 ^ 48 = d
      ∧ (BitVec.ofNat 64 (d * 2 ^ 48 + a % 2 ^ 48)).toNat % 2 ^ 48 = a % 2 ^ 48 := by
  rw [BitVec.toNat_ofNat]
  omega

theorem toNat_setSpace (a : W64) (p : Nat) (hp : p < 2 ^ 4) :
    let v := BitVec.ofNat 64 (aDev a.toNat * 2 ^ 48 + p * 2 ^ 44 + aOff a.toNat)
    v.toNat / 2 ^ 48 = a.toNat / 2 ^ 48 ∧ v.toNat / 2 ^ 44 % 16 = p ∧ v.toNat % 2 ^ 44 = a.toNat % 2 ^ 44 := by
  have ha := a.isLt
  simp only [BitVec.toNat_ofNat, aOff_eq_mod, aDev_eq_div]
  omega

theorem iw_lt (w : InsnW) (hi lo : Nat) : iw w hi lo < 2 ^ (hi + 1 - lo) := Nat.mod_lt _ (Nat.two_pow_pos _)

theorem State.updSt_retA (s : State) (c : Nat) (x : Stream) (f : StreamSt → StreamSt) (r : Nat) (v : W64)
    (h : (f ((s.core c).st x)).pc = ((s.core c).st x).pc) :
    (s.updSt c x f).retA c x r v
      = s.withStream c x (((f ((s.core c).st x)).setA r v).ended (((s.core c).st x).pc + 8)) := by
  rw [State.retA, State.updSt_updSt]
  exact State.updSt_retire s c x (fun t => (f t).setA r v) h

theorem State.retOff_withStream (s : State) (c : Nat) (x : Stream) (w : InsnW) (i : Int) :
    s.retOff c x w i = s.withStream c x (((((s.core c).st x).aovfIf
      (offOut (offSum (((s.core c).st x).getA (iA w)) i))).setA (iD w)
      (offAdd (((s.core c).st x).getA (iA w)) i)).ended (((s.core c).st x).pc + 8)) := by
  unfold State.retOff
  exact State.updSt_retA s c x _ _ _ rfl

/-- Settles O11: each row is a comparison or a function of predicates, and the address instructions assemble their fields. -/
theorem comparisonsPredicatesAndAddresses : Obligations.ComparisonsPredicatesAndAddresses := by
  unfold Obligations.ComparisonsPredicatesAndAddresses
  refine ⟨⟨fun r hr c x w s => ?_, fun r hr c x w s hacts hok hD hA hB => ?_⟩, fun c x w s => ⟨fun i e he hD hA => ?_,
    fun hacts hz hD => ?_, fun hacts hz hA => ?_, fun hacts hD hA => ⟨fun hok hz => ?_, fun hok hz => ?_, fun hz hself => ?_⟩⟩⟩
  · obtain ⟨f, hexec, hexeci, hf⟩ := exec_cmpRows r hr
    refine ⟨fun hacts hok hD => ?_, fun hacts hok hD => ?_⟩
    · rw [hexec, State.cmp, State.issue_acts s c x w _ hacts (by simp [hok, pfld_of_lt hD]), State.retP_withStream, hf]
    · rw [hexeci, State.cmpi, State.issue_acts s c x w _ hacts (by simp [hok, pfld_of_lt hD]), State.retP_withStream, hf]
      rfl
  · obtain ⟨f, hexec, hf⟩ := exec_predRows r hr
    rw [hexec, State.plog, State.issue_acts s c x w _ hacts (by simp [hok, pfld_of_lt hD, pfld_of_lt hA, pfld_of_lt hB]),
      State.retP_withStream, hf]
  · refine ⟨offAdd (((s.core c).st x).getA (iA w)) i, ?_, toNat_offAdd _ i⟩
    rcases he with ⟨rfl, rfl, hacts, hok⟩ | ⟨rfl, rfl, hacts, hok⟩
    · refine congrArg Host.Outcome.next ?_
      rw [State.issue_acts s c x w _ hacts (by simp [hok, afld_of_lt hD, afld_of_lt hA]), State.retOff_withStream,
        offOut_offSum]
      rfl
    · refine congrArg Host.Outcome.next ?_
      rw [State.issue_acts s c x w _ hacts (by simp [hok, afld_of_lt hD, afld_of_lt hA]), State.retOff_withStream,
        offOut_offSum]
      rfl
  · refine congrArg Host.Outcome.next ?_
    rw [State.issue_acts s c x w _ hacts (by simp [hz, afld_of_lt hD]), State.retA_withStream]
  · refine congrArg Host.Outcome.next ?_
    rw [State.issue_acts s c x w _ hacts (by simp [hz, afld_of_lt hA]), State.retS_withStream]
  · refine ⟨_, congrArg Host.Outcome.next ?_, toNat_setDev _ _ (iw_lt w 15 0)⟩
    rw [State.issue_acts s c x w _ hacts (by simp [hok, hz, afld_of_lt hD, afld_of_lt hA]), State.retA_withStream]
  · refine ⟨_, congrArg Host.Outcome.next ?_, toNat_setSpace _ _ (iw_lt w 3 0)⟩
    rw [State.issue_acts s c x w _ hacts (by simp [hok, hz, afld_of_lt hD, afld_of_lt hA]), State.retA_withStream]
  · refine ⟨_, congrArg Host.Outcome.next ?_, toNat_setDev _ _ hself⟩
    rw [State.issue_acts s c x w _ hacts (by simp [hz, afld_of_lt hD, afld_of_lt hA]), State.retA_withStream]

end Sys2Proof.Machine
end

section
/-! The control instructions (O12). -/

namespace Sys2Proof.Machine

open Sys2Proof

/-! ### Fields that are 0 -/

theorem iw_eq (w : InsnW) (hi lo : Nat) : iw w hi lo = w.low.toNat / 2 ^ lo % 2 ^ (hi + 1 - lo) := by
  rw [iw, fld, Nat.shiftRight_eq_div_pow]

/-- A field above a bit is 0 when all bits from that one on are. -/
theorem iw_eq_zero_of_high {w : InsnW} {n : Nat} (h : iw w 47 n = 0) (hn : n ≤ 47) (hi lo : Nat) (hlo : n ≤ lo) :
    iw w hi lo = 0 := by
  have hlow := w.low.isLt
  have hsmall : w.low.toNat < 2 ^ n := by
    rw [iw_eq, Nat.mod_eq_of_lt] at h
    · exact (Nat.div_eq_zero_iff_lt (Nat.two_pow_pos n)).mp h
    · rw [Nat.div_lt_iff_lt_mul (Nat.two_pow_pos n), ← Nat.pow_add]
      rwa [show 47 + 1 - n + n = 48 by omega]
  rw [iw_eq, Nat.div_eq_of_lt (hsmall.trans_le (Nat.pow_le_pow_right (by decide) hlo)), Nat.zero_mod]

/-- The zero bits of NOP, SYNCI and HALT. -/
theorem fmtJ_and_immU_of_zero {w : InsnW} (h : iw w 47 0 = 0) : (fmtJ w && iImmU w == 0) = true := by
  simp [fmtJ, iImmU, iw_eq_zero_of_high h (by omega) _ _ (Nat.zero_le _)]

/-- The zero bits of EVENT. -/
theorem fmtJ_and_high_of_zero {w : InsnW} (h : iw w 47 16 = 0) : (fmtJ w && iw w 31 16 == 0) = true := by
  simp [fmtJ, iw_eq_zero_of_high h (by omega) _ 32 (by omega), iw_eq_zero_of_high h (by omega) _ 16 (by omega)]

theorem fmtJ_of_zero {w : InsnW} (h : iw w 47 32 = 0) : fmtJ w = true := by
  simp [fmtJ, h]

/-! ### Streams -/

theorem State.withStream_updSt (s : State) (c : Nat) (x : Stream) (u : StreamSt) (f : StreamSt → StreamSt) :
    (s.withStream c x u).updSt c x f = s.withStream c x (f u) := by
  simp only [State.withStream, State.updSt, State.updCore, State.core_setCore, State.setCore_setCore]
  cases x <;> rfl

/-- A jump to an instruction in scratch. -/
theorem State.jump_to {s : State} {c : Nat} {x : Stream} {pc : Int} (before : State → State) (h0 : 0 ≤ pc) (h1 : pc < 0x400000)
    (h8 : pc % 8 = 0) : s.jump c x pc before = (before s).goto c x pc.toNat := by
  rw [State.jump, if_neg (by omega)]

/-- A jump elsewhere raises FETCH_FAULT. -/
theorem State.jump_out {s : State} {c : Nat} {x : Stream} {pc : Int} (before : State → State)
    (h : pc < 0 ∨ 0x400000 ≤ pc ∨ pc % 8 ≠ 0) : s.jump c x pc before = s.raise c x 0x08 := by
  rw [State.jump, if_pos h]

/-- FENCE waits for none of its classes when what each bit of it names is complete. -/
theorem State.fence_open_isEmpty {s : State} {c : Nat} {x : Stream} {n : Nat}
    (h : ∀ b < 5, n.testBit b = true → s.fenceOk c x b = true) :
    ((setBits 5 n).filter (fun b => !(s.fenceOk c x b))).isEmpty = true := by
  rw [List.isEmpty_iff, List.filter_eq_nil_iff]
  intro b hb
  rw [setBits, List.mem_filter, List.mem_range] at hb
  simp [h b hb.1 hb.2]

/-- Settles O12: an instruction that acts does its body, and each body ends the instruction, waits or raises as R81 says. -/
theorem controlInstructions : Obligations.ControlInstructions := by
  unfold Obligations.ControlInstructions
  refine ⟨fun c x w s => ⟨fun hacts hz => ⟨?_, ?_, ?_⟩, fun hacts hz => ?_, fun hacts hz h0 h1 h8 => ⟨?_, ?_⟩,
    fun hacts hok hD hB h1 h8 => ?_, fun hacts hz hout => ⟨?_, ?_⟩, fun hacts hok hD hB hout => ?_⟩,
    fun c x w s => ⟨fun hacts hz hn => ?_, fun hacts hz h17 h9 => ?_, fun hacts hz h5 hdone => ?_⟩⟩ <;>
    refine congrArg Host.Outcome.next ?_
  · rw [State.issue_acts s c x w _ hacts (fmtJ_and_immU_of_zero hz), State.retire_withStream]
  · rw [State.issue_acts s c x w _ hacts (fmtJ_and_immU_of_zero hz), State.retire_withStream]
  · rw [State.issue_acts s c x w _ hacts (fmtJ_and_immU_of_zero hz), State.retire_withStream, State.withStream_updSt]
  · rw [State.issue_acts s c x w _ hacts (fmtJ_and_high_of_zero hz), State.retire_withStream]
    rfl
  · rw [State.issue_acts s c x w _ hacts (fmtJ_of_zero hz), State.target, State.jump_to _ h0 h1 h8]
    rfl
  · rw [State.issue_acts s c x w _ hacts (fmtJ_of_zero hz), State.target, State.jump_to _ h0 h1 h8, State.updSt_goto]
  · rw [State.issue_acts s c x w _ hacts (by simp [hok, hD, hB]), State.jump_to _ (by omega) (by omega) (by omega)]
    rfl
  · rw [State.issue_acts s c x w _ hacts (fmtJ_of_zero hz), State.target, State.jump_out _ hout]
  · rw [State.issue_acts s c x w _ hacts (fmtJ_of_zero hz), State.target, State.jump_out _ hout]
  · rw [State.issue_acts s c x w _ hacts (by simp [hok, hD, hB]), State.jump_out _ (by omega)]
  · rw [State.issue_acts s c x w _ hacts (by simp [fmtJ_of_zero hz, hn])]
    rfl
  · rw [State.issue_acts s c x w _ hacts (by simp [fmtJ_of_zero hz, h17, h9])]
    rfl
  · rw [State.issue_acts s c x w _ hacts (by simp [fmtJ_of_zero hz, h5])]
    simp only [State.fence_open_isEmpty hdone, if_true, State.retire_withStream]

end Sys2Proof.Machine
end

section
/-! What every scalar instruction has in common (O8), and the addresses that a scalar access refuses (O16). -/

namespace Sys2Proof.Machine

open Sys2Proof

/-! ### The common part of an instruction (R72, R74, R76) -/

/-- A command is the common part of an instruction with some body, or that as an access of its core. -/
def IssuesAt (c : Nat) (x : Stream) (w : InsnW) (e : Instr) : Prop :=
  ∃ ok srcs body, (∀ s, exec e s = .next (s.issue c x w ok srcs body))
    ∨ ∀ s, exec e s = .next (s.coreAccess c (fun s => s.issue c x w ok srcs body))

/-- Every scalar, memory, reel, credit or knot instruction. -/
theorem issuesAt_of_mem_scalarInsns : ∀ i ∈ scalarInsns, ∀ c x w, IssuesAt c x w (i c x w) := by
  unfold scalarInsns
  simp only [List.forall_mem_cons]
  iterate 75 refine ⟨fun c x w => ⟨_, _, _, .inl fun _ => rfl⟩, ?_⟩
  iterate 11 refine ⟨fun c x w => ⟨_, _, _, .inr fun _ => rfl⟩, ?_⟩
  iterate 13 refine ⟨fun c x w => ⟨_, _, _, .inl fun _ => rfl⟩, ?_⟩
  exact fun _ h => absurd h List.not_mem_nil

section
variable {c : Nat} {x : Stream} {w : InsnW} {e : Instr} (he : IssuesAt c x w e) {s t : State} (hacc : t.acc = s.acc)
include he hacc

/-- What the common part does before the body, whatever the body is, is what the instruction does. -/
theorem IssuesAt.exec_eq (h : ∀ acc ok srcs body, (s.withAcc acc).issue c x w ok srcs body = t.withAcc acc) :
    exec e s = .next t := by
  obtain ⟨ok, srcs, body, hexec | hexec⟩ := he
  · rw [hexec]
    refine congrArg Host.Outcome.next ((h s.acc ok srcs body).trans ?_)
    rw [← hacc]
    rfl
  · rw [hexec]
    exact congrArg Host.Outcome.next (State.access_of_withAcc (h _ ok srcs body) hacc)

end

/-- Settles O8: the cases of `State.issue` before its body, which no access at hand changes. -/
theorem predicatedOffAndFaultyFetches : Obligations.PredicatedOffAndFaultyFetches := by
  unfold Obligations.PredicatedOffAndFaultyFetches
  intro i hi c x w s
  have he := issuesAt_of_mem_scalarInsns i hi c x w
  refine ⟨fun hcan hpc hstale => ⟨fun hoff => ?_, fun hon hrsv => ?_⟩, fun hcan hpc => ?_, fun hcan => ?_⟩
  · exact he.exec_eq rfl fun acc _ _ body => State.issue_off (s.withAcc acc) c x w body hcan hpc hstale hoff
  · exact he.exec_eq rfl fun acc _ _ body => State.issue_illegal (s.withAcc acc) c x w body hcan hpc hstale hon (by rw [hrsv]; rfl)
  · exact he.exec_eq rfl fun acc _ _ body => State.issue_fetch (s.withAcc acc) c x w body hcan hpc
  · exact he.exec_eq rfl fun acc _ _ body => State.issue_not (s.withAcc acc) c x w body hcan

/-! ### Scalar accesses (R84, R85) -/

theorem exec_loadRows : ∀ r ∈ loadRows, ∀ c x w s, exec (r.1 c x w .ok) s
    = .next (s.coreAccess c (fun s => s.load c x w .ok r.2.1 r.2.2)) := by
  unfold loadRows
  simp only [List.forall_mem_cons]
  iterate 7 refine ⟨fun _ _ _ _ => rfl, ?_⟩
  exact fun _ h => absurd h List.not_mem_nil

theorem exec_storeRows : ∀ r ∈ storeRows, ∀ c x w s, exec (r.1 c x w) s
    = .next (s.coreAccess c (fun s => s.store c x w r.2)) := by
  unfold storeRows
  simp only [List.forall_mem_cons]
  iterate 4 refine ⟨fun _ _ _ _ => rfl, ?_⟩
  exact fun _ h => absurd h List.not_mem_nil

theorem State.locate_withAcc (s : State) (acc : AccSt) (g : Nat) : (s.withAcc acc).locate g = s.locate g := rfl

theorem State.scalarFault_congr {s t : State} (a : W64) (i : Int) (n : Nat) (h : ∀ g, t.locate g = s.locate g) :
    t.scalarFault a i n = s.scalarFault a i n := by
  unfold State.scalarFault
  simp only [h]

section
variable {s : State} {c : Nat} {x : Stream} {w : InsnW} {n code : Nat} {a : W64} (hok : fmtM w = true)
  (ha : ((s.core c).st x).getA (iA w) = a) (hfault : s.scalarFault a (iImm w) n = some code)
include hok ha hfault

theorem State.load_faults (e : Ecc) (signed : Bool) (h : s.Acts c x w []) : s.load c x w e n signed = s.raise c x code := by
  rw [State.load, State.issue_acts s c x w _ h hok]
  simp only [ha, hfault]

theorem State.store_faults (h : s.Acts c x w [iD w]) : s.store c x w n = s.raise c x code := by
  rw [State.store, State.issue_acts s c x w _ h hok]
  simp only [ha, hfault]

theorem State.coreAccess_load_faults (e : Ecc) (signed : Bool) (h : s.Acts c x w []) :
    s.coreAccess c (fun s => s.load c x w e n signed) = s.raise c x code := by
  refine State.access_of_withAcc (f := fun s => s.load c x w e n signed) ?_ rfl
  exact State.load_faults (s := s.withAcc { src := .core (s.logNum c), core := some c }) hok ha
    ((State.scalarFault_congr _ _ _ (State.locate_withAcc s _)).trans hfault) e signed h

theorem State.coreAccess_store_faults (h : s.Acts c x w [iD w]) :
    s.coreAccess c (fun s => s.store c x w n) = s.raise c x code := by
  refine State.access_of_withAcc (f := fun s => s.store c x w n) ?_ rfl
  exact State.store_faults (s := s.withAcc { src := .core (s.logNum c), core := some c }) hok ha
    ((State.scalarFault_congr _ _ _ (State.locate_withAcc s _)).trans hfault) h

end

/-! ### The order of the checks (log entry 106) -/

theorem offOut_eq_true {i : Int} (h : i < 0 ∨ 2 ^ 44 ≤ i) : offOut i = true := by
  simp only [offOut, Bool.or_eq_true, decide_eq_true_eq]
  exact h

theorem offOut_eq_false {i : Int} (h0 : 0 ≤ i) (h1 : i < 2 ^ 44) : offOut i = false := by
  simp only [offOut, Bool.or_eq_false_iff, decide_eq_false_iff_not]
  exact ⟨not_lt.mpr h0, not_le.mpr h1⟩

theorem State.scalarFault_carry {s : State} {a : W64} {i : Int} (n : Nat) (h : offSum a i < 0 ∨ 2 ^ 44 ≤ offSum a i) :
    s.scalarFault a i n = some 0x02 := by
  simp only [State.scalarFault, offOut_eq_true h, if_true]

theorem State.scalarFault_align {s : State} {a : W64} {i : Int} {n : Nat} (h0 : 0 ≤ offSum a i) (h1 : offSum a i < 2 ^ 44)
    (hmis : (offAdd a i).toNat % n ≠ 0) : s.scalarFault a i n = some 0x03 := by
  simp only [State.scalarFault, offOut_eq_false h0 h1, Bool.false_eq_true, if_false, if_pos hmis]

theorem State.scalarFault_addr {s : State} {a : W64} {i : Int} {n : Nat} (h0 : 0 ≤ offSum a i) (h1 : offSum a i < 2 ^ 44)
    (hmis : (offAdd a i).toNat % n = 0) (haddr : aDev (offAdd a i).toNat = 0xFFFF ∨ aSpace (offAdd a i).toNat = 15) :
    s.scalarFault a i n = some 0x02 := by
  have hbad : aDev (offAdd a i).toNat = 0xFFFF ∨ aSpace (offAdd a i).toNat = 15 ∨ badSpaceOff (offAdd a i).toNat = true :=
    haddr.elim .inl fun h => .inr (.inl h)
  simp only [State.scalarFault, offOut_eq_false h0 h1, Bool.false_eq_true, if_false, if_neg (not_not.mpr hmis), if_pos hbad]

/-- Settles O16: `State.scalarFault` names the exception before anything of the access is done. -/
theorem scalarAccessesThatTrap : Obligations.ScalarAccessesThatTrap := by
  unfold Obligations.ScalarAccessesThatTrap
  intro c x w s n e he hok
  have htrap (code : Nat) (hfault : s.scalarFault (((s.core c).st x).getA (iA w)) (iImm w) n = some code) :
      exec e s = .next (s.raise c x code) := by
    rcases he with ⟨hmem, hacts⟩ | ⟨hmem, hacts⟩
    · obtain ⟨r, hr, hre⟩ := List.mem_filterMap.mp hmem
      split at hre
      · next hn =>
        cases hre
        subst hn
        rw [exec_loadRows r hr, State.coreAccess_load_faults hok rfl hfault .ok r.2.2 hacts]
      · cases hre
    · obtain ⟨r, hr, hre⟩ := List.mem_filterMap.mp hmem
      split at hre
      · next hn =>
        cases hre
        subst hn
        rw [exec_storeRows r hr, State.coreAccess_store_faults hok rfl hfault hacts]
      · cases hre
  exact ⟨fun hout => htrap _ (State.scalarFault_carry n hout), fun h0 h1 hmis => htrap _ (State.scalarFault_align h0 h1 hmis),
    fun h0 h1 hmis haddr => htrap _ (State.scalarFault_addr h0 h1 hmis haddr)⟩

end Sys2Proof.Machine
end

section
/-! The registers of the sequencer's window (O17, O18) and the REEL instructions (O19). -/

namespace Sys2Proof.Machine

open Sys2Proof

/-! ### Bytes of stores -/

/-- A state with the memories of another has its bytes. -/
theorem State.cell_congr {s t : State} (hs : ∀ i, (t.stk i).mem = (s.stk i).mem)
    (hc : ∀ j, (t.core j).scratch = (s.core j).scratch ∧ (t.core j).loft = (s.core j).loft
      ∧ (t.core j).spool = (s.core j).spool) : ∀ p, t.cell p = s.cell p := by
  intro p
  cases p with
  | stack i a => simp only [State.cell, hs]
  | scratch j o => simp only [State.cell, (hc j).1]
  | loft j o => simp only [State.cell, (hc j).2.1]
  | spool j o => simp only [State.cell, (hc j).2.2]
  | bad | ctrl | remote => rfl

theorem State.core_updCore_stores (s : State) (c : Nat) {f : Core → Core}
    (hf : ∀ k : Core, (f k).scratch = k.scratch ∧ (f k).loft = k.loft ∧ (f k).spool = k.spool) (j : Nat) :
    ((s.updCore c f).core j).scratch = (s.core j).scratch ∧ ((s.updCore c f).core j).loft = (s.core j).loft
      ∧ ((s.updCore c f).core j).spool = (s.core j).spool := by
  by_cases h : j = c
  · rw [h, State.core_updCore]
    exact hf _
  · rw [State.core_updCore_other s c f h]
    exact ⟨rfl, rfl, rfl⟩

theorem State.cell_updCore (s : State) (c : Nat) {f : Core → Core}
    (hf : ∀ k : Core, (f k).scratch = k.scratch ∧ (f k).loft = k.loft ∧ (f k).spool = k.spool) :
    ∀ p, (s.updCore c f).cell p = s.cell p :=
  State.cell_congr (fun _ => rfl) (s.core_updCore_stores c hf)

/-! ### Writes of a core's window -/

theorem Core.poke_eq (k : Core) : k.poke = { k with waking := k.asleep || k.waking } := by
  unfold Core.poke
  split
  · next h => rw [show (k.asleep || k.waking) = true by rw [h]; rfl]
  · next h => rw [show (k.asleep || k.waking) = k.waking by rw [Bool.eq_false_iff.mpr h]; rfl]

theorem Core.st_poke (k : Core) (x : Stream) : k.poke.st x = k.st x := by
  rw [Core.poke_eq]
  cases x <;> rfl

theorem Core.reel_poke (k : Core) (r : Nat) : k.poke.reel r = k.reel r := by
  rw [Core.poke_eq]
  unfold Core.reel
  split <;> rfl

@[simp] theorem Core.reel_setReel (k : Core) (r : Nat) (q : Reel) : (k.setReel r q).reel r = q := by
  unfold Core.setReel Core.reel
  split <;> rfl

theorem Core.setReel_stores (k : Core) (r : Nat) (q : Reel) : (k.setReel r q).scratch = k.scratch
    ∧ (k.setReel r q).loft = k.loft ∧ (k.setReel r q).spool = k.spool := by
  unfold Core.setReel
  split <;> exact ⟨rfl, rfl, rfl⟩

/-- The core of a window that can be written, after the write. -/
theorem State.core_coreWrite {s : State} {c : Nat} (h : s.coreWin c = true) (f : Core → Core) :
    (s.coreWrite c f).core c = (f (s.core c)).poke := by
  rw [State.coreWrite, if_pos h, State.core_updCore]

theorem State.core_coreWrite_other (s : State) (c : Nat) (f : Core → Core) {j : Nat} (h : j ≠ c) :
    (s.coreWrite c f).core j = s.core j := by
  unfold State.coreWrite
  split
  · exact State.core_updCore_other s c _ h
  · rfl

/-- A write of a window changes cores alone. -/
theorem State.coreWrite_eq (s : State) (c : Nat) (f : Core → Core) :
    s.coreWrite c f = { s with cores := (s.coreWrite c f).cores } := by
  unfold State.coreWrite
  split <;> rfl

theorem State.cell_coreWrite (s : State) (c : Nat) {f : Core → Core}
    (hf : ∀ k : Core, (f k).scratch = k.scratch ∧ (f k).loft = k.loft ∧ (f k).spool = k.spool) :
    ∀ p, (s.coreWrite c f).cell p = s.cell p := by
  unfold State.coreWrite
  split
  · exact s.cell_updCore c fun k => by rw [Core.poke_eq]; exact hf k
  · exact fun _ => rfl

/-! ### SEQ_CTRL (R111) -/

/-- Two states of a stream with one pc and the same registers. -/
def StreamSt.SameRegs (t u : StreamSt) : Prop := u.s = t.s ∧ u.a = t.a ∧ u.p = t.p ∧ u.pc = t.pc

theorem StreamSt.sameRegs_start (t : StreamSt) : t.SameRegs t.start := by
  unfold StreamSt.start
  split <;> exact ⟨rfl, rfl, rfl, rfl⟩

theorem StreamSt.sameRegs_stop (t : StreamSt) : t.SameRegs t.stop := by
  unfold StreamSt.stop
  dsimp only
  split
  · exact ⟨rfl, rfl, rfl, rfl⟩
  · split <;> exact ⟨rfl, rfl, rfl, rfl⟩
  · exact ⟨rfl, rfl, rfl, rfl⟩

theorem StreamSt.sameRegs_ctrl (hold : Bool) (t : StreamSt) (i v : Nat) : t.SameRegs (t.ctrl hold i v) := by
  unfold StreamSt.ctrl
  split
  · exact t.sameRegs_stop
  · split
    · split
      · exact ⟨rfl, rfl, rfl, rfl⟩
      · exact t.sameRegs_start
    · exact ⟨rfl, rfl, rfl, rfl⟩

theorem StreamSt.state_start {t : StreamSt} (h : t.state = .halted ∨ t.state = .exception) : t.start.state = .running := by
  unfold StreamSt.start
  rcases h with h | h <;> simp only [h]

theorem StreamSt.exc_start {t : StreamSt} (h : t.state = .exception) : t.start.excCode = 0 ∧ t.start.excPc = 0 := by
  simp only [StreamSt.start, h, and_self]

theorem StreamSt.start_eq_self {t : StreamSt} (h : t.state = .running ∨ t.state = .waiting) : t.start = t := by
  unfold StreamSt.start
  rcases h with h | h <;> simp only [h]

theorem StreamSt.state_stop {t : StreamSt} (h : t.state = .running) : t.stop.state = .halted := by
  simp only [StreamSt.stop, h]

section
variable {hold : Bool} {t : StreamSt} {i v : Nat}

theorem StreamSt.ctrl_stop (h : v.testBit (i + 2) = true) : t.ctrl hold i v = { t.stop with startReq := false } :=
  if_pos h

theorem StreamSt.ctrl_start (hstop : v.testBit (i + 2) = false) (hstart : v.testBit i = true) : t.ctrl false i v = t.start := by
  simp [StreamSt.ctrl, bit, hstop, hstart]

theorem StreamSt.ctrl_held (hstop : v.testBit (i + 2) = false) (hstart : v.testBit i = true) : t.ctrl true i v
    = { t with startReq := t.startReq || t.state == .halted || t.state == .exception } := by
  simp [StreamSt.ctrl, bit, hstop, hstart]

/-- A start that is held back changes no stream that runs or waits. -/
theorem StreamSt.ctrl_held_eq_self (hstop : v.testBit (i + 2) = false) (hstart : v.testBit i = true)
    (h : t.state = .running ∨ t.state = .waiting) : t.ctrl true i v = t := by
  have hreq : (t.startReq || t.state == .halted || t.state == .exception) = t.startReq := by
    rcases h with h | h <;> rw [h] <;> exact (Bool.or_false _).trans (Bool.or_false _)
  rw [StreamSt.ctrl_held hstop hstart, hreq]

theorem StreamSt.ctrl_held_startReq (hstop : v.testBit (i + 2) = false) (hstart : v.testBit i = true)
    (h : t.state = .halted ∨ t.state = .exception) : (t.ctrl true i v).startReq = true := by
  rw [StreamSt.ctrl_held hstop hstart]
  rcases h with h | h <;> simp [h]

theorem StreamSt.ctrl_none (hstop : v.testBit (i + 2) = false) (hstart : v.testBit i = false) : t.ctrl hold i v = t := by
  simp [StreamSt.ctrl, bit, hstop, hstart]

end

theorem Core.st_seqCtrl (k : Core) (v : Nat) (x : Stream) : (k.seqCtrl v).st x = (k.st x).ctrl k.startHold (sNum x) v := by
  cases x <;> rfl

theorem exec_seqCtrlRows : ∀ r ∈ seqCtrlRows, ∀ c v s, exec (r.1 c v) s
    = .next (if bit r.2 v.toNat then s.coreWrite c (fun k => k.seqCtrl v.toNat) else s) := by
  unfold seqCtrlRows
  simp only [List.forall_mem_cons]
  iterate 4 refine ⟨fun _ _ _ => rfl, ?_⟩
  exact fun _ h => absurd h List.not_mem_nil

/-- Settles O17: each of the four commands is the same write of the window, and each stream takes `StreamSt.ctrl`. -/
theorem sequencerControlWrites : Obligations.SequencerControlWrites := by
  unfold Obligations.SequencerControlWrites
  intro r hr c v s hwin hbit
  refine ⟨s.coreWrite c (fun k => k.seqCtrl v.toNat), (exec_seqCtrlRows r hr c v s).trans ?_, ?_, fun x => ?_, ?_,
    fun j hj => State.core_coreWrite_other s c _ hj, s.coreWrite_eq c _⟩
  · rw [if_pos (show bit r.2 v.toNat = true from hbit)]
  · rw [State.core_coreWrite hwin, Core.poke_eq]
    rfl
  · have hst : ((s.coreWrite c (fun k => k.seqCtrl v.toNat)).core c).st x
        = ((s.core c).st x).ctrl (s.core c).startHold (sNum x) v.toNat := by
      rw [State.core_coreWrite hwin, Core.st_poke, Core.st_seqCtrl]
    obtain ⟨hs, ha, hp, hpc⟩ := StreamSt.sameRegs_ctrl (s.core c).startHold ((s.core c).st x) (sNum x) v.toNat
    simp only [hst]
    refine ⟨hs, ha, hp, hpc, ?_, ?_, ?_, ?_, ?_, ?_⟩
    · intro hstop hstart hhold hu
      rw [hhold, StreamSt.ctrl_start hstop hstart, StreamSt.state_start hu]
    · intro hstop hstart hhold hu
      rw [hhold, StreamSt.ctrl_start hstop hstart]
      exact StreamSt.exc_start hu
    · intro hstop hstart hhold
      rw [hhold]
      exact ⟨by rw [StreamSt.ctrl_held hstop hstart], StreamSt.ctrl_held_startReq hstop hstart,
        StreamSt.ctrl_held_eq_self hstop hstart⟩
    · intro hstop hstart hhold hu
      rw [hhold, StreamSt.ctrl_start hstop hstart, StreamSt.start_eq_self hu]
    · intro hstop hu
      rw [StreamSt.ctrl_stop hstop, StreamSt.state_stop hu]
    · intro hstop hstart
      rw [StreamSt.ctrl_none hstop hstart]
  · rw [State.core_coreWrite hwin, Core.poke_eq]
    rfl

/-! ### The other registers (R113 to R116) -/

theorem Core.seqPc_busy {k : Core} {x : Stream} (h : (k.st x).state = .running ∨ (k.st x).state = .waiting) (v : Nat) :
    k.seqPc x v = { k with wrIgn := true } := by
  unfold Core.seqPc
  rcases h with h | h <;> simp only [h]

theorem Core.seqPc_idle {k : Core} {x : Stream} (h : ¬((k.st x).state = .running ∨ (k.st x).state = .waiting)) (v : Nat) :
    k.seqPc x v = k.setSt x { k.st x with pc := v / 8 % 2 ^ 19 * 8 } := by
  unfold Core.seqPc
  split
  · next hr => exact absurd (.inl hr) h
  · next hw => exact absurd (.inr hw) h
  · rw [fld, Nat.shiftRight_eq_div_pow]

theorem Core.wrIgn_setSt (k : Core) (x : Stream) (t : StreamSt) : (k.setSt x t).wrIgn = k.wrIgn := by
  cases x <;> rfl

theorem Core.seqRing_pending {k : Core} {r : Nat} (h : (k.reel r).pending ≠ 0) (v : Nat) :
    k.seqRing r v = { k with wrIgn := true } := if_pos h

theorem Core.seqRing_empty {k : Core} {r : Nat} (h : ¬(k.reel r).pending ≠ 0) (v : Nat) :
    k.seqRing r v = k.setReel r { k.reel r with sizeM1 := fld 31 24 v, base := fld 21 6 v } := if_neg h

theorem fld_31_24 (v : W32) : fld 31 24 v.toNat = v.toNat / 2 ^ 24 := by
  have := v.isLt
  rw [fld, Nat.shiftRight_eq_div_pow]
  omega

theorem fld_21_6 (v : Nat) : fld 21 6 v = v / 64 % 2 ^ 16 := by
  rw [fld, Nat.shiftRight_eq_div_pow]

/-- A new cap, what is left of the balance, and what is lost (R115). -/
theorem Core.seqCap_eq (k : Core) (v : Nat) : (k.seqCap v).cap = v ∧ (k.seqCap v).credit = Nat.min k.credit v
    ∧ (k.lost ≤ 0xFFFFFFFF → (k.seqCap v).lost = Nat.min (k.lost + (k.credit - v)) 0xFFFFFFFF) := by
  unfold Core.seqCap
  split
  · next h => exact ⟨rfl, (Nat.min_eq_right h.le).symm, fun _ => rfl⟩
  · next h =>
    refine ⟨rfl, (Nat.min_eq_left (not_lt.mp h)).symm, fun hlost => ?_⟩
    rw [Nat.sub_eq_zero_of_le (not_lt.mp h)]
    exact (Nat.min_eq_left hlost).symm

theorem fld_3_0 (v : Nat) : fld 3 0 v = v % 16 := rfl

theorem fld_7_4 (v : Nat) : fld 7 4 v = v / 16 % 16 := by
  rw [fld, Nat.shiftRight_eq_div_pow]
  rfl

/-! ### The end of guards (R324) -/

theorem State.core_dropRanges (s : State) (c u j : Nat) : (s.dropRanges c u).core j = s.core j := rfl

theorem State.core_endGuard_other (s : State) (c g : Nat) {j : Nat} (h : j ≠ c) : (s.endGuard c g).core j = s.core j := by
  unfold State.endGuard
  split
  · rfl
  · rw [State.core_dropRanges, State.core_updCore_other s c _ h]

theorem State.core_endGuard (s : State) (c g : Nat) :
    ∃ gs, (s.endGuard c g).core c = { s.core c with guards := gs } := by
  unfold State.endGuard
  split
  · exact ⟨(s.core c).guards, rfl⟩
  · exact ⟨(s.core c).guards.filter (fun p => p.1 ≠ g), by rw [State.core_dropRanges, State.core_updCore]⟩

theorem State.mem_endGuard (s : State) (c g i : Nat) : ((s.endGuard c g).stk i).mem = (s.stk i).mem := by
  unfold State.endGuard
  split
  · rfl
  · exact State.mem_dropRanges _ c _ i

theorem State.endGuard_eq (s : State) (c g : Nat) : ∃ cores stks, s.endGuard c g = { s with cores, stks } := by
  unfold State.endGuard
  split <;> exact ⟨_, _, rfl⟩

theorem State.core_endGuards_other (c : Nat) {j : Nat} (h : j ≠ c) (gs : List Nat) :
    ∀ s : State, (s.endGuards c gs).core j = s.core j := by
  induction gs with
  | nil => exact fun _ => rfl
  | cons g t ih => exact fun s => (ih _).trans (s.core_endGuard_other c g h)

theorem State.core_endGuards (c : Nat) (gs : List Nat) :
    ∀ s : State, ∃ l, (s.endGuards c gs).core c = { s.core c with guards := l } := by
  induction gs with
  | nil => exact fun _ => ⟨_, rfl⟩
  | cons g t ih =>
    intro s
    obtain ⟨l, hl⟩ := s.core_endGuard c g
    obtain ⟨l', hl'⟩ := ih (s.endGuard c g)
    exact ⟨l', hl'.trans (by rw [hl])⟩

theorem State.mem_endGuards (c i : Nat) (gs : List Nat) :
    ∀ s : State, ((s.endGuards c gs).stk i).mem = (s.stk i).mem := by
  induction gs with
  | nil => exact fun _ => rfl
  | cons g t ih => exact fun s => (ih _).trans (s.mem_endGuard c g i)

/-- The end of guards changes cores and stacks alone. -/
theorem State.endGuards_eq (c : Nat) (gs : List Nat) :
    ∀ s : State, ∃ cores stks, s.endGuards c gs = { s with cores, stks } := by
  induction gs with
  | nil => exact fun s => ⟨s.cores, s.stks, rfl⟩
  | cons g t ih =>
    intro s
    obtain ⟨cs, st, h⟩ := s.endGuard_eq c g
    obtain ⟨cs', st', h'⟩ := ih (s.endGuard c g)
    exact ⟨cs', st', h'.trans (by rw [h])⟩

theorem State.cell_endGuards (s : State) (c : Nat) (gs : List Nat) : ∀ p, (s.endGuards c gs).cell p = s.cell p :=
  State.cell_congr (fun i => State.mem_endGuards c i gs s) fun j => State.core_endGuards_stores c j gs s

theorem State.coreWin_endGuards (s : State) (c : Nat) (gs : List Nat) : (s.endGuards c gs).coreWin c = s.coreWin c := by
  obtain ⟨l, hl⟩ := State.core_endGuards c gs s
  obtain ⟨cores, stks, heq⟩ := State.endGuards_eq c gs s
  rw [State.coreWin, hl, heq]
  rfl

/-! ### SEQ_REELr_RESUME (R96, R116) -/

theorem Core.reel_seqResume_flush {r v : Nat} (h : v.testBit 1 = true) (k : Core) : (k.seqResume r v).reel r
    = { k.reel r with head := (k.reel r).tail, pending := 0, err := 0, stopped := false, prog := [], owners := [], waitCost := 0,
                      gone := (k.reel r).gone + (k.reel r).pending } := by
  simp only [Core.seqResume, bit, h, if_true, Core.reel_setReel]

theorem Core.reel_seqResume_skip {r v : Nat} (h : v.testBit 1 = false) (h0 : v.testBit 0 = true) {k : Core}
    (hstop : (k.reel r).stopped = true) : (k.seqResume r v).reel r
    = { k.reel r with head := ((k.reel r).head + 1) % ((k.reel r).sizeM1 + 1), pending := (k.reel r).pending - 1, err := 0,
                      errIdx := 0, stopped := false, owners := (k.reel r).owners.drop 1, gone := (k.reel r).gone + 1 } := by
  simp [Core.seqResume, bit, h, h0, hstop]

theorem Core.seqResume_stores (k : Core) (r v : Nat) : (k.seqResume r v).scratch = k.scratch
    ∧ (k.seqResume r v).loft = k.loft ∧ (k.seqResume r v).spool = k.spool := by
  unfold Core.seqResume
  dsimp only
  split
  · exact k.setReel_stores r _
  · split
    · exact k.setReel_stores r _
    · exact ⟨rfl, rfl, rfl⟩

/-- Settles O18: each write is a write of the window, and FLUSH ends the guards of what it discards first. -/
theorem sequencerRegisterWrites : Obligations.SequencerRegisterWrites := by
  unfold Obligations.SequencerRegisterWrites
  intro c v s hwin
  refine ⟨fun x => ⟨_, rfl, s.coreWrite_eq c _, fun j hj => s.core_coreWrite_other c _ hj, ?_⟩,
    fun r hr => ⟨s.coreWrite c (fun k => k.seqRing r v.toNat), congrArg Host.Outcome.next (if_pos hr), s.coreWrite_eq c _,
      fun j hj => s.core_coreWrite_other c _ hj, ?_⟩,
    ⟨_, rfl, s.coreWrite_eq c _, ?_⟩, ⟨_, rfl, s.coreWrite_eq c _, ?_⟩, fun r hr hflush => ?_,
    fun r hr hskip hflush hstop => ?_⟩
  · rw [State.core_coreWrite hwin, Core.st_poke]
    split
    · next hbusy =>
      rw [Core.seqPc_busy hbusy, Core.poke_eq]
      exact ⟨rfl, by cases x <;> rfl⟩
    · next hidle =>
      rw [Core.seqPc_idle hidle, Core.st_setSt, Core.poke_eq]
      exact ⟨rfl, Core.wrIgn_setSt _ _ _⟩
  · rw [State.core_coreWrite hwin, Core.reel_poke]
    split
    · next hpend =>
      rw [Core.seqRing_pending hpend, Core.poke_eq]
      exact ⟨rfl, rfl⟩
    · next hempty =>
      rw [Core.seqRing_empty hempty, Core.reel_setReel, fld_31_24, fld_21_6]
  · rw [State.core_coreWrite hwin, Core.poke_eq]
    obtain ⟨hcap, hcredit, hlost⟩ := (s.core c).seqCap_eq v.toNat
    exact ⟨hcap, hcredit, hlost, fun j hj => s.core_coreWrite_other c _ hj⟩
  · rw [State.core_coreWrite hwin, Core.poke_eq]
    exact ⟨congrArg (Nat.max 1) (fld_3_0 _), congrArg (Nat.max 1) (fld_7_4 _), rfl, rfl, rfl,
      fun j hj => s.core_coreWrite_other c _ hj⟩
  · have hexec : exec (.reelResumeFlush c r v) s
        = .next ((s.endGuards c ((s.core c).reel r).guards).coreWrite c (fun k => k.seqResume r v.toNat)) := by
      refine congrArg Host.Outcome.next ((if_pos hflush).trans ((if_pos ⟨hwin, hr⟩).trans ?_))
      rw [if_pos (show bit 1 v.toNat = true from hflush)]
      rfl
    obtain ⟨l, hl⟩ := State.core_endGuards c ((s.core c).reel r).guards s
    refine ⟨_, hexec, ?_, fun j hj => ?_, fun p => ?_⟩
    · rw [State.core_coreWrite ((s.coreWin_endGuards c _).trans hwin), Core.reel_poke, Core.reel_seqResume_flush hflush,
        hl]
      exact ⟨rfl, rfl, rfl, rfl, rfl⟩
    · exact (State.core_coreWrite_other _ c _ hj).trans (State.core_endGuards_other c hj _ s)
    · exact (State.cell_coreWrite _ c (fun k => k.seqResume_stores r v.toNat) p).trans (s.cell_endGuards c _ p)
  · have hexec : exec (.reelResumeSkip c r v) s = .next (s.coreWrite c (fun k => k.seqResume r v.toNat)) := by
      refine congrArg Host.Outcome.next ((if_pos hskip).trans ((if_pos ⟨hwin, hr⟩).trans ?_))
      rw [if_neg (show ¬bit 1 v.toNat = true from Bool.eq_false_iff.mp hflush)]
    refine ⟨_, hexec, ?_, fun j hj => s.core_coreWrite_other c _ hj, s.cell_coreWrite c fun k => k.seqResume_stores r v.toNat⟩
    rw [State.core_coreWrite hwin, Core.reel_poke, Core.reel_seqResume_skip hflush hskip hstop]
    exact ⟨rfl, rfl, rfl, rfl, rfl⟩

/-! ### REEL.GO and REEL.STAT (R94) -/

theorem Core.reel_setReel_other (k : Core) {r : Nat} (q : Reel) (hr : r < 2) : (k.setReel r q).reel (1 - r) = k.reel (1 - r) := by
  obtain rfl | rfl : r = 0 ∨ r = 1 := by omega
  · rfl
  · rfl

theorem Core.st_setReel (k : Core) (r : Nat) (q : Reel) (x : Stream) : (k.setReel r q).st x = k.st x := by
  unfold Core.setReel
  split <;> cases x <;> rfl

theorem Core.reel_setSt (k : Core) (x : Stream) (t : StreamSt) (r : Nat) : (k.setSt x t).reel r = k.reel r := by
  cases x <;> rfl

theorem Core.reel_issued (k : Core) (r : Nat) : k.issued.reel r = k.reel r := rfl

theorem Core.setSt_stores (k : Core) (x : Stream) (t : StreamSt) : (k.setSt x t).scratch = k.scratch
    ∧ (k.setSt x t).loft = k.loft ∧ (k.setSt x t).spool = k.spool := by
  cases x <;> exact ⟨rfl, rfl, rfl⟩

/-- The end of an instruction of stream x after a change of its core that leaves the stream alone. -/
theorem State.core_updCore_retire (s : State) (c : Nat) (x : Stream) (f : Core → Core) :
    ((s.updCore c f).retire c x).core c
      = ((f (s.core c)).setSt x (((f (s.core c)).st x).ended (((f (s.core c)).st x).pc + 8))).issued := by
  simp only [State.retire, State.goto, State.core_updCore]

theorem State.core_updCore_retire_other (s : State) (c : Nat) (x : Stream) (f : Core → Core) {j : Nat} (h : j ≠ c) :
    ((s.updCore c f).retire c x).core j = s.core j := by
  simp only [State.retire, State.goto, State.core_updCore_other _ _ _ h]

theorem State.cell_retire (s : State) (c : Nat) (x : Stream) : ∀ p, (s.retire c x).cell p = s.cell p :=
  s.cell_updCore c fun k => k.setSt_stores x _

/-- An instruction that acts but for a bit of R75 or R76 that is not 0 raises ILLEGAL_OP. -/
theorem State.issue_bad {s : State} {c : Nat} {x : Stream} {w : InsnW} {ok : Bool} {srcs srcs' : List Nat} (body : State → State)
    (h : s.Acts c x w srcs') (hok : ok = false) : s.issue c x w ok srcs body = s.raise c x 0x01 :=
  s.issue_illegal c x w body h.1 h.2.1 h.2.2.1 h.2.2.2.1 (by rw [hok, Bool.not_false, Bool.or_true])

theorem iw_16_16_lt (w : InsnW) : iw w 16 16 < 2 := iw_lt w 16 16

/-- A reel with n more descriptors pending, which stream x owns (R94, R116). -/
def Reel.more (q : Reel) (x : Stream) (n : Nat) : Reel :=
  { q with tail := (q.tail + n) % (q.sizeM1 + 1), pending := q.pending + n, owners := q.owners ++ List.replicate n x }

section
variable {c : Nat} {x : Stream} {w : InsnW} {s : State} (hacts : s.Acts c x w []) (hj : iw w 47 32 = 0) (h17 : iw w 31 17 = 0)
  (h9 : iw w 15 9 = 0) (h1 : 1 ≤ iw w 8 0) (h256 : iw w 8 0 ≤ 256)
include hacts hj h17 h9 h1 h256

theorem exec_reelGo_of_acts : exec (.reelGo c x w) s = .next (
    if ((s.core c).reel (iw w 16 16)).base * 64 + 64 * (((s.core c).reel (iw w 16 16)).sizeM1 + 1) > 0x400000 then s.raise c x 0x05
    else if ((s.core c).reel (iw w 16 16)).pending + iw w 8 0 > ((s.core c).reel (iw w 16 16)).sizeM1 + 1 then s.raise c x 0x07
    else (s.updCore c (fun k => k.setReel (iw w 16 16) (((s.core c).reel (iw w 16 16)).more x (iw w 8 0)))).retire c x) := by
  refine congrArg Host.Outcome.next ?_
  rw [State.issue_acts s c x w _ hacts (by simp [fmtJ, hj, h17, h9, h1, h256])]
  rfl

end

/-- Settles O19: REEL.GO changes one reel and ends its instruction, REEL.STAT writes one register. -/
theorem reelInstructions : Obligations.ReelInstructions := by
  unfold Obligations.ReelInstructions
  intro c x w s
  refine ⟨fun hacts hj h17 h9 h1 h256 hring => ⟨fun hfit => ?_, fun hfull => ?_⟩, fun hacts hok hA h17 h0 => ?_,
    fun hacts hj h17 h9 h1 h256 hring => ?_, fun hacts hbad => ?_, fun hacts hbad => ?_⟩
  · refine ⟨(s.updCore c (fun k => k.setReel (iw w 16 16) (((s.core c).reel (iw w 16 16)).more x (iw w 8 0)))).retire c x,
      (exec_reelGo_of_acts hacts hj h17 h9 h1 h256).trans ?_, ?_, ?_, ?_, ?_,
      fun j hne => State.core_updCore_retire_other s c x _ hne, rfl, ?_⟩
    · rw [if_neg (not_lt.mpr hring), if_neg (not_lt.mpr hfit)]
    · rw [State.core_updCore_retire, Core.reel_issued, Core.reel_setSt, Core.reel_setReel]
      rfl
    · rw [State.core_updCore_retire, Core.reel_issued, Core.reel_setSt, Core.reel_setReel_other _ _ (iw_16_16_lt w)]
    · rw [State.core_updCore_retire, Core.st_issued, Core.st_setSt, Core.st_setReel]
    · rw [State.core_updCore_retire, Core.st_issued, Core.st_setSt_other, Core.st_setReel]
    · exact fun p => (State.cell_retire _ c x p).trans (s.cell_updCore c (fun k => k.setReel_stores _ _) p)
  · rw [exec_reelGo_of_acts hacts hj h17 h9 h1 h256, if_neg (not_lt.mpr hring), if_pos hfull]
  · refine congrArg Host.Outcome.next ?_
    rw [State.issue_acts s c x w _ hacts (by simp [hok, hA, h17, h0]), State.retS_withStream]
    rfl
  · rw [exec_reelGo_of_acts hacts hj h17 h9 h1 h256, if_pos hring]
  · refine congrArg Host.Outcome.next (State.issue_bad _ hacts ?_)
    rw [← Bool.not_eq_true]
    simp only [fmtJ, Bool.and_eq_true, beq_iff_eq, decide_eq_true_eq]
    omega
  · refine congrArg Host.Outcome.next (State.issue_bad _ hacts ?_)
    rw [← Bool.not_eq_true]
    simp only [fmtI, Bool.and_eq_true, beq_iff_eq]
    omega

end Sys2Proof.Machine
end

section
/-! Deals, stale notices, sleep and wake (O21). -/

namespace Sys2Proof.Machine

open Sys2Proof

/-! ### Deals (R97, R99) -/

theorem Core.addCredit_over {k : Core} {n : Nat} (h : k.cap < k.credit + n) :
    k.addCredit n = { k with credit := k.cap, lost := cnt k.lost (k.credit + n - k.cap) } := if_pos h

theorem Core.addCredit_within {k : Core} {n : Nat} (h : ¬k.cap < k.credit + n) :
    k.addCredit n = { k with credit := k.credit + n } := if_neg h

theorem Core.credit_addCredit (k : Core) (n : Nat) : (k.addCredit n).credit = Nat.min (k.credit + n) k.cap := by
  by_cases h : k.cap < k.credit + n
  · rw [Core.addCredit_over h]
    exact (Nat.min_eq_right h.le).symm
  · rw [Core.addCredit_within h]
    exact (Nat.min_eq_left (not_lt.mp h)).symm

theorem Core.lost_addCredit (k : Core) (n : Nat) : (k.addCredit n).lost
    = if k.cap < k.credit + n then cnt k.lost (k.credit + n - k.cap) else k.lost := by
  unfold Core.addCredit
  dsimp only
  split <;> rfl

/-- A deal changes the balance and what is lost alone. -/
theorem Core.addCredit_eq (k : Core) (n : Nat) :
    k.addCredit n = { k with credit := (k.addCredit n).credit, lost := (k.addCredit n).lost } := by
  unfold Core.addCredit
  dsimp only
  split <;> rfl

theorem Core.waking_poke {k : Core} (h : k.asleep = true) : k.poke.waking = true := by
  rw [Core.poke_eq, h]
  rfl

theorem exec_creditDeal_of_first {s : State} {k c n a b : Nat} (hmsg : s.env.msgs[k]? = some (.deal c n a b))
    (hfirst : (s.env.msgs.take k).any (fun m => m.dealTo c) = false) (hfenced : (s.core c).fenced = false)
    (hdie : s.dieOut (dieOfCore c) = false) : exec (.creditDeal k) s
    = .next (({ s with env := { s.env with msgs := s.env.msgs.eraseIdx k } } : State).updCore c (fun q => (q.addCredit n).poke)) := by
  change Host.Outcome.next (match s.env.msgs[k]? with
    | some (.deal c n _ _) => _
    | _ => s) = _
  rw [hmsg]
  dsimp only
  rw [hfirst]
  refine congrArg Host.Outcome.next ((if_neg Bool.false_ne_true).trans (if_neg ?_))
  show ¬((s.core c).fenced || s.dieOut (dieOfCore c)) = true
  rw [hfenced, hdie]
  exact Bool.false_ne_true

/-! ### Stale notices (R322) -/

theorem Core.staleGuard_stale {k : Core} {uid : Nat} {p : Nat × Guard} (hp : p ∈ (k.staleGuard uid).guards) (huid : p.2.uid = uid)
    (hwatched : p.2.unwatched = false) : p.2.stale = true := by
  obtain ⟨q, -, hq⟩ := List.mem_map.mp hp
  split at hq
  · rw [← hq]
  · next hnot =>
    subst hq
    exact absurd ⟨huid, by rw [hwatched]; rfl⟩ hnot

theorem exec_staleNotice_of_some {s : State} {k c g : Nat} (hn : s.stale[k]? = some (c, g)) (hfenced : (s.core c).fenced = false)
    (hdie : s.dieOut (dieOfCore c) = false) : exec (.staleNotice k) s
    = .next (({ s with stale := s.stale.eraseIdx k } : State).updCore c (fun q => q.staleGuard g)) := by
  change Host.Outcome.next (match s.stale[k]? with
    | none => s
    | some n => ({ s with stale := s.stale.eraseIdx k } : State).tellStale [n]) = _
  rw [hn]
  refine congrArg Host.Outcome.next (if_neg ?_)
  show ¬((s.core c).fenced || s.dieOut (dieOfCore c)) = true
  rw [hfenced, hdie]
  exact Bool.false_ne_true

theorem Core.staleGuard_eq (k : Core) (uid : Nat) :
    k.staleGuard uid = { k with waking := k.asleep || k.waking, guards := (k.staleGuard uid).guards } := by
  unfold Core.staleGuard
  rw [Core.poke_eq]

/-! ### The statement -/

/-- Settles O21: each command changes one core by a function of its balance, its guards, or its sleep. -/
theorem messagesThatReachCores : Obligations.MessagesThatReachCores := by
  unfold Obligations.MessagesThatReachCores
  refine ⟨fun k c n a b s hmsg hfirst hfenced hdie => ?_, fun k c g s hn hfenced hdie => ?_, fun c s hruns hidle hticks => ?_,
    fun c s haloft hasleep hwaking hfenced => ?_⟩
  · refine ⟨_, exec_creditDeal_of_first hmsg hfirst hfenced hdie, rfl, ?_⟩
    rw [State.core_updCore]
    refine ⟨?_, ?_, ?_, ?_, fun j hj => State.core_updCore_other _ c _ hj, fun hasleep => ?_,
      State.cell_updCore _ c fun q => ?_⟩
    · rw [Core.poke_eq]
      exact Core.credit_addCredit _ n
    · rw [Core.poke_eq]
      exact Core.lost_addCredit _ n
    · rw [Core.poke_eq, Core.addCredit_eq]
      rfl
    · rw [Core.poke_eq, Core.addCredit_eq]
      rfl
    · refine Core.waking_poke ?_
      rw [Core.addCredit_eq]
      exact hasleep
    · rw [Core.poke_eq, Core.addCredit_eq]
      exact ⟨rfl, rfl, rfl⟩
  · refine ⟨_, exec_staleNotice_of_some hn hfenced hdie, rfl, ?_⟩
    rw [State.core_updCore]
    refine ⟨fun p hp => Core.staleGuard_stale hp, fun hasleep => ?_, fun j hj => State.core_updCore_other _ c _ hj,
      State.cell_updCore _ c fun q => ?_⟩
    · rw [Core.staleGuard_eq]
      exact (congrArg (· || _) hasleep).trans (Bool.true_or _)
    · rw [Core.staleGuard_eq]
      exact ⟨rfl, rfl, rfl⟩
  · refine ⟨s.updCore c (fun k => { k with asleep := true, waking := false, idleTicks := 0 }),
      congrArg Host.Outcome.next (if_pos ?_), ?_, fun j hj => State.core_updCore_other s c _ hj, ?_, ?_,
      s.cell_updCore c fun _ => ⟨rfl, rfl, rfl⟩⟩
    · rw [hruns, hidle, decide_eq_true hticks]
      rfl
    · rw [State.core_updCore]
    · rw [State.core_updCore]
    · rw [State.core_updCore]
  · refine ⟨s.updCore c (fun k => { k with asleep := false, waking := false, wasAwake := true, idleTicks := 0 }),
      congrArg Host.Outcome.next (if_pos ⟨haloft, hasleep, hwaking, by rw [hfenced]; rfl⟩), ?_,
      fun j hj => State.core_updCore_other s c _ hj, ?_, ?_, s.cell_updCore c fun _ => ⟨rfl, rfl, rfl⟩⟩
    · rw [State.core_updCore]
    · rw [State.core_updCore]
    · rw [State.core_updCore]

end Sys2Proof.Machine
end

section
/-! The vector instructions (O27) and the lane's instructions at issue (O25). -/

namespace Sys2Proof.Machine

open Sys2Proof

/-! ### Reads of scratch that no stale guard stops (R323) -/

/-- A read of an agent that is not stopped changes nothing. -/
theorem State.guardRead_eq_self {s : State} {c a n : Nat} (h : (s.guardRead c a n).acc.stop = none) : s.guardRead c a n = s := by
  unfold State.guardRead at h ⊢
  split
  · next hstall =>
    rw [if_pos hstall] at h
    cases h
  · rfl

theorem State.touchDesc_eq_self {s : State} {c : Nat} {a : W64} (h : (s.touchDesc c a).acc.stop = none) : s.touchDesc c a = s := by
  unfold State.touchDesc at h ⊢
  split at h
  · rfl
  · exact State.guardRead_eq_self h

theorem State.vTouch_eq_self {s : State} {c : Nat} {t : StreamSt} {op : VOp} {w : InsnW}
    (h : (s.vTouch c t op w).acc.stop = none) : s.vTouch c t op w = s := by
  unfold State.vTouch at h ⊢
  split at h
  · exact State.touchDesc_eq_self h
  · exact State.touchDesc_eq_self h
  · rfl

theorem State.touchAll_eq_self {c : Nat} (l : List Nat) :
    ∀ {s : State}, (s.touchAll c l).acc.stop = none → s.touchAll c l = s := by
  induction l with
  | nil => exact fun _ => rfl
  | cons o t ih =>
    intro s h
    have hrest : (s.scrRead c o 64).touchAll c t = s.scrRead c o 64 := ih h
    rw [State.touchAll, hrest] at h ⊢
    exact State.guardRead_eq_self h

/-- The access of an agent of core c. -/
abbrev State.agent (s : State) (c : Nat) : AccSt := { src := .core (s.logNum c), core := some c }

theorem State.stop_of_coreServed {s : State} {c : Nat} {f : State → State} (h : s.coreServed c f = true) :
    (f (s.withAcc (s.agent c))).acc.stop = none := Option.isNone_iff_eq_none.mp h

/-- An instruction of an agent that acts ends as its body does. -/
theorem State.coreAccess_acts {s t : State} {c : Nat} {x : Stream} {w : InsnW} {ok : Bool} {srcs : List Nat} {body : State → State}
    (h : s.Acts c x w srcs) (hok : ok = true) (hbody : body (s.withAcc (s.agent c)) = t.withAcc (s.agent c))
    (hacc : t.acc = s.acc) : s.coreAccess c (fun s => s.issue c x w ok srcs body) = t := by
  refine State.access_of_withAcc (f := fun s => s.issue c x w ok srcs body) ?_ hacc
  exact (State.issue_acts (s.withAcc (s.agent c)) c x w body h hok).trans hbody

/-! ### Charges (R97, R98) -/

theorem State.updCore_updCore (s : State) (c : Nat) (f g : Core → Core) :
    (s.updCore c f).updCore c g = s.updCore c (fun k => g (f k)) := by
  simp [State.updCore]

theorem State.updCore_congr {s : State} {c : Nat} {f g : Core → Core} (h : f (s.core c) = g (s.core c)) :
    s.updCore c f = s.updCore c g := by
  rw [State.updCore, State.updCore, h]

/-- A charge that the balance covers. -/
theorem State.pay_of_le {s : State} {c n : Nat} {x : Stream} (body : State → State) (hcap : n ≤ (s.core c).cap)
    (hcredit : n ≤ (s.core c).credit) : s.pay c x n body = body (s.updCore c (fun k => k.charge n)) := by
  rw [State.pay, if_neg (not_lt.mpr hcap), if_neg (not_lt.mpr hcredit)]

/-! ### The checks of a vector instruction do not look at the access at hand -/

section
variable (s : State) (acc : AccSt)

theorem State.core_withAcc (c : Nat) : (s.withAcc acc).core c = s.core c := rfl

theorem State.refusedNow_withAcc (a : Nat) : (s.withAcc acc).refusedNow a = s.refusedNow a := rfl

theorem State.remoteCheck_withAcc (ctx d : Nat) : (s.withAcc acc).remoteCheck ctx d = s.remoteCheck ctx d := rfl

theorem State.runsFault_withAcc (c : Nat) (x : Stream) (al : Nat) (l : List VRun) :
    (s.withAcc acc).runsFault c x al l = s.runsFault c x al l := by
  unfold State.runsFault
  simp only [State.refusedNow_withAcc, State.remoteCheck_withAcc, State.core_withAcc]
  rfl

theorem State.vPre_withAcc (c : Nat) (x : Stream) (op : VOp) (w : InsnW) (d : List Byte × Bool) :
    (s.withAcc acc).vPre c x op w d = s.vPre c x op w d := by
  unfold State.vPre
  simp only [State.runsFault_withAcc, State.core_withAcc]
  rfl

theorem State.vDesc_withAcc (c : Nat) (x : Stream) (op : VOp) (w : InsnW) :
    (s.withAcc acc).vDesc c x op w = s.vDesc c x op w := rfl

end

/-! ### Vector instructions (R234 to R237, R241) -/

/-- A core whose vector engine accepts instruction i of stream x for n units of credit, and whose register d awaits its result when
it returns one (R235). -/
def Core.vecTakes (k : Core) (x : Stream) (n d : Nat) (scalar : Bool) (i : VInsn) : Core :=
  let k' : Core := { k.charge n with nextTicket := k.nextTicket + 1, vec := { k.vec with queue := k.vec.queue ++ [i] } }
  if scalar then k'.setSt x ((k'.st x).await d k.nextTicket) else k'

/-- The instruction that the engine accepts. -/
def State.vecAccepts (s : State) (c : Nat) (x : Stream) (op : VOp) (w : InsnW) (d : List Byte × Bool) : VInsn :=
  vAccept ((s.core c).st x) x (s.core c).nextTicket ((s.core c).ctx x) (s.ctx ((s.core c).ctx x)).gen (s.loftAddr c 0x300000) op w d

/-- The cost of a vector instruction in units of credit (R236, R238). -/
def Core.vecCost (k : Core) (op : VOp) (w : InsnW) : Nat :=
  match vCost op w with
  | some q => k.cost' q.1 q.2.1 q.2.2
  | none => 0

section
variable {s : State} {c : Nat} {x : Stream} {op : VOp} {w : InsnW} {d : List Byte × Bool} (hacts : s.Acts c x w (vSrcs op w))
  (hserved : s.coreServed c (fun s => s.vTouch c ((s.core c).st x) op w) = true)
include hacts

theorem State.vecIssue_illegal (h : vIll op x w = true) : s.vecIssue c x op w = s.raise c x 0x01 := by
  refine State.access_of_withAcc (f := fun s => s.issue c x w _ _ _) ?_ rfl
  exact State.issue_bad (s := s.withAcc (s.agent c)) _ hacts (by rw [h]; rfl)

include hserved

theorem State.vecIssue_desc {e : Nat} (hill : vIll op x w = false) (hdesc : s.vDesc c x op w = .error e) :
    s.vecIssue c x op w = s.raise c x e := by
  refine State.coreAccess_acts hacts (by rw [hill]; rfl) ?_ rfl
  dsimp only
  rw [State.vTouch_eq_self (State.stop_of_coreServed hserved), State.vDesc_withAcc, hdesc]
  rfl

theorem State.vecIssue_faults {e : Nat} (hill : vIll op x w = false) (hdesc : s.vDesc c x op w = .ok d)
    (hcheck : (s.vPre c x op w d).or (((s.core c).st x).vTable op w d) = some e) : s.vecIssue c x op w = s.raise c x e := by
  refine State.coreAccess_acts hacts (by rw [hill]; rfl) ?_ rfl
  dsimp only
  rw [State.vTouch_eq_self (State.stop_of_coreServed hserved), State.vDesc_withAcc, hdesc]
  dsimp only
  rw [State.vPre_withAcc, State.core_withAcc, hcheck]
  rfl

section
variable (hill : vIll op x w = false) (hdesc : s.vDesc c x op w = .ok d)
  (hcheck : (s.vPre c x op w d).or (((s.core c).st x).vTable op w d) = none)
include hill hdesc hcheck

theorem State.vecIssue_capped (hcap : (s.core c).cap < (s.core c).vecCost op w) : s.vecIssue c x op w = s.raise c x 0x06 := by
  refine State.coreAccess_acts hacts (by rw [hill]; rfl) ?_ rfl
  dsimp only
  rw [State.vTouch_eq_self (State.stop_of_coreServed hserved), State.vDesc_withAcc, hdesc]
  dsimp only
  rw [State.vPre_withAcc, State.core_withAcc, hcheck]
  exact if_pos hcap

theorem State.vecIssue_accepts (hcap : (s.core c).vecCost op w ≤ (s.core c).cap)
    (hcredit : (s.core c).vecCost op w ≤ (s.core c).credit) (hclear : (s.core c).vec.clearing = false)
    (hroom : ((s.core c).vec.queue.filter (fun i => !i.started)).length < 8) : s.vecIssue c x op w
    = (s.updCore c (fun k => k.vecTakes x ((s.core c).vecCost op w) (iD w) op.toScalar (s.vecAccepts c x op w d))).retire c x := by
  refine State.coreAccess_acts hacts (by rw [hill]; rfl) ?_ rfl
  dsimp only
  rw [State.vTouch_eq_self (State.stop_of_coreServed hserved), State.vDesc_withAcc, hdesc]
  dsimp only
  rw [State.vPre_withAcc, State.core_withAcc, hcheck]
  refine (if_neg (not_lt.mpr hcap)).trans ((if_neg ?_).trans ((State.pay_of_le (s := s.withAcc (s.agent c)) _ hcap hcredit).trans ?_))
  · rw [hclear, decide_eq_false (not_le.mpr hroom)]
    exact Bool.false_ne_true
  · refine congrArg (fun u : State => u.retire c x)
      (a₂ := (s.withAcc (s.agent c)).updCore c (fun k =>
        k.vecTakes x ((s.core c).vecCost op w) (iD w) op.toScalar (s.vecAccepts c x op w d))) ?_
    cases hs : op.toScalar
    · simp only [State.ticket, State.updVec, State.updCore_updCore, State.core_updCore, Bool.false_eq_true, if_false]
      exact State.updCore_congr rfl
    · simp only [State.ticket, State.updVec, State.updSt, State.updCore_updCore, State.core_updCore, if_true]
      exact State.updCore_congr rfl

end

end

section
variable (k : Core) (x : Stream) (n d : Nat) (scalar : Bool) (i : VInsn)

theorem Core.queue_vecTakes : (k.vecTakes x n d scalar i).vec.queue = k.vec.queue ++ [i] := by
  unfold Core.vecTakes
  cases scalar <;> cases x <;> rfl

theorem Core.store_vecTakes : (k.vecTakes x n d scalar i).vec.store = k.vec.store := by
  unfold Core.vecTakes
  cases scalar <;> cases x <;> rfl

theorem Core.credit_vecTakes : (k.vecTakes x n d scalar i).credit = k.credit - n := by
  unfold Core.vecTakes
  cases scalar <;> cases x <;> rfl

theorem Core.scratch_vecTakes : (k.vecTakes x n d scalar i).scratch = k.scratch := by
  unfold Core.vecTakes
  cases scalar <;> cases x <;> rfl

theorem Core.st_vecTakes : (k.vecTakes x n d scalar i).st x = if scalar then (k.st x).await d k.nextTicket else k.st x := by
  unfold Core.vecTakes
  cases scalar <;> cases x <;> rfl

theorem Core.st_vecTakes_other : (k.vecTakes x n d scalar i).st (sOther x) = k.st (sOther x) := by
  unfold Core.vecTakes
  cases scalar <;> cases x <;> rfl

end

theorem Core.vec_setSt (k : Core) (x : Stream) (t : StreamSt) : (k.setSt x t).vec = k.vec := by
  cases x <;> rfl

theorem Core.credit_setSt (k : Core) (x : Stream) (t : StreamSt) : (k.setSt x t).credit = k.credit := by
  cases x <;> rfl

theorem exec_vecRows : ∀ r ∈ vecRows, ∀ c x w s, exec (r.1 c x w) s = .next (s.vecIssue c x r.2 w) := by
  unfold vecRows
  simp only [List.forall_mem_cons]
  iterate 60 refine ⟨fun _ _ _ _ => rfl, ?_⟩
  exact fun _ h => absurd h List.not_mem_nil

/-- Settles O27: when the read of the descriptor is not stopped, the checks are those of the state before, and an instruction that
passes them changes one core by `Core.vecTakes` and ends. -/
theorem vectorInstructionsIssue : Obligations.VectorInstructionsIssue := by
  unfold Obligations.VectorInstructionsIssue
  intro r hr c x w s
  refine fun hacts hserved => ⟨fun hill => ?_, fun hill => ⟨fun e hdesc => ?_, fun d hdesc => ⟨fun e hcheck => ?_,
    fun hcheck hcap => ?_, fun hcheck hcap hcredit hclear hroom => ?_⟩⟩⟩
  · rw [exec_vecRows r hr, State.vecIssue_illegal hacts hill]
  · rw [exec_vecRows r hr, State.vecIssue_desc hacts hserved hill hdesc]
  · rw [exec_vecRows r hr, State.vecIssue_faults hacts hserved hill hdesc hcheck]
  · rw [exec_vecRows r hr, State.vecIssue_capped hacts hserved hill hdesc hcheck hcap]
  · refine ⟨_, (exec_vecRows r hr c x w s).trans (congrArg Host.Outcome.next
      (State.vecIssue_accepts hacts hserved hill hdesc hcheck hcap hcredit hclear hroom)), ?_, ?_, ?_, ?_, ?_, ?_,
      fun j hj => State.core_updCore_retire_other s c x _ hj, rfl⟩
    all_goals rw [State.core_updCore_retire]
    · exact (congrArg VecSt.queue (Core.vec_setSt _ x _)).trans (Core.queue_vecTakes _ x _ _ _ _)
    · exact (congrArg VecSt.store (Core.vec_setSt _ x _)).trans (Core.store_vecTakes _ x _ _ _ _)
    · exact (Core.credit_setSt _ x _).trans (Core.credit_vecTakes _ x _ _ _ _)
    · rw [Core.st_issued, Core.st_setSt, Core.st_vecTakes]
      split <;> simp only [StreamSt.pc_await]
    · rw [Core.st_issued, Core.st_setSt_other, Core.st_vecTakes_other]
    · exact (Core.setSt_stores _ x _).1.trans (Core.scratch_vecTakes _ x _ _ _ _)

end Sys2Proof.Machine
end

section
/-! The lane's instructions at issue (O25). -/

namespace Sys2Proof.Machine

open Sys2Proof

theorem State.corCheck_withAcc (s : State) (acc : AccSt) (c : Nat) (x : Stream) (ex : Bool) (a : W64) (out : Bool) :
    (s.withAcc acc).corCheck c x ex a out = s.corCheck c x ex a out := rfl

theorem State.corReads_withAcc (s : State) (acc : AccSt) (c : Nat) (ex : Bool) (a : W64) :
    (s.withAcc acc).corReads c ex a = s.corReads c ex a := rfl

/-- A core whose lane takes operation q for n units of credit (R195, R203). -/
def Core.laneTakes (k : Core) (n : Nat) (q : CorOp) : Core :=
  { k.charge n with nextTicket := k.nextTicket + 1, lane := { k.lane with queue := k.lane.queue ++ [q] } }

/-- The cost of a lane operation in units of credit (R203). -/
def Core.laneCost (k : Core) (q : CorOp) : Nat := k.cost' 6 (ldesc q.desc).m 64

section
variable {s : State} {c : Nat} {x : Stream} {ex : Bool} {w : InsnW} {a : W64} {out : Bool} (hacts : s.Acts c x w [])
  (hok : fmtM w = true) (hD : iD w = 0) (ha : offAdd (((s.core c).st x).getA (iA w)) (iImm w) = a)
  (hout : offOut (offSum (((s.core c).st x).getA (iA w)) (iImm w)) = out)
  (hserved : s.coreServed c (fun s => s.touchAll c (s.corReads c ex a)) = true)
include hacts hok hD ha hout hserved

theorem State.corIssue_faults {code : Nat} (hchk : s.corCheck c x ex a out = .error code) :
    s.corIssue c x ex w = s.raise c x code := by
  refine State.coreAccess_acts hacts (by rw [hok, hD]; rfl) ?_ rfl
  simp only [State.core_withAcc, ha, hout, State.touchAll_eq_self _ (State.stop_of_coreServed hserved), State.corCheck_withAcc, hchk]
  rfl

section
variable {q : CorOp} (hchk : s.corCheck c x ex a out = .ok q)
include hchk

theorem State.corIssue_capped (hcap : (s.core c).cap < (s.core c).laneCost q) : s.corIssue c x ex w = s.raise c x 0x06 := by
  refine State.coreAccess_acts hacts (by rw [hok, hD]; rfl) ?_ rfl
  simp only [State.core_withAcc, ha, hout, State.touchAll_eq_self _ (State.stop_of_coreServed hserved), State.corCheck_withAcc, hchk]
  exact if_pos hcap

theorem State.corIssue_full (hcap : (s.core c).laneCost q ≤ (s.core c).cap) (hfull : 4 ≤ (s.core c).lane.queue.length) :
    s.corIssue c x ex w = s.waitFor c x .tileQueue := by
  refine State.coreAccess_acts hacts (by rw [hok, hD]; rfl) ?_ rfl
  simp only [State.core_withAcc, ha, hout, State.touchAll_eq_self _ (State.stop_of_coreServed hserved), State.corCheck_withAcc, hchk]
  exact (if_neg (not_lt.mpr hcap)).trans (if_pos hfull)

theorem State.corIssue_accepts (hcap : (s.core c).laneCost q ≤ (s.core c).cap)
    (hcredit : (s.core c).laneCost q ≤ (s.core c).credit) (hroom : (s.core c).lane.queue.length < 4) : s.corIssue c x ex w
    = (s.updCore c (fun k => k.laneTakes ((s.core c).laneCost q) { q with id := (s.core c).nextTicket })).retire c x := by
  refine State.coreAccess_acts hacts (by rw [hok, hD]; rfl) ?_ rfl
  simp only [State.core_withAcc, ha, hout, State.touchAll_eq_self _ (State.stop_of_coreServed hserved), State.corCheck_withAcc, hchk]
  refine (if_neg (not_lt.mpr hcap)).trans ((if_neg (not_le.mpr hroom)).trans
    ((State.pay_of_le (s := s.withAcc (s.agent c)) _ hcap hcredit).trans ?_))
  refine congrArg (fun u : State => u.retire c x)
    (a₂ := (s.withAcc (s.agent c)).updCore c (fun k =>
      k.laneTakes ((s.core c).laneCost q) { q with id := (s.core c).nextTicket })) ?_
  simp only [State.ticket, State.updCore_updCore, State.core_updCore]
  exact State.updCore_congr rfl

end

end

end Sys2Proof.Machine
end

section
/-! What a unit of a core leaves alone when it reads and writes device memory and counts under watch slots: everything of every
core but the bytes of its stores, its guards, its precision watch, its loft manager and what these accesses set on their way, and the
rig of the device. -/

namespace Sys2Proof.Machine

open Sys2Proof

/-- A core without what accesses to memory, the watch and the loft manager change. -/
def Core.still (k : Core) : Core :=
  { k with scratch := [], loft := [], spool := [], guards := [], nextGuard := 0, waking := false, watch := {}, loftM := {},
           lane := { k.lane with outlIgn := false } }

/-- What accesses to memory leave alone: each core without what they change, and the rig. -/
def State.units (s : State) : (Nat → Core) × RigSt := (fun j => (s.core j).still, s.rig)

theorem State.still_of_units {s t : State} (h : t.units = s.units) (j : Nat) : (t.core j).still = (s.core j).still :=
  congrFun (congrArg Prod.fst h) j

theorem State.rig_of_units {s t : State} (h : t.units = s.units) : t.rig = s.rig := congrArg Prod.snd h

theorem State.units_eq {s t : State} (hc : ∀ j, (t.core j).still = (s.core j).still) (hr : t.rig = s.rig) : t.units = s.units :=
  Prod.ext (funext hc) hr

/-- An update of a core within what accesses change. -/
theorem State.updCore_units (s : State) (c : Nat) {f : Core → Core} (hf : ∀ k : Core, (f k).still = k.still) :
    (s.updCore c f).units = s.units := by
  refine State.units_eq (fun j => ?_) rfl
  by_cases h : j = c
  · rw [h, State.core_updCore, hf]
  · rw [State.core_updCore_other s c f h]

@[simp] theorem State.units_ite (p : Prop) [Decidable p] (s t : State) :
    (if p then s else t).units = if p then s.units else t.units := apply_ite State.units p s t

@[simp] theorem State.units_fst_ite {α : Type} (p : Prop) [Decidable p] (s t : State × α) :
    (if p then s else t).1.units = if p then s.1.units else t.1.units := apply_ite (fun q : State × α => q.1.units) p s t

/-! ### Stack memory (R306 to R310) -/

@[simp] theorem State.setStk_units (s : State) (i t) : (s.setStk i t).units = s.units := rfl

@[simp] theorem State.updStk_units (s : State) (i f) : (s.updStk i f).units = s.units := rfl

@[simp] theorem State.event_units (s : State) (code source arg) : (s.event code source arg).units = s.units := rfl

@[simp] theorem State.report_units (s : State) (code) : (s.report code).units = s.units := rfl

@[simp] theorem State.wakeStk_units (s : State) (st) : (s.wakeStk st).units = s.units := by simp [State.wakeStk]

@[simp] theorem State.ask_units (s : State) (st blk write) : (s.ask st blk write).units = s.units := by
  unfold State.ask
  split
  · rfl
  · split
    · rfl
    · simp

@[simp] theorem State.uncorr_units (s : State) (st cw kind) : (s.uncorr st cw kind).units = s.units := by simp [State.uncorr]

@[simp] theorem State.corr_units (s : State) (st cw) : (s.corr st cw).units = s.units := by simp [State.corr]

@[simp] theorem State.senseCw_units (s : State) (st cw kind) : (s.senseCw st cw kind).1.units = s.units := by
  unfold State.senseCw
  dsimp only
  split <;> simp

@[simp] theorem State.readCw_units (s : State) (st a n) : (s.readCw st a n).1.units = s.units := by simp [State.readCw]

@[simp] theorem State.writeCw_units (s : State) (st a bs) : (s.writeCw st a bs).units = s.units := by simp [State.writeCw]

@[simp] theorem State.readCws_units (s : State) (st l) : (s.readCws st l).1.units = s.units := by
  induction l generalizing s with
  | nil => rfl
  | cons p t ih => simp [State.readCws, ih]

@[simp] theorem State.writeCws_units (s : State) (st l bs) : (s.writeCws st l bs).units = s.units := by
  induction l generalizing s bs with
  | nil => simp [State.writeCws]
  | cons p t ih => simp [State.writeCws, ih]

theorem Core.still_staleGuard (k : Core) (uid : Nat) : (k.staleGuard uid).still = k.still := by
  rw [Core.staleGuard_eq]
  rfl

@[simp] theorem State.tellStale_units (s : State) (l) : (s.tellStale l).units = s.units := by
  induction l generalizing s with
  | nil => rfl
  | cons p t ih =>
    rw [State.tellStale, ih]
    split
    · rfl
    · exact s.updCore_units _ fun k => k.still_staleGuard _

@[simp] theorem State.sendStale_units (s : State) (st l) : (s.sendStale st l).units = s.units := rfl

@[simp] theorem State.readStk_units (s : State) (st a n) : (s.readStk st a n).1.units = s.units := by simp [State.readStk]

@[simp] theorem State.writeStk_units (s : State) (st a bs) : (s.writeStk st a bs).units = s.units := by simp [State.writeStk]

/-! ### Guards (R323, R324) -/

@[simp] theorem State.dropRanges_units (s : State) (c uid) : (s.dropRanges c uid).units = s.units := rfl

@[simp] theorem State.endGuard_units (s : State) (c g) : (s.endGuard c g).units = s.units := by
  unfold State.endGuard
  split
  · rfl
  · rw [State.dropRanges_units]
    exact s.updCore_units c fun _ => rfl

@[simp] theorem State.endGuards_units (s : State) (c l) : (s.endGuards c l).units = s.units := by
  induction l generalizing s with
  | nil => rfl
  | cons g t ih => simp [State.endGuards, ih]

@[simp] theorem State.endTouched_units (s : State) (copy a n l) : (s.endTouched copy a n l).units = s.units := by
  induction l generalizing s with
  | nil => rfl
  | cons c t ih => simp [State.endTouched, ih]

@[simp] theorem State.endWritten_units (s : State) (copy a n) : (s.endWritten copy a n).units = s.units := by
  simp [State.endWritten]

@[simp] theorem State.guardRead_units (s : State) (c a n) : (s.guardRead c a n).units = s.units := by
  unfold State.guardRead
  split <;> rfl

/-! ### Device memory -/

theorem State.readPiece_units {s t : State} {a n bs} (h : s.readPiece a n = some (t, bs)) : t.units = s.units := by
  unfold State.readPiece at h
  dsimp only at h
  split at h
  next st l _ =>
    have ht := congrArg (fun p : State × List PByte => p.1.units) (Option.some.inj h)
    refine ht.symm.trans ((State.readStk_units _ _ _ _).trans ?_)
    split <;> simp
  all_goals cases h
  all_goals split <;> simp

theorem State.writePiece_units {s t : State} {w a bs} (h : s.writePiece w a bs = some t) : t.units = s.units := by
  unfold State.writePiece at h
  dsimp only at h
  split at h
  · cases h
  · split at h
    all_goals cases h
    · simp
    all_goals
      rw [State.updCore_units, State.endWritten_units]
      exact fun _ => rfl

@[simp] theorem State.readPieces_units (s : State) (fail l) : (s.readPieces fail l).1.units = s.units := by
  induction l generalizing s with
  | nil => rfl
  | cons p l ih =>
    rw [State.readPieces]
    split
    next t bs ht => exact (ih t).trans (State.readPiece_units ht)
    next => exact ih s

@[simp] theorem State.readMem_units (s : State) (a n) : (s.readMem a n).1.units = s.units := by simp [State.readMem]

@[simp] theorem State.writePieces_units (s : State) (w l bs) : (s.writePieces w l bs).1.units = s.units := by
  induction l generalizing s bs with
  | nil => rfl
  | cons p l ih =>
    rw [State.writePieces]
    split
    next t ht => rw [ih, State.writePiece_units ht]
    next => rfl

@[simp] theorem State.writeMem_units (s : State) (w a bs) : (s.writeMem w a bs).1.units = s.units := by simp [State.writeMem]

@[simp] theorem State.writeBytes_units (s : State) (w a bs) : (s.writeBytes w a bs).1.units = s.units := by
  simp [State.writeBytes]

@[simp] theorem State.readBytes_units (s : State) (a n) : (s.readBytes a n).1.units = s.units := by simp [State.readBytes]

@[simp] theorem State.scrRead_units (s : State) (c o n) : (s.scrRead c o n).units = s.units := by simp [State.scrRead]

@[simp] theorem State.scrWrite_units (s : State) (c o bs) : (s.scrWrite c o bs).units = s.units := by
  unfold State.scrWrite
  rw [State.updCore_units, State.endWritten_units]
  exact fun _ => rfl

/-! ### Tensors (R309, R595) -/

@[simp] theorem State.feedPieces_units (s : State) (l) : (s.feedPieces l).1.units = s.units := by
  induction l generalizing s with
  | nil => rfl
  | cons p l ih =>
    rw [State.feedPieces]
    split
    next t bs ht => exact (ih t).trans (State.readPiece_units ht)
    next => exact ih s

@[simp] theorem State.feed_units (s : State) (base off n) : (s.feed base off n).1.units = s.units := by simp [State.feed]

@[simp] theorem State.tRead_units (s : State) (d ow line e0 n) : (s.tRead d ow line e0 n).1.units = s.units := by
  simp [State.tRead]

@[simp] theorem State.tReadLines_units (s : State) (d ow e0 n a k) : (s.tReadLines d ow e0 n a k).1.units = s.units := by
  induction k generalizing s a with
  | zero => simp [State.tReadLines]
  | succ n ih => simp [State.tReadLines, ih]

/-! ### The precision watch (R204 to R211) -/

theorem State.merges_units (s : State) (l : List Merge) : ({ s with merges := l } : State).units = s.units := rfl

@[simp] theorem State.sendMerge_units (s : State) (c h) : (s.sendMerge c h).units = s.units := by
  unfold State.sendMerge
  dsimp only
  split
  · rw [State.merges_units, State.updCore_units]
    exact fun _ => rfl
  · exact s.updCore_units c fun _ => rfl

@[simp] theorem State.freshSlot_units (s : State) (c i) : (s.freshSlot c i).1.units = s.units := by simp [State.freshSlot]

@[simp] theorem State.takeSlot_units (s : State) (c i) : (s.takeSlot c i).units = s.units := by
  unfold State.takeSlot
  dsimp only
  split
  · exact s.updCore_units c fun _ => rfl
  · rw [State.updCore_units, State.freshSlot_units]
    · split
      · split
        · rw [State.updCore_units, State.sendMerge_units]
          exact fun _ => rfl
        · rfl
      · rfl
    · exact fun _ => rfl

@[simp] theorem State.countSlot_units (s : State) (c i f) : (s.countSlot c i f).units = s.units := by
  unfold State.countSlot
  split
  · rfl
  · rw [State.updCore_units, State.takeSlot_units]
    exact fun _ => rfl

@[simp] theorem State.countSat_units (s : State) (c i n) : (s.countSat c i n).units = s.units := by simp [State.countSat]

@[simp] theorem State.countNonfinite_units (s : State) (c i) : (s.countNonfinite c i).units = s.units := by
  unfold State.countNonfinite
  split
  · rfl
  · rw [State.updCore_units, State.countSlot_units]
    exact fun _ => rfl

@[simp] theorem State.countNorm_units (s : State) (c i grad x) : (s.countNorm c i grad x).units = s.units := by
  simp [State.countNorm]

end Sys2Proof.Machine
end

section
/-! The lane's operations (O25). -/

namespace Sys2Proof.Machine

open Sys2Proof

/-! ### What an operation leaves alone (R199 to R202) -/

@[simp] theorem State.lanePut_units (s : State) (c o acc vs) : (s.lanePut c o acc vs).units = s.units := by
  simp [State.lanePut]

@[simp] theorem State.projLines_units (s : State) (c l ad fac m n) : (s.projLines c l ad fac m n).1.units = s.units := by
  induction n generalizing s m with
  | zero => rfl
  | succ n ih => simp [State.projLines, ih]

@[simp] theorem State.expandLines_units (s : State) (c l fac m n) : (s.expandLines c l fac m n).units = s.units := by
  induction n generalizing s m with
  | zero => rfl
  | succ n ih => simp [State.expandLines, ih]

@[simp] theorem State.corRun_units (s : State) (c o) : (s.corRun c o).units = s.units := by
  have factor (l : LDesc) (d : TDesc) : (if l.rank = 0 then (s, ({ rows := [] } : LineRead))
      else s.tReadLines d false 0 l.rank l.fLine l.len).1.units = s.units := by simp
  unfold State.corRun
  dsimp only
  split
  · rw [State.expandLines_units, factor]
  · split
    · rfl
    · split
      · rw [State.countSat_units, State.projLines_units, State.tReadLines_units]
      · rw [State.updCore_units, State.countSat_units, State.projLines_units, State.tReadLines_units]
        exact fun _ => rfl

theorem State.eccAt_ok (s : State) (l : Loc) : s.eccAt l .ok = (s, true) := by
  cases l <;> rfl

theorem Core.lane_setSt (k : Core) (x : Stream) (t : StreamSt) : (k.setSt x t).lane = k.lane := by
  cases x <;> rfl

theorem exec_lane {c : Nat} {x : Stream} {w : InsnW} {ex : Bool} {i : Instr}
    (hi : ex = false ∧ i = .corProj c x w ∨ ex = true ∧ i = .corExpand c x w) (s : State) :
    exec i s = .next (s.corIssue c x ex w) := by
  rcases hi with ⟨rfl, rfl⟩ | ⟨rfl, rfl⟩
  · rfl
  · rfl

/-! ### Completion (R195, R199, R203) -/

/-- A core whose lane has completed operation o, with what waits behind it (R195, R203). -/
def Core.laneDone (k : Core) (o : CorOp) (rest : List CorOp) : Core :=
  { k with stallTicks := 0, lane := { k.lane with queue := rest, busy := cnt k.lane.busy o.cycles } }

theorem exec_corOpComplete_of_head {s : State} {c : Nat} {o : CorOp} {rest : List CorOp} (hq : (s.core c).lane.queue = o :: rest)
    (hruns : s.coreRuns c = true) (hchk : (s.core c).lane.chkFail = false)
    (hserved : s.coreServed c (fun s => s.corRun c o) = true) : exec (.corOpComplete c .ok false) s
    = .next ((((s.withAcc (s.agent c)).corRun c o).updCore c (fun k => k.laneDone o rest)).withAcc s.acc) := by
  refine congrArg Host.Outcome.next (State.access_of_stop_none
    (u := ((s.withAcc (s.agent c)).corRun c o).updCore c (fun k => k.laneDone o rest)) ?_ (State.stop_of_coreServed hserved))
  have hq' : ((s.withAcc (s.agent c)).core c).lane.queue = o :: rest := hq
  have hcond : (!((s.withAcc (s.agent c)).coreRuns c) || ((s.withAcc (s.agent c)).core c).lane.chkFail) = false :=
    Bool.or_eq_false_iff.mpr ⟨by rw [← Bool.not_true]; exact congrArg _ hruns, hchk⟩
  simp only [hq', hcond, State.eccAt_ok]
  rfl

/-- Settles O25: an accepted instruction changes one core by `Core.laneTakes` and ends; a completion changes it by
`Core.laneDone` after a run that leaves the lane's count alone. -/
theorem laneOperations : Obligations.LaneOperations := by
  unfold Obligations.LaneOperations
  intro c x w s
  refine ⟨fun ex i hi hacts hok hD hserved => ⟨fun code hchk => ?_, fun q hchk => ⟨fun hcap => ?_, fun hcap hfull => ?_,
    fun hcap hcredit hroom => ?_⟩⟩, fun o rest hq hruns hchk hserved => ?_⟩
  · rw [exec_lane hi, State.corIssue_faults hacts hok hD rfl rfl hserved hchk]
  · rw [exec_lane hi, State.corIssue_capped hacts hok hD rfl rfl hserved hchk hcap]
  · rw [exec_lane hi, State.corIssue_full hacts hok hD rfl rfl hserved hchk hcap hfull]
  · refine ⟨_, (exec_lane hi s).trans (congrArg Host.Outcome.next
      (State.corIssue_accepts hacts hok hD rfl rfl hserved hchk hcap hcredit hroom)), ?_, ?_, ?_, ?_,
      fun j hj => State.core_updCore_retire_other s c x _ hj, rfl⟩
    all_goals rw [State.core_updCore_retire]
    · exact congrArg LaneSt.queue (Core.lane_setSt _ x _)
    · exact Core.credit_setSt _ x _
    · rw [Core.st_issued, Core.st_setSt]
      cases x <;> rfl
    · rw [Core.st_issued, Core.st_setSt_other]
      cases x <;> rfl
  · refine ⟨_, exec_corOpComplete_of_head hq hruns hchk hserved, ?_⟩
    rw [State.core_withAcc, State.core_updCore]
    refine ⟨rfl, ?_⟩
    have hbusy := congrArg (fun k : Core => k.lane.busy)
      (State.still_of_units (State.corRun_units (s.withAcc (s.agent c)) c o) c)
    exact congrArg (fun n => cnt n o.cycles) hbusy

end Sys2Proof.Machine
end

section
/-! Requests to other devices, guards and watch ranges: what they leave alone of the units, and of the access at hand. -/

namespace Sys2Proof.Machine

open Sys2Proof

/-- What requests, guards and watch ranges leave alone: what accesses to memory do, and the access at hand. -/
def State.unitsAcc (s : State) : ((Nat → Core) × RigSt) × AccSt := (s.units, s.acc)

theorem State.units_of_unitsAcc {s t : State} (h : t.unitsAcc = s.unitsAcc) : t.units = s.units := congrArg Prod.fst h

theorem State.acc_of_unitsAcc {s t : State} (h : t.unitsAcc = s.unitsAcc) : t.acc = s.acc := congrArg Prod.snd h

theorem State.updCore_unitsAcc (s : State) (c : Nat) {f : Core → Core} (hf : ∀ k : Core, (f k).still = k.still) :
    (s.updCore c f).unitsAcc = s.unitsAcc := Prod.ext (s.updCore_units c hf) rfl

@[simp] theorem State.unitsAcc_ite (p : Prop) [Decidable p] (s t : State) :
    (if p then s else t).unitsAcc = if p then s.unitsAcc else t.unitsAcc := apply_ite State.unitsAcc p s t

@[simp] theorem State.event_unitsAcc (s : State) (code source arg) : (s.event code source arg).unitsAcc = s.unitsAcc := rfl

/-! ### The tether (R401 to R407) -/

@[simp] theorem State.teth_unitsAcc (s : State) (t : TetherSt) : ({ s with teth := t } : State).unitsAcc = s.unitsAcc := rfl

@[simp] theorem State.updPort_unitsAcc (s : State) (p f) : (s.updPort p f).unitsAcc = s.unitsAcc := rfl

@[simp] theorem State.sendOn_unitsAcc (s : State) (p b how) : (s.sendOn p b how).unitsAcc = s.unitsAcc := rfl

@[simp] theorem State.nextFseq_unitsAcc (s : State) (cls dst ctx) : (s.nextFseq cls dst ctx).2.unitsAcc = s.unitsAcc := rfl

@[simp] theorem State.draw_unitsAcc (s : State) (n) : (s.draw n).1.unitsAcc = s.unitsAcc := rfl

@[simp] theorem State.sendE2e_unitsAcc (s : State) (dst kind eph nonce pnonce) :
    (s.sendE2e dst kind eph nonce pnonce).unitsAcc = s.unitsAcc := by simp [State.sendE2e]

@[simp] theorem State.startE2e_unitsAcc (s : State) (d) : (s.startE2e d).unitsAcc = s.unitsAcc := by
  unfold State.startE2e
  split
  · rfl
  · exact State.sendE2e_unitsAcc _ _ _ _ _ _

@[simp] theorem State.sendFlow_unitsAcc (s : State) (b) : (s.sendFlow b).unitsAcc = s.unitsAcc := by
  unfold State.sendFlow
  dsimp only
  split <;> split <;> simp

@[simp] theorem State.addReqs_unitsAcc (s : State) (who write ctx l) : (s.addReqs who write ctx l).1.unitsAcc = s.unitsAcc := by
  induction l generalizing s with
  | nil => rfl
  | cons p t ih => simp [State.addReqs, ih]

@[simp] theorem State.sendReadReqs_unitsAcc (s : State) (ctx dev l) : (s.sendReadReqs ctx dev l).unitsAcc = s.unitsAcc := by
  induction l generalizing s with
  | nil => rfl
  | cons p t ih => simp [State.sendReadReqs, ih]

@[simp] theorem State.remoteRead_unitsAcc (s : State) (who ctx a n) : (s.remoteRead who ctx a n).1.unitsAcc = s.unitsAcc := by
  simp [State.remoteRead]

@[simp] theorem State.sendWriteData_unitsAcc (s : State) (ctx dev a bs l) :
    (s.sendWriteData ctx dev a bs l).unitsAcc = s.unitsAcc := by
  induction l generalizing s with
  | nil => rfl
  | cons p t ih => simp [State.sendWriteData, ih]

@[simp] theorem State.sendWrites_unitsAcc (s : State) (ctx dev a bs l) : (s.sendWrites ctx dev a bs l).unitsAcc = s.unitsAcc := by
  induction l generalizing s with
  | nil => rfl
  | cons p t ih => simp [State.sendWrites, ih]

@[simp] theorem State.mergeReq_unitsAcc (s : State) (who ctx a bs e) : (s.mergeReq who ctx a bs e).1.unitsAcc = s.unitsAcc :=
  (State.sendReadReqs_unitsAcc _ _ _ _).trans (s.addReqs_unitsAcc who false ctx [e])

@[simp] theorem State.mergeReqs_unitsAcc (s : State) (who ctx a bs l) : (s.mergeReqs who ctx a bs l).1.unitsAcc = s.unitsAcc := by
  induction l generalizing s with
  | nil => rfl
  | cons p t ih => simp [State.mergeReqs, ih]

@[simp] theorem State.remoteWrite_unitsAcc (s : State) (who ctx a bs) : (s.remoteWrite who ctx a bs).1.unitsAcc = s.unitsAcc := by
  simp [State.remoteWrite]

@[simp] theorem State.remoteRead_units (s : State) (who ctx a n) : (s.remoteRead who ctx a n).1.units = s.units :=
  State.units_of_unitsAcc (s.remoteRead_unitsAcc who ctx a n)

@[simp] theorem State.remoteWrite_units (s : State) (who ctx a bs) : (s.remoteWrite who ctx a bs).1.units = s.units :=
  State.units_of_unitsAcc (s.remoteWrite_unitsAcc who ctx a bs)

@[simp] theorem State.dropReqs_unitsAcc (s : State) (tags) : (s.dropReqs tags).unitsAcc = s.unitsAcc := rfl

@[simp] theorem State.dropReqs_units (s : State) (tags) : (s.dropReqs tags).units = s.units := rfl

/-! ### Guards and watch ranges (R319 to R321, R324) -/

@[simp] theorem State.endGuard_unitsAcc (s : State) (c g) : (s.endGuard c g).unitsAcc = s.unitsAcc := by
  refine Prod.ext (s.endGuard_units c g) ?_
  unfold State.endGuard
  split <;> rfl

@[simp] theorem State.unwatch_unitsAcc (s : State) (c g) : (s.unwatch c g).unitsAcc = s.unitsAcc := by
  unfold State.unwatch
  split
  · rfl
  · split
    · rfl
    · rw [State.event_unitsAcc, State.updCore_unitsAcc]
      exact fun _ => rfl

@[simp] theorem State.watchBlock_unitsAcc (s : State) (st c g blk) : (s.watchBlock st c g blk).unitsAcc = s.unitsAcc := by
  unfold State.watchBlock
  split
  · rfl
  · dsimp only
    split
    · rfl
    · exact State.unwatch_unitsAcc _ c g

@[simp] theorem State.watchBlocks_unitsAcc (s : State) (c g l) : (s.watchBlocks c g l).unitsAcc = s.unitsAcc := by
  induction l generalizing s with
  | nil => rfl
  | cons a t ih =>
    rw [State.watchBlocks, ih]
    split
    · exact s.watchBlock_unitsAcc _ c g _
    · rfl

@[simp] theorem State.addGuard_unitsAcc (s : State) (c r idx b) : (s.addGuard c r idx b).1.unitsAcc = s.unitsAcc := by
  unfold State.addGuard
  dsimp only
  rw [State.watchBlocks_unitsAcc, State.updCore_unitsAcc]
  · split
    · simp
    · rfl
  · exact fun _ => rfl

@[simp] theorem State.rowReads_unitsAcc (s : State) (c r d n) : (s.rowReads c r d n).1.unitsAcc = s.unitsAcc := by
  induction n generalizing s with
  | zero => rfl
  | succ n ih => simp [State.rowReads, ih]

/-! ### The rows of a descriptor (R93 to R95) -/

@[simp] theorem State.rowRead_units (s : State) (d far i) : (s.rowRead d far i).1.units = s.units := by simp [State.rowRead]

@[simp] theorem State.rowsMove_units (s : State) (c r gen d w far i n) :
    (s.rowsMove c r gen d w far i n).1.units = s.units := by
  induction n generalizing s i with
  | zero => rfl
  | succ n ih =>
    rw [State.rowsMove]
    dsimp only
    split
    · simp
    · split
      · simp
      · split
        · split
          · simp
          · simp [ih]
        · split <;> simp [ih]

end Sys2Proof.Machine
end

section
/-! Descriptors of reels (O20). -/

namespace Sys2Proof.Machine

open Sys2Proof

/-! ### Starts (R95, R96, R98) -/

/-- The ring index of the next descriptor that a reel starts. -/
def Reel.nextIdx (q : Reel) : Nat := (q.head + q.prog.length) % (q.sizeM1 + 1)

/-- The scratch offset of the next descriptor that a reel starts. -/
def Reel.nextAt (q : Reel) : Nat := q.base * 64 + 64 * q.nextIdx

/-- The bytes of the next descriptor that reel r starts. -/
def Core.nextDesc (k : Core) (r : Nat) : List Byte := k.scr (k.reel r).nextAt 64

/-- A descriptor in progress on a reel as it starts. -/
def State.reelProg (s : State) (c r : Nat) : ReelProg :=
  { idx := ((s.core c).reel r).nextIdx, owner := ((s.core c).reel r).owners.getD ((s.core c).reel r).prog.length .a,
    desc := (s.core c).nextDesc r, gen := (s.ctx (rdesc ((s.core c).nextDesc r)).ctx).gen }

/-- Reel r of core c takes a descriptor in progress. -/
def State.reelTakes (s : State) (c r : Nat) (p : ReelProg) : State :=
  s.updReel c r (fun q => { q with prog := q.prog ++ [p], waitCost := 0 })

/-- Reel r of core c has taken a descriptor without a code, and nothing of the units but that differs from u. -/
def ReelStarted (c r : Nat) (u : State) (idx : Nat) (desc : List Byte) (t : State) : Prop :=
  ∃ (v : State) (p : ReelProg), t = v.reelTakes c r p ∧ v.unitsAcc = u.unitsAcc ∧ p.idx = idx ∧ p.desc = desc ∧ p.code = 0

theorem ReelStarted.stop_eq_none {c r : Nat} {u t : State} {idx : Nat} {desc : List Byte} (h : ReelStarted c r u idx desc t)
    (hu : u.acc.stop = none) : t.acc.stop = none := by
  obtain ⟨v, p, rfl, hv, -⟩ := h
  exact (congrArg AccSt.stop (State.acc_of_unitsAcc hv)).trans hu

/-- A command of an agent that stops no access does what its function does. -/
theorem State.coreAccess_of_stop_none {s : State} {c : Nat} {f : State → State} {P : State → Prop}
    (hstop : ∀ t, P t → t.acc.stop = none) (h : P (f (s.withAcc (s.agent c)))) :
    ∃ t, s.coreAccess c f = t.withAcc s.acc ∧ P t :=
  ⟨_, State.access_of_stop_none rfl (hstop _ h), h⟩

theorem State.scrRead_eq_self {s : State} {c o n : Nat} (h : (s.core c).readStalls (s.scrAddr c o) n = false) :
    s.scrRead c o n = s := by
  rw [State.scrRead, State.guardRead, h, Bool.and_false]
  exact if_neg Bool.false_ne_true

theorem State.rdescCheck_withAcc (s : State) (acc : AccSt) (c : Nat) (b : List Byte) :
    (s.withAcc acc).rdescCheck c b = s.rdescCheck c b := rfl

theorem State.rdescCost_withAcc (s : State) (acc : AccSt) (c : Nat) (d : RDesc) :
    (s.withAcc acc).rdescCost c d = s.rdescCost c d := rfl

section
variable {s : State} {c r : Nat} (hstart : s.reelCanStart c r = true)
  (hread : (s.core c).readStalls (s.scrAddr c ((s.core c).reel r).nextAt) 64 = false)
include hstart hread

/-- A start whose descriptor can be read. -/
theorem State.reelStart_reads : (s.withAcc (s.agent c)).reelCanStart c r = true
    ∧ (s.withAcc (s.agent c)).scrRead c (((s.core c).reel r).base * 64 + 64 *
      ((((s.core c).reel r).head + ((s.core c).reel r).prog.length) % (((s.core c).reel r).sizeM1 + 1))) 64
      = s.withAcc (s.agent c) :=
  ⟨hstart, State.scrRead_eq_self hread⟩

theorem exec_reelDescStart_code {code : Nat} (hcheck : s.rdescCheck c ((s.core c).nextDesc r) = some code) :
    exec (.reelDescStart c r) s = .next (s.reelTakes c r { s.reelProg c r with code }) := by
  refine congrArg Host.Outcome.next (State.access_of_withAcc ?_ rfl)
  obtain ⟨hstart', hread'⟩ := State.reelStart_reads hstart hread
  unfold Core.nextDesc Reel.nextAt Reel.nextIdx at hcheck
  simp only [hstart', Bool.not_true, Bool.false_eq_true, if_false, State.core_withAcc, hread', State.rdescCheck_withAcc, hcheck]
  rfl

section
variable (hcheck : s.rdescCheck c ((s.core c).nextDesc r) = none)
include hcheck

theorem exec_reelDescStart_capped (hcap : (s.core c).cap < s.rdescCost c (rdesc ((s.core c).nextDesc r))) :
    exec (.reelDescStart c r) s = .next (s.reelTakes c r { s.reelProg c r with code := 0x06 }) := by
  refine congrArg Host.Outcome.next (State.access_of_withAcc ?_ rfl)
  obtain ⟨hstart', hread'⟩ := State.reelStart_reads hstart hread
  unfold Core.nextDesc Reel.nextAt Reel.nextIdx at hcheck hcap
  simp only [hstart', Bool.not_true, Bool.false_eq_true, if_false, State.core_withAcc, hread', State.rdescCheck_withAcc, hcheck,
    State.rdescCost_withAcc, if_pos hcap]
  rfl

theorem exec_reelDescStart_waits (hcap : s.rdescCost c (rdesc ((s.core c).nextDesc r)) ≤ (s.core c).cap)
    (hcredit : (s.core c).credit < s.rdescCost c (rdesc ((s.core c).nextDesc r))) : exec (.reelDescStart c r) s
    = .next (s.updReel c r (fun q => { q with waitCost := s.rdescCost c (rdesc ((s.core c).nextDesc r)) })) := by
  refine congrArg Host.Outcome.next (State.access_of_withAcc ?_ rfl)
  obtain ⟨hstart', hread'⟩ := State.reelStart_reads hstart hread
  unfold Core.nextDesc Reel.nextAt Reel.nextIdx at hcheck hcap hcredit
  simp only [hstart', Bool.not_true, Bool.false_eq_true, if_false, State.core_withAcc, hread', State.rdescCheck_withAcc, hcheck,
    State.rdescCost_withAcc, if_neg (not_lt.mpr hcap), if_pos hcredit]
  rfl

/-- A descriptor that can be read, that passes its checks and that the balance covers is charged and taken. -/
theorem exec_reelDescStart_charged (hcap : s.rdescCost c (rdesc ((s.core c).nextDesc r)) ≤ (s.core c).cap)
    (hcredit : s.rdescCost c (rdesc ((s.core c).nextDesc r)) ≤ (s.core c).credit) :
    ∃ t, exec (.reelDescStart c r) s = .next (t.withAcc s.acc) ∧ ReelStarted c r
      ((s.withAcc (s.agent c)).updCore c (fun k => k.charge (s.rdescCost c (rdesc ((s.core c).nextDesc r)))))
      ((s.core c).reel r).nextIdx ((s.core c).nextDesc r) t := by
  refine (State.coreAccess_of_stop_none (P := ReelStarted c r _ _ _) (fun _ h => h.stop_eq_none rfl) ?_).imp
    fun t ht => ⟨congrArg Host.Outcome.next ht.1, ht.2⟩
  obtain ⟨hstart', hread'⟩ := State.reelStart_reads hstart hread
  unfold Core.nextDesc Reel.nextAt Reel.nextIdx at hcheck hcap hcredit ⊢
  simp only [hstart', Bool.not_true, Bool.false_eq_true, if_false, State.core_withAcc, hread', State.rdescCheck_withAcc, hcheck,
    State.rdescCost_withAcc, if_neg (not_lt.mpr hcap), if_neg (not_lt.mpr hcredit)]
  split
  · split
    · exact ⟨_, _, rfl, State.addGuard_unitsAcc _ _ _ _ _, rfl, rfl, rfl⟩
    · split
      · exact ⟨_, _, rfl, State.rowReads_unitsAcc _ _ _ _ _, rfl, rfl, rfl⟩
      · exact ⟨_, _, rfl, State.event_unitsAcc _ _ _ _, rfl, rfl, rfl⟩
  · split
    · exact ⟨_, _, rfl, State.rowReads_unitsAcc _ _ _ _ _, rfl, rfl, rfl⟩
    · exact ⟨_, _, rfl, rfl, rfl, rfl, rfl⟩

end

end

/-! ### One reel of one core changed -/

section
variable (s : State) (c r : Nat) (f : Reel → Reel)

theorem State.core_updReel : (s.updReel c r f).core c = (s.core c).setReel r (f ((s.core c).reel r)) := by
  rw [State.updReel, State.core_updCore]

theorem State.reel_updReel : ((s.updReel c r f).core c).reel r = f ((s.core c).reel r) := by
  rw [State.core_updReel, Core.reel_setReel]

theorem State.core_updReel_other {j : Nat} (h : j ≠ c) : (s.updReel c r f).core j = s.core j :=
  State.core_updCore_other s c _ h

theorem Core.credit_setReel (k : Core) (q : Reel) : (k.setReel r q).credit = k.credit := by
  unfold Core.setReel
  split <;> rfl

theorem State.credit_updReel : ((s.updReel c r f).core c).credit = (s.core c).credit := by
  rw [State.core_updReel, Core.credit_setReel]

theorem State.cell_updReel : ∀ p, (s.updReel c r f).cell p = s.cell p :=
  s.cell_updCore c fun k => k.setReel_stores r _

end

theorem Core.reel_still (k : Core) (r : Nat) : k.still.reel r = k.reel r := rfl

theorem State.reel_of_units {s t : State} (h : t.units = s.units) (j r : Nat) : (t.core j).reel r = (s.core j).reel r := by
  rw [← Core.reel_still, State.still_of_units h, Core.reel_still]

/-! ### Completion (R95) -/

/-- A reel whose first descriptor in progress has completed (R95). -/
def Reel.finished (q : Reel) : Reel :=
  { q with head := (q.head + 1) % (q.sizeM1 + 1), pending := q.pending - 1, prog := q.prog.drop 1, owners := q.owners.drop 1,
           gone := q.gone + 1 }

theorem State.mem_sendKnot (s : State) (m : KMsg) : m ∈ (s.sendKnot m).knot.ops ∨ m ∈ (s.sendKnot m).knot.heldOps := by
  unfold State.sendKnot
  split
  · exact .inr (by simp)
  · exact .inl (by simp)

/-- The arrive of a descriptor on its knot (R95, R96). -/
def RDesc.arrive (d : RDesc) (c : Nat) (err : Bool) : KMsg :=
  { who := .reel c, op := .arrive, knot := d.knot, arg := 1, err, node := c, agent := 0 }

theorem State.mem_reelArrive {d : RDesc} (h : d.knotEn = true) (s : State) (c : Nat) (err : Bool) :
    d.arrive c err ∈ (s.reelArrive c d err).knot.ops ∨ d.arrive c err ∈ (s.reelArrive c d err).knot.heldOps := by
  rw [State.reelArrive, if_pos h]
  exact s.mem_sendKnot _

/-- An arrive leaves by the knots' messages alone. -/
theorem State.reelArrive_eq (s : State) (c : Nat) (d : RDesc) (err : Bool) :
    ∃ n : KnotSt, s.reelArrive c d err = { s with knot := n } ∧ n.events = s.knot.events := by
  unfold State.reelArrive
  split
  · unfold State.sendKnot
    split <;> exact ⟨_, rfl, rfl⟩
  · exact ⟨s.knot, rfl, rfl⟩

section
variable (s : State) (c r : Nat) (p : ReelProg)

theorem State.reelFinish_acc : (s.reelFinish c r p).acc = s.acc := by
  unfold State.reelFinish
  extract_lets d s1 done s2 s3
  obtain ⟨n, hn, -⟩ := s2.reelArrive_eq c d false
  have h3 : s3.acc = s.acc := (congrArg State.acc hn).trans rfl
  split
  · exact h3
  · exact h3

theorem State.reel_reelFinish : ((s.reelFinish c r p).core c).reel r = ((s.core c).reel r).finished := by
  unfold State.reelFinish
  extract_lets d s1 done s2 s3
  obtain ⟨n, hn, -⟩ := s2.reelArrive_eq c d false
  have h2 : (s2.core c).reel r = ((s.core c).reel r).finished := by
    rw [State.core_updCore]
    exact s.reel_updReel c r _
  have h3 : (s3.core c).reel r = ((s.core c).reel r).finished := (congrArg (fun t : State => (t.core c).reel r) hn).trans h2
  split
  · exact h3
  · exact h3

theorem State.mem_reelFinish_ops (h : (rdesc p.desc).knotEn = true) :
    (rdesc p.desc).arrive c false ∈ (s.reelFinish c r p).knot.ops
      ∨ (rdesc p.desc).arrive c false ∈ (s.reelFinish c r p).knot.heldOps := by
  unfold State.reelFinish
  extract_lets d s1 done s2 s3
  have h3 := s2.mem_reelArrive h c false
  split
  · exact h3
  · exact h3

theorem State.mem_reelFinish_events (h : (rdesc p.desc).ev = true) :
    ({ code := 0x03, source := s.logNum c, arg := r * 0x10000 + p.idx } : EvMsg) ∈ (s.reelFinish c r p).knot.events := by
  unfold State.reelFinish
  extract_lets d s1 done s2 s3
  obtain ⟨n, hn, -⟩ := s2.reelArrive_eq c d false
  have hlog : s3.logNum c = s.logNum c := (congrArg (fun t : State => t.logNum c) hn).trans rfl
  rw [if_pos h, State.event, hlog]
  exact List.mem_append_right _ (List.mem_singleton.mpr rfl)

end

/-- The first descriptor in progress of a reel has completed, and nothing else of the units differs from s. -/
def ReelFinished (s : State) (c r : Nat) (p : ReelProg) (t : State) : Prop :=
  ∃ u : State, t = u.reelFinish c r p ∧ u.units = s.units ∧ u.acc.stop = none

theorem exec_reelDescComplete_of {s : State} {c r : Nat} (hr : r < 2) (hruns : s.coreRuns c = true) {p : ReelProg}
    {rest : List ReelProg} (hq : ((s.core c).reel r).prog = p :: rest) (hcode : p.code = 0)
    (hdone : (s.reqsOf p.reqs).any (fun q => !q.done) = false)
    (h : (rdesc p.desc).op = 3 ∧ p.segs = (rdesc p.desc).rows ∧ p.segIds = []
      ∨ (rdesc p.desc).op ≠ 3 ∧ reqFault (s.reqsOf p.reqs) = 0 ∧ (p.moved = true
        ∨ ((((s.withAcc (s.agent c)).dropReqs p.reqs).rowsMove c r p.gen (rdesc p.desc) { copy := p.guard.map (fun g => (c, g)) }
            (farBytes (s.reqsOf p.reqs)) 0 (rdesc p.desc).rows).1.acc.stop = none
          ∧ (((s.withAcc (s.agent c)).dropReqs p.reqs).rowsMove c r p.gen (rdesc p.desc) { copy := p.guard.map (fun g => (c, g)) }
            (farBytes (s.reqsOf p.reqs)) 0 (rdesc p.desc).rows).2 = (0, [])))) :
    ∃ t, exec (.reelDescComplete c r .ok) s = .next (t.withAcc s.acc) ∧ ReelFinished s c r p t := by
  refine (State.coreAccess_of_stop_none (P := ReelFinished s c r p) ?_ ?_).imp
    fun t ht => ⟨congrArg Host.Outcome.next ht.1, ht.2⟩
  · rintro t ⟨u, rfl, -, hu⟩
    rw [State.reelFinish_acc, hu]
  · have hgo : (!(decide (r < 2) && (s.withAcc (s.agent c)).coreRuns c)) = false := by
      rw [decide_eq_true hr, show (s.withAcc (s.agent c)).coreRuns c = true from hruns]
      rfl
    have hready : ¬(p.code ≠ 0 ∨ (s.reqsOf p.reqs).any (fun q => !q.done) = true) := by
      rw [hcode, hdone]
      exact fun h => h.elim (fun h => h rfl) Bool.false_ne_true
    have hreqs : (s.withAcc (s.agent c)).reqsOf p.reqs = s.reqsOf p.reqs := rfl
    have hdrop : ReelFinished s c r p (((s.withAcc (s.agent c)).dropReqs p.reqs).reelFinish c r p) := ⟨_, rfl, rfl, rfl⟩
    simp only [hgo, Bool.false_eq_true, if_false, State.core_withAcc, hq, hreqs, if_neg hready]
    rcases h with ⟨hop, hsegs⟩ | ⟨hop, hfault, hmoved | ⟨hstop, hrows⟩⟩
    · rw [if_pos hop, if_pos hsegs]
      exact hdrop
    · rw [if_neg hop, if_neg (not_not.mpr hfault), if_pos hmoved]
      exact hdrop
    · rw [if_neg hop, if_neg (not_not.mpr hfault)]
      split
      · exact hdrop
      · simp only [State.eccAt_ok, ite_self, Bool.not_true, Bool.false_eq_true, if_false, hrows, ne_eq, not_true_eq_false,
          List.isEmpty_nil, if_true]
        exact ⟨_, rfl, State.rowsMove_units _ _ _ _ _ _ _ _ _, hstop⟩

/-! ### Failure (R96) -/

/-- A reel that has stopped for descriptor p (R96). -/
def Reel.stops (q : Reel) (p : ReelProg) : Reel :=
  { q with err := p.code, errIdx := p.idx, stopped := true, prog := [], waitCost := 0 }

/-- The state in which reel r of core c has stopped for descriptor p, before its arrive (R96). -/
def State.reelStops (s : State) (c r : Nat) (p : ReelProg) : State :=
  ((s.endGuards c ((s.core c).reel r).guards).updReel c r (fun q => q.stops p)).event
    0x04 (s.logNum c) (r * 0x10000 + p.code * 0x100 + p.idx)

/-- A stop changes cores, stacks and the knots' events alone. -/
theorem State.reelStops_eq (s : State) (c r : Nat) (p : ReelProg) :
    ∃ cores stks knot, s.reelStops c r p = { s with cores, stks, knot } := by
  obtain ⟨cores, stks, h⟩ := State.endGuards_eq c ((s.core c).reel r).guards s
  unfold State.reelStops
  rw [h]
  exact ⟨_, _, _, rfl⟩

/-- The cores and the stores are those before the event. -/
theorem State.core_reelStops (s : State) (c r : Nat) (p : ReelProg) (j : Nat) : (s.reelStops c r p).core j
    = ((s.endGuards c ((s.core c).reel r).guards).updReel c r (fun q => q.stops p)).core j := rfl

theorem State.reel_reelStops (s : State) (c r : Nat) (p : ReelProg) :
    ((s.reelStops c r p).core c).reel r = ((s.core c).reel r).stops p := by
  rw [State.core_reelStops, State.reel_updReel, State.reel_of_units (s.endGuards_units c _)]

theorem State.core_reelStops_other (s : State) (c r : Nat) (p : ReelProg) {j : Nat} (h : j ≠ c) :
    (s.reelStops c r p).core j = s.core j := by
  rw [State.core_reelStops, State.core_updReel_other _ c r _ h, State.core_endGuards_other c h]

theorem State.cell_reelStops (s : State) (c r : Nat) (p : ReelProg) : ∀ q, (s.reelStops c r p).cell q = s.cell q :=
  fun q => (State.cell_updReel (s.endGuards c ((s.core c).reel r).guards) c r (fun q => q.stops p) q).trans
    (s.cell_endGuards c _ q)

theorem State.mem_reelStops_events (s : State) (c r : Nat) (p : ReelProg) :
    ({ code := 0x04, source := s.logNum c, arg := r * 0x10000 + p.code * 0x100 + p.idx } : EvMsg)
      ∈ (s.reelStops c r p).knot.events :=
  List.mem_append_right _ (List.mem_singleton.mpr rfl)

/-- A failed descriptor stops its reel, and arrives on its knot when it may. -/
theorem exec_reelDescFail_of {s : State} {c r : Nat} (hr : r < 2) (hruns : s.coreRuns c = true) {p : ReelProg}
    {rest : List ReelProg} (hq : ((s.core c).reel r).prog = p :: rest) (hcode : p.code ≠ 0) :
    ∃ n : KnotSt, exec (.reelDescFail c r) s = .next { s.reelStops c r p with knot := n }
      ∧ n.events = (s.reelStops c r p).knot.events
      ∧ ((rdesc p.desc).knotEn = true → s.knotCheck .arrive (rdesc p.desc).knot (some (s.logNum c)) = none →
        (rdesc p.desc).arrive c true ∈ n.ops ∨ (rdesc p.desc).arrive c true ∈ n.heldOps) := by
  have hlog : (s.endProgGuards c r).logNum c = s.logNum c := by
    obtain ⟨cores, stks, h⟩ := State.endGuards_eq c ((s.core c).reel r).guards s
    rw [State.endProgGuards, h]
    rfl
  have hcheck : ((s.reelStops c r p).knotCheck .arrive (rdesc p.desc).knot (some ((s.reelStops c r p).logNum c)))
      = s.knotCheck .arrive (rdesc p.desc).knot (some (s.logNum c)) := by
    obtain ⟨cores, stks, knot, h⟩ := s.reelStops_eq c r p
    rw [h]
    rfl
  have hgo : (!(decide (r < 2) && s.coreRuns c) || p.code == 0) = false := by
    rw [decide_eq_true hr, hruns, beq_eq_false_iff_ne.mpr hcode]
    rfl
  have hexec : exec (.reelDescFail c r) s = .next (if (s.knotCheck .arrive (rdesc p.desc).knot (some (s.logNum c))).isNone
      then (s.reelStops c r p).reelArrive c (rdesc p.desc) true else s.reelStops c r p) := by
    rw [← hcheck]
    unfold State.reelStops
    rw [← hlog]
    refine congrArg Host.Outcome.next ?_
    simp only [hq, hgo, Bool.false_eq_true, if_false]
    rfl
  rw [hexec]
  split
  · obtain ⟨n, hn, hevents⟩ := (s.reelStops c r p).reelArrive_eq c (rdesc p.desc) true
    refine ⟨n, congrArg Host.Outcome.next hn, hevents, fun hen _ => ?_⟩
    have hmem := State.mem_reelArrive hen (s.reelStops c r p) c true
    rw [hn] at hmem
    exact hmem
  · next hsome =>
    refine ⟨(s.reelStops c r p).knot, rfl, rfl, fun _ hnone => absurd ?_ hsome⟩
    rw [hnone]
    rfl

/-! ### The statement -/

/-- Settles O20: a start adds a descriptor to one reel after steps that leave the reels alone, a completion is `State.reelFinish`
after rows that leave them alone, and a failure is `State.reelStops` with an arrive. -/
theorem reelDescriptors : Obligations.ReelDescriptors := by
  unfold Obligations.ReelDescriptors
  intro c r s hr hruns
  have htakes (p : ReelProg) : (((s.reelTakes c r p).core c).reel r).prog = ((s.core c).reel r).prog ++ [p] := by
    rw [State.reelTakes, State.reel_updReel]
  refine ⟨fun hstart hread => ⟨fun code hcheck => ?_, fun hcheck => ⟨fun hcap => ?_, fun hcap hcredit => ?_,
    fun hcap hcredit => ?_⟩⟩, fun p rest hq => ⟨fun hcode hdone h => ?_, fun hcode => ?_⟩⟩
  · exact ⟨_, exec_reelDescStart_code hstart hread hcheck, ⟨_, htakes _, rfl, rfl, rfl⟩, rfl, s.credit_updReel c r _,
      fun j hj => s.core_updReel_other c r _ hj, s.cell_updReel c r _⟩
  · exact ⟨_, exec_reelDescStart_capped hstart hread hcheck hcap, ⟨_, htakes _, rfl, rfl, rfl⟩, rfl, s.credit_updReel c r _,
      fun j hj => s.core_updReel_other c r _ hj, s.cell_updReel c r _⟩
  · exact ⟨_, exec_reelDescStart_waits hstart hread hcheck hcap hcredit, s.reel_updReel c r _, rfl, s.credit_updReel c r _,
      fun j hj => s.core_updReel_other c r _ hj, s.cell_updReel c r _⟩
  · obtain ⟨t, hexec, v, p, rfl, hv, hidx, hdesc, hcode⟩ := exec_reelDescStart_charged hstart hread hcheck hcap hcredit
    have hcore := State.still_of_units (State.units_of_unitsAcc hv) c
    rw [State.core_updCore] at hcore
    refine ⟨_, hexec, ⟨p, ?_, hidx, hdesc, hcode⟩, ?_⟩
    · rw [State.core_withAcc, State.reelTakes, State.reel_updReel]
      exact (congrArg (fun k : Core => (k.reel r).prog ++ [p]) hcore).trans rfl
    · rw [State.core_withAcc, State.reelTakes, State.credit_updReel]
      exact (congrArg (fun k : Core => k.credit) hcore).trans rfl
  · obtain ⟨t, hexec, u, rfl, hu, -⟩ := exec_reelDescComplete_of hr hruns hq hcode hdone h
    have hreel : (((u.reelFinish c r p).withAcc s.acc).core c).reel r = ((s.core c).reel r).finished :=
      (u.reel_reelFinish c r p).trans (congrArg Reel.finished (State.reel_of_units hu c r))
    have hlog : u.logNum c = s.logNum c := by
      unfold State.logNum State.logical
      rw [State.rig_of_units hu]
    refine ⟨_, hexec, ?_, ?_, ?_, fun hen => ⟨_, u.mem_reelFinish_ops c r p hen, rfl, rfl, rfl, rfl⟩, fun hev => ?_⟩
    · rw [hreel]
      rfl
    · rw [hreel]
      rfl
    · rw [hreel]
      exact congrArg (List.drop 1) hq
    · rw [← hlog]
      exact u.mem_reelFinish_events c r p hev
  · obtain ⟨n, hexec, hevents, harrive⟩ := exec_reelDescFail_of hr hruns hq hcode
    have hreel := s.reel_reelStops c r p
    refine ⟨_, hexec, congrArg Reel.stopped hreel, congrArg Reel.err hreel, congrArg Reel.errIdx hreel, congrArg Reel.prog hreel,
      (congrArg Reel.pending hreel).trans rfl, (congrArg Reel.head hreel).trans rfl, ?_,
      fun hen hcheck => ⟨_, harrive hen hcheck, rfl, rfl, rfl, rfl⟩,
      fun j hj => s.core_reelStops_other c r p hj, s.cell_reelStops c r p⟩
    exact hevents ▸ s.mem_reelStops_events c r p

end Sys2Proof.Machine
end

section
/-! The array's grants (R97, R98, R101, R130) and the start of a spill (R143, R146, R147), for O23. -/

namespace Sys2Proof.Machine

open Sys2Proof

/-! ### Grants -/

/-- The marks of a grant leave the queues, the granted operations and the spills, and the operation's kind and descriptor (R145, R146). -/
theorem ArrSt.grantMarks_keeps (a : ArrSt) (t : Tile) :
    (∀ x, (a.grantMarks t).1.tq x = a.tq x) ∧ (a.grantMarks t).1.granted = a.granted ∧ (a.grantMarks t).1.spills = a.spills
      ∧ (a.grantMarks t).2.kind = t.kind ∧ (a.grantMarks t).2.desc = t.desc := by
  unfold ArrSt.grantMarks
  split
  case h_1 =>
    split
    · exact ⟨fun x => by cases x <;> rfl, rfl, rfl, rfl, rfl⟩
    · split <;> exact ⟨fun x => by cases x <;> rfl, rfl, rfl, rfl, rfl⟩
  case h_2 =>
    split
    · exact ⟨fun _ => rfl, rfl, rfl, rfl, rfl⟩
    · split <;> exact ⟨fun x => by cases x <;> rfl, rfl, rfl, rfl, rfl⟩
  case h_3 => exact ⟨fun _ => rfl, rfl, rfl, rfl, rfl⟩

theorem ArrSt.tq_grantMarks (a : ArrSt) (t : Tile) (x : Stream) : (a.grantMarks t).1.tq x = a.tq x := (a.grantMarks_keeps t).1 x

theorem ArrSt.granted_grantMarks (a : ArrSt) (t : Tile) : (a.grantMarks t).1.granted = a.granted := by
  obtain ⟨_, hgranted, _⟩ := a.grantMarks_keeps t
  exact hgranted

theorem ArrSt.spills_grantMarks (a : ArrSt) (t : Tile) : (a.grantMarks t).1.spills = a.spills := by
  obtain ⟨_, _, hspills, _⟩ := a.grantMarks_keeps t
  exact hspills

theorem ArrSt.kind_grantMarks (a : ArrSt) (t : Tile) : (a.grantMarks t).2.kind = t.kind := by
  obtain ⟨_, _, _, hkind, _⟩ := a.grantMarks_keeps t
  exact hkind

theorem ArrSt.desc_grantMarks (a : ArrSt) (t : Tile) : (a.grantMarks t).2.desc = t.desc := by
  obtain ⟨_, _, _, _, hdesc⟩ := a.grantMarks_keeps t
  exact hdesc

theorem ArrSt.tq_setTq (a : ArrSt) (x : Stream) (l : List Tile) : (a.setTq x l).tq x = l := by
  cases x <;> rfl

theorem ArrSt.tq_setTq_other (a : ArrSt) (x : Stream) (l : List Tile) : (a.setTq x l).tq (sOther x) = a.tq (sOther x) := by
  cases x <;> rfl

theorem ArrSt.granted_setTq (a : ArrSt) (x : Stream) (l : List Tile) : (a.setTq x l).granted = a.granted := by
  cases x <;> rfl

theorem ArrSt.spills_setTq (a : ArrSt) (x : Stream) (l : List Tile) : (a.setTq x l).spills = a.spills := by
  cases x <;> rfl

/-- The array whose queue of stream x has lost its head q to a grant (R101, R145). -/
def ArrSt.popped (a : ArrSt) (x : Stream) (q : Tile) : ArrSt :=
  (a.grantMarks q).1.setTq x (((a.grantMarks q).1.tq x).drop 1)

/-- The array after a grant, before the operation takes its place among those granted (R130). -/
def ArrSt.taken (a : ArrSt) (x : Stream) (q : Tile) : ArrSt := { a.popped x q with grantSeq := (a.popped x q).grantSeq + 1 }

/-- The operation as it is granted. -/
def ArrSt.grantee (a : ArrSt) (x : Stream) (q : Tile) : Tile := { (a.grantMarks q).2 with gid := (a.popped x q).grantSeq }

theorem ArrSt.tq_grantSeq (a : ArrSt) (n : Nat) (x : Stream) : ({ a with grantSeq := n } : ArrSt).tq x = a.tq x := by
  cases x <;> rfl

theorem ArrSt.tq_taken (a : ArrSt) (x : Stream) (q : Tile) : (a.taken x q).tq x = (a.tq x).drop 1 := by
  rw [ArrSt.taken, ArrSt.tq_grantSeq, ArrSt.popped, ArrSt.tq_setTq, ArrSt.tq_grantMarks]

theorem ArrSt.tq_taken_other (a : ArrSt) (x : Stream) (q : Tile) : (a.taken x q).tq (sOther x) = a.tq (sOther x) := by
  rw [ArrSt.taken, ArrSt.tq_grantSeq, ArrSt.popped, ArrSt.tq_setTq_other, ArrSt.tq_grantMarks]

theorem ArrSt.granted_taken (a : ArrSt) (x : Stream) (q : Tile) : (a.taken x q).granted = a.granted :=
  (ArrSt.granted_setTq _ x _).trans (a.granted_grantMarks q)

theorem ArrSt.spills_taken (a : ArrSt) (x : Stream) (q : Tile) : (a.taken x q).spills = a.spills :=
  (ArrSt.spills_setTq _ x _).trans (a.spills_grantMarks q)

theorem Core.grant_eq (k : Core) (x : Stream) (q : Tile) : k.grant x q =
    { k.charge (Nat.min (k.tileCost q) k.credit) with
      stallTicks := 0,
      arr := if q.kind = .spill then { k.arr.taken x q with spills := (k.arr.taken x q).spills ++ [k.arr.grantee x q] }
        else { k.arr.taken x q with granted := (k.arr.taken x q).granted ++ [k.arr.grantee x q] } } := by
  rw [← k.arr.kind_grantMarks q]
  rfl

/-- The arbiter grants the head of the turn's queue, or of the other when that has no eligible head (R101). -/
theorem Core.arbitrate_eq {k : Core} {x : Stream} {q : Tile} (hx : x = k.turn ∨ k.elig k.turn = none ∧ x = sOther k.turn)
    (hq : k.elig x = some q) : ∃ y n, k.arbitrate = { k.grant x q with turn := y, g := n } := by
  unfold Core.arbitrate
  rcases hx with rfl | ⟨hnone, rfl⟩
  · rw [hq]
    dsimp only
    split
    · exact ⟨_, _, rfl⟩
    · exact ⟨(k.grant k.turn q).turn, _, rfl⟩
  · rw [hnone]
    dsimp only
    rw [hq]
    dsimp only
    split
    · exact ⟨_, _, rfl⟩
    · exact ⟨sOther k.turn, _, rfl⟩

/-- A core whose array no longer streams is as eligible for a grant. -/
theorem Core.elig_streamed (k : Core) (x : Stream) : ({ k with arr := k.arr.streamed } : Core).elig x = k.elig x := by
  cases x <;> rfl

theorem exec_arbGrant_of_free {s : State} {c : Nat} (hruns : s.coreRuns c = true) (hhold : (s.core c).grantHold = false)
    (hhalted : (s.core c).arr.halted = false) (hfree : (s.core c).arr.granted = [])
    (hpaused : ((s.core c).arr.paused && (s.core c).arr.streams) = false) :
    exec (.arbGrant c) s = .next (s.updCore c (fun k => Core.arbitrate { k with arr := k.arr.streamed })) := by
  refine congrArg Host.Outcome.next ((if_neg ?_).trans rfl)
  simp [hruns, hhold, hhalted, hfree, hpaused]

/-! ### The start of a spill -/

/-- An array whose spill q, granted first, begins (R143, R146). -/
def ArrSt.beginsSpill (a : ArrSt) (q : Tile) (rest : List Tile) : ArrSt :=
  { a.bump with
    spills := rest, spilling := some (q, a.tileSeq),
    paused := q.forced && a.running.any (fun r => r.tile.kind == .wg && r.left ≠ 0),
    forcedChecks := if q.forced then cnt a.forcedChecks 1 else a.forcedChecks }

theorem exec_spillStart_of_first {s : State} {c : Nat} {q : Tile} {rest : List Tile} (hruns : s.coreRuns c = true)
    (hspills : (s.core c).arr.spills = q :: rest) (hnone : (s.core c).arr.spilling = none)
    (hgranted : ∀ p ∈ (s.core c).arr.granted, p.kind = .wg → p.gid < q.gid → q.forced = true)
    (hrunning : ∀ r ∈ (s.core c).arr.running, r.tile.kind = .wg → r.tile.gid < q.gid → q.forced = true ∧ r.left ≠ 0) :
    exec (.spillStart c) s = .next (s.updArr c (fun a => a.beginsSpill q rest)) := by
  have hg : (!q.forced && (s.core c).arr.granted.any (fun p => p.kind == .wg && decide (p.gid < q.gid))) = false := by
    cases hf : q.forced with
    | true => rfl
    | false =>
      refine List.any_eq_false.mpr fun p hp h => ?_
      obtain ⟨hkind, hlt⟩ := Bool.and_eq_true_iff.mp h
      exact Bool.false_ne_true (hf.symm.trans (hgranted p hp (beq_iff_eq.mp hkind) (of_decide_eq_true hlt)))
  have hr : (s.core c).arr.running.any
      (fun r => (r.tile.kind == .wg && decide (r.tile.gid < q.gid)) && !(q.forced && r.left ≠ 0)) = false := by
    refine List.any_eq_false.mpr fun r hr h => ?_
    obtain ⟨hbefore, hstays⟩ := Bool.and_eq_true_iff.mp h
    obtain ⟨hkind, hlt⟩ := Bool.and_eq_true_iff.mp hbefore
    obtain ⟨hforced, hleft⟩ := hrunning r hr (beq_iff_eq.mp hkind) (of_decide_eq_true hlt)
    simp [hforced, hleft] at hstays
  refine congrArg Host.Outcome.next ?_
  simp only [hspills]
  refine (if_neg ?_).trans rfl
  simp only [hruns, hnone, hg, hr]
  exact Bool.false_ne_true

end Sys2Proof.Machine
end

section
/-! What the array's operations leave alone as they read, sum and drain (R122, R174 to R192, R276 to R289). -/

namespace Sys2Proof.Machine

open Sys2Proof

/-! ### Operands and outlier terms (R127, R185, R189, R192) -/

@[simp] theorem State.owRead_units (s : State) (d line e0 n) : (s.owRead d line e0 n).1.units = s.units := by
  simp [State.owRead]

@[simp] theorem State.owLines_units (s : State) (d e0 n a k) : (s.owLines d e0 n a k).1.units = s.units := by
  induction k generalizing s a with
  | zero => rfl
  | succ n ih => simp [State.owLines, ih]

@[simp] theorem State.operands_units (s : State) (c t) : (s.operands c t).1.units = s.units := by
  unfold State.operands
  dsimp only
  split
  · simp
  · split <;> simp

@[simp] theorem State.termLine_units (s : State) (c cb sc x j l) : (s.termLine c cb sc x j l).1.units = s.units := by
  induction l generalizing s j with
  | nil => rfl
  | cons w l ih =>
    rw [State.termLine]
    dsimp only
    rw [ih]
    split <;> simp

@[simp] theorem State.termLines_units (s : State) (c sc job on ws l) :
    (s.termLines c sc job on ws l).1.units = s.units := by
  induction l generalizing s with
  | nil => rfl
  | cons p t ih => simp [State.termLines, ih]

@[simp] theorem State.topkClear_units (s : State) (c o bs k) : (s.topkClear c o bs k).units = s.units := by
  induction k with
  | zero => rfl
  | succ n ih => simp [State.topkClear, ih]

@[simp] theorem State.topkClears_units (s : State) (c l) : (s.topkClears c l).units = s.units := by
  induction l generalizing s with
  | nil => rfl
  | cons p t ih => simp [State.topkClears, ih]

/-! ### The tail (R180, R194, R276, R285 to R289) -/

@[simp] theorem State.endLoftGuards_units (s : State) (c o n) : (s.endLoftGuards c o n).units = s.units := by
  simp [State.endLoftGuards]

@[simp] theorem State.loftWrite_units (s : State) (c o bs) : (s.loftWrite c o bs).units = s.units := by
  rw [State.loftWrite, State.updCore_units, State.endLoftGuards_units]
  exact fun _ => rfl

@[simp] theorem State.spoolRead_units (s : State) (c row n) : (s.spoolRead c row n).units = s.units := by
  simp [State.spoolRead]

@[simp] theorem State.tailScr_units (s : State) (c o n) : (s.tailScr c o n).1.units = s.units := by simp [State.tailScr]

@[simp] theorem State.jobVal_units (s : State) (c pscr entry off bf) :
    (s.jobVal c pscr entry off bf).1.units = s.units := by simp [State.jobVal]

@[simp] theorem State.derivOut_units (s : State) (c j l e d) : (s.derivOut c j l e d).1.units = s.units := by
  simp [State.derivOut]

@[simp] theorem State.lineVals_units (s : State) (c rt a l) : (s.lineVals c rt a l).1.units = s.units := by
  induction l generalizing s with
  | nil => rfl
  | cons p t ih => simp [State.lineVals, ih]

@[simp] theorem State.lineAcc_units (s : State) (c rt l lts) : (s.lineAcc c rt l lts).units = s.units := by
  simp [State.lineAcc]

@[simp] theorem State.stashLine_units (s : State) (c rt a m ds) : (s.stashLine c rt a m ds).units = s.units := by
  simp [State.stashLine]

@[simp] theorem State.topkLine_units (s : State) (c rt a m ds) : (s.topkLine c rt a m ds).units = s.units := by
  simp [State.topkLine]

@[simp] theorem State.putPieces_units (s : State) (bad l bs) : (s.putPieces bad l bs).1.units = s.units := by
  induction l generalizing s bs with
  | nil => rfl
  | cons p l ih =>
    rw [State.putPieces]
    split
    next t ht =>
      refine (ih t _).trans ?_
      split at ht
      · cases ht
      · exact State.writePiece_units ht
    next => exact ih s _

@[simp] theorem State.put_units (s : State) (fails base off bs) : (s.put fails base off bs).1.units = s.units := by
  simp [State.put]

@[simp] theorem State.tailLine_units (s : State) (c rt a od m l) : (s.tailLine c rt a od m l).1.units = s.units := by
  simp [State.tailLine]

@[simp] theorem State.tailLines_units (s : State) (c rt a od n k m l) :
    (s.tailLines c rt a od n k m l).1.units = s.units := by
  induction k generalizing s m l with
  | zero => rfl
  | succ n ih => simp [State.tailLines, ih]

/-! ### The loft manager (R278 to R282) -/

@[simp] theorem State.setEnt_units (s : State) (c i st) : (s.setEnt c i st).units = s.units := by simp [State.setEnt]

@[simp] theorem State.setLoc_units (s : State) (c i ovf page) : (s.setLoc c i ovf page).units = s.units := by
  simp [State.setLoc]

@[simp] theorem State.hdrAdd_units (s : State) (c o n) : (s.hdrAdd c o n).units = s.units := by simp [State.hdrAdd]

@[simp] theorem State.updLoft_units (s : State) (c f) : (s.updLoft c f).units = s.units := by
  rw [State.updLoft, State.updCore_units]
  exact fun _ => rfl

@[simp] theorem State.loftPeaks_units (s : State) (c) : (s.loftPeaks c).units = s.units := by simp [State.loftPeaks]

@[simp] theorem State.setDropped_units (s : State) (c l) : (s.setDropped c l).units = s.units := by
  induction l generalizing s with
  | nil => rfl
  | cons i t ih => simp [State.setDropped, ih]

@[simp] theorem State.dropEnt_units (s : State) (c i) : (s.dropEnt c i).units = s.units := by simp [State.dropEnt]

theorem State.beginSpill_units {s t : State} {c i} (h : s.beginSpill c i = some t) : t.units = s.units := by
  unfold State.beginSpill at h
  dsimp only at h
  split at h
  · cases h
  · rw [← Option.some.inj h]
    simp

@[simp] theorem State.placeEnt_units (s : State) (c i p) : (s.placeEnt c i p).units = s.units := by simp [State.placeEnt]

@[simp] theorem State.tryAlloc_units (s : State) (c i) : (s.tryAlloc c i).units = s.units := by
  unfold State.tryAlloc
  dsimp only
  split
  · simp
  · split
    · rfl
    · split
      · simp
      · split
        next ht => exact State.beginSpill_units ht
        next => simp

@[simp] theorem State.tryAllocs_units (s : State) (c l) : (s.tryAllocs c l).units = s.units := by
  induction l generalizing s with
  | nil => rfl
  | cons i t ih => simp [State.tryAllocs, ih]

@[simp] theorem State.makeRoom_units (s : State) (c i) : (s.makeRoom c i).units = s.units := by
  unfold State.makeRoom
  dsimp only
  split
  · rfl
  · split
    · rfl
    next v _ =>
      cases h : s.beginSpill c v with
      | none => rfl
      | some t => exact State.beginSpill_units h

@[simp] theorem State.askRecall_units (s : State) (c i) : (s.askRecall c i).units = s.units := by simp [State.askRecall]

@[simp] theorem State.loftFreed_units (s : State) (c) : (s.loftFreed c).units = s.units := by
  unfold State.loftFreed
  dsimp only
  split <;> simp

@[simp] theorem State.freeEnt_units (s : State) (c i) : (s.freeEnt c i).units = s.units := by simp [State.freeEnt]

@[simp] theorem State.releaseJob_units (s : State) (c t) : (s.releaseJob c t).units = s.units := by
  simp [State.releaseJob]

end Sys2Proof.Machine
end

section
/-! Tiles and spills as they are granted, start and complete (O23). -/

namespace Sys2Proof.Machine

open Sys2Proof

/-! ### What a drain and a staged top-k pair leave alone -/

/-- A core without what accesses to memory change, what a drain counts and clears, and the top-k pair. -/
def Core.frame (k : Core) : Core :=
  { k.still with
    arr := { k.arr with xfault := false, frameSat := 0, pairSat := 0, spoolSat := 0, eRow := [], tkCfgOn := 0, tkBaseOn := 0,
                        tkLine0 := none, tkNextCfg := none, tkClears := [] },
    lane := { k.lane with outlIgn := false, terms := 0, busy := 0 } }

/-- What drains and the staging of a top-k pair leave alone of each core. -/
def State.frames (s : State) (j : Nat) : Core := (s.core j).frame

theorem Core.frame_still (k : Core) : k.still.frame = k.frame := rfl

theorem State.frames_of_units {s t : State} (h : t.units = s.units) : t.frames = s.frames := by
  funext j
  rw [State.frames, ← Core.frame_still, State.still_of_units h, Core.frame_still, State.frames]

theorem State.setCore_frames {s : State} {c : Nat} {k : Core} (hk : k.frame = (s.core c).frame) :
    (s.setCore c k).frames = s.frames := by
  funext j
  by_cases h : j = c
  · rw [State.frames, h, State.core_setCore, hk, State.frames]
  · rw [State.frames, State.core_setCore_other s c k h, State.frames]

theorem State.updCore_frames (s : State) (c : Nat) {f : Core → Core} (hf : ∀ k : Core, (f k).frame = k.frame) :
    (s.updCore c f).frames = s.frames := State.setCore_frames (hf _)

theorem State.frames_ite (p : Prop) [Decidable p] (s t : State) :
    (if p then s else t).frames = if p then s.frames else t.frames := apply_ite State.frames p s t

theorem Core.arr_frame {k q : Core} {α : Type} (f : ArrSt → α) (hf : ∀ k : Core, f k.frame.arr = f k.arr)
    (h : k.frame = q.frame) : f k.arr = f q.arr := by
  rw [← hf k, h, hf q]

theorem Core.fenced_frame (k : Core) : k.frame.fenced = k.fenced := rfl

theorem Core.fenced_of_frame {k q : Core} (h : k.frame = q.frame) : k.fenced = q.fenced := by
  rw [← k.fenced_frame, h, q.fenced_frame]

theorem State.laneTerms_frames (s : State) (c rt) : (s.laneTerms c rt).frames = s.frames := by
  unfold State.laneTerms
  dsimp only
  split
  · rfl
  · rw [State.updCore_frames, State.frames_of_units (State.termLines_units _ _ _ _ _ _ _)]
    exact fun _ => rfl

theorem State.topkApply_frames (s : State) (c) : (s.topkApply c).frames = s.frames := by
  unfold State.topkApply
  dsimp only
  split
  · rfl
  · rw [State.frames_of_units (State.topkClears_units _ _ _), State.updArr, State.updCore_frames]
    exact fun _ => rfl

theorem State.core_updArr (s : State) (c : Nat) (f : ArrSt → ArrSt) :
    (s.updArr c f).core c = { s.core c with arr := f (s.core c).arr } := s.core_updCore c _

theorem State.arr_updArr (s : State) (c : Nat) (f : ArrSt → ArrSt) : ((s.updArr c f).core c).arr = f (s.core c).arr := by
  rw [State.core_updArr]

theorem State.fenced_updArr (s : State) (c : Nat) (f : ArrSt → ArrSt) : ((s.updArr c f).core c).fenced = (s.core c).fenced := by
  rw [State.core_updArr]

/-! ### Drains (R174 to R176) -/

theorem Core.frame_spoolPut (k : Core) (row slot v nan) : (k.spoolPut row slot v nan).frame = k.frame := rfl

theorem Core.frame_spoolClear (k : Core) (r n e) : (k.spoolClear r n e).frame = k.frame := rfl

theorem Core.frame_spoolAdd (k : Core) (row slot v e nan) : (k.spoolAdd row slot v e nan).frame = k.frame := by
  unfold Core.spoolAdd
  dsimp only
  split
  · rfl
  · rw [Core.frame_spoolPut]
    split <;> rfl

/-- The saturation that a value counts as it leaves the array (R166). -/
theorem Core.frame_countPass (k : Core) (p : Prop) [Decidable p] (pair : Bool) :
    (if p then
      (if pair then { k with arr := { k.arr with pairSat := cnt k.arr.pairSat 1 } }
       else { k with arr := { k.arr with frameSat := cnt k.arr.frameSat 1 } })
    else k).frame = k.frame := by
  split
  · split <;> rfl
  · rfl

theorem Core.frame_drainCell (k : Core) (rt a k4 sc o) : (k.drainCell rt a k4 sc o).1.frame = k.frame := by
  unfold Core.drainCell
  dsimp only
  split
  · exact (Core.frame_spoolPut _ _ _ _ _).trans (k.frame_countPass _ _)
  · exact (Core.frame_spoolAdd _ _ _ _ _ _).trans (k.frame_countPass _ _)
  · exact (Core.frame_spoolAdd _ _ _ _ _ _).trans (k.frame_countPass _ _)
  · split
    · exact k.frame_countPass _ _
    · exact k.frame_countPass _ _

theorem Core.frame_drainCells (k : Core) (rt a k4 sc l) : (k.drainCells rt a k4 sc l).1.frame = k.frame := by
  induction l generalizing k with
  | nil => rfl
  | cons o t ih => exact (ih _).trans (k.frame_drainCell rt a k4 sc o)

theorem State.arrXfault_frames (s : State) (c seq) : (s.arrXfault c seq).frames = s.frames := by
  rw [State.arrXfault, State.frames_of_units (State.event_units _ _ _ _), State.updArr, State.updCore_frames]
  exact fun _ => rfl

theorem State.drain_frames (s : State) (c rt) : (s.drain c rt).frames = s.frames := by
  unfold State.drain
  extract_lets t a sd wd od n rows outs s1 s2 k k' r s3 s4 q s5 s6 s7
  have h2 : s2.frames = s.frames := State.frames_of_units (by simp only [s2, s1]; simp)
  have hk : k'.frame = k.frame := by
    simp only [k']
    split
    · exact k.frame_spoolClear _ _ _
    · rfl
  have h3 : s3.frames = s.frames := (State.setCore_frames ((k'.frame_drainCells _ _ _ _ _).trans hk)).trans h2
  have h4 : s4.frames = s.frames := (State.frames_of_units (State.countSat_units _ _ _ _)).trans h3
  have h5 : s5.frames = s.frames := (State.frames_of_units (State.tailLines_units _ _ _ _ _ _ _ _ _)).trans h4
  have h6 : s6.frames = s.frames := by
    simp only [s6]
    split
    · exact (s5.arrXfault_frames c _).trans h5
    · exact h5
  have h7 : s7.frames = s.frames := by
    simp only [s7]
    split
    · exact (State.frames_of_units (State.countNonfinite_units _ _ _)).trans h6
    · exact h6
  split
  · exact h4
  · split
    · exact h7
    · exact (State.frames_of_units (State.countNorm_units _ _ _ _ _)).trans h7

/-! ### The start of a tile (R127 to R129, R157) -/

/-- A tile whose operands are read takes its place behind those that run (R157). -/
theorem State.runTile_spec (s : State) (c : Nat) (q : Tile) (o : Operands) :
    ∃ r : RunTile, r.tile = q ∧ r.seq = (s.core c).arr.tileSeq
      ∧ ((s.runTile c q o).core c).arr.granted = (s.core c).arr.granted.drop 1
      ∧ ((s.runTile c q o).core c).arr.running = (s.core c).arr.streamed.running ++ [r]
      ∧ ((s.runTile c q o).core c).arr.tileSeq = ((s.core c).arr.tileSeq + 1) % 2 ^ 32 := by
  unfold State.runTile
  extract_lets k sd wd a inj on e seq tap line0 arr r rt bumped s1 s2 s3
  have hr : r.granted = k.arr.granted ∧ r.running = k.arr.running ∧ r.tileSeq = k.arr.tileSeq := by
    simp only [r]
    split <;> exact ⟨rfl, rfl, rfl⟩
  obtain ⟨hgranted, hrunning, hseq⟩ := hr
  have hframe : (if o.ignS + o.ignW = 0 then s3
      else s3.updCore c (fun k => { k with lane := { k.lane with outlIgn := true } })).frames = s1.frames := by
    have h2 : s2.frames = s1.frames := by
      simp only [s2]
      split
      · exact State.frames_of_units (State.event_units _ _ _ _)
      · rfl
    have h3 : s3.frames = s1.frames := (State.frames_of_units (by simp only [s3]; simp)).trans h2
    split
    · exact h3
    · refine (State.updCore_frames s3 c ?_).trans h3
      exact fun _ => rfl
  have hk := congrFun hframe c
  refine ⟨rt, rfl, rfl, ?_, ?_, ?_⟩
  · refine (Core.arr_frame ArrSt.granted (fun _ => rfl) hk).trans ?_
    rw [State.arr_updArr]
    exact congrArg (List.drop 1) hgranted
  · refine (Core.arr_frame ArrSt.running (fun _ => rfl) hk).trans ?_
    rw [State.arr_updArr]
    exact congrArg (fun l : List RunTile => l.map (fun r => { r with left := 0 }) ++ [rt]) hrunning
  · refine (Core.arr_frame ArrSt.tileSeq (fun _ => rfl) hk).trans ?_
    rw [State.arr_updArr]
    exact congrArg (fun n => (n + 1) % 2 ^ 32) hseq

theorem State.tileBegin_spec (s : State) (c : Nat) (q : Tile) :
    ∃ r : RunTile, r.tile = q ∧ r.seq = (s.core c).arr.tileSeq
      ∧ ((s.tileBegin c q).core c).arr.granted = (s.core c).arr.granted.drop 1
      ∧ ((s.tileBegin c q).core c).arr.running = (s.core c).arr.streamed.running ++ [r]
      ∧ ((s.tileBegin c q).core c).arr.tileSeq = ((s.core c).arr.tileSeq + 1) % 2 ^ 32 := by
  have hframe := congrFun ((State.frames_of_units (State.operands_units (s.topkApply c) c q)).trans (s.topkApply_frames c)) c
  rw [← Core.arr_frame ArrSt.tileSeq (fun _ => rfl) hframe, ← Core.arr_frame ArrSt.granted (fun _ => rfl) hframe,
    ← Core.arr_frame (fun a => a.streamed.running) (fun _ => rfl) hframe]
  exact State.runTile_spec _ c q _

theorem exec_tileStart_of_first {s : State} {c : Nat} {q : Tile} {rest : List Tile} (hruns : s.coreRuns c = true)
    (hgranted : (s.core c).arr.granted = q :: rest) (hspill : q.kind = .wg → (s.core c).arr.spillBefore q = false)
    (hpaused : ((s.core c).arr.paused && (s.core c).arr.streams) = false)
    (hserved : s.coreServed c (fun s => s.tileBegin c q) = true) :
    exec (.tileStart c .ok) s = .next (((s.withAcc (s.agent c)).tileBegin c q).withAcc s.acc) := by
  refine congrArg Host.Outcome.next (State.access_of_stop_none (u := (s.withAcc (s.agent c)).tileBegin c q) ?_
    (State.stop_of_coreServed hserved))
  have hgranted' : ((s.withAcc (s.agent c)).core c).arr.granted = q :: rest := hgranted
  have hwait : (q.kind == .wg && (s.core c).arr.spillBefore q) = false := by
    by_cases hkind : q.kind = .wg
    · rw [hspill hkind, Bool.and_false]
    · rw [beq_false_of_ne hkind, Bool.false_and]
  have hcond : (!((s.withAcc (s.agent c)).coreRuns c)
      || (q.kind == .wg && ((s.withAcc (s.agent c)).core c).arr.spillBefore q)
      || (((s.withAcc (s.agent c)).core c).arr.paused && ((s.withAcc (s.agent c)).core c).arr.streams)) = false :=
    Bool.or_eq_false_iff.mpr ⟨Bool.or_eq_false_iff.mpr ⟨congrArg Bool.not hruns, hwait⟩, hpaused⟩
  simp only [hgranted', hcond, State.eccAt_ok]
  rfl

/-! ### Completion of a tile (R154) -/

theorem ArrSt.runWg_keeps (a : ArrSt) (t : Tile) (e : Int) (f : Option Flip) (xs ws : List (List El)) :
    (a.runWg t e f xs ws).running = a.running ∧ (a.runWg t e f xs ws).halted = a.halted := by
  unfold ArrSt.runWg
  extract_lets b r
  have hb : b.running = a.running ∧ b.halted = a.halted := by
    simp only [b]
    repeat' split
    all_goals exact ⟨rfl, rfl⟩
  exact hb

theorem ArrSt.flowed_keeps (a : ArrSt) (rt : RunTile) :
    (a.flowed rt).running = a.running ∧ (a.flowed rt).halted = a.halted := by
  unfold ArrSt.flowed
  split <;> exact ⟨rfl, rfl⟩

/-- A tile whose drain finds no mismatch leaves the array, and neither halts it nor fences its core. -/
theorem State.tileDone_spec (s : State) (c : Nat) (rt : RunTile) (hrt : rt.mismatch none = none) :
    ((s.tileDone c rt none).core c).arr.running = (s.core c).arr.running.drop 1
      ∧ ((s.tileDone c rt none).core c).fenced = (s.core c).fenced
      ∧ ((s.tileDone c rt none).core c).arr.halted = (s.core c).arr.halted := by
  unfold State.tileDone
  extract_lets s0 s1 s2 s3
  have h1 : (s1.core c).frame = (s.core c).frame := congrFun (s.laneTerms_frames c rt) c
  have h2 : (s2.core c).arr.running = (s.core c).arr.running ∧ (s2.core c).fenced = (s.core c).fenced
      ∧ (s2.core c).arr.halted = (s.core c).arr.halted := by
    simp only [s2]
    split
    · obtain ⟨hrun, hhalt⟩ := (s1.core c).arr.runWg_keeps rt.tile rt.etile rt.flip rt.xs rt.ws
      rw [State.arr_updArr, State.fenced_updArr]
      exact ⟨hrun.trans (Core.arr_frame ArrSt.running (fun _ => rfl) h1), Core.fenced_of_frame h1,
        hhalt.trans (Core.arr_frame ArrSt.halted (fun _ => rfl) h1)⟩
    · have hd := (congrFun (s1.drain_frames c rt) c).trans h1
      obtain ⟨hrun, hhalt⟩ := ((s1.drain c rt).core c).arr.flowed_keeps rt
      rw [State.arr_updArr, State.fenced_updArr]
      exact ⟨hrun.trans (Core.arr_frame ArrSt.running (fun _ => rfl) hd), Core.fenced_of_frame hd,
        hhalt.trans (Core.arr_frame ArrSt.halted (fun _ => rfl) hd)⟩
  obtain ⟨hrun, hfenced, hhalt⟩ := h2
  have hfail : (s3.releaseJob c rt.tile).drainFail c rt none = s3.releaseJob c rt.tile := by
    simp only [State.drainFail, hrt]
  have h3 : ((s3.releaseJob c rt.tile).core c).frame = (s3.core c).frame :=
    congrFun (State.frames_of_units (s3.releaseJob_units c rt.tile)) c
  rw [hfail, Core.arr_frame ArrSt.running (fun _ => rfl) h3, Core.arr_frame ArrSt.halted (fun _ => rfl) h3,
    Core.fenced_of_frame h3, State.arr_updArr, State.fenced_updArr]
  exact ⟨congrArg (List.drop 1) hrun, hfenced, hhalt⟩

theorem exec_tileComplete_of_first {s : State} {c : Nat} {r : RunTile} {rest : List RunTile} (hruns : s.coreRuns c = true)
    (hrunning : (s.core c).arr.running = r :: rest)
    (hpaused : ((s.core c).arr.paused && r.tile.kind == .wg && r.left != 0) = false)
    (hafter : (s.core c).arr.openSpills.any r.tile.after = false)
    (hserved : s.coreServed c (fun s => s.tileDone c r none) = true) :
    exec (.tileComplete c none false) s = .next (((s.withAcc (s.agent c)).tileDone c r none).withAcc s.acc) := by
  refine congrArg Host.Outcome.next (State.access_of_stop_none (u := (s.withAcc (s.agent c)).tileDone c r none) ?_
    (State.stop_of_coreServed hserved))
  have hrunning' : ((s.withAcc (s.agent c)).core c).arr.running = r :: rest := hrunning
  have hcond : (!((s.withAcc (s.agent c)).coreRuns c)
      || (((s.withAcc (s.agent c)).core c).arr.paused && r.tile.kind == .wg && decide (r.left ≠ 0))
      || ((s.withAcc (s.agent c)).core c).arr.openSpills.any r.tile.after) = false := by
    refine Bool.or_eq_false_iff.mpr ⟨Bool.or_eq_false_iff.mpr ⟨congrArg Bool.not hruns, ?_⟩, hafter⟩
    rw [show decide (r.left ≠ 0) = (r.left != 0) from Bool.eq_iff_iff.mpr (by simp)]
    exact hpaused
  simp only [hrunning', hcond]
  rfl

/-! ### Completion of a spill (R140, R143, R146) -/

theorem Core.frame_spillCell (k : Core) (t key a) : (k.spillCell t key a).frame = k.frame := by
  unfold Core.spillCell
  dsimp only
  split
  · exact (Core.frame_spoolAdd _ _ _ _ _ _).trans (k.frame_countPass _ _)
  · exact (Core.frame_spoolPut _ _ _ _ _).trans (k.frame_countPass _ _)

theorem Core.frame_spillCells (k : Core) (t l) : (k.spillCells t l).frame = k.frame := by
  induction l generalizing k with
  | nil => rfl
  | cons p l ih => exact (ih _).trans (k.frame_spillCell t p.1 p.2)

/-- The accumulators are empty once their values have moved to the spool. -/
theorem State.spillOut_spec (s : State) (c : Nat) (t : Tile) :
    ((s.spillOut c t).core c).arr.acc = [] ∧ ((s.spillOut c t).core c).fenced = (s.core c).fenced := by
  unfold State.spillOut
  extract_lets rows s1 s2 k acc k1 k2 arr s3
  have h2 : k.frame = (s.core c).frame := congrFun (State.frames_of_units (by simp only [s2, s1]; simp)) c
  have h1 : k1.frame = k.frame := by
    simp only [k1]
    split
    · rfl
    · exact k.frame_spoolClear _ _ _
  have hk2 : k2.frame = (s.core c).frame := (k1.frame_spillCells t acc).trans (h1.trans h2)
  have hfenced : k2.fenced = (s.core c).fenced := Core.fenced_of_frame hk2
  have hcount : ∀ slot n, ((s3.countSat c slot n).core c).frame = (s3.core c).frame := fun slot n =>
    congrFun (State.frames_of_units (s3.countSat_units c slot n)) c
  rw [Core.arr_frame ArrSt.acc (fun _ => rfl) (hcount _ _), State.core_setCore]
  refine ⟨rfl, (Core.fenced_of_frame (hcount _ _)).trans ?_⟩
  refine (congrArg Core.fenced (State.core_setCore _ c _)).trans ?_
  exact hfenced

theorem State.fenced_spillMoves (s : State) (c : Nat) (t : Tile) :
    ((if t.checkOnly then s else s.spillOut c t).core c).fenced = (s.core c).fenced := by
  split
  · rfl
  · exact (s.spillOut_spec c t).2

theorem State.acc_spillMoves (s : State) (c : Nat) {t : Tile} (ht : t.checkOnly = false) :
    ((if t.checkOnly then s else s.spillOut c t).core c).arr.acc = [] := by
  rw [ht]
  exact (s.spillOut_spec c t).1

/-- Whether a weight-gradient tile will make values that a completed spill leaves unchecked (R143). -/
def ArrSt.uncheckedAfter (a : ArrSt) (t : Tile) : Bool :=
  (a.granted ++ a.running.map (·.tile)).any (fun p => p.kind == .wg && (a.paused || decide (t.gid < p.gid)))

/-- An array whose spill t has completed (R143, R146). -/
def ArrSt.endsSpill (a : ArrSt) (later : Bool) : ArrSt :=
  { a with spilling := none, unchecked := later, chkTimer := 0, paused := false, accInj := none }

/-- A spill whose comparisons find no mismatch only moves its values, and ends. -/
theorem State.spillDone_eq {s : State} {c seq : Nat} {t : Tile} (hinj : (s.core c).arr.accInj = none)
    (hacc : (s.core c).arr.accMismatch = none) : s.spillDone c t seq none
    = (if t.checkOnly then s else s.spillOut c t).updArr c (fun a => a.endsSpill ((s.core c).arr.uncheckedAfter t)) := by
  unfold State.spillDone State.spillFail ArrSt.accUpset
  simp only [hinj, hacc]
  rfl

theorem exec_spillComplete_of_last {s : State} {c seq : Nat} {q : Tile} (hruns : s.coreRuns c = true)
    (hspilling : (s.core c).arr.spilling = some (q, seq))
    (hafter : ((s.core c).arr.granted ++ (s.core c).arr.running.map (·.tile)).any q.after = false)
    (hserved : s.coreServed c (fun s => s.spillDone c q seq none) = true) :
    exec (.spillComplete c none false) s = .next (((s.withAcc (s.agent c)).spillDone c q seq none).withAcc s.acc) := by
  refine congrArg Host.Outcome.next (State.access_of_stop_none (u := (s.withAcc (s.agent c)).spillDone c q seq none) ?_
    (State.stop_of_coreServed hserved))
  have hspilling' : ((s.withAcc (s.agent c)).core c).arr.spilling = some (q, seq) := hspilling
  have hcond : (!((s.withAcc (s.agent c)).coreRuns c) || (((s.withAcc (s.agent c)).core c).arr.granted
      ++ ((s.withAcc (s.agent c)).core c).arr.running.map (·.tile)).any q.after) = false :=
    Bool.or_eq_false_iff.mpr ⟨congrArg Bool.not hruns, hafter⟩
  simp only [hspilling', hcond]
  rfl

/-! ### The statement -/

/-- What a grant leaves of the core that it is made in (R97, R101, R130). -/
theorem Core.grant_spec (k : Core) (x : Stream) (q : Tile) (hfree : k.arr.granted = []) :
    (k.grant x q).credit = k.credit - Nat.min (k.tileCost q) k.credit
      ∧ (k.grant x q).arr.tq x = (k.arr.tq x).drop 1 ∧ (k.grant x q).arr.tq (sOther x) = k.arr.tq (sOther x)
      ∧ if q.kind = .spill then (k.grant x q).arr.granted = [] ∧ (k.grant x q).arr.spills.length = k.arr.spills.length + 1
        else ∃ g, (k.grant x q).arr.granted = [g] ∧ g.kind = q.kind ∧ g.desc = q.desc
          ∧ (k.grant x q).arr.spills = k.arr.spills := by
  have hgranted : (k.arr.taken x q).granted = [] := (k.arr.granted_taken x q).trans hfree
  have hspills := k.arr.spills_taken x q
  have htq := k.arr.tq_taken x q
  have hother := k.arr.tq_taken_other x q
  rw [Core.grant_eq]
  by_cases hkind : q.kind = .spill
  · simp only [if_pos hkind]
    refine ⟨rfl, ?_, ?_, hgranted, ?_⟩
    · rw [← htq]
      cases x <;> rfl
    · rw [← hother]
      cases x <;> rfl
    · simp [hspills]
  · simp only [if_neg hkind]
    refine ⟨rfl, ?_, ?_, k.arr.grantee x q, ?_, k.arr.kind_grantMarks q, k.arr.desc_grantMarks q, hspills⟩
    · rw [← htq]
      cases x <;> rfl
    · rw [← hother]
      cases x <;> rfl
    · simp [hgranted]

/-- Settles O23: a grant and the start of a spill change one core, as `Core.grant_spec` and `ArrSt.beginsSpill` say; what a start
and the completions read, drain and release stays within `State.frames`, outside all that the statement names. -/
theorem tilesAreGrantedStartedAndDrained : Obligations.TilesAreGrantedStartedAndDrained := by
  unfold Obligations.TilesAreGrantedStartedAndDrained
  intro c s hruns
  refine ⟨fun x q hhold hhalted hfree hpaused hx hq => ?_, fun q rest hq hspill hpaused hserved => ?_,
    fun r rest hr hpaused hafter hmatch hserved => ?_, fun q rest hq hnone hgranted hrunning => ?_,
    fun q n hq hafter hinj hmatch hserved => ?_⟩
  · obtain ⟨y, n, harb⟩ := Core.arbitrate_eq (k := { s.core c with arr := (s.core c).arr.streamed }) (x := x) (q := q)
      (by rw [Core.elig_streamed]; exact hx) (by rw [Core.elig_streamed]; exact hq)
    obtain ⟨hcredit, htq, hother, hplace⟩ := Core.grant_spec { s.core c with arr := (s.core c).arr.streamed } x q hfree
    refine ⟨_, exec_arbGrant_of_free hruns hhold hhalted hfree hpaused, ?_, ?_, ?_, ?_,
      fun j hj => s.core_updCore_other c _ hj, rfl⟩
    all_goals rw [State.core_updCore, harb]
    · exact hcredit
    · refine htq.trans ?_
      cases x <;> rfl
    · refine hother.trans ?_
      cases x <;> rfl
    · exact hplace
  · obtain ⟨r, htile, hseq, hgranted, hrunning, hnext⟩ := State.tileBegin_spec (s.withAcc (s.agent c)) c q
    exact ⟨_, r, exec_tileStart_of_first hruns hq hspill hpaused hserved, htile, hseq,
      hgranted.trans (congrArg (List.drop 1) hq), hrunning, hnext⟩
  · obtain ⟨hrunning, hfenced, hhalted⟩ := State.tileDone_spec (s.withAcc (s.agent c)) c r hmatch
    exact ⟨_, exec_tileComplete_of_first hruns hr hpaused hafter hserved, hrunning.trans (congrArg (List.drop 1) hr), hfenced,
      hhalted⟩
  · refine ⟨_, exec_spillStart_of_first hruns hq hnone hgranted hrunning, ?_, ?_, ?_,
      fun j hj => s.core_updCore_other c _ hj, fun p => ?_⟩
    · rw [State.arr_updArr]
      rfl
    · rw [State.arr_updArr]
      rfl
    · rw [State.arr_updArr]
      rfl
    · rw [State.updArr, State.cell_updCore]
      exact fun _ => ⟨rfl, rfl, rfl⟩
  · have hdone := State.spillDone_eq (s := s.withAcc (s.agent c)) (seq := n) (t := q) hinj hmatch
    refine ⟨_, exec_spillComplete_of_last hruns hq hafter hserved, ?_⟩
    rw [State.core_withAcc, hdone, State.arr_updArr, State.fenced_updArr]
    refine ⟨rfl, rfl, rfl, fun hgranted hrunning => ?_, ?_, fun hmoves => ?_⟩
    · have hlater : (s.core c).arr.uncheckedAfter q = false := by
        rw [ArrSt.uncheckedAfter, hgranted, hrunning]
        rfl
      exact hlater
    · exact State.fenced_spillMoves (s.withAcc (s.agent c)) c q
    · exact State.acc_spillMoves (s.withAcc (s.agent c)) c hmoves

end Sys2Proof.Machine
end

section
/-! The loft manager's answer to a tile that names entries (R278, R279, R281): the units and the access at hand stay as they
are. -/

namespace Sys2Proof.Machine

open Sys2Proof

/-! ### The access at hand, when scratch is written -/

@[simp] theorem State.endGuard_acc (s : State) (c g) : (s.endGuard c g).acc = s.acc :=
  State.acc_of_unitsAcc (s.endGuard_unitsAcc c g)

@[simp] theorem State.endGuards_acc (s : State) (c l) : (s.endGuards c l).acc = s.acc := by
  induction l generalizing s with
  | nil => rfl
  | cons g t ih => rw [State.endGuards, ih, State.endGuard_acc]

@[simp] theorem State.endTouched_acc (s : State) (copy a n l) : (s.endTouched copy a n l).acc = s.acc := by
  induction l generalizing s with
  | nil => rfl
  | cons c t ih => exact (ih _).trans (s.endGuards_acc c _)

@[simp] theorem State.scrWrite_acc (s : State) (c o bs) : (s.scrWrite c o bs).acc = s.acc :=
  s.endTouched_acc _ _ _ _

/-! ### The access at hand, in the loft manager -/

@[simp] theorem State.setEnt_acc (s : State) (c i st) : (s.setEnt c i st).acc = s.acc := s.scrWrite_acc _ _ _

@[simp] theorem State.loftPeaks_acc (s : State) (c) : (s.loftPeaks c).acc = s.acc := by simp [State.loftPeaks]

@[simp] theorem State.setDropped_acc (s : State) (c l) : (s.setDropped c l).acc = s.acc := by
  induction l generalizing s with
  | nil => rfl
  | cons i t ih => rw [State.setDropped, ih, State.setEnt_acc]

@[simp] theorem State.dropEnt_acc (s : State) (c i) : (s.dropEnt c i).acc = s.acc := by
  unfold State.dropEnt State.hdrAdd
  dsimp only
  split <;> simp

theorem State.beginSpill_acc {s t : State} {c i} (h : s.beginSpill c i = some t) : t.acc = s.acc := by
  unfold State.beginSpill at h
  dsimp only at h
  split at h
  · cases h
  · rw [← Option.some.inj h]
    simp

@[simp] theorem State.placeEnt_acc (s : State) (c i p) : (s.placeEnt c i p).acc = s.acc := by
  simp [State.placeEnt, State.setLoc]

@[simp] theorem State.tryAlloc_acc (s : State) (c i) : (s.tryAlloc c i).acc = s.acc := by
  unfold State.tryAlloc
  dsimp only
  split
  · simp
  · split
    · rfl
    · split
      · simp
      · split
        next ht => exact State.beginSpill_acc ht
        next => simp

@[simp] theorem State.tryAllocs_acc (s : State) (c l) : (s.tryAllocs c l).acc = s.acc := by
  induction l generalizing s with
  | nil => rfl
  | cons i t ih => rw [State.tryAllocs, ih, State.tryAlloc_acc]

@[simp] theorem State.makeRoom_acc (s : State) (c i) : (s.makeRoom c i).acc = s.acc := by
  unfold State.makeRoom
  dsimp only
  split
  · rfl
  · split
    · rfl
    next v _ =>
      cases h : s.beginSpill c v with
      | none => rfl
      | some t => exact State.beginSpill_acc h

/-! ### Entries that a tile names (R278, R279, R281) -/

@[simp] theorem State.askRecall_unitsAcc (s : State) (c i) : (s.askRecall c i).unitsAcc = s.unitsAcc := by
  refine Prod.ext (s.askRecall_units c i) ?_
  change (s.askRecall c i).acc = s.acc
  unfold State.askRecall
  split <;> simp

@[simp] theorem State.keepEnt_unitsAcc (s : State) (c i) : (s.keepEnt c i).unitsAcc = s.unitsAcc := by
  unfold State.keepEnt
  split
  · refine Prod.ext ?_ ?_ <;> simp [State.unitsAcc]
  · rfl

@[simp] theorem State.nameEnt_unitsAcc (s : State) (c i) : (s.nameEnt c i).unitsAcc = s.unitsAcc := by
  unfold State.nameEnt
  split
  · refine Prod.ext ?_ ?_ <;> simp [State.unitsAcc]
  · exact s.keepEnt_unitsAcc c i
  · exact s.askRecall_unitsAcc c i
  · rfl

@[simp] theorem State.nameEnts_unitsAcc (s : State) (c l) : (s.nameEnts c l).unitsAcc = s.unitsAcc := by
  induction l generalizing s with
  | nil => rfl
  | cons i t ih => rw [State.nameEnts, ih, State.nameEnt_unitsAcc]

end Sys2Proof.Machine
end

section
/-! The array instructions at issue (O22). -/

namespace Sys2Proof.Machine

open Sys2Proof

/-! ### A tile's place in its queue (R24, R148) -/

/-- An array that takes tile q from stream x: the queue of the stream, and the weights that the tile will load (R149). -/
def ArrSt.queues (a : ArrSt) (x : Stream) (q : Tile) : ArrSt :=
  let b := a.setTq x (a.tq x ++ [q])
  if q.loadw then { b with wtLoaded := true, wtFmt := (tdesc q.wdesc q.wFall).fmt, wtPair := q.pair } else b

theorem Queue.credit_tile (n : Nat) : Queue.tile.credit n = decide (n < 4) := rfl

theorem ArrSt.tq_queues (a : ArrSt) (x : Stream) (q : Tile) : (a.queues x q).tq x = a.tq x ++ [q] := by
  unfold ArrSt.queues
  cases x <;> cases q.loadw <;> rfl

theorem ArrSt.tq_queues_other (a : ArrSt) (x : Stream) (q : Tile) : (a.queues x q).tq (sOther x) = a.tq (sOther x) := by
  unfold ArrSt.queues
  cases x <;> cases q.loadw <;> rfl

/-- A core whose array takes tile q from stream x. -/
def Core.arrTakes (k : Core) (x : Stream) (q : Tile) : Core :=
  { k with nextTicket := k.nextTicket + 1, arr := k.arr.queues x q }

theorem Core.st_arrTakes (k : Core) (x y : Stream) (q : Tile) : (k.arrTakes x q).st y = k.st y := by
  cases y <;> rfl

theorem Core.arr_setSt (k : Core) (x : Stream) (t : StreamSt) : (k.setSt x t).arr = k.arr := by
  cases x <;> rfl

theorem Core.st_still (k : Core) (x : Stream) : k.still.st x = k.st x := by
  cases x <;> rfl

/-! ### The end of an instruction -/

theorem State.core_retire (s : State) (c : Nat) (x : Stream) :
    (s.retire c x).core c = ((s.core c).setSt x (((s.core c).st x).ended (((s.core c).st x).pc + 8))).issued :=
  s.core_updCore c _

theorem State.st_retire (s : State) (c : Nat) (x : Stream) :
    ((s.retire c x).core c).st x = ((s.core c).st x).ended (((s.core c).st x).pc + 8) := by
  rw [State.core_retire, Core.st_issued, Core.st_setSt]

theorem State.st_retire_other (s : State) (c : Nat) (x : Stream) :
    ((s.retire c x).core c).st (sOther x) = (s.core c).st (sOther x) := by
  rw [State.core_retire, Core.st_issued, Core.st_setSt_other]

theorem State.arr_retire (s : State) (c : Nat) (x : Stream) : ((s.retire c x).core c).arr = (s.core c).arr := by
  rw [State.core_retire]
  exact Core.arr_setSt _ x _

theorem State.credit_retire (s : State) (c : Nat) (x : Stream) : ((s.retire c x).core c).credit = (s.core c).credit := by
  rw [State.core_retire]
  exact Core.credit_setSt _ x _

/-! ### Issue (R148, R151, R323) -/

/-- The checks of R151 on an array instruction, and the tile they let through. -/
abbrev State.arrCheck (s : State) (c : Nat) (x : Stream) (kind : TileKind) (m : Nat) (a : W64) (out : Bool) : Except Nat Tile :=
  if kind = .spill then s.spillCheck c x m a out else s.tileCheck c x kind m a out

theorem State.arrCheck_withAcc (s : State) (acc : AccSt) (c : Nat) (x : Stream) (kind : TileKind) (m : Nat) (a : W64)
    (out : Bool) : (s.withAcc acc).arrCheck c x kind m a out = s.arrCheck c x kind m a out := rfl

/-- Core c after its array has taken tile q from stream x and its loft manager has answered for the entries the tile names. -/
def State.arrAccepts (s : State) (c : Nat) (x : Stream) (q : Tile) : State :=
  (s.updCore c (fun k => k.arrTakes x q)).nameEnts c q.loftEntries

theorem State.acc_arrAccepts (s : State) (c : Nat) (x : Stream) (q : Tile) : (s.arrAccepts c x q).acc = s.acc :=
  (State.acc_of_unitsAcc (State.nameEnts_unitsAcc _ c _)).trans rfl

theorem State.still_arrAccepts (s : State) (c : Nat) (x : Stream) (q : Tile) :
    ((s.arrAccepts c x q).core c).still = ((s.core c).arrTakes x q).still := by
  rw [State.arrAccepts, State.still_of_units (State.units_of_unitsAcc (State.nameEnts_unitsAcc _ c _)), State.core_updCore]

theorem State.st_arrAccepts (s : State) (c : Nat) (x y : Stream) (q : Tile) :
    ((s.arrAccepts c x q).core c).st y = (s.core c).st y := by
  rw [← Core.st_still, State.still_arrAccepts, Core.st_still, Core.st_arrTakes]

theorem State.arr_arrAccepts (s : State) (c : Nat) (x : Stream) (q : Tile) :
    ((s.arrAccepts c x q).core c).arr = (s.core c).arr.queues x q := congrArg Core.arr (s.still_arrAccepts c x q)

theorem State.credit_arrAccepts (s : State) (c : Nat) (x : Stream) (q : Tile) :
    ((s.arrAccepts c x q).core c).credit = (s.core c).credit :=
  (congrArg Core.credit (s.still_arrAccepts c x q) :)

/-- How an array instruction whose checks have answered ends. -/
def State.arrEnds (s : State) (c : Nat) (x : Stream) : Except Nat Tile → State
  | .error code => s.raise c x code
  | .ok q =>
    if 4 ≤ ((s.core c).arr.tq x).length then s.waitFor c x .tileQueue
    else (s.arrAccepts c x { q with id := (s.core c).nextTicket }).retire c x

theorem State.coreAccess_congr {s : State} {c : Nat} {f g : State → State}
    (h : f (s.withAcc (s.agent c)) = g (s.withAcc (s.agent c))) : s.coreAccess c f = s.coreAccess c g := by
  change f { s with acc := s.agent c } = g { s with acc := s.agent c } at h
  rw [State.coreAccess, State.coreAccess, State.access, State.access, h]

/-- An array instruction that acts ends as the checks on its state say. -/
theorem State.arrIssue_acts {s : State} {c : Nat} {x : Stream} {kind : TileKind} {m : Nat} {w : InsnW} {a : W64} {out : Bool}
    (hacts : s.Acts c x w []) (hok : fmtM w = true) (hD : iD w = 0) (hm : minorOk kind m = true)
    (ha : offAdd (((s.core c).st x).getA (iA w)) (iImm w) = a)
    (hout : offOut (offSum (((s.core c).st x).getA (iA w)) (iImm w)) = out)
    (hserved : s.coreServed c (fun s => s.touchAll c (s.tileReads c kind a)) = true) :
    s.arrIssue c x kind m w = s.coreAccess c (fun u => u.arrEnds c x (s.arrCheck c x kind m a out)) := by
  refine State.coreAccess_congr
    ((State.issue_acts (s.withAcc (s.agent c)) c x w _ hacts (by rw [hok, hD, hm]; rfl)).trans ?_)
  have htouch := State.touchAll_eq_self _ (State.stop_of_coreServed hserved)
  simp only [State.core_withAcc, ha, hout, htouch, State.arrCheck_withAcc]
  cases s.arrCheck c x kind m a out with
  | error code => rfl
  | ok q =>
    by_cases hfull : 4 ≤ ((s.core c).arr.tq x).length
    · refine (if_pos ?_).trans (if_pos hfull).symm
      rw [Queue.credit_tile, decide_eq_false (not_lt.mpr hfull)]
      rfl
    · refine (if_neg ?_).trans (Eq.trans ?_ (if_neg hfull).symm)
      · rw [Queue.credit_tile, decide_eq_true (not_le.mp hfull)]
        exact Bool.false_ne_true
      · simp only [State.ticket, State.updArr, State.updCore_updCore]
        rfl

theorem State.access_arrEnds_error (s : State) (c : Nat) (x : Stream) (code : Nat) :
    s.coreAccess c (fun u => u.arrEnds c x (.error code)) = s.raise c x code := State.access_of_withAcc rfl rfl

section
variable {s : State} {c : Nat} {x : Stream} (q : Tile)

theorem State.access_arrEnds_full (hfull : 4 ≤ ((s.core c).arr.tq x).length) :
    s.coreAccess c (fun u => u.arrEnds c x (.ok q)) = s.waitFor c x .tileQueue :=
  State.access_of_withAcc (if_pos hfull) rfl

theorem State.access_arrEnds_room (hroom : ((s.core c).arr.tq x).length < 4) :
    s.coreAccess c (fun u => u.arrEnds c x (.ok q))
      = (((s.withAcc (s.agent c)).arrAccepts c x { q with id := (s.core c).nextTicket }).retire c x).withAcc s.acc :=
  State.access_of_stop_none (if_neg (not_le.mpr hroom))
    (congrArg AccSt.stop (State.acc_arrAccepts (s.withAcc (s.agent c)) c x _))

end

theorem exec_tileRows : ∀ r ∈ tileRows, ∀ c x m w s, exec (r.1 c x m w) s = .next (s.arrIssue c x r.2 m.toNat w) := by
  unfold tileRows
  simp only [List.forall_mem_cons]
  iterate 5 refine ⟨fun _ _ _ _ _ => rfl, ?_⟩
  exact fun _ h => absurd h List.not_mem_nil

/-- Settles O22: an accepted tile changes one core by `Core.arrTakes`, and what the loft manager then does for the entries it
names is outside the array, the streams and the credit, and stops no access. -/
theorem arrayInstructionsQueueTheirTile : Obligations.ArrayInstructionsQueueTheirTile := by
  unfold Obligations.ArrayInstructionsQueueTheirTile
  intro r hr c x m w s u addr out chk hacts hok hD hm hserved
  have hexec : exec (r.1 c x m w) s = .next (s.coreAccess c (fun u => u.arrEnds c x chk)) :=
    (exec_tileRows r hr c x m w s).trans (congrArg Host.Outcome.next (State.arrIssue_acts hacts hok hD hm rfl rfl hserved))
  refine ⟨fun code hchk => ?_, fun q hchk => ⟨fun hfull => ?_, fun hroom => ?_⟩⟩
  · rw [hexec, hchk, State.access_arrEnds_error]
  · rw [hexec, hchk, State.access_arrEnds_full q hfull]
  · rw [hchk, State.access_arrEnds_room q hroom] at hexec
    refine ⟨_, hexec, ?_⟩
    rw [State.core_withAcc, State.arr_retire, State.credit_retire, State.st_retire, State.st_retire_other,
      State.arr_arrAccepts, State.credit_arrAccepts, State.st_arrAccepts, State.st_arrAccepts]
    refine ⟨ArrSt.tq_queues _ x _, ArrSt.tq_queues_other _ x _, rfl, rfl, rfl, fun hnone => ?_⟩
    have hcore : (s.withAcc (s.agent c)).arrAccepts c x { q with id := (s.core c).nextTicket }
        = (s.withAcc (s.agent c)).updCore c (fun k => k.arrTakes x { q with id := (s.core c).nextTicket }) := by
      rw [State.arrAccepts, hnone]
      rfl
    rw [hcore]
    refine ⟨?_, fun j hj => State.core_updCore_retire_other (s.withAcc (s.agent c)) c x _ hj, rfl⟩
    rw [State.core_updCore_retire]
    exact (Core.setSt_stores _ x _).1

end Sys2Proof.Machine
end

section
/-! The array's test, injection and top-k registers, and the accesses of a running tile that fail (O24). -/

namespace Sys2Proof.Machine

open Sys2Proof

/-! ### Writes of the array's registers (R143, R159 to R161, R187) -/

theorem Core.arr_poke (k : Core) : k.poke.arr = k.arr := by
  rw [Core.poke_eq]

theorem Core.wrIgn_poke (k : Core) : k.poke.wrIgn = k.wrIgn := by
  rw [Core.poke_eq]

/-- The check-only spill that an array puts behind the granted spills when it is forced (R143). -/
def ArrSt.forcedCheck (a : ArrSt) : Tile := { x := .a, kind := .spill, checkOnly := true, forced := true, gid := a.grantSeq }

theorem ArrSt.spills_force (a : ArrSt) : a.force.spills = a.spills ++ [a.forcedCheck] := rfl

section
variable {k : Core} {v : Nat}

theorem Core.arrCtrl_force (hv : v.testBit 0 = true) (hcoming : k.arr.checkComing = false) (hhalted : k.arr.halted = false) :
    k.arrCtrl v = { k with arr := { k.arr.force with chkTimer := 0 } } := by
  refine if_pos ?_
  rw [bit, hv, hcoming, hhalted]
  rfl

theorem Core.arrArm_arm (hv : v.testBit 0 = true) : k.arrArm v = { k with
    arr := { k.arr with armed := true, armRow := k.arr.injRow, armCol := k.arr.injCol, armBit := k.arr.injBit } } := if_pos hv

theorem Core.arrArm_cancel (hv : v.testBit 0 = false) : k.arrArm v = { k with arr := { k.arr with armed := false } } :=
  if_neg (Bool.eq_false_iff.mp hv)

theorem Core.arrTopk_arm (hv : v.testBit 0 = true) : k.arrTopk v =
    if 0x400000 < topkEnd k.arr.tkCfg k.arr.tkBase then { k with wrIgn := true }
    else { k with arr := { k.arr with
      tkNextCfg := some (k.arr.tkCfg, k.arr.tkBase),
      tkClears := if v.testBit 1 then k.arr.tkClears ++ [(k.arr.tkCfg, k.arr.tkBase)] else k.arr.tkClears } } :=
  if_neg (by rw [bit, hv]; exact Bool.false_ne_true)

end

/-! ### The timer (R143) -/

theorem exec_arrChkTimerExpiry_of_due {s : State} {c : Nat} (hruns : s.coreRuns c = true) (hun : (s.core c).arr.unchecked = true)
    (hdue : 1800 ≤ (s.core c).arr.chkTimer) (hcoming : (s.core c).arr.spillComing = false)
    (hhalted : (s.core c).arr.halted = false) :
    exec (.arrChkTimerExpiry c) s = .next (s.updArr c (fun a => a.force)) := by
  refine congrArg Host.Outcome.next (if_neg ?_)
  rw [hruns, hun, hcoming, hhalted, decide_eq_false (not_lt.mpr hdue)]
  exact Bool.false_ne_true

/-! ### Accesses that fail after issue (R595) -/

theorem State.core_updArr_other (s : State) (c : Nat) (f : ArrSt → ArrSt) {j : Nat} (h : j ≠ c) :
    (s.updArr c f).core j = s.core j := s.core_updCore_other c _ h

theorem State.cell_updArr (s : State) (c : Nat) (f : ArrSt → ArrSt) : ∀ p, (s.updArr c f).cell p = s.cell p :=
  s.cell_updCore c fun _ => ⟨rfl, rfl, rfl⟩

theorem State.core_arrXfault (s : State) (c n j : Nat) :
    (s.arrXfault c n).core j = (s.updArr c (fun a => { a with xfault := true })).core j := rfl

/-- A change of the array with the record and the report of a failed access. -/
theorem State.arrXfault_updArr_spec (s : State) (c n : Nat) (f : ArrSt → ArrSt) :
    (((s.updArr c f).arrXfault c n).core c).arr.xfault = true
      ∧ ((s.updArr c f).arrXfault c n).knot.events
          = s.knot.events ++ [{ code := 0x06, source := s.logNum c, arg := n % 4096 }]
      ∧ (∀ j, j ≠ c → ((s.updArr c f).arrXfault c n).core j = s.core j)
      ∧ ∀ p, ((s.updArr c f).arrXfault c n).cell p = s.cell p := by
  have hevent : ∀ (u : State) code source arg p, (u.event code source arg).cell p = u.cell p :=
    fun _ _ _ _ => State.cell_congr (fun _ => rfl) fun _ => ⟨rfl, rfl, rfl⟩
  refine ⟨?_, rfl, fun j hj => ?_, fun p => ?_⟩
  · rw [State.core_arrXfault, State.core_updArr]
  · rw [State.core_arrXfault, State.core_updArr_other _ _ _ hj, State.core_updArr_other _ _ _ hj]
  · rw [State.arrXfault, hevent, State.cell_updArr, State.cell_updArr]

/-- A running tile after the write of an output block has failed (R595). -/
def RunTile.writeFail (r : RunTile) (blk : Nat) : RunTile := { r with wfail := blk :: r.wfail, xfault := true }

section
variable {s : State} {c n : Nat} {b : W64} {r : RunTile} (hrun : (s.core c).arr.running.find? (fun q => q.seq == n) = some r)
  (hfails : s.failsAt b.toNat = true)
include hrun hfails

theorem exec_arrayAccessFail_write (hmeets : r.tile.outMeets b.toNat = true) (hnew : r.wfail.contains b.toNat = false) :
    exec (.arrayAccessFail c n true b) s = .next ((s.updArr c (fun a => { a with
      running := a.running.map (fun q => if q.seq = n then q.writeFail b.toNat else q) })).arrXfault c n) := by
  refine congrArg Host.Outcome.next ?_
  simp only [hrun, hfails, hmeets, hnew]
  rfl

theorem exec_arrayAccessFail_read (hspans : r.tile.spans.any (fun p => meets256 b.toNat p.1 p.2) = true) :
    exec (.arrayAccessFail c n false b) s = .next ((s.updArr c (fun a => a.readFail r b.toNat)).arrXfault c n) := by
  refine congrArg Host.Outcome.next ?_
  simp only [hrun, hfails, hspans]
  rfl

end

/-! ### The statement -/

/-- Settles O24: a register's write changes one core as `Core.arrCtrl`, `Core.arrArm` and `Core.arrTopk` say; a failed access
changes one array and sends one event. -/
theorem arrayChecksAndRegisters : Obligations.ArrayChecksAndRegisters := by
  unfold Obligations.ArrayChecksAndRegisters
  intro c v s
  refine ⟨fun hwin hv => ⟨fun hcoming hhalted => ?_, ?_, ?_⟩, fun hwin hv => ?_, fun hruns hun hdue hcoming hhalted => ?_,
    fun n b r hrun hfails hmeets hnew => ?_, fun n b r hrun hfails hspans => ?_⟩
  · refine ⟨_, (s.core c).arr.forcedCheck, rfl, ?_, rfl, rfl, ?_, fun j hj => s.core_coreWrite_other c _ hj⟩
    all_goals rw [State.core_coreWrite hwin, Core.arr_poke, Core.arrCtrl_force hv hcoming hhalted]
    exact (s.core c).arr.spills_force
  · refine ⟨_, congrArg Host.Outcome.next (if_pos hv), ?_, fun j hj => s.core_coreWrite_other c _ hj⟩
    rw [State.core_coreWrite hwin, Core.arr_poke, Core.arrArm_arm hv]
  · refine ⟨_, rfl, fun j hj => s.core_coreWrite_other c _ hj, ?_⟩
    rw [State.core_coreWrite hwin, Core.arr_poke, Core.wrIgn_poke, Core.arrTopk_arm hv]
    by_cases hend : 0x400000 < topkEnd (s.core c).arr.tkCfg (s.core c).arr.tkBase
    · rw [if_pos hend, if_pos hend]
      exact ⟨rfl, rfl⟩
    · rw [if_neg hend, if_neg hend]
  · refine ⟨_, congrArg Host.Outcome.next (if_neg (Bool.eq_false_iff.mp hv)), ?_, fun j hj => s.core_coreWrite_other c _ hj⟩
    rw [State.core_coreWrite hwin, Core.arr_poke, Core.arrArm_cancel hv]
  · refine ⟨_, (s.core c).arr.forcedCheck, exec_arrChkTimerExpiry_of_due hruns hun hdue hcoming hhalted, ?_, rfl,
      fun j hj => s.core_updCore_other c _ hj⟩
    rw [State.arr_updArr]
    exact (s.core c).arr.spills_force
  · exact ⟨_, exec_arrayAccessFail_write hrun hfails hmeets hnew, s.arrXfault_updArr_spec c n _⟩
  · exact ⟨_, exec_arrayAccessFail_read hrun hfails hspans, s.arrXfault_updArr_spec c n _⟩

end Sys2Proof.Machine
end

section
/-! What reads of device memory leave alone (R306 to R309, R323), and what writes leave alone (R310, R317, R322, R324). -/

namespace Sys2Proof.Machine

open Sys2Proof

/-! ### Reads -/

/-- A state without what a read of device memory changes: the stacks, the events and reports of the errors it finds, and the access
at hand. -/
def State.unread (s : State) : State :=
  { s with stks := [], acc := {}, knot := { s.knot with events := [] },
           rip := { s.rip with last := 0, lastTick := 0, faults := 0, fault := false } }

theorem State.core_of_unread {s t : State} (h : t.unread = s.unread) (j : Nat) : t.core j = s.core j := by
  have e := congrArg (fun u : State => u.core j) h
  exact e

theorem State.rig_of_unread {s t : State} (h : t.unread = s.unread) : t.rig = s.rig := by
  have e := congrArg (fun u : State => u.rig) h
  exact e

@[simp] theorem State.unread_ite (p : Prop) [Decidable p] (s t : State) :
    (if p then s else t).unread = if p then s.unread else t.unread := apply_ite State.unread p s t

@[simp] theorem State.setStk_unread (s : State) (i t) : (s.setStk i t).unread = s.unread := rfl

@[simp] theorem State.updStk_unread (s : State) (i f) : (s.updStk i f).unread = s.unread := rfl

@[simp] theorem State.event_unread (s : State) (code source arg) : (s.event code source arg).unread = s.unread := rfl

@[simp] theorem State.report_unread (s : State) (code) : (s.report code).unread = s.unread := rfl

@[simp] theorem State.wakeStk_unread (s : State) (st) : (s.wakeStk st).unread = s.unread := by simp [State.wakeStk]

@[simp] theorem State.ask_unread (s : State) (st blk write) : (s.ask st blk write).unread = s.unread := by
  unfold State.ask
  split
  · rfl
  · split
    · rfl
    · simp

@[simp] theorem State.uncorr_unread (s : State) (st cw kind) : (s.uncorr st cw kind).unread = s.unread := by simp [State.uncorr]

@[simp] theorem State.corr_unread (s : State) (st cw) : (s.corr st cw).unread = s.unread := by simp [State.corr]

@[simp] theorem State.senseCw_unread (s : State) (st cw kind) : (s.senseCw st cw kind).1.unread = s.unread := by
  unfold State.senseCw
  dsimp only
  split <;> simp

@[simp] theorem State.readCws_unread (s : State) (st l) : (s.readCws st l).1.unread = s.unread := by
  induction l generalizing s with
  | nil => rfl
  | cons p t ih => simp [State.readCws, State.readCw, ih]

@[simp] theorem State.readStk_unread (s : State) (st a n) : (s.readStk st a n).1.unread = s.unread := by
  unfold State.readStk
  dsimp only
  split <;> simp

@[simp] theorem State.guardRead_unread (s : State) (c a n) : (s.guardRead c a n).unread = s.unread := by
  unfold State.guardRead
  split <;> rfl

theorem State.readPiece_unread {s t : State} {a n bs} (h : s.readPiece a n = some (t, bs)) : t.unread = s.unread := by
  have hguard : (match s.acc.core with
      | some c => s.guardRead c a n
      | none => s).unread = s.unread := by
    split <;> simp
  unfold State.readPiece at h
  dsimp only at h
  split at h
  next st l _ =>
    have ht := congrArg (fun p : State × List PByte => p.1.unread) (Option.some.inj h)
    exact ht.symm.trans ((State.readStk_unread _ _ _ _).trans hguard)
  all_goals cases h
  all_goals exact hguard

@[simp] theorem State.readPieces_unread (s : State) (fail l) : (s.readPieces fail l).1.unread = s.unread := by
  induction l generalizing s with
  | nil => rfl
  | cons p l ih =>
    rw [State.readPieces]
    split
    next t bs ht => exact (ih t).trans (State.readPiece_unread ht)
    next => exact ih s

@[simp] theorem State.readMem_unread (s : State) (a n) : (s.readMem a n).1.unread = s.unread := s.readPieces_unread _ _

@[simp] theorem State.readBytes_unread (s : State) (a n) : (s.readBytes a n).1.unread = s.unread := s.readMem_unread a n

theorem State.core_readBytes (s : State) (a n j : Nat) : (s.readBytes a n).1.core j = s.core j :=
  State.core_of_unread (s.readBytes_unread a n) j

/-! ### Writes -/

/-- A core without what a write of device memory changes: the bytes of its stores, its guards, and whether a stale notice wakes it. -/
def Core.bare (k : Core) : Core := { k with scratch := [], loft := [], spool := [], guards := [], waking := false }

/-- What a write of device memory leaves alone: each core without what it changes, and all that a read leaves alone outside the
cores. -/
def State.unwritten (s : State) : (Nat → Core) × State := (fun j => (s.core j).bare, { s.unread with cores := [] })

theorem State.bare_of_unwritten {s t : State} (h : t.unwritten = s.unwritten) (j : Nat) : (t.core j).bare = (s.core j).bare :=
  congrFun (congrArg Prod.fst h) j

theorem State.watch_of_unwritten {s t : State} (h : t.unwritten = s.unwritten) (j : Nat) : (t.core j).watch = (s.core j).watch := by
  have e := congrArg (fun k : Core => k.watch) (State.bare_of_unwritten h j)
  exact e

theorem Core.st_bare (k : Core) (x : Stream) : k.bare.st x = k.st x := by
  cases x <;> rfl

theorem State.st_of_unwritten {s t : State} (h : t.unwritten = s.unwritten) (j : Nat) (x : Stream) :
    (t.core j).st x = (s.core j).st x := by
  rw [← Core.st_bare, State.bare_of_unwritten h, Core.st_bare]

theorem State.merges_of_unwritten {s t : State} (h : t.unwritten = s.unwritten) : t.merges = s.merges := by
  have e := congrArg (fun p : (Nat → Core) × State => p.2.merges) h
  exact e

theorem State.replies_of_unwritten {s t : State} (h : t.unwritten = s.unwritten) : t.knot.replies = s.knot.replies := by
  have e := congrArg (fun p : (Nat → Core) × State => p.2.knot.replies) h
  exact e

theorem State.unwritten_of_unread {s t : State} (h : t.unread = s.unread) : t.unwritten = s.unwritten :=
  Prod.ext (funext fun j => congrArg Core.bare (State.core_of_unread h j)) (congrArg (fun u : State => { u with cores := [] }) h)

theorem State.updCore_unwritten (s : State) (c : Nat) {f : Core → Core} (hf : ∀ k : Core, (f k).bare = k.bare) :
    (s.updCore c f).unwritten = s.unwritten := by
  refine Prod.ext (funext fun j => ?_) rfl
  change ((s.updCore c f).core j).bare = (s.core j).bare
  by_cases h : j = c
  · rw [h, State.core_updCore, hf]
  · rw [State.core_updCore_other s c f h]

@[simp] theorem State.unwritten_ite (p : Prop) [Decidable p] (s t : State) :
    (if p then s else t).unwritten = if p then s.unwritten else t.unwritten := apply_ite State.unwritten p s t

@[simp] theorem State.event_unwritten (s : State) (code source arg) : (s.event code source arg).unwritten = s.unwritten := rfl

@[simp] theorem State.updStk_unwritten (s : State) (i f) : (s.updStk i f).unwritten = s.unwritten := rfl

@[simp] theorem State.senseCw_unwritten (s : State) (st cw kind) : (s.senseCw st cw kind).1.unwritten = s.unwritten :=
  State.unwritten_of_unread (s.senseCw_unread st cw kind)

@[simp] theorem State.ask_unwritten (s : State) (st blk write) : (s.ask st blk write).unwritten = s.unwritten :=
  State.unwritten_of_unread (s.ask_unread st blk write)

@[simp] theorem State.readMem_unwritten (s : State) (a n) : (s.readMem a n).1.unwritten = s.unwritten :=
  State.unwritten_of_unread (s.readMem_unread a n)

@[simp] theorem State.readBytes_unwritten (s : State) (a n) : (s.readBytes a n).1.unwritten = s.unwritten :=
  s.readMem_unwritten a n

@[simp] theorem State.writeCws_unwritten (s : State) (st l bs) : (s.writeCws st l bs).unwritten = s.unwritten := by
  induction l generalizing s bs with
  | nil => rw [State.writeCws]
  | cons p t ih => simp [State.writeCws, State.writeCw, ih]

theorem Core.bare_staleGuard (k : Core) (uid : Nat) : (k.staleGuard uid).bare = k.bare := by
  rw [Core.staleGuard_eq]
  rfl

@[simp] theorem State.tellStale_unwritten (s : State) (l) : (s.tellStale l).unwritten = s.unwritten := by
  induction l generalizing s with
  | nil => rfl
  | cons p t ih =>
    rw [State.tellStale, ih]
    split
    · rfl
    · exact s.updCore_unwritten _ fun k => k.bare_staleGuard _

@[simp] theorem State.writeStk_unwritten (s : State) (st a bs) : (s.writeStk st a bs).unwritten = s.unwritten := by
  unfold State.writeStk
  dsimp only
  split
  · simp
  · simp [State.sendStale]

@[simp] theorem State.dropRanges_unwritten (s : State) (c uid) : (s.dropRanges c uid).unwritten = s.unwritten := rfl

@[simp] theorem State.endGuard_unwritten (s : State) (c g) : (s.endGuard c g).unwritten = s.unwritten := by
  unfold State.endGuard
  split
  · rfl
  · rw [State.dropRanges_unwritten]
    exact s.updCore_unwritten c fun _ => rfl

@[simp] theorem State.endGuards_unwritten (s : State) (c l) : (s.endGuards c l).unwritten = s.unwritten := by
  induction l generalizing s with
  | nil => rfl
  | cons g t ih => simp [State.endGuards, ih]

@[simp] theorem State.endTouched_unwritten (s : State) (copy a n l) : (s.endTouched copy a n l).unwritten = s.unwritten := by
  induction l generalizing s with
  | nil => rfl
  | cons c t ih => simp [State.endTouched, ih]

@[simp] theorem State.endWritten_unwritten (s : State) (copy a n) : (s.endWritten copy a n).unwritten = s.unwritten :=
  s.endTouched_unwritten copy a n _

theorem State.writePiece_unwritten {s t : State} {w a bs} (h : s.writePiece w a bs = some t) : t.unwritten = s.unwritten := by
  unfold State.writePiece at h
  dsimp only at h
  split at h
  · cases h
  · split at h
    all_goals cases h
    · simp
    all_goals
      rw [State.updCore_unwritten, State.endWritten_unwritten]
      exact fun _ => rfl

@[simp] theorem State.writePieces_unwritten (s : State) (w l bs) : (s.writePieces w l bs).1.unwritten = s.unwritten := by
  induction l generalizing s bs with
  | nil => rfl
  | cons p l ih =>
    rw [State.writePieces]
    split
    next t ht => rw [ih, State.writePiece_unwritten ht]
    next => rfl

@[simp] theorem State.writeBytes_unwritten (s : State) (w a bs) : (s.writeBytes w a bs).1.unwritten = s.unwritten :=
  s.writePieces_unwritten w _ _

end Sys2Proof.Machine
end

section
/-! The precision watch (O26): counting under slots, the watch table's instructions and registers, and merges. -/

namespace Sys2Proof.Machine

open Sys2Proof

theorem Core.watch_setSt (k : Core) (x : Stream) (t : StreamSt) : (k.setSt x t).watch = k.watch := by
  cases x <;> rfl

theorem Core.st_watch (k : Core) (x : Stream) (v : WatchSt) : ({ k with watch := v } : Core).st x = k.st x := by
  cases x <;> rfl

theorem State.watch_retire (s : State) (c : Nat) (x : Stream) : ((s.retire c x).core c).watch = (s.core c).watch := by
  rw [State.core_retire]
  exact Core.watch_setSt _ x _

theorem State.core_retire_other (s : State) (c : Nat) (x : Stream) {j : Nat} (h : j ≠ c) : (s.retire c x).core j = s.core j :=
  s.core_updCore_other c _ h

theorem State.st_updSt (s : State) (c : Nat) (x : Stream) (f : StreamSt → StreamSt) :
    ((s.updSt c x f).core c).st x = f ((s.core c).st x) := by
  rw [State.updSt, State.core_updCore, Core.st_setSt]

theorem State.watch_updSt (s : State) (c : Nat) (x : Stream) (f : StreamSt → StreamSt) :
    ((s.updSt c x f).core c).watch = (s.core c).watch := by
  rw [State.updSt, State.core_updCore, Core.watch_setSt]

theorem Core.watch_poke (k : Core) : k.poke.watch = k.watch := by
  rw [Core.poke_eq]

/-! ### Taking and counting (R208 to R211) -/

theorem State.core_merges (s : State) (l : List Merge) (j : Nat) : ({ s with merges := l } : State).core j = s.core j := rfl

/-- The counts of a watch whose merges have left: so many since reset, and so many outstanding (R210). -/
def WatchSt.sent (w : WatchSt) (merges unacked : Nat) : WatchSt := { w with merges, unacked }

/-- With a table, a slot's merge leaves and is outstanding (R210). -/
theorem State.sendMerge_of_valid {s : State} {c : Nat} (h : HeldSlot) (hvalid : (s.core c).watch.valid = true) :
    s.sendMerge c h = { s.updCore c (fun k => { k with
        watch := (s.core c).watch.sent (cnt (s.core c).watch.merges 1) ((s.core c).watch.unacked + 1) }) with
      merges := s.merges ++ [{ core := c, base := (s.core c).watch.base, held := h }] } := if_pos hvalid

theorem State.core_sendMerge_other (s : State) (c : Nat) (h : HeldSlot) {j : Nat} (hj : j ≠ c) :
    (s.sendMerge c h).core j = s.core j := by
  unfold State.sendMerge
  dsimp only
  split
  · rw [State.core_merges, s.core_updCore_other c _ hj]
  · exact s.core_updCore_other c _ hj

theorem State.core_freshSlot (s : State) (c i j : Nat) : (s.freshSlot c i).1.core j = s.core j := by
  unfold State.freshSlot
  dsimp only
  split
  · exact s.core_readBytes _ _ j
  · rfl

theorem State.slot_freshSlot (s : State) (c i : Nat) : (s.freshSlot c i).2.slot = i := by
  unfold State.freshSlot
  dsimp only
  split <;> rfl

theorem State.core_takeSlot_other (s : State) (c i : Nat) {j : Nat} (hj : j ≠ c) : (s.takeSlot c i).core j = s.core j := by
  unfold State.takeSlot
  dsimp only
  split
  · exact s.core_updCore_other c _ hj
  · rw [State.core_updCore_other _ c _ hj, State.core_freshSlot]
    split
    · split
      · rw [State.core_updCore_other _ c _ hj, s.core_sendMerge_other c _ hj]
      · rfl
    · rfl

/-- The slot taken is held (R210). -/
theorem State.takeSlot_holds (s : State) (c i : Nat) : ∃ h ∈ ((s.takeSlot c i).core c).watch.held, h.slot = i := by
  unfold State.takeSlot
  dsimp only
  split
  · next h hfind =>
    rw [State.core_updCore]
    exact ⟨h, by simp, by simpa using List.find?_some hfind⟩
  · rw [State.core_updCore]
    exact ⟨_, List.mem_append_right _ (List.mem_singleton_self _), State.slot_freshSlot _ c i⟩

/-- A state after a count of core c under slot i: the slot is held, no other core has changed, the units of the core are as they
were, and the access has gone as the taking of the slot has. -/
structure State.CountedUnder (s : State) (c i : Nat) (t : State) : Prop where
  units : t.units = s.units
  holds : ∃ h ∈ (t.core c).watch.held, h.slot = i
  other : ∀ j, j ≠ c → t.core j = s.core j
  acc : t.acc = (s.takeSlot c i).acc

theorem State.countSlot_counted (s : State) (c : Nat) {i : Nat} (hi : i ≠ 0) {f : HeldSlot → HeldSlot}
    (hf : ∀ h, (f h).slot = h.slot) : s.CountedUnder c i (s.countSlot c i f) := by
  have hdef : s.countSlot c i f = (s.takeSlot c i).updCore c (fun k => { k with watch := { k.watch with
      held := k.watch.held.map (fun h => if h.slot = i then f h else h) } }) := if_neg hi
  refine ⟨s.countSlot_units c i f, ?_, fun j hj => ?_, ?_⟩
  · obtain ⟨h, hmem, hslot⟩ := s.takeSlot_holds c i
    rw [hdef, State.core_updCore]
    exact ⟨f h, List.mem_map.mpr ⟨h, hmem, if_pos hslot⟩, (hf h).trans hslot⟩
  · rw [hdef, State.core_updCore_other _ c _ hj, s.core_takeSlot_other c i hj]
  · rw [hdef, State.updCore_acc]

theorem State.countNonfinite_counted (s : State) (c : Nat) {i : Nat} (hi : i ≠ 0) :
    s.CountedUnder c i (s.countNonfinite c i) := by
  have h : s.CountedUnder c i (s.countSlot c i fun h => { h with flags := h.flags ||| 2 }) :=
    s.countSlot_counted c hi fun _ => rfl
  have hunits := s.countNonfinite_units c i
  rw [State.countNonfinite, if_neg hi] at hunits ⊢
  refine ⟨hunits, ?_, fun j hj => ?_, h.acc⟩
  · rw [State.core_updCore]
    exact h.holds
  · rw [State.core_updCore_other _ c _ hj, h.other j hj]

theorem HeldSlot.slot_addNorm (h : HeldSlot) (grad : Bool) (x : Nat) : (h.addNorm grad x).slot = h.slot := by
  cases grad <;> rfl

/-- What WATCH.NORM counts under a slot: a norm value, or a non-finite one for a NaN or a negative value (R209). -/
def State.normCount (s : State) (c i : Nat) (grad : Bool) (v : Nat) : State :=
  if isNan pF v || (bit 31 v && !(isZero pF v)) then s.countNonfinite c i else s.countNorm c i grad v

theorem State.normCount_counted (s : State) (c : Nat) {i : Nat} (hi : i ≠ 0) (grad : Bool) (v : Nat) :
    s.CountedUnder c i (s.normCount c i grad v) := by
  unfold State.normCount
  split
  · exact s.countNonfinite_counted c hi
  · exact s.countSlot_counted c hi fun h => h.slot_addNorm grad v

section
variable {s : State} {c : Nat} {x : Stream} {w : InsnW}

/-! ### WATCH.NORM (R209) -/

theorem exec_watchNorm_noSlot (hacts : s.Acts c x w [iA w]) (hok : fmtI w = true) (hD : iD w = 0) (h0 : iw w 11 0 = 0) :
    exec (.watchNorm c x w) s = .next (s.raise c x 0x32) :=
  congrArg Host.Outcome.next (State.coreAccess_acts hacts (by rw [hok, hD]; rfl) (if_pos (.inl h0)) rfl)

theorem exec_watchNorm_counts (hacts : s.Acts c x w [iA w]) (hok : fmtI w = true) (hD : iD w = 0) (h0 : iw w 11 0 ≠ 0)
    (h13 : iw w 31 13 = 0) (hserved : s.coreServed c (fun s => s.takeSlot c (iw w 11 0)) = true) :
    ∃ u, (s.withAcc (s.agent c)).CountedUnder c (iw w 11 0) u ∧ exec (.watchNorm c x w) s
      = .next ((u.retire c x).withAcc s.acc) := by
  have hcount := (s.withAcc (s.agent c)).normCount_counted c h0 (bit 12 (iImmU w))
    ((((s.core c).st x).getS (iA w)).toNat % 2 ^ 32)
  refine ⟨_, hcount, congrArg Host.Outcome.next (State.access_of_stop_none ?_ ?_)⟩
  · refine (State.issue_acts (s.withAcc (s.agent c)) c x w _ hacts (by rw [hok, hD]; rfl)).trans ((if_neg ?_).trans ?_)
    · exact fun h => h.elim h0 fun h => h h13
    · exact (apply_ite (fun t : State => t.retire c x) _ _ _).symm
  · exact (congrArg AccSt.stop hcount.acc).trans (State.stop_of_coreServed hserved)

theorem State.CountedUnder.retire_spec {i : Nat} {t : State} (h : s.CountedUnder c i t) :
    ((t.retire c x).core c).st x = ((s.core c).st x).ended (((s.core c).st x).pc + 8)
      ∧ (∃ q ∈ ((t.retire c x).core c).watch.held, q.slot = i) ∧ ∀ j, j ≠ c → (t.retire c x).core j = s.core j := by
  have hst : (t.core c).st x = (s.core c).st x := by
    rw [← Core.st_still, State.still_of_units h.units, Core.st_still]
  refine ⟨?_, ?_, fun j hj => (t.core_retire_other c x hj).trans (h.other j hj)⟩
  · rw [State.st_retire, hst]
  · rw [State.watch_retire]
    exact h.holds

/-! ### Without a table (R226) -/

theorem exec_watch_noTable (hacts : s.Acts c x w []) (hz : iw w 47 0 = 0) (hvalid : (s.core c).watch.valid = false)
    (hclose : ((s.core c).st x).closeAt = none) : exec (.watchClose c x w) s = .next (s.raise c x 0x33)
      ∧ exec (.watchLoad c x w) s = .next (s.raise c x 0x33) ∧ exec (.watchVerdict c x w) s = .next (s.raise c x 0x33)
      ∧ exec (.watchStep c x w) s = .next (s.raise c x 0x33) := by
  have hok := fmtJ_and_immU_of_zero hz
  have hno : (!(s.core c).watch.valid) = true := by rw [hvalid]; rfl
  refine ⟨congrArg Host.Outcome.next ?_, congrArg Host.Outcome.next ?_, congrArg Host.Outcome.next ?_,
    congrArg Host.Outcome.next ?_⟩
  · exact (State.issue_acts s c x w _ hacts hok).trans (if_pos ⟨hclose, hno⟩)
  · exact State.coreAccess_acts hacts hok (if_pos hno) rfl
  · exact State.coreAccess_acts hacts hok (if_pos hno) rfl
  · exact (State.issue_acts s c x w _ hacts hok).trans (if_pos hno)

/-! ### WATCH.CLOSE (R220) -/

/-- With a table, every held slot's merge leaves, in order, and is outstanding (R210, R220). -/
theorem State.mergeAll_of_valid (l : List HeldSlot) : ∀ {s : State}, (s.core c).watch.valid = true →
    ∃ n, (s.mergeAll c l).core c = { s.core c with
        watch := (s.core c).watch.sent n ((s.core c).watch.unacked + l.length) }
      ∧ (s.mergeAll c l).merges = s.merges ++ l.map (fun h => { core := c, base := (s.core c).watch.base, held := h }) := by
  induction l with
  | nil => exact fun _ => ⟨_, rfl, (List.append_nil _).symm⟩
  | cons h t ih =>
    intro s hvalid
    have hcore : (s.sendMerge c h).core c = { s.core c with
        watch := (s.core c).watch.sent (cnt (s.core c).watch.merges 1) ((s.core c).watch.unacked + 1) } := by
      rw [State.sendMerge_of_valid h hvalid, State.core_merges, State.core_updCore]
    have hmerges : (s.sendMerge c h).merges = s.merges ++ [{ core := c, base := (s.core c).watch.base, held := h }] := by
      rw [State.sendMerge_of_valid h hvalid]
    obtain ⟨n, hn, hm⟩ := ih (s := s.sendMerge c h) (by rw [hcore]; exact hvalid)
    refine ⟨n, ?_, ?_⟩
    · rw [State.mergeAll, hn, hcore, List.length_cons, Nat.add_comm t.length, ← Nat.add_assoc]
      rfl
    · rw [State.mergeAll, hm, hmerges, hcore, List.append_assoc]
      rfl

/-- What a WATCH.CLOSE waits for: what its first presentation has fixed, or what has been issued up to now. -/
abbrev State.closesAt (s : State) (c : Nat) (x : Stream) : CloseSet := ((s.core c).st x).closeAt.getD (s.closeSet c)

/-- Every held slot's merge has left core c. -/
def State.sentMerges (s : State) (c : Nat) : State :=
  (s.mergeAll c (s.core c).watch.held).updCore c (fun k => { k with watch := { k.watch with held := [] } })

theorem State.core_sentMerges (hvalid : (s.core c).watch.valid = true) : ∃ n, (s.sentMerges c).core c = { s.core c with
    watch := { (s.core c).watch.sent n ((s.core c).watch.unacked + (s.core c).watch.held.length) with held := [] } } := by
  obtain ⟨n, hn, -⟩ := State.mergeAll_of_valid (s.core c).watch.held hvalid
  refine ⟨n, ?_⟩
  rw [State.sentMerges, State.core_updCore, hn]

theorem State.merges_sentMerges (hvalid : (s.core c).watch.valid = true) : (s.sentMerges c).merges
    = s.merges ++ (s.core c).watch.held.map (fun h => { core := c, base := (s.core c).watch.base, held := h }) := by
  obtain ⟨n, -, hm⟩ := State.mergeAll_of_valid (s.core c).watch.held hvalid
  rw [State.sentMerges, State.updCore_merges, hm]

/-- A WATCH.CLOSE that finds nothing held ends, and the watch is as it was (R220). -/
theorem State.sentMerges_retire_spec (hheld : (s.core c).watch.held = []) :
    (((s.sentMerges c).retire c x).core c).st x = ((s.core c).st x).ended (((s.core c).st x).pc + 8)
      ∧ (((s.sentMerges c).retire c x).core c).watch = (s.core c).watch := by
  have hnone : s.sentMerges c = s.updCore c (fun k => { k with watch := { k.watch with held := [] } }) := by
    rw [State.sentMerges, hheld]
    rfl
  rw [State.st_retire, State.watch_retire, hnone, State.core_updCore, Core.st_watch]
  exact ⟨rfl, by rw [← hheld]⟩

theorem State.sentMerges_wait_spec (hvalid : (s.core c).watch.valid = true) (q : CloseSet) :
    let t := (s.sentMerges c).updSt c x (fun t => { t with closeAt := some q, closed := true })
    (t.core c).st x = { (s.core c).st x with closeAt := some q, closed := true } ∧ (t.core c).watch.held = []
      ∧ (t.core c).watch.unacked = (s.core c).watch.unacked + (s.core c).watch.held.length := by
  obtain ⟨n, hcore⟩ := State.core_sentMerges hvalid
  dsimp only
  rw [State.st_updSt, State.watch_updSt, hcore, Core.st_watch]
  exact ⟨rfl, rfl, rfl⟩

section
variable (hacts : s.Acts c x w []) (hz : iw w 47 0 = 0) (hvalid : (s.core c).watch.valid = true)
include hacts hz hvalid

theorem exec_watchClose_acked (hclosed : ((s.core c).st x).closed = true) (hacked : (s.core c).watch.unacked = 0) :
    exec (.watchClose c x w) s = .next (s.retire c x) := by
  refine congrArg Host.Outcome.next ((State.issue_acts s c x w _ hacts (fmtJ_and_immU_of_zero hz)).trans ?_)
  simp only [hvalid, hclosed, hacked, Bool.not_true, Bool.false_eq_true, and_false, if_false, if_true]

theorem exec_watchClose_busy (hclosed : ((s.core c).st x).closed = false) (hbusy : s.closeBusy c (s.closesAt c x) = true) :
    exec (.watchClose c x w) s = .next (s.updSt c x (fun t => { t with closeAt := some (s.closesAt c x) })) := by
  refine congrArg Host.Outcome.next ((State.issue_acts s c x w _ hacts (fmtJ_and_immU_of_zero hz)).trans ?_)
  simp only [hvalid, hclosed, hbusy, Bool.not_true, Bool.false_eq_true, and_false, if_false, if_true]

theorem exec_watchClose_free (hclosed : ((s.core c).st x).closed = false) (hbusy : s.closeBusy c (s.closesAt c x) = false) :
    exec (.watchClose c x w) s = .next (if ((s.sentMerges c).core c).watch.unacked = 0 then (s.sentMerges c).retire c x
      else (s.sentMerges c).updSt c x (fun t => { t with closeAt := some (s.closesAt c x), closed := true })) := by
  refine congrArg Host.Outcome.next ((State.issue_acts s c x w _ hacts (fmtJ_and_immU_of_zero hz)).trans ?_)
  simp only [hvalid, hclosed, hbusy, Bool.not_true, Bool.false_eq_true, and_false, if_false]
  rfl

theorem exec_watchClose_nothing (hclosed : ((s.core c).st x).closed = false) (hbusy : s.closeBusy c (s.closesAt c x) = false)
    (hheld : (s.core c).watch.held = []) (hacked : (s.core c).watch.unacked = 0) :
    exec (.watchClose c x w) s = .next ((s.sentMerges c).retire c x) := by
  obtain ⟨n, hcore⟩ := State.core_sentMerges hvalid
  rw [exec_watchClose_free hacts hz hvalid hclosed hbusy, if_pos]
  rw [hcore]
  change (s.core c).watch.unacked + (s.core c).watch.held.length = 0
  rw [hacked, hheld, List.length_nil]

theorem exec_watchClose_merges (hclosed : ((s.core c).st x).closed = false) (hbusy : s.closeBusy c (s.closesAt c x) = false)
    (hheld : (s.core c).watch.held ≠ []) : exec (.watchClose c x w) s
    = .next ((s.sentMerges c).updSt c x (fun t => { t with closeAt := some (s.closesAt c x), closed := true })) := by
  obtain ⟨n, hcore⟩ := State.core_sentMerges hvalid
  rw [exec_watchClose_free hacts hz hvalid hclosed hbusy, if_neg]
  rw [hcore]
  exact (Nat.add_pos_right (s.core c).watch.unacked (List.length_pos_iff.mpr hheld)).ne'

end

end

end Sys2Proof.Machine
end

section
/-! The watch table's instructions, WATCH_BASE and merges (O26). -/

namespace Sys2Proof.Machine

open Sys2Proof

theorem State.logNum_of_rig {s t : State} (h : t.rig = s.rig) (c : Nat) : t.logNum c = s.logNum c := by
  rw [State.logNum, State.logical, h]
  rfl

theorem State.rangeOf_of_rig {s t : State} (h : t.rig = s.rig) (k : Nat) : t.rangeOf k = s.rangeOf k := by
  rw [State.rangeOf, h]
  rfl

theorem State.knotCheck_of_rig {s t : State} (h : t.rig = s.rig) (op : KOp) (k : Nat) (core : Option Nat) :
    t.knotCheck op k core = s.knotCheck op k core := by
  rw [State.knotCheck, State.rangeOf_of_rig h]
  rfl

theorem State.core_sendKnot (s : State) (m : KMsg) (j : Nat) : (s.sendKnot m).core j = s.core j := by
  unfold State.sendKnot
  split <;> rfl

theorem State.acc_sendKnot (s : State) (m : KMsg) : (s.sendKnot m).acc = s.acc := by
  unfold State.sendKnot
  split <;> rfl

/-! ### The copy of the fall-back bytes (R217) -/

theorem State.fbCopied_spec (s : State) (c : Nat) (x : Stream) (v : Nat) :
    let t := (s.updCore c (fun k => { k with watch := { k.watch with fb := v } })).retire c x
    (t.core c).st x = ((s.core c).st x).ended (((s.core c).st x).pc + 8) ∧ (t.core c).watch.fb = v := by
  dsimp only
  rw [State.st_retire, State.watch_retire, State.core_updCore, Core.st_watch]
  exact ⟨rfl, rfl⟩

/-! ### A verdict on its way (R219) -/

/-- The arrive of a verdict of core c on a knot, after what stream x has issued (R105, R219). -/
def State.verdictMsg (s : State) (c : Nat) (x : Stream) (knot : Nat) (err : Bool) : KMsg :=
  (s.ticket c).2.releaseOf c x { who := .verdict c (s.core c).nextTicket, op := .arrive, knot, arg := 1, err, node := c, agent := 0 }

/-- A watch whose verdict with ticket n is on its way to a knot (R219). -/
def WatchSt.asked (w : WatchSt) (knot n : Nat) : WatchSt :=
  { w with stepOvf := false, verdict := none, verdictOut := true, verdictKnot := knot, verdictId := n }

/-- The verdict of core c leaves for its knot, and the instruction of stream x ends (R219). -/
def State.verdictSent (s : State) (c : Nat) (x : Stream) (knot : Nat) (err : Bool) : State :=
  (((s.ticket c).2.sendKnot (s.verdictMsg c x knot err)).updCore c (fun k => { k with
    watch := k.watch.asked knot (s.core c).nextTicket })).retire c x

theorem State.acc_verdictSent (s : State) (c : Nat) (x : Stream) (knot : Nat) (err : Bool) :
    (s.verdictSent c x knot err).acc = s.acc := State.acc_sendKnot _ _

theorem State.verdictSent_spec (s : State) (c : Nat) (x : Stream) (knot : Nat) (err : Bool) :
    let t := s.verdictSent c x knot err
    let m := s.verdictMsg c x knot err
    (t.core c).watch.verdictOut = true ∧ (t.core c).watch.stepOvf = false ∧ (t.core c).watch.verdictKnot = knot
      ∧ (t.core c).st x = ((s.core c).st x).ended (((s.core c).st x).pc + 8)
      ∧ (m ∈ t.knot.ops ∨ m ∈ t.knot.heldOps) ∧ m.knot = knot ∧ m.op = .arrive ∧ m.arg = 1 ∧ m.err = err := by
  have hmem : s.verdictMsg c x knot err ∈ (s.verdictSent c x knot err).knot.ops
      ∨ s.verdictMsg c x knot err ∈ (s.verdictSent c x knot err).knot.heldOps := State.mem_sendKnot _ _
  dsimp only
  refine ⟨?_, ?_, ?_, ?_, hmem, rfl, rfl, rfl, rfl⟩
  · rw [State.verdictSent, State.watch_retire, State.core_updCore]
    rfl
  · rw [State.verdictSent, State.watch_retire, State.core_updCore]
    rfl
  · rw [State.verdictSent, State.watch_retire, State.core_updCore]
    rfl
  · rw [State.verdictSent, State.st_retire, State.core_updCore, Core.st_watch, State.core_sendKnot, State.ticket,
      State.core_updCore]
    cases x <;> rfl

/-! ### A WATCH.STEP that waits (R221) -/

/-- Stream x of core c waits for a knot with the core's next ticket taken (R221). -/
def State.stepWaits (s : State) (c : Nat) (x : Stream) : State := ((s.ticket c).2.waitFor c x .knot).updCore c Core.issued

/-- A watch that holds the ticket of a stream's WATCH.STEP until its verdict's reply has come (R221). -/
def WatchSt.stepHeld (w : WatchSt) (x : Stream) (n : Nat) : WatchSt :=
  match x with
  | .a => { w with stepA := some n }
  | .b => { w with stepB := some n }

theorem State.core_stepWaits (s : State) (c : Nat) (x : Stream) : (s.stepWaits c x).core c
    = (({ s.core c with nextTicket := (s.core c).nextTicket + 1 } : Core).setSt x
        { (s.core c).st x with state := .waiting, wait := .knot }).issued := by
  rw [State.stepWaits, State.core_updCore, State.waitFor, State.updSt, State.core_updCore, State.ticket, State.core_updCore]
  cases x <;> rfl

theorem State.st_stepWaits (s : State) (c : Nat) (x : Stream) : ((s.stepWaits c x).core c).st x
    = { (s.core c).st x with state := .waiting, wait := .knot } := by
  rw [State.core_stepWaits, Core.st_issued, Core.st_setSt]

theorem State.st_stepHeld (s : State) (c : Nat) (x : Stream) (n : Nat) :
    (((s.stepWaits c x).updCore c (fun k => { k with watch := k.watch.stepHeld x n })).core c).st x
      = { (s.core c).st x with state := .waiting, wait := .knot } := by
  rw [State.core_updCore, Core.st_watch, s.st_stepWaits c x]

theorem State.stepWait_spec (s : State) (c : Nat) (x : Stream) (n : Nat) :
    let t := (s.stepWaits c x).stepWait c x n
    (t.core c).st x = { (s.core c).st x with state := .waiting, wait := .knot }
      ∧ ∃ m, (m ∈ t.knot.ops ∨ m ∈ t.knot.heldOps) ∧ m.knot = (s.core c).watch.verdictKnot ∧ m.op = .wait
        ∧ m.arg = (s.core c).watch.verdict.getD 0 := by
  have hwatch : ((s.stepWaits c x).core c).watch = (s.core c).watch := by
    rw [State.core_stepWaits]
    exact Core.watch_setSt _ x _
  dsimp only
  rw [State.stepWait, State.core_sendKnot, s.st_stepWaits c x, hwatch]
  exact ⟨rfl, _, State.mem_sendKnot _ _, rfl, rfl, rfl⟩

section
variable {s : State} {c : Nat} {x : Stream} {w : InsnW} (hacts : s.Acts c x w []) (hz : iw w 47 0 = 0)
  (hvalid : (s.core c).watch.valid = true)
include hacts hz hvalid

/-! ### WATCH.LOAD (R217) -/

theorem exec_watchLoad_copies
    (hserved : s.coreServed c (fun t => (t.readBytes ((s.core c).watch.base + 64) 512).1) = true) :
    let r := (s.withAcc (s.agent c)).readBytes ((s.core c).watch.base + 64) 512
    exec (.watchLoad c x w) s = .next
      (((r.1.updCore c (fun k => { k with watch := { k.watch with fb := ofLe r.2 } })).retire c x).withAcc s.acc) := by
  refine congrArg Host.Outcome.next (State.access_of_stop_none ?_ (State.stop_of_coreServed hserved))
  refine (State.issue_acts (s.withAcc (s.agent c)) c x w _ hacts (fmtJ_and_immU_of_zero hz)).trans (if_neg ?_)
  rw [State.core_withAcc, hvalid]
  exact Bool.false_ne_true

/-! ### WATCH.VERDICT (R219) -/

/-- Core c's watch has read its verdict's knot from its table (R206). -/
abbrev State.verdictRead (s : State) (c : Nat) : State × List Byte :=
  (s.withAcc (s.agent c)).readBytes ((s.core c).watch.base + 20) 4

theorem exec_watchVerdict_arrives
    (hserved : s.coreServed c (fun t => (t.readBytes ((s.core c).watch.base + 20) 4).1) = true)
    (hcheck : s.knotCheck .arrive (ofLe (s.verdictRead c).2 % 2 ^ 18) (some (s.logNum c)) = none) :
    exec (.watchVerdict c x w) s = .next (((s.verdictRead c).1.verdictSent c x (ofLe (s.verdictRead c).2 % 2 ^ 18)
      (s.core c).watch.stepOvf).withAcc s.acc) := by
  have hread : (s.verdictRead c).1.unread = s.unread := State.readBytes_unread _ _ _
  refine congrArg Host.Outcome.next (State.access_of_stop_none ?_ ?_)
  · refine (State.issue_acts (s.withAcc (s.agent c)) c x w _ hacts (fmtJ_and_immU_of_zero hz)).trans ((if_neg ?_).trans ?_)
    · rw [State.core_withAcc, hvalid]
      exact Bool.false_ne_true
    · simp only [State.core_withAcc, State.logNum_of_rig (State.rig_of_unread hread),
        State.knotCheck_of_rig (State.rig_of_unread hread), hcheck]
      rfl
  · rw [State.acc_verdictSent]
    exact State.stop_of_coreServed hserved

/-! ### WATCH.STEP (R221) -/

theorem exec_watchStep_noVerdict (hnone : (s.core c).watch.verdict = none) (hout : (s.core c).watch.verdictOut = false) :
    exec (.watchStep c x w) s = .next (s.raise c x 0x34) := by
  refine congrArg Host.Outcome.next ((State.issue_acts s c x w _ hacts (fmtJ_and_immU_of_zero hz)).trans ?_)
  simp only [hvalid, hnone, hout, Bool.not_true, Bool.not_false, Bool.false_eq_true, if_false, and_self, if_true]

theorem exec_watchStep_awaitsReply (hout : (s.core c).watch.verdictOut = true) : exec (.watchStep c x w) s
    = .next ((s.stepWaits c x).updCore c (fun k => { k with watch := k.watch.stepHeld x (s.core c).nextTicket })) := by
  refine congrArg Host.Outcome.next ((State.issue_acts s c x w _ hacts (fmtJ_and_immU_of_zero hz)).trans ?_)
  simp only [hvalid, hout, Bool.not_true, Bool.false_eq_true, if_false, and_false, if_true]
  rfl

theorem exec_watchStep_sendsWait (hsome : (s.core c).watch.verdict.isSome = true) (hout : (s.core c).watch.verdictOut = false) :
    exec (.watchStep c x w) s = .next ((s.stepWaits c x).stepWait c x (s.core c).nextTicket) := by
  refine congrArg Host.Outcome.next ((State.issue_acts s c x w _ hacts (fmtJ_and_immU_of_zero hz)).trans ?_)
  simp only [hvalid, hout, Option.ne_none_iff_isSome.mpr hsome, Bool.not_true, Bool.false_eq_true, if_false, false_and]
  rfl

end

/-! ### Writes of WATCH_BASE (R226) -/

theorem Core.watchBase_held {k : Core} (ok : Nat → Bool) (hi : Bool) (v : Nat) (h : k.watch.held ≠ []) :
    k.watchBase ok hi v = { k with wrIgn := true } := by
  refine if_pos ?_
  rw [Bool.not_eq_true', List.isEmpty_eq_false_iff]
  exact h

theorem Core.watchBase_free {k : Core} (ok : Nat → Bool) (hi : Bool) (v : Nat) (h : k.watch.held = []) :
    k.watchBase ok hi v = (let base := if hi then v * 2 ^ 32 + k.watch.base % 2 ^ 32
        else k.watch.base / 2 ^ 32 * 2 ^ 32 + v / 1024 * 1024
      { k with watch := { k.watch with base, valid := ok base } }) := by
  refine if_neg ?_
  rw [h]
  exact Bool.false_ne_true

/-! ### Merges (R210) -/

theorem State.mergeSlot_unwritten (s : State) (m : Merge) : (s.mergeSlot m).unwritten = s.unwritten := by
  unfold State.mergeSlot
  dsimp only
  split
  · exact s.readMem_unwritten _ _
  · exact (State.writeBytes_unwritten _ _ _ _).trans (s.readMem_unwritten _ _)

section
variable {s : State} {n : Nat} {m : Merge} (hm : s.merges[n]? = some m)
include hm

theorem exec_watchMerge_table (htable : s.tableOk m.base = true)
    (hserved : s.coreServed m.core (fun s => (s.mergeTold n m).mergeSlot m) = true) :
    exec (.watchMerge n) s = .next ((((s.withAcc (s.agent m.core)).mergeTold n m).mergeSlot m).withAcc s.acc) := by
  refine congrArg Host.Outcome.next ?_
  rw [hm]
  have hstop := State.stop_of_coreServed hserved
  exact State.access_of_stop_none (if_pos htable) hstop

theorem exec_watchMerge_noTable (htable : s.tableOk m.base = false) : exec (.watchMerge n) s
    = .next ((s.mergeTold n m).updCore m.core (fun q => { q with watch := { q.watch with lost := true } })) := by
  refine congrArg Host.Outcome.next ?_
  rw [hm]
  exact State.access_of_withAcc (if_neg (Bool.eq_false_iff.mp htable)) rfl

end

theorem State.cell_mergeTold (s : State) (n : Nat) (m : Merge) : ∀ p, (s.mergeTold n m).cell p = s.cell p :=
  State.cell_updCore ({ s with merges := s.merges.eraseIdx n } : State) m.core fun _ => ⟨rfl, rfl, rfl⟩

theorem State.watch_mergeTold (s : State) (n : Nat) (m : Merge) : ((s.mergeTold n m).core m.core).watch
    = { (s.core m.core).watch with unacked := (s.core m.core).watch.unacked - 1 } := by
  rw [State.mergeTold, State.core_updCore]
  rfl

/-! ### The statement -/

/-- Settles O26: NORM counts under a slot it takes, CLOSE sends every held slot's merge once nothing before it is in progress, LOAD
and VERDICT read the table without changing a core, STEP waits, and a merge's write leaves every watch alone. -/
theorem precisionWatchInstructions : Obligations.PrecisionWatchInstructions := by
  unfold Obligations.PrecisionWatchInstructions
  intro c x w s k u own
  have hown : own = s.withAcc (s.agent c) := rfl
  clear_value own
  subst hown
  refine ⟨fun hacts hok hD => ⟨exec_watchNorm_noSlot hacts hok hD, fun h0 h13 hserved => ?_⟩, exec_watch_noTable,
    fun hacts hz hvalid => ⟨⟨fun hclosed hbusy => ?_, fun hclosed hbusy hheld hacked => ?_, fun hclosed hbusy hheld => ?_,
      exec_watchClose_acked hacts hz hvalid⟩, fun hserved => ?_, fun hserved hcheck => ?_,
      exec_watchStep_noVerdict hacts hz hvalid, fun hverdict => ?_⟩,
    fun hi v hwin => ⟨_, rfl, fun j hj => s.core_coreWrite_other c _ hj, ?_⟩, fun n m hm hserved => ?_⟩
  · obtain ⟨t, ht, hexec⟩ := exec_watchNorm_counts hacts hok hD h0 h13 hserved
    exact ⟨_, hexec, ht.retire_spec⟩
  · exact ⟨_, exec_watchClose_busy hacts hz hvalid hclosed hbusy, s.st_updSt c x _, s.watch_updSt c x _, rfl⟩
  · exact ⟨_, exec_watchClose_nothing hacts hz hvalid hclosed hbusy hheld hacked, State.sentMerges_retire_spec hheld⟩
  · obtain ⟨hst, hheld', hunacked⟩ := State.sentMerges_wait_spec (x := x) hvalid (s.closesAt c x)
    exact ⟨_, exec_watchClose_merges hacts hz hvalid hclosed hbusy hheld, hst, hheld', hunacked, State.merges_sentMerges hvalid⟩
  · have hcore := (s.withAcc (s.agent c)).core_readBytes (k.watch.base + 64) 512 c
    obtain ⟨hst, hfb⟩ := ((s.withAcc (s.agent c)).readBytes (k.watch.base + 64) 512).1.fbCopied_spec c x
      (ofLe ((s.withAcc (s.agent c)).readBytes (k.watch.base + 64) 512).2)
    rw [hcore] at hst
    exact ⟨_, exec_watchLoad_copies hacts hz hvalid hserved, hst, hfb⟩
  · have hcore := (s.withAcc (s.agent c)).core_readBytes (k.watch.base + 20) 4 c
    obtain ⟨hout, hovf, hknot, hst, hm⟩ := (s.verdictRead c).1.verdictSent_spec c x (ofLe (s.verdictRead c).2 % 2 ^ 18)
      k.watch.stepOvf
    rw [hcore] at hst
    exact ⟨_, _, exec_watchVerdict_arrives hacts hz hvalid hserved hcheck, hout, hovf, hknot, hst, hm⟩
  · cases hout : k.watch.verdictOut with
    | true =>
      refine ⟨_, exec_watchStep_awaitsReply hacts hz hvalid hout, ?_⟩
      rw [s.st_stepHeld c x]
      exact ⟨rfl, rfl, rfl, fun h => nomatch h⟩
    | false =>
      have hsome : k.watch.verdict.isSome = true := hverdict.resolve_right (by rw [hout]; exact Bool.false_ne_true)
      obtain ⟨hst, hm⟩ := s.stepWait_spec c x k.nextTicket
      refine ⟨_, exec_watchStep_sendsWait hacts hz hvalid hsome hout, ?_⟩
      rw [hst]
      exact ⟨rfl, rfl, rfl, fun _ => hm⟩
  · rw [State.core_coreWrite hwin, Core.watch_poke, Core.wrIgn_poke]
    split
    · next hheld =>
      rw [Core.watchBase_free _ hi _ hheld]
      exact ⟨rfl, rfl⟩
    · next hheld =>
      rw [Core.watchBase_held _ hi _ hheld]
      exact ⟨rfl, rfl⟩
  · cases htable : s.tableOk m.base with
    | true =>
      have hslot := ((s.withAcc (s.agent m.core)).mergeTold n m).mergeSlot_unwritten m
      refine ⟨_, exec_watchMerge_table hm htable (hserved htable), State.merges_of_unwritten hslot, ?_, fun h => nomatch h⟩
      rw [State.core_withAcc, State.watch_of_unwritten hslot, State.watch_mergeTold]
      rfl
    | false =>
      refine ⟨_, exec_watchMerge_noTable hm htable, rfl, ?_, fun _ => ⟨?_, fun p => ?_⟩⟩
      · rw [State.core_updCore, State.watch_mergeTold]
      · rw [State.core_updCore]
      · refine (State.cell_updCore _ m.core ?_ p).trans (s.cell_mergeTold n m p)
        exact fun _ => ⟨rfl, rfl, rfl⟩

end Sys2Proof.Machine
end

section
/-! A die that a fault takes out (R490, R545, R546, R554), and a double-bit error on a link of the bridle (R387). -/

namespace Sys2Proof.Machine

open Sys2Proof

/-! ### Requests that go on (R312 to R314) -/

/-- A state without what the requests to the stacks change: the stacks, and what the tether unit counts for its contexts. -/
def State.unqueued (s : State) : State := { s with stks := [], teth := {} }

@[simp] theorem State.unqueued_ite (p : Prop) [Decidable p] (s t : State) :
    (if p then s else t).unqueued = if p then s.unqueued else t.unqueued := apply_ite State.unqueued p s t

@[simp] theorem State.updStk_unqueued (s : State) (i f) : (s.updStk i f).unqueued = s.unqueued := rfl

@[simp] theorem State.setStk_unqueued (s : State) (i t) : (s.setStk i t).unqueued = s.unqueued := rfl

@[simp] theorem State.updCtx_unqueued (s : State) (c f) : (s.updCtx c f).unqueued = s.unqueued := rfl

@[simp] theorem State.respond_unqueued (s : State) (st r) : (s.respond st r).unqueued = s.unqueued := rfl

@[simp] theorem State.inMesh_unqueued (s : State) (st q) : (s.inMesh st q).unqueued = s.unqueued := rfl

@[simp] theorem State.bankHold_unqueued (s : State) (st q) : (s.bankHold st q).unqueued = s.unqueued := rfl

@[simp] theorem State.takeReq_unqueued (s : State) (st q) : (s.takeReq st q).unqueued = s.unqueued := by simp [State.takeReq]

@[simp] theorem State.sorter_unqueued (s : State) (st q) : (s.sorter st q).unqueued = s.unqueued := by simp [State.sorter]

@[simp] theorem State.arriveAll_unqueued (s : State) (st l) : (s.arriveAll st l).unqueued = s.unqueued := by
  induction l generalizing s with
  | nil => rfl
  | cons q t ih => simp [State.arriveAll, ih]

@[simp] theorem State.inSource_unqueued (s : State) (st q) : (s.inSource st q).unqueued = s.unqueued := rfl

@[simp] theorem State.wakeStk_unqueued (s : State) (st) : (s.wakeStk st).unqueued = s.unqueued := by simp [State.wakeStk]

@[simp] theorem State.submitAll_unqueued (s : State) (st l) : (s.submitAll st l).unqueued = s.unqueued := by
  induction l generalizing s with
  | nil => rfl
  | cons q t ih => simp [State.submitAll, ih]

@[simp] theorem State.pump_unqueued (s : State) (st) : (s.pump st).unqueued = s.unqueued := by simp [State.pump]

@[simp] theorem State.pumpAll_unqueued (s : State) : s.pumpAll.unqueued = s.unqueued := by
  unfold State.pumpAll
  induction List.range 16 generalizing s with
  | nil => rfl
  | cons st l ih => rw [List.foldl_cons, ih, State.unqueued_ite, State.pump_unqueued, ite_self]

/-! ### A commit that is rejected (R490) -/

/-- What the rejection of a commit leaves alone: the ripcord registers, the access at hand, the replies on their way, and the
errors counted on the bridle. -/
def State.offCommit (s : State) : RipSt × AccSt × List KReply × Nat := (s.rip, s.acc, s.knot.replies, s.knot.bridleErr)

theorem State.rig_offCommit (s : State) (r : RigSt) : ({ s with rig := r } : State).offCommit = s.offCommit := rfl

theorem State.unqueued_offCommit (s : State) : s.unqueued.offCommit = s.offCommit := rfl

theorem State.pumpAll_offCommit (s : State) : s.pumpAll.offCommit = s.offCommit := by
  rw [← State.unqueued_offCommit, State.pumpAll_unqueued, State.unqueued_offCommit]

theorem State.unhold_offCommit (s : State) : s.unhold.offCommit = s.offCommit := by
  unfold State.unhold
  dsimp only
  rw [State.pumpAll_offCommit]
  rfl

theorem State.rigResult_offCommit (s : State) (tell code frame detail) :
    (s.rigResult tell code frame detail).offCommit = s.offCommit := by
  unfold State.rigResult
  dsimp only
  split <;> rfl

theorem State.ancDrop_offCommit (s : State) (o) : (s.ancDrop o).offCommit = s.offCommit := by
  unfold State.ancDrop
  split
  · rw [State.ancEnd, State.ancPump_eq]
    rfl
  · rfl

theorem State.rigReject_offCommit (s : State) (code frame detail) : (s.rigReject code frame detail).offCommit = s.offCommit := by
  unfold State.rigReject
  dsimp only
  rw [State.ancDrop_offCommit, State.rigResult_offCommit, State.rig_offCommit, State.unhold_offCommit]

/-! ### Die resets (R546, R554, R555) -/

/-- A state that a fault has led to from s, with die d out: its code is the last one reported, replies have been lost and none has
come, and the bridle's errors and the access at hand are as they were. -/
structure State.LosesDie (s : State) (d code : Nat) (t : State) : Prop where
  acc : t.acc = s.acc
  last : t.rip.last = code
  out : t.dieOut d = true
  bridleErr : t.knot.bridleErr = s.knot.bridleErr
  replies : ∀ q ∈ t.knot.replies, q ∈ s.knot.replies

theorem State.isolate_keeps (s : State) (d : Nat) : (s.isolate d).rip = s.rip ∧ (s.isolate d).acc = s.acc
    ∧ (∀ q ∈ (s.isolate d).knot.replies, q ∈ s.knot.replies) ∧ (s.isolate d).knot.bridleErr = s.knot.bridleErr := by
  have hreject : ∀ t : State, (t.rigReject 0x24 0xFF 0).rip = t.rip ∧ (t.rigReject 0x24 0xFF 0).acc = t.acc
      ∧ (t.rigReject 0x24 0xFF 0).knot.replies = t.knot.replies
      ∧ (t.rigReject 0x24 0xFF 0).knot.bridleErr = t.knot.bridleErr := by
    intro t
    simpa only [State.offCommit, Prod.mk.injEq] using t.rigReject_offCommit 0x24 0xFF 0
  unfold State.isolate
  dsimp only
  split
  · obtain ⟨hrip, hacc, hreplies, herr⟩ := hreject _
    refine ⟨hrip, hacc, fun q hq => ?_, herr⟩
    rw [hreplies] at hq
    exact (List.mem_filter.mp hq).1
  · exact ⟨rfl, rfl, fun q hq => (List.mem_filter.mp hq).1, rfl⟩

theorem State.latch_rip_last (s : State) (pkg : Bool) (code : Nat) : (s.latch pkg code).rip.last = s.rip.last := by
  unfold State.latch
  dsimp only
  split <;> rfl

theorem bit_or_two_pow (n m : Nat) : bit n (m ||| 2 ^ n) = true := by
  rw [bit, Nat.testBit_or, Nat.testBit_two_pow_self, Bool.or_true]

/-- The isolation of a die, with any change of the registers that puts it out. -/
theorem State.isolate_losesDie (s : State) (d code : Nat) (f : RipSt → RipSt) (hlast : ∀ r, (f r).last = r.last)
    (hout : ∀ r, (bit d (f r).dieHeld || bit d (f r).dieResetting) = true) :
    (s.report code).LosesDie d code { (((s.report code).latch false code).isolate d) with
      rip := f (((s.report code).latch false code).isolate d).rip } := by
  obtain ⟨hrip, hacc, hreplies, herr⟩ := ((s.report code).latch false code).isolate_keeps d
  refine ⟨hacc, ?_, hout _, herr, hreplies⟩
  exact (hlast _).trans ((congrArg RipSt.last hrip).trans (State.latch_rip_last _ _ _))

theorem State.dieFault_losesDie (s : State) (d code : Nat) : s.LosesDie d code (s.dieFault d code) := by
  have hreport : ∀ t, (s.report code).LosesDie d code t → s.LosesDie d code t :=
    fun t h => ⟨h.acc, h.last, h.out, h.bridleErr, h.replies⟩
  unfold State.dieFault
  dsimp only
  split
  · next hout => exact ⟨rfl, rfl, hout, rfl, fun _ h => h⟩
  · next hin =>
    have hresetting : bit d (s.report code).rip.dieResetting = false :=
      (Bool.or_eq_false_iff.mp (Bool.eq_false_iff.mpr hin)).2
    refine hreport _ ?_
    split
    · rw [State.dieReset, if_neg (by rw [hresetting]; exact Bool.false_ne_true)]
      exact State.isolate_losesDie s d code
        (fun r => { r with dieResetting := r.dieResetting ||| 2 ^ d,
                           dieHeld := if bit d r.dieHeld then r.dieHeld - 2 ^ d else r.dieHeld }) (fun _ => rfl)
        fun r => by rw [bit_or_two_pow, Bool.or_true]
    · exact State.isolate_losesDie s d code (fun r => { r with dieHeld := r.dieHeld ||| 2 ^ d }) (fun _ => rfl)
        fun r => by rw [bit_or_two_pow, Bool.true_or]

/-! ### The bridle (R387) -/

/-- A double-bit error on a die's link is counted, and puts the die out (R387). -/
theorem State.bridleFault_losesDie (s : State) {n : Nat} (hn : n < 4) :
    ({ s with knot := { s.knot with bridleErr := cnt s.knot.bridleErr 1 } } : State).LosesDie n (0x10314001 + n * 0x1000000)
      (s.bridleFault n) := by
  have hcode : ripCode (0x10 + n) 0x31 0x4001 = 0x10314001 + n * 0x1000000 := by
    unfold ripCode
    omega
  rw [State.bridleFault, if_pos hn, hcode]
  exact State.dieFault_losesDie _ _ _

end Sys2Proof.Machine
end

section
/-! Replies to knot operations (R221, R371, R372, R387, R389), for O43. -/

namespace Sys2Proof.Machine

open Sys2Proof

theorem State.replies_sendKnot (s : State) (m : KMsg) : (s.sendKnot m).knot.replies = s.knot.replies := by
  unfold State.sendKnot
  split <;> rfl

theorem State.hear_eq (s : State) (a b : Nat) :
    s.hear a b = { s with knot := { s.knot with heard := (s.hear a b).knot.heard } } := by
  unfold State.hear
  split <;> rfl

/-- Reply k has come in, and its link has been heard (R372, R388). -/
def State.heardReply (s : State) (k : Nat) (r : KReply) : State :=
  ({ s with knot := { s.knot with replies := s.knot.replies.eraseIdx k } } : State).hear (homeOf r.knot) r.who.node

theorem State.heardReply_eq (s : State) (k : Nat) (r : KReply) : ∃ heard, s.heardReply k r
    = { s with knot := { s.knot with replies := s.knot.replies.eraseIdx k, heard := heard } } :=
  ⟨_, State.hear_eq _ _ _⟩

section
variable {s : State} {k : Nat} {r : KReply} (hr : s.knot.replies[k]? = some r)
  (hfirst : (s.knot.replies.take k).any (fun q => q.who.node == r.who.node && homeOf q.knot == homeOf r.knot) = false)
include hr hfirst

theorem exec_knotReply_step {c n : Nat} {x : Stream} (hwho : r.who = .step c x n) (bad : Option Nat) :
    exec (.knotReply { k, bad }) s = .next (s.coreAccess c (fun s => s.replyIn k r bad)) := by
  refine congrArg Host.Outcome.next ?_
  simp only [hr, hfirst, Bool.false_eq_true, if_false]
  rw [hwho]

theorem exec_knotReply_other (hwho : ∀ c x n, r.who ≠ .step c x n) (bad : Option Nat) :
    exec (.knotReply { k, bad }) s = .next (s.replyIn k r bad) := by
  refine congrArg Host.Outcome.next ?_
  simp only [hr, hfirst, Bool.false_eq_true, if_false]

end

/-! ### Streams (R111, R371) -/

theorem StreamSt.deliver_eq (t : StreamSt) (d ticket : Nat) (v : W64) :
    ∃ s pend, t.deliver d ticket v = { t with s := s, pend := pend } := by
  unfold StreamSt.deliver StreamSt.setS
  split
  · split
    · exact ⟨_, _, rfl⟩
    · exact ⟨_, _, rfl⟩
  · exact ⟨_, _, rfl⟩

/-- A stream after the answer to its knot operation: one that waits for it goes on, or halts when it has been stopped. -/
def StreamSt.answered (t : StreamSt) (d ticket : Nat) (stop : Bool) (v : W64) : StreamSt :=
  if stop = true ∧ t.state = .waiting ∧ t.wait = .knot then
    (if t.stopReq then { (t.deliver d ticket v).ended (t.pc + 8) with state := .halted, stopReq := false }
      else (t.deliver d ticket v).ended (t.pc + 8))
  else t.deliver d ticket v

theorem State.st_updSt_other (s : State) (c : Nat) (x : Stream) (f : StreamSt → StreamSt) :
    ((s.updSt c x f).core c).st (sOther x) = (s.core c).st (sOther x) := by
  rw [State.updSt, State.core_updCore, Core.st_setSt_other]

theorem State.knotAnswer_st (s : State) (c : Nat) (x : Stream) (d ticket : Nat) (stop : Bool) (status : Nat) :
    ((s.knotAnswer c x d ticket stop status).core c).st x
      = ((s.core c).st x).answered d ticket stop (BitVec.ofNat 64 status) := by
  obtain ⟨regs, pend, hv⟩ := ((s.core c).st x).deliver_eq d ticket (BitVec.ofNat 64 status)
  unfold State.knotAnswer StreamSt.answered
  simp only [State.st_updSt, Bool.and_eq_true, beq_iff_eq, and_assoc]
  have hstate : (((s.core c).st x).deliver d ticket (BitVec.ofNat 64 status)).state = ((s.core c).st x).state := by rw [hv]
  have hwait : (((s.core c).st x).deliver d ticket (BitVec.ofNat 64 status)).wait = ((s.core c).st x).wait := by rw [hv]
  have hpc : (((s.core c).st x).deliver d ticket (BitVec.ofNat 64 status)).pc = ((s.core c).st x).pc := by rw [hv]
  have hreq : (((s.core c).st x).deliver d ticket (BitVec.ofNat 64 status)).stopReq = ((s.core c).st x).stopReq := by rw [hv]
  rw [hstate, hwait]
  split
  · rw [State.st_updSt, State.st_retire, State.st_updSt, hpc]
    simp only [StreamSt.ended, hreq]
  · rw [State.st_updSt]

theorem State.knotAnswer_keeps (s : State) (c : Nat) (x : Stream) (d ticket : Nat) (stop : Bool) (status : Nat) :
    let t := s.knotAnswer c x d ticket stop status
    (t.core c).st (sOther x) = (s.core c).st (sOther x) ∧ (∀ j, j ≠ c → t.core j = s.core j)
      ∧ t = { s with cores := t.cores } := by
  unfold State.knotAnswer
  dsimp only
  split
  · refine ⟨?_, fun j hj => ?_, rfl⟩
    · rw [State.st_updSt_other, State.st_retire_other, State.st_updSt_other]
    · rw [State.updSt, State.core_updCore_other _ _ _ hj, State.core_retire_other _ _ _ hj, State.updSt,
        State.core_updCore_other _ _ _ hj]
  · exact ⟨s.st_updSt_other c x _, fun j hj => s.core_updCore_other c _ hj, rfl⟩

/-! ### Who takes a reply (R371) -/

theorem State.replyIn_good (s : State) (k : Nat) (r : KReply) : s.replyIn k r none = (s.heardReply k r).takeReply r := rfl

theorem State.takeReply_stream {r : KReply} {c x d ticket stop} (h : r.who = .stream c x d ticket stop) (s : State) :
    s.takeReply r = (s.updCore c Core.poke).knotAnswer c x d ticket stop r.status := by
  rw [State.takeReply, h]

theorem State.takeReply_verdict {r : KReply} {c n} (h : r.who = .verdict c n) (s : State) :
    s.takeReply r = (s.updCore c Core.poke).verdictReply c n r.status := by
  rw [State.takeReply, h]

theorem State.takeReply_step {r : KReply} {c x n} (h : r.who = .step c x n) (s : State) :
    s.takeReply r = ((s.updCore c Core.poke).stepReply c x r.status).stepStopped c x := by
  rw [State.takeReply, h]

/-- The result registers of an operation pair take a status (R389). -/
def KPair.taken (p : KPair) (status : Nat) : KPair :=
  { p with waiting := false, resValid := true, resAborted := status.testBit 63, resErr := status.testBit 62,
           resValue := status % 2 ^ 29 }

theorem State.takeReply_pair {r : KReply} {g n} (h : r.who = .pair g n) {s : State} (hn : (s.pair g).serial = n) :
    s.takeReply r = s.updPair g (fun p => p.taken r.status) := by
  rw [State.takeReply, h]
  exact if_neg (not_not_intro hn)

/-- The reply to a stream's knot instruction reaches it (R371, R372). -/
theorem State.streamReply_spec {s : State} {r : KReply} {c x d ticket stop} (hwho : r.who = .stream c x d ticket stop) (k : Nat) :
    let t := s.replyIn k r none
    t.knot.replies = s.knot.replies.eraseIdx k
      ∧ (t.core c).st x = ((s.core c).st x).answered d ticket stop (BitVec.ofNat 64 r.status)
      ∧ (t.core c).st (sOther x) = (s.core c).st (sOther x) ∧ (∀ j, j ≠ c → t.core j = s.core j)
      ∧ t = { s with cores := t.cores, knot := t.knot } := by
  obtain ⟨heard, hs⟩ := s.heardReply_eq k r
  rw [State.replyIn_good, State.takeReply_stream hwho]
  have hcore : ∀ j, (s.heardReply k r).core j = s.core j := fun j => by rw [hs]; rfl
  have hpoke : ∀ y, (((s.heardReply k r).updCore c Core.poke).core c).st y = (s.core c).st y := fun y => by
    rw [State.core_updCore, Core.st_poke, hcore]
  obtain ⟨hother, hj, hframe⟩ := ((s.heardReply k r).updCore c Core.poke).knotAnswer_keeps c x d ticket stop r.status
  refine ⟨?_, ?_, ?_, fun j hne => ?_, ?_⟩
  · rw [hframe, State.updCore_knot, hs]
  · rw [State.knotAnswer_st, hpoke]
  · rw [hother, hpoke]
  · rw [hj j hne, State.core_updCore_other _ _ _ hne, hcore]
  · rw [hframe, State.updCore, State.setCore, hs]

/-! ### Operation pairs (R389) -/

theorem State.pairReply_spec {s : State} {r : KReply} {g n} (hwho : r.who = .pair g n) (hn : (s.pair g).serial = n) (k : Nat) :
    let t := s.replyIn k r none
    t.knot.replies = s.knot.replies.eraseIdx k ∧ t.pair g = (s.pair g).taken r.status ∧ t.cores = s.cores := by
  obtain ⟨heard, hs⟩ := s.heardReply_eq k r
  have hpair : (s.heardReply k r).pair g = s.pair g := by rw [hs]; rfl
  rw [State.replyIn_good, State.takeReply_pair hwho (by rw [hpair]; exact hn)]
  refine ⟨?_, ?_, ?_⟩
  · rw [hs]; rfl
  · rw [State.pair_updPair, hpair]
  · rw [hs]; rfl

/-! ### Verdicts (R221) -/

theorem State.stepsGo_spec (s : State) (c : Nat) :
    ((s.stepsGo c).core c).watch = { (s.core c).watch with stepA := none, stepB := none }
      ∧ (s.stepsGo c).knot.replies = s.knot.replies := by
  unfold State.stepsGo
  dsimp only
  cases (s.core c).watch.stepA <;> cases (s.core c).watch.stepB <;>
    simp only [State.stepWait, State.core_sendKnot, State.replies_sendKnot, State.core_updCore, State.updCore_knot, and_self]

theorem State.verdictReply_spec {s : State} {c n : Nat} (hout : (s.core c).watch.verdictOut = true)
    (hid : (s.core c).watch.verdictId = n) (status : Nat) :
    let t := s.verdictReply c n status
    t.knot.replies = s.knot.replies ∧ (t.core c).watch.verdict = some (status % 65536) ∧ (t.core c).watch.verdictOut = false := by
  rw [State.verdictReply, hout, hid, beq_self_eq_true]
  obtain ⟨hwatch, hreplies⟩ := (s.updCore c (fun k =>
    { k with watch := { k.watch with verdict := some (status % 65536), verdictOut := false } })).stepsGo_spec c
  refine ⟨hreplies, ?_, ?_⟩ <;> rw [Bool.and_self, if_pos rfl, hwatch, State.core_updCore]

theorem State.verdictReplyIn_spec {s : State} {r : KReply} {c n} (hwho : r.who = .verdict c n)
    (hout : (s.core c).watch.verdictOut = true) (hid : (s.core c).watch.verdictId = n) (k : Nat) :
    let t := s.replyIn k r none
    t.knot.replies = s.knot.replies.eraseIdx k ∧ (t.core c).watch.verdict = some (r.status % 65536)
      ∧ (t.core c).watch.verdictOut = false := by
  obtain ⟨heard, hs⟩ := s.heardReply_eq k r
  have hwatch : (((s.heardReply k r).updCore c Core.poke).core c).watch = (s.core c).watch := by
    rw [State.core_updCore, Core.watch_poke, hs]
    rfl
  rw [State.replyIn_good, State.takeReply_verdict hwho]
  obtain ⟨hreplies, hverdict⟩ := State.verdictReply_spec (n := n) (by rw [hwatch]; exact hout) (by rw [hwatch]; exact hid) r.status
  refine ⟨?_, hverdict⟩
  rw [hreplies, State.updCore_knot, hs]

/-! ### WATCH.STEP (R221, R223) -/

theorem State.stepSlots_unwritten (base : Nat) (ovf : Bool) (n : Nat) :
    ∀ (i : Nat) (s : State), (s.stepSlots base ovf i n).1.unwritten = s.unwritten := by
  induction n with
  | zero => exact fun _ _ => rfl
  | succ n ih =>
    intro i s
    rw [State.stepSlots]
    simp only [ih, State.writeBytes_unwritten, State.readBytes_unwritten]

theorem State.tableStep_unwritten (s : State) (c base : Nat) (ovf : Bool) : (s.tableStep c base ovf).unwritten = s.unwritten := by
  unfold State.tableStep
  extract_lets h m r
  have hr : r.1.unwritten = s.unwritten := by
    rw [State.stepSlots_unwritten, State.readBytes_unwritten, State.readBytes_unwritten]
  clear_value r
  split
  · rw [State.event_unwritten, State.writeBytes_unwritten, State.writeBytes_unwritten, hr]
  · rw [State.writeBytes_unwritten, State.writeBytes_unwritten, hr]

/-- The core of a stream that raises an exception (R86, R87). -/
def Core.raised (k : Core) (x : Stream) (code : Nat) : Core :=
  let k := k.setSt x { k.st x with state := .exception, excCode := code, excPc := (k.st x).pc, waitTicks := 0, closeAt := none,
                                   closed := false }
  if k.haltBoth then k.setSt (sOther x) (k.st (sOther x)).stop else k

theorem State.core_raise (s : State) (c : Nat) (x : Stream) (code : Nat) :
    (s.raise c x code).core c = (s.core c).raised x code := State.core_setCore _ _ _

theorem Core.watch_raised (k : Core) (x : Stream) (code : Nat) : (k.raised x code).watch = k.watch := by
  unfold Core.raised
  dsimp only
  split
  · rw [Core.watch_setSt, Core.watch_setSt]
  · rw [Core.watch_setSt]

theorem Core.st_setSt_of_other (k : Core) (x : Stream) (t : StreamSt) : (k.setSt (sOther x) t).st x = k.st x := by
  cases x <;> rfl

theorem Core.st_raised (k : Core) (x : Stream) (code : Nat) : (k.raised x code).st x = { k.st x with
    state := .exception, excCode := code, excPc := (k.st x).pc, waitTicks := 0, closeAt := none, closed := false } := by
  unfold Core.raised
  dsimp only
  split
  · rw [Core.st_setSt_of_other, Core.st_setSt]
  · rw [Core.st_setSt]

/-! The reply ends the verdict, and the step of the table (R221). -/

theorem State.stepReply_spec (s : State) (c : Nat) (x : Stream) (status : Nat) :
    ((s.stepReply c x status).core c).watch.verdict = none ∧ (s.stepReply c x status).knot.replies = s.knot.replies := by
  have hw : ((s.updCore c (fun k => { k with watch := { k.watch with verdict := none } })).core c).watch.verdict = none := by
    rw [State.core_updCore]
  unfold State.stepReply
  dsimp only
  split
  · exact ⟨by rw [State.core_raise, Core.watch_raised, hw], rfl⟩
  split
  · exact ⟨by rw [State.core_raise, Core.watch_raised, hw], rfl⟩
  · have htable := State.tableStep_unwritten
      (s.updCore c (fun k => { k with watch := { k.watch with verdict := none } })) c
      ((s.updCore c (fun k => { k with watch := { k.watch with verdict := none } })).core c).watch.base (bit 62 status)
    refine ⟨?_, ?_⟩
    · rw [State.watch_retire, State.watch_of_unwritten htable, hw]
    · rw [State.retire_knot, State.replies_of_unwritten htable, State.updCore_knot]

theorem State.stepReply_aborted (s : State) (c : Nat) (x : Stream) {status : Nat} (h : status.testBit 63 = true) :
    (((s.stepReply c x status).core c).st x).state = .exception ∧ (((s.stepReply c x status).core c).st x).excCode = 0x35 := by
  have hbit : bit 63 status = true := h
  rw [State.stepReply, if_pos hbit, State.core_raise, Core.st_raised]
  exact ⟨rfl, rfl⟩

theorem State.stepReply_completes (s : State) (c : Nat) (x : Stream) {status : Nat} (h : status.testBit 63 = false)
    (hvalid : (s.core c).watch.valid = true) :
    ((s.stepReply c x status).core c).st x = ((s.core c).st x).ended (((s.core c).st x).pc + 8) := by
  have hbit : bit 63 status = false := h
  have hvalid' : ((s.updCore c (fun k => { k with watch := { k.watch with verdict := none } })).core c).watch.valid = true := by
    rw [State.core_updCore]
    exact hvalid
  unfold State.stepReply
  dsimp only
  rw [hbit, hvalid', if_neg Bool.false_ne_true, Bool.not_true, if_neg Bool.false_ne_true, State.st_retire,
    State.st_of_unwritten (State.tableStep_unwritten _ c _ _), State.core_updCore, Core.st_watch]

theorem State.stepStopped_spec (s : State) (c : Nat) (x : Stream) :
    ((s.stepStopped c x).core c).watch = (s.core c).watch ∧ (s.stepStopped c x).knot.replies = s.knot.replies
      ∧ (((s.core c).st x).state ≠ .running → (((s.stepStopped c x).core c).st x).state = ((s.core c).st x).state)
      ∧ (((s.stepStopped c x).core c).st x).excCode = ((s.core c).st x).excCode
      ∧ (((s.core c).st x).stopReq = false → ((s.stepStopped c x).core c).st x = (s.core c).st x) := by
  rw [State.stepStopped]
  refine ⟨s.watch_updSt c x _, rfl, fun hrun => ?_, ?_, fun hreq => ?_⟩ <;> rw [State.st_updSt]
  · rw [if_neg hrun]
    split <;> rfl
  · split <;> rfl
  · rw [hreq, if_neg Bool.false_ne_true]

/-- The reply to a WATCH.STEP ends its verdict, and raises TABLE_ABORTED or lets the stream go on (R221, R372). -/
theorem State.stepReplyIn_spec {s : State} {r : KReply} {c x n} (hwho : r.who = .step c x n) (k : Nat) :
    let t := s.replyIn k r none
    let u := (s.core c).st x
    t.knot.replies = s.knot.replies.eraseIdx k ∧ (t.core c).watch.verdict = none
      ∧ (r.status.testBit 63 = true → ((t.core c).st x).state = .exception ∧ ((t.core c).st x).excCode = 0x35)
      ∧ (r.status.testBit 63 = false → (s.core c).watch.valid = true → u.stopReq = false →
          (t.core c).st x = u.ended (u.pc + 8)) := by
  obtain ⟨heard, hs⟩ := s.heardReply_eq k r
  rw [State.replyIn_good, State.takeReply_step hwho]
  have hcore : (s.heardReply k r).core c = s.core c := by rw [hs]; rfl
  have hst : (((s.heardReply k r).updCore c Core.poke).core c).st x = (s.core c).st x := by
    rw [State.core_updCore, Core.st_poke, hcore]
  have hwatch : (((s.heardReply k r).updCore c Core.poke).core c).watch = (s.core c).watch := by
    rw [State.core_updCore, Core.watch_poke, hcore]
  obtain ⟨hw, hreplies, hexc, hcode, hend⟩ :=
    (((s.heardReply k r).updCore c Core.poke).stepReply c x r.status).stepStopped_spec c x
  obtain ⟨hverdict, hreplies'⟩ := ((s.heardReply k r).updCore c Core.poke).stepReply_spec c x r.status
  refine ⟨?_, ?_, fun hbit => ?_, fun hbit hvalid hreq => ?_⟩
  · rw [hreplies, hreplies', State.updCore_knot, hs]
  · rw [hw, hverdict]
  · obtain ⟨hstate, hcode'⟩ := ((s.heardReply k r).updCore c Core.poke).stepReply_aborted c x hbit
    refine ⟨?_, hcode.trans hcode'⟩
    rw [hexc (by rw [hstate]; exact StState.noConfusion), hstate]
  · have hdone := ((s.heardReply k r).updCore c Core.poke).stepReply_completes c x hbit (by rw [hwatch]; exact hvalid)
    rw [hst] at hdone
    rw [hend (by rw [hdone]; exact hreq), hdone]

/-! ### Replies with a double-bit error (R387) -/

theorem State.badReply_spec (s : State) (k : Nat) (r : KReply) {n : Nat} (hn : n < 4) :
    let t := s.replyIn k r (some n)
    t.acc = s.acc ∧ t.knot.bridleErr = cnt s.knot.bridleErr 1 ∧ t.rip.last = 0x10314001 + n * 0x1000000 ∧ t.dieOut n = true
      ∧ ∀ q ∈ t.knot.replies, q ∈ s.knot.replies.eraseIdx k := by
  obtain ⟨hacc, hlast, hout, herr, hreplies⟩ :=
    ({ s with knot := { s.knot with replies := s.knot.replies.eraseIdx k } } : State).bridleFault_losesDie hn
  exact ⟨hacc, herr, hlast, hout, hreplies⟩

end Sys2Proof.Machine
end

section
/-! Tree messages between the devices of a group knot (R376, R380, R381, R382), for O43. -/

namespace Sys2Proof.Machine

open Sys2Proof

/-! ### What a message to another device, and a notify record, change (R384, R390) -/

/-- A state without what leaves for other devices and what a notify record that fires changes. -/
def State.untold (s : State) : State :=
  { s with teth := {}, anc := {}, knot := { s.knot with notify := [], events := [] } }

theorem State.kn_of_untold {s t : State} (h : t.untold = s.untold) (k : Nat) : t.kn k = s.kn k := by
  have e := congrArg (fun u : State => u.kn k) h
  exact e

theorem State.cores_of_untold {s t : State} (h : t.untold = s.untold) : t.cores = s.cores := by
  have e := congrArg (fun u : State => u.cores) h
  exact e

theorem State.stks_of_untold {s t : State} (h : t.untold = s.untold) : t.stks = s.stks := by
  have e := congrArg (fun u : State => u.stks) h
  exact e

theorem State.rig_of_untold {s t : State} (h : t.untold = s.untold) : t.rig = s.rig := by
  have e := congrArg (fun u : State => u.rig) h
  exact e

theorem State.aborts_of_untold {s t : State} (h : t.untold = s.untold) : t.knot.aborts = s.knot.aborts := by
  have e := congrArg (fun u : State => u.knot.aborts) h
  exact e

@[simp] theorem State.updPort_untold (s : State) (p f) : (s.updPort p f).untold = s.untold := rfl

theorem State.startE2e_untold (s : State) (d : Nat) : (s.startE2e d).untold = s.untold := by
  unfold State.startE2e State.sendE2e
  split
  · rfl
  · dsimp only
    split <;> rfl

theorem State.sendBridle_untold (s : State) (dst : Nat) (msg : List Byte) : (s.sendBridle dst msg).untold = s.untold := by
  unfold State.sendBridle
  dsimp only
  split
  · rfl
  split
  · rfl
  · rw [State.updPort_untold]
    split
    · exact State.startE2e_untold _ dst
    · rfl

theorem State.sendTree_untold (s : State) (kind : TreeKind) (dst k phase : Nat) (err : Bool) :
    (s.sendTree kind dst k phase err).untold = s.untold := by
  unfold State.sendTree
  split
  · rfl
  · exact State.sendBridle_untold s dst _

theorem State.sendTrees_untold (kind : TreeKind) (k phase : Nat) (err : Bool) (l : List Nat) :
    ∀ s : State, (s.sendTrees kind k phase err l).untold = s.untold := by
  induction l with
  | nil => exact fun _ => rfl
  | cons d l ih =>
    intro s
    rw [State.sendTrees, ih, State.sendTree_untold]

theorem State.notifyAll_untold (k : Nat) (l : List (Nat × Notify)) : ∀ s : State, (s.notifyAll k l).untold = s.untold := by
  induction l with
  | nil => exact fun _ => rfl
  | cons p l ih =>
    obtain ⟨n, q⟩ := p
    intro s
    rw [State.notifyAll, ih]
    split <;> rfl

theorem State.notifyIf_untold (s : State) (old : Knot) (k : Nat) : (s.notifyIf old k).untold = s.untold := by
  unfold State.notifyIf
  dsimp only
  split
  · exact State.notifyAll_untold k _ s
  · rfl

/-! ### Messages that reach a knot (R381, R382) -/

/-- What a tree message of a kind does at the knot it reaches. -/
def treeBody (kind : TreeKind) (s : State) (m : TreeMsg) (r : KRange) : State :=
  let e := s.kn m.knot
  match kind with
  | .arrive =>
    if m.phase ≠ e.phase then s.treeDrop
    else
      (((s.setKn m.knot { e with childIn := e.childIn + 1, err := e.err || m.err }).barrierStep m.knot r).retest
        m.knot r.kind).notifyIf e m.knot
  | .done =>
    if m.phase ≠ (e.phase + 1) % 65536 then s.treeDrop
    else
      ((((s.setKn m.knot (e.complete m.err)).sendTrees .done m.knot m.phase m.err (s.treeOf e).children).barrierStep
        m.knot r).retest m.knot r.kind).notifyIf e m.knot
  | .abort => s.abortKnot m.knot r (some m.src)

/-- The state after tree message k has left its queue. -/
def State.heardTree (s : State) (k : Nat) : State := { s with knot := { s.knot with tree := s.knot.tree.eraseIdx k } }

theorem State.treeOf_of_rig {s t : State} (h : t.rig = s.rig) (e : Knot) : t.treeOf e = s.treeOf e := by
  rw [State.treeOf, h]
  rfl

section
variable {s : State} {k : Nat} {m : TreeMsg} (hm : s.knot.tree[k]? = some m)
  (hfirst : (s.knot.tree.take k).any (fun q => q.src == m.src) = false)
include hm hfirst

theorem State.treeMsg_unallocated (body) (hr : s.rangeOf m.knot = none) :
    s.treeMsg k m.kind body = (s.heardTree k).treeDrop := by
  have hr' : (s.heardTree k).rangeOf m.knot = none := hr
  unfold State.treeMsg
  simp only [hm, hfirst, ne_eq, not_true_eq_false, Bool.false_eq_true, or_self, if_false]
  rw [← State.heardTree, hr']

variable {r : KRange} (hr : s.rangeOf m.knot = some r)
include hr

theorem State.treeMsg_range (body) : s.treeMsg k m.kind body =
    if r.scope ≠ 2 then (s.heardTree k).treeDrop
    else if m.gen ≠ s.rangeGen r then
      ({ s.heardTree k with knot := { (s.heardTree k).knot with stale := true, staleDrops := cnt s.knot.staleDrops 1 } } : State).updCtx
        r.ctx (fun t => { t with drops := cnt t.drops 1 })
    else body (s.heardTree k) m r := by
  have hr' : (s.heardTree k).rangeOf m.knot = some r := hr
  unfold State.treeMsg
  simp only [hm, hfirst, ne_eq, not_true_eq_false, Bool.false_eq_true, or_self, if_false]
  rw [← State.heardTree, hr']
  rfl

theorem State.treeMsg_body (body) (hscope : r.scope = 2) (hgen : m.gen = s.rangeGen r) :
    s.treeMsg k m.kind body = body (s.heardTree k) m r := by
  rw [State.treeMsg_range hm hfirst hr, if_neg (not_not_intro hscope), if_neg (not_not_intro hgen)]

end

/-! ### The barrier of a group knot (R374, R380) -/

section
variable {s : State} {k : Nat} {r : KRange} (hscope : r.scope = 2)
include hscope

theorem State.barrierStep_idle
    (h : ¬((s.kn k).value = (s.kn k).limit ∧ (s.kn k).childIn = (s.treeOf (s.kn k)).children.length ∧ (!(s.kn k).upSent) = true)) :
    s.barrierStep k r = s := by
  rw [State.barrierStep, if_pos hscope]
  exact if_neg h

variable (h : (s.kn k).value = (s.kn k).limit ∧ (s.kn k).childIn = (s.treeOf (s.kn k)).children.length
  ∧ (!(s.kn k).upSent) = true)
include h

theorem State.barrierStep_root (hroot : (s.treeOf (s.kn k)).parent = 0xFFFF) :
    (s.barrierStep k r).untold = (s.setKn k ((s.kn k).complete (s.kn k).err)).untold := by
  rw [State.barrierStep, if_pos hscope]
  dsimp only
  rw [if_pos h, if_pos hroot, State.sendTrees_untold]

theorem State.barrierStep_up (hup : (s.treeOf (s.kn k)).parent ≠ 0xFFFF) :
    (s.barrierStep k r).untold = (s.setKn k { s.kn k with upSent := true }).untold := by
  rw [State.barrierStep, if_pos hscope]
  dsimp only
  rw [if_pos h, if_neg hup, State.sendTree_untold]

end

/-! ### What follows a change of a knot no agent waits at -/

theorem Knot.with_no_waiters {e : Knot} (h : e.waiters = []) : { e with waiters := [] } = e := by
  rw [← h]

theorem State.retest_no_waiters {s : State} {k : Nat} (kind : Nat) (h : (s.kn k).waiters = []) :
    s.retest k kind = s.setKn k (s.kn k) := by
  rw [State.retest, h]
  exact congrArg (s.setKn k) (Knot.with_no_waiters h)

theorem State.retestNotify_spec {s : State} {k : Nat} (kind : Nat) (old : Knot) (h : (s.kn k).waiters = []) :
    let t := (s.retest k kind).notifyIf old k
    t.kn k = s.kn k ∧ t.cores = s.cores ∧ t.stks = s.stks := by
  rw [State.retest_no_waiters kind h]
  have hu := (s.setKn k (s.kn k)).notifyIf_untold old k
  refine ⟨?_, (State.cores_of_untold hu).trans rfl, (State.stks_of_untold hu).trans rfl⟩
  rw [State.kn_of_untold hu, State.kn_setKn]

/-- What is left of a message that makes knot k the entry e, at which no agent waits: the test of the waiters and the notify
records. -/
theorem State.settled_spec {u v : State} {k : Nat} {e : Knot} (kind : Nat) (old : Knot) (hu : u.untold = (v.setKn k e).untold)
    (he : e.waiters = []) :
    let t := (u.retest k kind).notifyIf old k
    t.kn k = e ∧ t.cores = v.cores ∧ t.stks = v.stks := by
  have hkn : u.kn k = e := by rw [State.kn_of_untold hu, State.kn_setKn]
  obtain ⟨hk, hcores, hstks⟩ := State.retestNotify_spec (s := u) (k := k) kind old (by rw [hkn]; exact he)
  exact ⟨hk.trans hkn, (hcores.trans (State.cores_of_untold hu)).trans rfl, (hstks.trans (State.stks_of_untold hu)).trans rfl⟩

/-! ### TREE_ARRIVE (R380) -/

/-- The entry of a knot at which a child has arrived, with its error flag. -/
def Knot.arrived (e : Knot) (err : Bool) : Knot := { e with childIn := e.childIn + 1, err := e.err || err }

section
variable {s : State} {m : TreeMsg} {r : KRange}

theorem treeBody_arrive_otherPhase (hphase : m.phase ≠ (s.kn m.knot).phase) : treeBody .arrive s m r = s.treeDrop := if_pos hphase

theorem treeBody_arrive (hphase : m.phase = (s.kn m.knot).phase) : treeBody .arrive s m r
    = (((s.setKn m.knot ((s.kn m.knot).arrived m.err)).barrierStep m.knot r).retest m.knot r.kind).notifyIf (s.kn m.knot) m.knot :=
  if_neg (not_not_intro hphase)

theorem treeBody_done (hphase : m.phase = ((s.kn m.knot).phase + 1) % 65536) : treeBody .done s m r
    = ((((s.setKn m.knot ((s.kn m.knot).complete m.err)).sendTrees .done m.knot m.phase m.err
        (s.treeOf (s.kn m.knot)).children).barrierStep m.knot r).retest m.knot r.kind).notifyIf (s.kn m.knot) m.knot :=
  if_neg (not_not_intro hphase)

variable (hscope : r.scope = 2) (hwait : (s.kn m.knot).waiters = [])
include hscope hwait

theorem treeBody_arrive_waits (hphase : m.phase = (s.kn m.knot).phase) (hne : (s.kn m.knot).value ≠ (s.kn m.knot).limit) :
    let t := treeBody .arrive s m r
    t.kn m.knot = (s.kn m.knot).arrived m.err ∧ t.cores = s.cores ∧ t.stks = s.stks := by
  rw [treeBody_arrive hphase, State.barrierStep_idle hscope]
  · exact State.settled_spec r.kind _ rfl hwait
  · rw [State.kn_setKn]
    exact fun h => hne h.1

/-! #### The last arrival -/

section
variable (hphase : m.phase = (s.kn m.knot).phase) (hfull : (s.kn m.knot).value = (s.kn m.knot).limit)
  (hlast : (s.kn m.knot).childIn + 1 = (s.treeOf (s.kn m.knot)).children.length) (hsent : (s.kn m.knot).upSent = false)

omit hscope hwait in
include hfull hlast hsent in
theorem State.arrived_full :
    let u := s.setKn m.knot ((s.kn m.knot).arrived m.err)
    (u.kn m.knot).value = (u.kn m.knot).limit ∧ (u.kn m.knot).childIn = (u.treeOf (u.kn m.knot)).children.length
      ∧ (!(u.kn m.knot).upSent) = true := by
  dsimp only
  rw [State.kn_setKn]
  refine ⟨hfull, hlast, ?_⟩
  rw [show ((s.kn m.knot).arrived m.err).upSent = false from hsent]
  rfl

omit hscope hwait in
theorem State.parent_arrived :
    let u := s.setKn m.knot ((s.kn m.knot).arrived m.err)
    (u.treeOf (u.kn m.knot)).parent = (s.treeOf (s.kn m.knot)).parent := by
  dsimp only
  rw [State.kn_setKn]
  rfl

include hphase hfull hlast hsent

theorem treeBody_arrive_root (hroot : (s.treeOf (s.kn m.knot)).parent = 0xFFFF) :
    let t := treeBody .arrive s m r
    t.kn m.knot = ((s.kn m.knot).arrived m.err).complete ((s.kn m.knot).arrived m.err).err ∧ t.cores = s.cores
      ∧ t.stks = s.stks := by
  have hstep := State.barrierStep_root hscope (State.arrived_full hfull hlast hsent) (State.parent_arrived.trans hroot)
  rw [State.kn_setKn] at hstep
  rw [treeBody_arrive hphase]
  have hset := State.settled_spec r.kind (s.kn m.knot) hstep hwait
  exact hset

theorem treeBody_arrive_up (hup : (s.treeOf (s.kn m.knot)).parent ≠ 0xFFFF) :
    let t := treeBody .arrive s m r
    t.kn m.knot = { (s.kn m.knot).arrived m.err with upSent := true } ∧ t.cores = s.cores ∧ t.stks = s.stks := by
  have hstep := State.barrierStep_up hscope (State.arrived_full hfull hlast hsent) (by rw [State.parent_arrived]; exact hup)
  rw [State.kn_setKn] at hstep
  rw [treeBody_arrive hphase]
  have hset := State.settled_spec r.kind (s.kn m.knot) hstep hwait
  exact hset

end

/-! ### TREE_DONE (R381) and TREE_ABORT (R376) -/

theorem treeBody_done_completes (hphase : m.phase = ((s.kn m.knot).phase + 1) % 65536)
    (hwaits : (s.kn m.knot).limit ≠ 0 ∨ (s.treeOf (s.kn m.knot)).children ≠ []) :
    let t := treeBody .done s m r
    t.kn m.knot = (s.kn m.knot).complete m.err ∧ t.cores = s.cores ∧ t.stks = s.stks := by
  have hsent := State.sendTrees_untold .done m.knot m.phase m.err (s.treeOf (s.kn m.knot)).children
    (s.setKn m.knot ((s.kn m.knot).complete m.err))
  rw [treeBody_done hphase, State.barrierStep_idle hscope]
  · exact State.settled_spec r.kind _ hsent hwait
  · rw [State.kn_of_untold hsent, State.kn_setKn, State.treeOf_of_rig (State.rig_of_untold hsent)]
    rintro ⟨hlimit, hchildren, -⟩
    exact hwaits.elim (fun h => h hlimit.symm) (fun h => h (List.length_eq_zero_iff.mp hchildren.symm))

omit hscope in
theorem treeBody_abort_untold : (treeBody .abort s m r).untold
    = (({ s with knot := { s.knot with aborts := cnt s.knot.aborts 1 } } : State).setKn m.knot
        { s.kn m.knot with aborted := true }).untold := by
  have haborted : { s.kn m.knot with aborted := true, waiters := [] } = { s.kn m.knot with aborted := true } :=
    Knot.with_no_waiters (e := { s.kn m.knot with aborted := true }) hwait
  unfold treeBody State.abortKnot
  dsimp only
  rw [hwait, State.replyAll, haborted]
  split
  · rw [State.sendTrees_untold, State.notifyAll_untold]
  · rw [State.notifyAll_untold]

omit hscope in
theorem treeBody_abort :
    let t := treeBody .abort s m r
    t.kn m.knot = { s.kn m.knot with aborted := true } ∧ t.knot.aborts = cnt s.knot.aborts 1 ∧ t.cores = s.cores
      ∧ t.stks = s.stks := by
  have hu := treeBody_abort_untold (r := r) hwait
  refine ⟨?_, (State.aborts_of_untold hu).trans rfl, (State.cores_of_untold hu).trans rfl, (State.stks_of_untold hu).trans rfl⟩
  rw [State.kn_of_untold hu, State.kn_setKn]

end

/-! ### O43 -/

/-- The instruction for a tree message of a kind. -/
def treeInstr (kind : TreeKind) (k : Nat) : Instr :=
  match kind with
  | .arrive => .treeArrive k
  | .done => .treeDone k
  | .abort => .treeAbort k

theorem exec_treeInstr (kind : TreeKind) (k : Nat) (s : State) :
    exec (treeInstr kind k) s = .next (s.treeMsg k kind (treeBody kind)) := by
  cases kind <;> rfl

/-- A reply with a double-bit error is lost, whoever it is for (R387). -/
theorem exec_knotReply_bad {s : State} {k n : Nat} {r : KReply} (hr : s.knot.replies[k]? = some r)
    (hfirst : (s.knot.replies.take k).any (fun q => q.who.node == r.who.node && homeOf q.knot == homeOf r.knot) = false)
    (hn : n < 4) : ∃ t, exec (.knotReply { k, bad := some n }) s = .next t
      ∧ t.knot.bridleErr = cnt s.knot.bridleErr 1 ∧ t.rip.last = 0x10314001 + n * 0x1000000 ∧ t.dieOut n = true
      ∧ ∀ q ∈ t.knot.replies, q ∈ s.knot.replies.eraseIdx k := by
  by_cases hwho : ∃ c x q, r.who = .step c x q
  · obtain ⟨c, x, q, hwho⟩ := hwho
    obtain ⟨hacc, hspec⟩ := (s.withAcc (s.agent c)).badReply_spec k r hn
    have hstop : ((s.withAcc (s.agent c)).replyIn k r (some n)).acc.stop = none := by
      rw [hacc]
      rfl
    exact ⟨_, (exec_knotReply_step hr hfirst hwho (some n)).trans
      (congrArg Host.Outcome.next (State.access_of_stop_none rfl hstop)), hspec⟩
  · have hother : ∀ c x q, r.who ≠ .step c x q := fun c x q h => hwho ⟨c, x, q, h⟩
    exact ⟨_, exec_knotReply_other hr hfirst hother (some n), (s.badReply_spec k r hn).2⟩

/-- Settles O43: a reply reaches the agent it is for, and a tree message acts on its knot unless it is dropped. -/
theorem knotRepliesAndTrees : Obligations.KnotRepliesAndTrees := by
  unfold Obligations.KnotRepliesAndTrees
  refine ⟨fun k r s hr hfirst => ⟨?_, ?_, ?_, ?_, fun n hn => exec_knotReply_bad hr hfirst hn⟩, fun k m s hm hfirst => ?_⟩
  · intro c x d ticket stop hwho u v
    have hother : ∀ c x n, r.who ≠ .step c x n := fun _ _ _ h => KWho.noConfusion (hwho.symm.trans h)
    have hspec := State.streamReply_spec (s := s) hwho k
    exact ⟨_, exec_knotReply_other hr hfirst hother none, hspec⟩
  · intro g n hwho hn
    have hother : ∀ c x n, r.who ≠ .step c x n := fun _ _ _ h => KWho.noConfusion (hwho.symm.trans h)
    exact ⟨_, exec_knotReply_other hr hfirst hother none, State.pairReply_spec hwho hn k⟩
  · intro c n hwho hout hid
    have hother : ∀ c x n, r.who ≠ .step c x n := fun _ _ _ h => KWho.noConfusion (hwho.symm.trans h)
    exact ⟨_, exec_knotReply_other hr hfirst hother none, State.verdictReplyIn_spec hwho hout hid k⟩
  · intro c x n hwho hserved u
    have hstop := State.stop_of_coreServed hserved
    have hspec := State.stepReplyIn_spec (s := s.withAcc (s.agent c)) hwho k
    exact ⟨_, (exec_knotReply_step hr hfirst hwho none).trans
      (congrArg Host.Outcome.next (State.access_of_stop_none rfl hstop)), hspec⟩
  · intro i e tr
    have hexec : exec i s = .next (s.treeMsg k m.kind (treeBody m.kind)) := exec_treeInstr m.kind k s
    clear_value i
    refine ⟨fun hnone => ⟨_, hexec.trans (congrArg _ (State.treeMsg_unallocated hm hfirst _ hnone)), rfl, rfl, rfl, rfl⟩,
      fun r hr => ⟨fun hscope => ?_, fun hscope hgen => ?_, fun hscope hgen hwait => ?_⟩⟩
    · refine ⟨_, hexec.trans (congrArg _ (State.treeMsg_range hm hfirst hr _)), ?_⟩
      rw [if_pos hscope]
      exact ⟨rfl, rfl⟩
    · refine ⟨_, hexec.trans (congrArg _ (State.treeMsg_range hm hfirst hr _)), ?_⟩
      rw [if_neg (not_not_intro hscope), if_pos hgen]
      exact ⟨rfl, rfl, rfl⟩
    rw [State.treeMsg_body hm hfirst hr _ hscope hgen] at hexec
    refine ⟨fun hkind hphase => ?_, fun hkind hphase hne => ?_, fun hkind hphase hfull hlast hsent => ⟨fun hroot => ?_, fun hup => ?_⟩,
      fun hkind hphase hwaits => ?_, fun hkind => ?_⟩ <;> rw [hkind] at hexec
    · rw [treeBody_arrive_otherPhase (s := s.heardTree k) hphase] at hexec
      exact ⟨_, hexec, rfl, rfl⟩
    · exact ⟨_, hexec, treeBody_arrive_waits (s := s.heardTree k) hscope hwait hphase hne⟩
    · obtain ⟨hkn, hkeep⟩ := treeBody_arrive_root (s := s.heardTree k) hscope hwait hphase hfull hlast hsent hroot
      exact ⟨_, hexec, hkeep, hkn⟩
    · obtain ⟨hkn, hkeep⟩ := treeBody_arrive_up (s := s.heardTree k) hscope hwait hphase hfull hlast hsent hup
      exact ⟨_, hexec, hkeep, hkn⟩
    · obtain ⟨hkn, hkeep⟩ := treeBody_done_completes (s := s.heardTree k) hscope hwait hphase hwaits
      refine ⟨_, hexec, hkn.trans ?_, hkeep⟩
      rw [hphase]
      rfl
    · exact ⟨_, hexec, treeBody_abort (s := s.heardTree k) hwait⟩

end Sys2Proof.Machine
end

section
/-! The vector engine: its integer arithmetic (O28), and its starts, completions, failed accesses and registers (O29). -/

namespace Sys2Proof.Machine

open Sys2Proof

/-! ### Integer elements (R43, R243) -/

theorem sx_modEq (w v : Nat) : sx w v ≡ v [ZMOD 2 ^ w] := by
  have hmod : ((v % 2 ^ w : Nat) : Int) ≡ v [ZMOD 2 ^ w] := by
    push_cast
    exact Int.mod_modEq _ _
  unfold sx
  dsimp only
  split
  · exact hmod
  · exact (Int.modEq_iff_dvd.mpr (by rw [sub_sub_cancel])).trans hmod

/-- An element of any type stands for an integer congruent to its bits. -/
theorem eInt_modEq (t v : Nat) : eInt t v ≡ v [ZMOD 2 ^ ebits t] := by
  unfold eInt
  split
  next ht =>
    subst ht
    push_cast
    exact Int.mod_modEq _ _
  next => exact sx_modEq _ v

/-- The bits of an integer are those of any natural number congruent to it. -/
theorem wrap_of_modEq {w n : Nat} {i : Int} (h : i ≡ n [ZMOD 2 ^ w]) : wrap w i = n % 2 ^ w := by
  have hmod : i % 2 ^ w = ((n % 2 ^ w : Nat) : Int) := by
    push_cast
    exact h
  rw [wrap, hmod, Int.toNat_natCast]

/-- Without saturation an integer result is its low bits and sets no flag. -/
theorem intRes_wraps {t n : Nat} {i : Int} (h : i ≡ n [ZMOD 2 ^ ebits t]) : intRes t false i = (n % 2 ^ ebits t, 0) :=
  congrArg (·, 0) (wrap_of_modEq h)

/-- Settles O28: elements are congruent to their bits, and the low bits of a result depend on its class alone. -/
theorem vectorIntegerArithmeticWraps : Obligations.VectorIntegerArithmeticWraps := by
  unfold Obligations.VectorIntegerArithmeticWraps
  intro t _ _ a b _ hb
  have ha' := eInt_modEq t a
  have hb' := eInt_modEq t b
  refine ⟨intRes_wraps ?_, intRes_wraps ?_, intRes_wraps ?_, rfl, rfl, rfl⟩
  · rw [Nat.cast_add]
    exact ha'.add hb'
  · rw [Nat.cast_sub (hb.le.trans (Nat.le_add_left _ a)), Nat.cast_add, Nat.cast_pow, Nat.cast_ofNat]
    exact (ha'.sub hb').trans (Int.modEq_iff_dvd.mpr ⟨1, by ring⟩)
  · rw [Nat.cast_mul]
    exact ha'.mul hb'

/-! ### Runs of an instruction (R242, R258): what reading, asking for and writing them leaves alone -/

theorem State.vec_of_units {s t : State} (h : t.units = s.units) (j : Nat) : (t.core j).vec = (s.core j).vec := by
  have e := congrArg (fun k : Core => k.vec) (State.still_of_units h j)
  exact e

@[simp] theorem State.gatherPieces_units (s : State) (fails l) : (s.gatherPieces fails l).1.units = s.units := by
  induction l generalizing s with
  | nil => rfl
  | cons p l ih =>
    rw [State.gatherPieces]
    split
    next t bs ht =>
      split at ht
      · cases ht
      · exact (ih t).trans (State.readPiece_units ht)
    next => exact ih s

@[simp] theorem State.gather_units (s : State) (fails rq l) : (s.gather fails rq l).1.units = s.units := by
  induction l generalizing s with
  | nil => rfl
  | cons r t ih => simp [State.gather, ih]

@[simp] theorem State.askRuns_units (s : State) (who ctx l) : (s.askRuns who ctx l).1.units = s.units := by
  induction l generalizing s with
  | nil => rfl
  | cons r t ih =>
    rw [State.askRuns]
    split
    · exact ih s
    · exact (ih _).trans (State.units_of_unitsAcc ((State.sendReadReqs_unitsAcc _ _ _ _).trans (s.addReqs_unitsAcc _ _ _ _)))

@[simp] theorem State.putRuns_units (s : State) (i c bs l) : (s.putRuns i c bs l).1.units = s.units := by
  induction l generalizing s with
  | nil => rfl
  | cons r t ih => simp [State.putRuns, ih]

/-- The results of an instruction are read and counted, and stand in no core yet. -/
@[simp] theorem State.vecResult_units (s : State) (c i) : (s.vecResult c i).1.units = s.units := by
  unfold State.vecResult
  split <;> simp

/-! ### The engine of a core, and its queue (R238, R239) -/

theorem State.vec_updVec (s : State) (c : Nat) (f : VecSt → VecSt) : ((s.updVec c f).core c).vec = f (s.core c).vec := by
  rw [State.updVec, State.core_updCore]

theorem State.core_updVec_other (s : State) (c : Nat) (f : VecSt → VecSt) {j : Nat} (h : j ≠ c) :
    (s.updVec c f).core j = s.core j := s.core_updCore_other c _ h

theorem State.cell_updVec (s : State) (c : Nat) (f : VecSt → VecSt) : ∀ p, (s.updVec c f).cell p = s.cell p :=
  s.cell_updCore c fun _ => ⟨rfl, rfl, rfl⟩

theorem VecSt.ids_updInsn (v : VecSt) (id : Nat) {f : VInsn → VInsn} (hf : ∀ i, (f i).id = i.id) :
    (v.updInsn id f).queue.map (·.id) = v.queue.map (·.id) := by
  simp only [VecSt.updInsn, List.map_map]
  refine List.map_congr_left fun i _ => ?_
  simp only [Function.comp_apply]
  split
  · exact hf i
  · rfl

/-- What f gives every instruction, those named id have after f has changed them. -/
theorem VecSt.named_updInsn {v : VecSt} {id : Nat} {f : VInsn → VInsn} {P : VInsn → Prop} (hP : ∀ i, P (f i)) :
    ∀ j ∈ (v.updInsn id f).queue, j.id = id → P j := by
  intro j hj hid
  obtain ⟨i, -, hij⟩ := List.mem_map.mp hj
  split at hij
  · rw [← hij]
    exact hP i
  next hne => exact absurd (hij ▸ hid) hne

@[simp] theorem VecSt.queue_setFlags (v : VecSt) (x : Stream) (f : Nat) : (v.setFlags x f).queue = v.queue := by
  cases x <;> rfl

@[simp] theorem VecSt.store_setFlags (v : VecSt) (x : Stream) (f : Nat) : (v.setFlags x f).store = v.store := by
  cases x <;> rfl

@[simp] theorem VecSt.store_clearFlags (v : VecSt) (x : Stream) (f : Nat) : (v.clearFlags x f).store = v.store := by
  cases x <;> rfl

/-! ### Accesses that fail (R242) -/

/-- The engine after a part of an instruction has failed. -/
def VecSt.xfaults (v : VecSt) (id : Nat) (x : Stream) : VecSt :=
  if v.queue.any (fun i => i.id == id && i.xfault) then v
  else (v.updInsn id (fun i => { i with xfault := true })).setFlags x fgXfault

theorem State.core_event (s : State) (code source arg j : Nat) : (s.event code source arg).core j = s.core j := rfl

theorem State.cell_event (s : State) (code source arg : Nat) : ∀ p, (s.event code source arg).cell p = s.cell p :=
  State.cell_congr (fun _ => rfl) fun _ => ⟨rfl, rfl, rfl⟩

theorem State.vec_vecXfault (s : State) (c id : Nat) (x : Stream) :
    ((s.vecXfault c id x).core c).vec = (s.core c).vec.xfaults id x := by
  unfold State.vecXfault VecSt.xfaults
  split
  · rfl
  · rw [State.core_event, State.vec_updVec]

theorem State.core_vecXfault_other (s : State) (c id : Nat) (x : Stream) {j : Nat} (h : j ≠ c) :
    (s.vecXfault c id x).core j = s.core j := by
  unfold State.vecXfault
  split
  · rfl
  · rw [State.core_event, State.core_updVec_other s c _ h]

@[simp] theorem State.vecXfault_acc (s : State) (c id : Nat) (x : Stream) : (s.vecXfault c id x).acc = s.acc := by
  unfold State.vecXfault
  split <;> rfl

theorem State.cell_vecXfault (s : State) (c id : Nat) (x : Stream) : ∀ p, (s.vecXfault c id x).cell p = s.cell p := by
  unfold State.vecXfault
  split
  · exact fun _ => rfl
  · exact fun p => (State.cell_event _ _ _ _ p).trans (s.cell_updVec c _ p)

@[simp] theorem VecSt.store_xfaults (v : VecSt) (id : Nat) (x : Stream) : (v.xfaults id x).store = v.store := by
  unfold VecSt.xfaults
  split
  · rfl
  · rw [VecSt.store_setFlags]
    rfl

theorem VecSt.ids_xfaults (v : VecSt) (id : Nat) (x : Stream) : (v.xfaults id x).queue.map (·.id) = v.queue.map (·.id) := by
  unfold VecSt.xfaults
  split
  · rfl
  · rw [VecSt.queue_setFlags]
    exact v.ids_updInsn id (fun i => by rfl)

/-- What every instruction has, whether or not one of its parts has failed, a failure leaves to each. -/
theorem VecSt.forall_xfaults {v : VecSt} {P : VInsn → Prop} (h : ∀ j ∈ v.queue, P j)
    (hP : ∀ j, P j → P { j with xfault := true }) (id : Nat) (x : Stream) : ∀ j ∈ (v.xfaults id x).queue, P j := by
  unfold VecSt.xfaults
  split
  · exact h
  · intro j hj
    rw [VecSt.queue_setFlags] at hj
    obtain ⟨i, hi, hij⟩ := List.mem_map.mp hj
    rw [← hij]
    split
    · exact hP i (h i hi)
    · exact h i hi

/-- A failed address is marked on the instruction it belongs to. -/
theorem exec_vecAccessFail_of_fails {c id : Nat} {s : State} {i : VInsn} {b : W64}
    (hfind : (s.core c).vec.queue.find? (fun i => i.id == id) = some i)
    (hdone : (i.started && (i.op == .st || i.op == .quant)) = false)
    (hheld : ((s.core c).vec.queue.takeWhile (fun j => j.id ≠ id)).any (fun j => j.op == .flags && j.x == i.x) = false)
    (hnew : i.fails.contains b.toNat = false) (hfails : s.failsAt b.toNat = true) (hdev : aDev b.toNat = s.teth.self)
    (hmeets : i.runs.any (fun r => meets256 b.toNat r.addr r.len) = true) : exec (.vecAccessFail c id b) s
    = .next ((s.updVec c (fun v => v.updInsn id (fun i => { i with fails := b.toNat :: i.fails }))).vecXfault c id i.x) := by
  refine congrArg Host.Outcome.next ?_
  simp only [hfind, hdone, hheld, hnew, hfails, hdev, hmeets, bne_self_eq_false]
  rfl

/-! ### Starts (R239) -/

/-- The engine u holds the instructions of v, and those named id have started. -/
def VecSt.Started (v : VecSt) (id : Nat) (u : VecSt) : Prop :=
  u.queue.map (·.id) = v.queue.map (·.id) ∧ ∀ j ∈ u.queue, j.id = id → j.started = true

theorem VecSt.Started.xfaults {v u : VecSt} {id : Nat} (h : v.Started id u) (n : Nat) (x : Stream) :
    v.Started id (u.xfaults n x) := by
  obtain ⟨hids, hstarted⟩ := h
  exact ⟨(u.ids_xfaults n x).trans hids, VecSt.forall_xfaults hstarted (fun _ hj => hj) n x⟩

/-- A start marks the instruction with the tags of its requests, and occupies the engine. -/
def VecSt.starts (v : VecSt) (i : VInsn) (tags : List Nat) : VecSt :=
  { v.updInsn i.id (fun j => { j with started := true, reqs := tags }) with busy := cnt v.busy (vOcc i.op i.w) }

theorem VecSt.started_starts {v u : VecSt} (h : u.queue = v.queue) (i : VInsn) (tags : List Nat) :
    v.Started i.id (u.starts i tags) := by
  refine ⟨?_, VecSt.named_updInsn fun _ => rfl⟩
  rw [← h]
  exact u.ids_updInsn i.id fun _ => by rfl

theorem State.vecStarts_updVec {s u : State} {c : Nat} (h : (u.core c).vec.queue = (s.core c).vec.queue) (i : VInsn)
    (tags : List Nat) : (s.core c).vec.Started i.id ((u.updVec c (fun v => v.starts i tags)).core c).vec := by
  rw [State.vec_updVec]
  exact VecSt.started_starts h i tags

/-- A read starts with its requests to other devices. -/
theorem State.vecStarts_askRuns (s : State) (c : Nat) (i : VInsn) (l : List VRun) : (s.core c).vec.Started i.id
    (((s.askRuns (.vec c i.x i.id) i.ctx l).1.updVec c
      (fun v => v.starts i (s.askRuns (.vec c i.x i.id) i.ctx l).2)).core c).vec :=
  State.vecStarts_updVec (congrArg VecSt.queue (State.vec_of_units (s.askRuns_units _ _ l) c)) i _

/-- A write starts with the writing of its runs, of which a part may fail. -/
theorem State.vecStarts_putRuns {s u : State} {c : Nat} (h : (u.core c).vec.queue = (s.core c).vec.queue) (i : VInsn)
    {r : State × List Nat × Bool} (hr : r.1.units = u.units) : (s.core c).vec.Started i.id
    ((if r.2.2 then (r.1.updVec c (fun v => v.starts i r.2.1)).vecXfault c i.id i.x
      else r.1.updVec c (fun v => v.starts i r.2.1)).core c).vec := by
  have hstart := State.vecStarts_updVec ((congrArg VecSt.queue (State.vec_of_units hr c)).trans h) i r.2.1
  split
  · rw [State.vec_vecXfault]
    exact hstart.xfaults i.id i.x
  · exact hstart

/-- The generator of core c where a quantise operation leaves it, when the operation draws from it (R62). -/
def State.drawn (s : State) (c : Nat) (sr : Option Nat) : State :=
  match sr with
  | some v => s.updVec c (fun u => { u with srState := v })
  | none => s

theorem State.queue_drawn (s : State) (c : Nat) (sr : Option Nat) :
    ((s.drawn c sr).core c).vec.queue = (s.core c).vec.queue := by
  cases sr
  · rfl
  · rw [State.drawn, State.vec_updVec]

/-- A quantise operation draws from the generator and counts. -/
theorem State.vQuant_units (s : State) (c : Nat) (i : VInsn) : ∃ sr, (s.vQuant c i).1.units = (s.drawn c sr).units := by
  unfold State.vQuant
  dsimp only
  generalize QRes.sr _ = sr
  refine ⟨sr, ?_⟩
  rw [State.units_ite, State.updCore_units, ite_self, State.units_ite, State.countNonfinite_units, ite_self,
    State.countSlot_units]
  · rfl
  · exact fun _ => rfl

theorem State.queue_vQuant (s : State) (c : Nat) (i : VInsn) :
    ((s.vQuant c i).1.core c).vec.queue = (s.core c).vec.queue := by
  obtain ⟨sr, hunits⟩ := s.vQuant_units c i
  rw [State.vec_of_units hunits, State.queue_drawn]

theorem State.vecBegin_started (s : State) (c : Nat) (i : VInsn) :
    (s.core c).vec.Started i.id ((s.vecBegin c i).core c).vec := by
  unfold State.vecBegin
  dsimp only
  generalize (if s.ctxLive i.ctx i.gen then i.runs else []) = live
  split
  · exact s.vecStarts_askRuns c i live
  · exact s.vecStarts_askRuns c i live
  · exact State.vecStarts_putRuns rfl i (s.putRuns_units _ _ _ _)
  · exact State.vecStarts_putRuns (s.queue_vQuant c i) i (State.putRuns_units _ _ _ _ _)
  · exact State.vecStarts_updVec rfl i []

theorem exec_vecInstrStart_of_next {c : Nat} {s : State} {i : VInsn} {before : List VInsn}
    (hnext : nextInsn [] (s.core c).vec.queue = some (i, before)) (hruns : s.coreRuns c = true)
    (hclear : (s.core c).vec.clearing = false) (hdep : before.any i.dependsOn = false)
    (hserved : s.coreServed c (fun s => s.vecBegin c i) = true) :
    exec (.vecInstrStart c .ok) s = .next (((s.withAcc (s.agent c)).vecBegin c i).withAcc s.acc) := by
  refine congrArg Host.Outcome.next (State.access_of_stop_none ?_ (State.stop_of_coreServed hserved))
  have hnext' : nextInsn [] ((s.withAcc (s.agent c)).core c).vec.queue = some (i, before) := hnext
  have hgo : (!((s.withAcc (s.agent c)).coreRuns c) || ((s.withAcc (s.agent c)).core c).vec.clearing
      || before.any i.dependsOn) = false := by
    rw [show (s.withAcc (s.agent c)).coreRuns c = true from hruns, State.core_withAcc, hclear, hdep]
    rfl
  simp only [hnext', hgo, State.eccAt_ok]
  rfl

/-! ### Completion (R238) -/

@[simp] theorem VecSt.store_finish (v : VecSt) (id : Nat) : (v.finish id).store = v.store := by
  unfold VecSt.finish
  dsimp only
  split
  · split <;> rfl
  · rfl

theorem VecSt.queue_finish (v : VecSt) (id : Nat) : (v.finish id).queue = v.queue.filter (fun i => i.id ≠ id) := by
  unfold VecSt.finish
  dsimp only
  split
  · split <;> rfl
  · rfl

theorem VecSt.ne_of_mem_finish {v : VecSt} {id : Nat} : ∀ q ∈ (v.finish id).queue, q.id ≠ id := by
  intro q hq
  rw [VecSt.queue_finish] at hq
  exact of_decide_eq_true (List.mem_filter.mp hq).2

/-- The engine with the results of an instruction: a VFLAGS takes the flags of its stream, and then the bytes are written and the
flags set (R240, R262). -/
def VecSt.takes (v : VecSt) (i : VInsn) (r : VRes) : VecSt :=
  let v := if i.op = .flags then v.clearFlags i.x (v.flagsOf i.x) else v
  ({ v with store := mwrite v.store i.dOff r.bytes } : VecSt).setFlags i.x r.flags

theorem VecSt.store_takes (v : VecSt) (i : VInsn) (r : VRes) : (v.takes i r).store = mwrite v.store i.dOff r.bytes := by
  unfold VecSt.takes
  rw [VecSt.store_setFlags]
  refine congrArg (mwrite · i.dOff r.bytes) ?_
  split
  · exact v.store_clearFlags _ _
  · rfl

/-- A scalar result reaches its register (R235). -/
def State.delivers (s : State) (c id : Nat) (i : VInsn) (v : Option W64) : State :=
  match v with
  | some v => s.updSt c i.x (fun t => t.deliver (iD i.w) id v)
  | none => s

theorem State.vec_delivers (s : State) (c id : Nat) (i : VInsn) (v : Option W64) :
    ((s.delivers c id i v).core c).vec = (s.core c).vec := by
  cases v
  · rfl
  · rw [State.delivers, State.updSt, State.core_updCore, Core.vec_setSt]

theorem State.delivers_acc (s : State) (c id : Nat) (i : VInsn) (v : Option W64) : (s.delivers c id i v).acc = s.acc := by
  cases v <;> rfl

/-- Instruction i, named id, completes with results r. -/
def State.vecCompletes (r : State × VRes × Bool) (c id : Nat) (i : VInsn) : State :=
  (((((if r.2.2 then r.1.vecXfault c id i.x else r.1).dropReqs i.reqs).updVec c (fun v => v.takes i r.2.1)).delivers c id i
    r.2.1.scalar).updCore c (fun k => { k with stallTicks := 0, vec := k.vec.finish id }))

section
variable (r : State × VRes × Bool) (c id : Nat) (i : VInsn)

theorem State.vecCompletes_acc : (State.vecCompletes r c id i).acc = r.1.acc := by
  unfold State.vecCompletes
  rw [State.updCore_acc, State.delivers_acc, State.updVec_acc]
  split
  · exact r.1.vecXfault_acc c id i.x
  · rfl

theorem State.vec_vecCompletes : ∃ v : VecSt, v.store = (r.1.core c).vec.store
    ∧ ((State.vecCompletes r c id i).core c).vec = (v.takes i r.2.1).finish id := by
  unfold State.vecCompletes
  rw [State.core_updCore, State.vec_delivers, State.vec_updVec]
  refine ⟨_, ?_, rfl⟩
  rw [State.vec_of_units (State.dropReqs_units _ _)]
  split
  · rw [State.vec_vecXfault, VecSt.store_xfaults]
  · rfl

end

theorem exec_vecInstrComplete_of_answered {c id : Nat} {s : State} {i : VInsn}
    (hfind : (s.core c).vec.queue.find? (fun i => i.id == id) = some i) (hruns : s.coreRuns c = true)
    (hstarted : i.started = true) (hreqs : (s.reqsOf i.reqs).any (fun q => !q.done) = false)
    (hserved : s.coreServed c (fun s => (s.vecResult c i).1) = true) : exec (.vecInstrComplete c id false) s
    = .next ((State.vecCompletes ((s.withAcc (s.agent c)).vecResult c i) c id i).withAcc s.acc) := by
  refine congrArg Host.Outcome.next (State.access_of_stop_none ?_
    ((congrArg AccSt.stop (State.vecCompletes_acc _ c id i)).trans (State.stop_of_coreServed hserved)))
  have hfind' : ((s.withAcc (s.agent c)).core c).vec.queue.find? (fun i => i.id == id) = some i := hfind
  have hgo : (!((s.withAcc (s.agent c)).coreRuns c) || !i.started
      || ((s.withAcc (s.agent c)).reqsOf i.reqs).any (fun q => !q.done)) = false := by
    rw [show (s.withAcc (s.agent c)).coreRuns c = true from hruns, hstarted]
    exact hreqs
  simp only [hfind', hgo, Bool.false_eq_true, if_false]
  rfl

/-! ### Registers (R61, R62, R263, R264) -/

theorem Core.vec_poke (k : Core) : k.poke.vec = k.vec := by
  rw [Core.poke_eq]

theorem VecSt.srSet_idle {v : VecSt} (h : v.srBusy = false) (n : Nat) :
    v.srSet n = { v with srState := if n = 0 then 1 else n, srWrite := none } :=
  if_neg (Bool.eq_false_iff.mp h)

theorem VecSt.srSet_busy {v : VecSt} (h : v.srBusy = true) (n : Nat) :
    v.srSet n = { v with srWrite := some (if n = 0 then 1 else n) } := if_pos h

theorem Core.vecCtrl_clear {k : Core} {v : Nat} (hv : v.testBit 0 = true) :
    k.vecCtrl v = if k.sa.idle && k.sb.idle && k.vec.queue.isEmpty then
      { k with vec := { k.vec with store := [], clearing := true, busy := cnt k.vec.busy 768 } }
    else { k with wrIgn := true } :=
  if_neg (by rw [bit, hv]; exact Bool.false_ne_true)

/-- Settles O29: a start keeps the queue and marks its instruction, a completion writes the store and takes its instruction off the
queue, a failed access changes one engine, and a register's write changes one core as `VecSt.srSet` and `Core.vecCtrl` say. -/
theorem vectorEngineCompletions : Obligations.VectorEngineCompletions := by
  unfold Obligations.VectorEngineCompletions
  intro c s
  refine ⟨fun i before hnext hruns hclear hdep hserved => ?_, fun i id hfind hruns hstarted hreqs hserved => ?_,
    fun i id b hfind hdone hheld hnew hfails hdev hmeets => ?_, fun v hwin => ⟨?_, fun hv => ?_⟩, fun hruns hclear => ?_⟩
  · exact ⟨_, exec_vecInstrStart_of_next hnext hruns hclear hdep hserved, (s.withAcc (s.agent c)).vecBegin_started c i⟩
  · refine ⟨_, exec_vecInstrComplete_of_answered hfind hruns hstarted hreqs hserved, ?_⟩
    obtain ⟨v, hstore, hvec⟩ := State.vec_vecCompletes ((s.withAcc (s.agent c)).vecResult c i) c id i
    rw [State.core_withAcc, hvec, VecSt.store_finish, VecSt.store_takes, hstore, State.vec_of_units (State.vecResult_units _ c i)]
    exact ⟨VecSt.ne_of_mem_finish, rfl⟩
  · refine ⟨_, exec_vecAccessFail_of_fails hfind hdone hheld hnew hfails hdev hmeets, ?_, fun p => ?_, fun j hj => ?_⟩
    · rw [State.vec_vecXfault, State.vec_updVec]
      exact VecSt.forall_xfaults (P := fun j => j.id = id → b.toNat ∈ j.fails)
        (VecSt.named_updInsn fun _ => List.mem_cons_self) (fun _ h => h) id i.x
    · rw [State.cell_vecXfault, State.cell_updVec]
    · rw [State.core_vecXfault_other _ c id i.x hj, State.core_updVec_other _ c _ hj]
  · refine ⟨_, rfl, fun j hj => s.core_coreWrite_other c _ hj, fun hbusy => ?_, fun hbusy => ?_⟩
    all_goals rw [State.core_coreWrite hwin, Core.vec_poke]
    · rw [VecSt.srSet_idle hbusy]
      exact ⟨rfl, rfl⟩
    · rw [VecSt.srSet_busy hbusy]
      exact ⟨rfl, rfl⟩
  · refine ⟨_, rfl, fun j hj => s.core_coreWrite_other c _ hj, ?_⟩
    rw [State.core_coreWrite hwin, Core.vec_poke, Core.wrIgn_poke, Core.vecCtrl_clear hv]
    split
    · exact ⟨rfl, rfl⟩
    · exact ⟨rfl, rfl⟩
  · exact ⟨_, congrArg Host.Outcome.next (if_pos (by rw [hruns, hclear]; rfl)), s.vec_updVec c _,
      fun j hj => s.core_updVec_other c _ hj⟩

end Sys2Proof.Machine
end

section
/-! The directory of a core's loft manager in scratch (R270 to R273): what its entries hold after a write, and what the writes of the
manager leave alone outside it. -/

namespace Sys2Proof.Machine

open Sys2Proof

/-! ### Little-endian bytes of a memory (R5) -/

@[simp] theorem length_leBytes (n v : Nat) : (leBytes n v).length = n := by
  induction n generalizing v with
  | zero => rfl
  | succ n ih => simp [leBytes, ih]

theorem ofLe_leBytes (n v : Nat) : ofLe (leBytes n v) = v % 256 ^ n := by
  induction n generalizing v with
  | zero => simp [leBytes, ofLe, Nat.mod_one]
  | succ n ih =>
    rw [leBytes, ofLe, ih, pow_succ', Nat.mod_mul]
    rfl

theorem sread_congr {α : Type} {d : α} {m m' : Sparse α} {k : Nat} (n : Nat)
    (h : ∀ i, k ≤ i → i < k + n → sget d m i = sget d m' i) : sread d m k n = sread d m' k n := by
  induction n generalizing k with
  | zero => rfl
  | succ n ih =>
    rw [sread, sread, h k le_rfl (by omega), ih fun i hlo hhi => h i (by omega) (by omega)]

/-- A read of a run that a write does not meet. -/
theorem mread_mwrite_other (m : Memory) (k n o : Nat) (bs : List Byte) (h : k + n ≤ o ∨ o + bs.length ≤ k) :
    mread (mwrite m o bs) k n = mread m k n :=
  sread_congr n fun i hlo hhi => mwrite_other m o i bs (by omega)

/-- A read of the run that a write has written. -/
theorem mread_mwrite_same (m : Memory) (k : Nat) (bs : List Byte) : mread (mwrite m k bs) k bs.length = bs := by
  induction bs generalizing m k with
  | nil => rfl
  | cons b t ih =>
    refine congrArg₂ List.cons ?_ (ih (sset 0 m k b) (k + 1))
    exact (mwrite_other _ (k + 1) k t (Or.inl k.lt_succ_self)).trans (sget_sset_same m k b)

theorem ofLe_mread_mwrite (m : Memory) (k n v : Nat) : ofLe (mread (mwrite m k (leBytes n v)) k n) = v % 256 ^ n := by
  have h := mread_mwrite_same m k (leBytes n v)
  rw [length_leBytes] at h
  rw [h, ofLe_leBytes]

/-! ### What the manager of a core leaves alone -/

/-- The cores without their guards, and the bytes of the stacks. -/
def State.unguarded (s : State) : (Nat → Core) × (Nat → Memory) :=
  (fun j => { s.core j with guards := [] }, fun st => (s.stk st).mem)

theorem State.endGuard_unguarded (s : State) (c g : Nat) : (s.endGuard c g).unguarded = s.unguarded := by
  refine Prod.ext (funext fun j => ?_) (funext fun st => s.mem_endGuard c g st)
  change ({ (s.endGuard c g).core j with guards := [] } : Core) = { s.core j with guards := [] }
  by_cases h : j = c
  · obtain ⟨gs, hgs⟩ := s.core_endGuard c g
    rw [h, hgs]
  · rw [s.core_endGuard_other c g h]

theorem State.endGuards_unguarded (s : State) (c : Nat) (l : List Nat) : (s.endGuards c l).unguarded = s.unguarded := by
  induction l generalizing s with
  | nil => rfl
  | cons g t ih => exact (ih _).trans (s.endGuard_unguarded c g)

theorem State.endTouched_unguarded (s : State) (copy : Option (Nat × Nat)) (a n : Nat) (l : List Nat) :
    (s.endTouched copy a n l).unguarded = s.unguarded := by
  induction l generalizing s with
  | nil => rfl
  | cons c t ih => exact (ih _).trans (s.endGuards_unguarded c _)

theorem State.endWritten_unguarded (s : State) (copy : Option (Nat × Nat)) (a n : Nat) :
    (s.endWritten copy a n).unguarded = s.unguarded := s.endTouched_unguarded copy a n _

/-- A core with the same parts as another but guards is the other with those guards. -/
theorem Core.eq_of_unguarded {k q : Core} (h : ({ q with guards := [] } : Core) = { k with guards := [] }) :
    q = { k with guards := q.guards } :=
  congrArg (fun u : Core => { u with guards := q.guards }) h

theorem State.core_of_unguarded {s t : State} (h : t.unguarded = s.unguarded) (j : Nat) :
    t.core j = { s.core j with guards := (t.core j).guards } :=
  Core.eq_of_unguarded (congrFun (congrArg Prod.fst h) j)

theorem State.mem_of_unguarded {s t : State} (h : t.unguarded = s.unguarded) (st : Nat) : (t.stk st).mem = (s.stk st).mem :=
  congrFun (congrArg Prod.snd h) st

/-- A core without what its loft manager and the manager's registers change outside the loft. -/
def Core.offLoft (k : Core) : Core := { k with scratch := [], guards := [], loftM := {}, wrIgn := false, waking := false }

/-- What the loft manager of core c leaves alone when it writes its directory: the core outside it, the other cores but guards that
the writes end, and the bytes of the stacks. -/
def State.offLoft (s : State) (c : Nat) : Core × (Nat → Option Core) × (Nat → Memory) :=
  ((s.core c).offLoft, fun j => if j = c then none else some { s.core j with guards := [] }, fun st => (s.stk st).mem)

section
variable {s t : State} {c : Nat} (h : t.offLoft c = s.offLoft c)
include h

theorem State.loft_of_offLoft : (t.core c).loft = (s.core c).loft := congrArg (fun p => p.1.loft) h

theorem State.spool_of_offLoft : (t.core c).spool = (s.core c).spool := congrArg (fun p => p.1.spool) h

theorem State.arr_of_offLoft : (t.core c).arr = (s.core c).arr := congrArg (fun p => p.1.arr) h

theorem State.streams_of_offLoft : (t.core c).sa = (s.core c).sa ∧ (t.core c).sb = (s.core c).sb :=
  ⟨congrArg (fun p => p.1.sa) h, congrArg (fun p => p.1.sb) h⟩

theorem State.mem_of_offLoft (st : Nat) : (t.stk st).mem = (s.stk st).mem := congrFun (congrArg (fun p => p.2.2) h) st

theorem State.core_of_offLoft {j : Nat} (hj : j ≠ c) : t.core j = { s.core j with guards := (t.core j).guards } := by
  have hcore := congrFun (congrArg (fun p => p.2.1) h) j
  simp only [State.offLoft, if_neg hj] at hcore
  exact Core.eq_of_unguarded (Option.some.inj hcore)

theorem State.cell_of_offLoft (p : Loc) (hp : ∀ o, p ≠ .scratch c o) : t.cell p = s.cell p := by
  have hother {j : Nat} (hj : j ≠ c) := State.core_of_offLoft h hj
  cases p with
  | stack st a => rw [State.cell, State.cell, State.mem_of_offLoft h]
  | scratch j o =>
    have hj : j ≠ c := fun e => hp o (by rw [e])
    rw [State.cell, State.cell, hother hj]
  | loft j o =>
    by_cases hj : j = c
    · rw [State.cell, State.cell, hj, State.loft_of_offLoft h]
    · rw [State.cell, State.cell, hother hj]
  | spool j o =>
    by_cases hj : j = c
    · rw [State.cell, State.cell, hj, State.spool_of_offLoft h]
    · rw [State.cell, State.cell, hother hj]
  | bad | ctrl | remote => rfl

end

theorem State.offLoft_of_unguarded {s t : State} (h : t.unguarded = s.unguarded) (c : Nat) : t.offLoft c = s.offLoft c := by
  refine Prod.ext ?_ (Prod.ext (funext fun j => ?_) ?_)
  · change (t.core c).offLoft = (s.core c).offLoft
    rw [State.core_of_unguarded h c]
    rfl
  · exact congrArg (fun k : Core => if j = c then none else some k) (congrFun (congrArg Prod.fst h) j)
  · exact funext (State.mem_of_unguarded h)

theorem State.updCore_offLoft (s : State) (c : Nat) {f : Core → Core} (hf : ∀ k : Core, (f k).offLoft = k.offLoft) :
    (s.updCore c f).offLoft c = s.offLoft c := by
  refine Prod.ext ?_ (Prod.ext (funext fun j => ?_) rfl)
  · change ((s.updCore c f).core c).offLoft = (s.core c).offLoft
    rw [State.core_updCore, hf]
  · simp only [State.offLoft]
    split
    next => rfl
    next hj => rw [State.core_updCore_other s c f hj]

/-! ### Writes of the manager -/

/-- A write of its own scratch by a unit of core c changes the bytes written, and ends guards. -/
theorem State.core_scrWrite (s : State) (c o : Nat) (bs : List Byte) : ∃ gs, (s.scrWrite c o bs).core c
    = { s.core c with scratch := mwrite (s.core c).scratch o bs, guards := gs } := by
  rw [State.scrWrite, State.core_updCore,
    State.core_of_unguarded (s.endWritten_unguarded none (s.scrAddr c o) bs.length) c]
  exact ⟨_, rfl⟩

@[simp] theorem State.loftM_scrWrite (s : State) (c o : Nat) (bs : List Byte) :
    ((s.scrWrite c o bs).core c).loftM = (s.core c).loftM := by
  obtain ⟨gs, hcore⟩ := s.core_scrWrite c o bs
  rw [hcore]

theorem State.mread_scrWrite (s : State) (c o k n : Nat) (bs : List Byte) :
    mread ((s.scrWrite c o bs).core c).scratch k n = mread (mwrite (s.core c).scratch o bs) k n := by
  obtain ⟨gs, hcore⟩ := s.core_scrWrite c o bs
  rw [hcore]

@[simp] theorem State.scrWrite_offLoft (s : State) (c o : Nat) (bs : List Byte) :
    (s.scrWrite c o bs).offLoft c = s.offLoft c := by
  rw [State.scrWrite, State.updCore_offLoft, State.offLoft_of_unguarded (State.endWritten_unguarded ..)]
  exact fun _ => rfl

theorem State.core_updLoft (s : State) (c : Nat) (f : LoftSt → LoftSt) :
    (s.updLoft c f).core c = { s.core c with loftM := f (s.core c).loftM } := s.core_updCore c _

@[simp] theorem State.loftM_updLoft (s : State) (c : Nat) (f : LoftSt → LoftSt) :
    ((s.updLoft c f).core c).loftM = f (s.core c).loftM := by
  rw [State.core_updLoft]

@[simp] theorem State.updLoft_offLoft (s : State) (c : Nat) (f : LoftSt → LoftSt) : (s.updLoft c f).offLoft c = s.offLoft c :=
  s.updCore_offLoft c fun _ => rfl

section
variable (s : State) (c i : Nat)

@[simp] theorem State.loftM_setEnt (st : Nat) : ((s.setEnt c i st).core c).loftM = (s.core c).loftM := s.loftM_scrWrite c _ _

@[simp] theorem State.setEnt_offLoft (st : Nat) : (s.setEnt c i st).offLoft c = s.offLoft c := s.scrWrite_offLoft c _ _

@[simp] theorem State.loftM_setLoc (ovf : Bool) (page : Nat) : ((s.setLoc c i ovf page).core c).loftM = (s.core c).loftM :=
  s.loftM_scrWrite c _ _

@[simp] theorem State.setLoc_offLoft (ovf : Bool) (page : Nat) : (s.setLoc c i ovf page).offLoft c = s.offLoft c :=
  s.scrWrite_offLoft c _ _

@[simp] theorem State.loftM_hdrAdd (o n : Nat) : ((s.hdrAdd c o n).core c).loftM = (s.core c).loftM := s.loftM_scrWrite c _ _

@[simp] theorem State.hdrAdd_offLoft (o n : Nat) : (s.hdrAdd c o n).offLoft c = s.offLoft c := s.scrWrite_offLoft c _ _

@[simp] theorem State.loftM_loftPeaks : ((s.loftPeaks c).core c).loftM = (s.core c).loftM :=
  (State.loftM_scrWrite _ c _ _).trans (s.loftM_scrWrite c _ _)

@[simp] theorem State.loftPeaks_offLoft : (s.loftPeaks c).offLoft c = s.offLoft c :=
  (State.scrWrite_offLoft _ c _ _).trans (s.scrWrite_offLoft c _ _)

@[simp] theorem State.loftM_dropCopy :
    ((s.dropCopy c i).core c).loftM = { (s.core c).loftM with copies := (s.core c).loftM.copies.filter (fun p => p.entry ≠ i) } :=
  s.loftM_updLoft c _

@[simp] theorem State.dropCopy_offLoft : (s.dropCopy c i).offLoft c = s.offLoft c := s.updLoft_offLoft c _

@[simp] theorem State.loftM_placeEnt (p : Nat) :
    ((s.placeEnt c i p).core c).loftM = { (s.core c).loftM with stamp := ((s.core c).loftM.stamp + 1) % 2 ^ 32 } := by
  simp [State.placeEnt]

@[simp] theorem State.placeEnt_offLoft (p : Nat) : (s.placeEnt c i p).offLoft c = s.offLoft c := by
  simp [State.placeEnt]

end

/-! ### STATE and LOC of an entry (R272) -/

theorem Core.dirAt_of_dirBase {k q : Core} (h : q.loftM.dirBase = k.loftM.dirBase) : q.dirAt = k.dirAt := by
  rw [Core.dirAt, h, Core.dirAt]

theorem Core.entAt_of_dirBase {k q : Core} (h : q.loftM.dirBase = k.loftM.dirBase) (i : Nat) : q.entAt i = k.entAt i := by
  rw [Core.entAt, Core.dirAt_of_dirBase h, Core.entAt]

theorem State.dirAt_scrWrite (s : State) (c o : Nat) (bs : List Byte) : ((s.scrWrite c o bs).core c).dirAt = (s.core c).dirAt :=
  Core.dirAt_of_dirBase (congrArg LoftSt.dirBase (s.loftM_scrWrite c o bs))

theorem State.entAt_scrWrite (s : State) (c i o : Nat) (bs : List Byte) :
    ((s.scrWrite c o bs).core c).entAt i = (s.core c).entAt i :=
  Core.entAt_of_dirBase (congrArg LoftSt.dirBase (s.loftM_scrWrite c o bs)) i

section
variable (s : State) (c i o : Nat) (bs : List Byte)

/-- A write of scratch leaves STATE of an entry that it does not meet. -/
theorem State.entState_scrWrite (h : (s.core c).entAt i + 5 ≤ o ∨ o + bs.length ≤ (s.core c).entAt i + 4) :
    ((s.scrWrite c o bs).core c).entState i = (s.core c).entState i := by
  simp only [Core.entState, Core.scr, State.entAt_scrWrite, State.mread_scrWrite]
  rw [mread_mwrite_other _ _ 1 o bs h]

/-- A write of scratch leaves LOC of an entry that it does not meet. -/
theorem State.entLoc_scrWrite (h : (s.core c).entAt i + 12 ≤ o ∨ o + bs.length ≤ (s.core c).entAt i + 8) :
    ((s.scrWrite c o bs).core c).entLoc i = (s.core c).entLoc i := by
  simp only [Core.entLoc, Core.scr, State.entAt_scrWrite, State.mread_scrWrite]
  rw [mread_mwrite_other _ _ 4 o bs h]

end

/-- STATE of entry i, and the first page of its LOC. -/
def Core.ent (k : Core) (i : Nat) : Nat × Nat := (k.entState i, k.entLoc i)

theorem State.ent_scrWrite (s : State) (c i o : Nat) (bs : List Byte)
    (hstate : (s.core c).entAt i + 5 ≤ o ∨ o + bs.length ≤ (s.core c).entAt i + 4)
    (hloc : (s.core c).entAt i + 12 ≤ o ∨ o + bs.length ≤ (s.core c).entAt i + 8) :
    ((s.scrWrite c o bs).core c).ent i = (s.core c).ent i :=
  Prod.ext (s.entState_scrWrite c i o bs hstate) (s.entLoc_scrWrite c i o bs hloc)

theorem Core.entState_of_ent {k : Core} {i st l : Nat} (h : k.ent i = (st, l)) : k.entState i = st := congrArg Prod.fst h

theorem Core.entLoc_of_ent {k : Core} {i st l : Nat} (h : k.ent i = (st, l)) : k.entLoc i = l := congrArg Prod.snd h

/-- A write of the header leaves every entry alone. -/
theorem State.ent_scrWrite_header (s : State) (c i o : Nat) (bs : List Byte) (h : o + bs.length ≤ (s.core c).dirAt + 64) :
    ((s.scrWrite c o bs).core c).ent i = (s.core c).ent i := by
  have hent : (s.core c).dirAt + 64 ≤ (s.core c).entAt i := Nat.le_add_right _ _
  exact s.ent_scrWrite c i o bs (by omega) (by omega)

theorem State.ent_updLoft (s : State) (c i : Nat) {f : LoftSt → LoftSt} (hf : ∀ m, (f m).dirBase = m.dirBase) :
    ((s.updLoft c f).core c).ent i = (s.core c).ent i := by
  rw [State.core_updLoft]
  simp only [Core.ent, Core.entState, Core.entLoc, Core.entAt, Core.dirAt, hf]
  rfl

theorem State.ent_setEnt_same (s : State) (c i st : Nat) :
    ((s.setEnt c i st).core c).ent i = (st % 256, (s.core c).entLoc i) := by
  refine Prod.ext ?_ (s.entLoc_scrWrite c i _ _ (Or.inr (by rw [length_leBytes]; omega)))
  simp only [Core.ent, Core.entState, Core.scr, State.setEnt, State.entAt_scrWrite, State.mread_scrWrite]
  exact ofLe_mread_mwrite _ _ 1 st

theorem State.entState_setEnt_same (s : State) (c i st : Nat) : ((s.setEnt c i st).core c).entState i = st % 256 :=
  Core.entState_of_ent (s.ent_setEnt_same c i st)

theorem State.ent_setEnt_other (s : State) (c st : Nat) {i e : Nat} (h : e ≠ i) :
    ((s.setEnt c i st).core c).ent e = (s.core c).ent e := by
  have hi : (s.core c).entAt i = (s.core c).dirAt + 64 + 16 * i := rfl
  have he : (s.core c).entAt e = (s.core c).dirAt + 64 + 16 * e := rfl
  have hlen := length_leBytes 1 st
  exact s.ent_scrWrite c e _ _ (by omega) (by omega)

theorem flag_add_mod_pages (ovf : Bool) (page : Nat) : (flag 31 ovf + page) % 256 ^ 4 % 0x100000 = page % 0x100000 := by
  cases ovf <;> simp only [flag, if_true, Bool.false_eq_true, if_false] <;> omega

theorem State.ent_setLoc_same (s : State) (c i : Nat) (ovf : Bool) (page : Nat) :
    ((s.setLoc c i ovf page).core c).ent i = ((s.core c).entState i, page % 0x100000) := by
  refine Prod.ext (s.entState_scrWrite c i _ _ (Or.inl (by omega))) ?_
  simp only [Core.ent, Core.entLoc, Core.scr, State.setLoc, State.entAt_scrWrite, State.mread_scrWrite]
  rw [ofLe_mread_mwrite, flag_add_mod_pages]

theorem State.ent_hdrAdd (s : State) (c e n : Nat) {o : Nat} (h : o ≤ 60) :
    ((s.hdrAdd c o n).core c).ent e = (s.core c).ent e :=
  s.ent_scrWrite_header c e _ _ (by rw [length_leBytes]; omega)

theorem State.ent_loftPeaks (s : State) (c e : Nat) : ((s.loftPeaks c).core c).ent e = (s.core c).ent e :=
  (State.ent_scrWrite_header _ c e _ _ (by rw [length_leBytes, State.dirAt_scrWrite]; omega)).trans
    (s.ent_scrWrite_header c e _ _ (by rw [length_leBytes]; omega))

/-- An entry that is placed is in the loft, at its pages. -/
theorem State.ent_placeEnt_same (s : State) (c i p : Nat) :
    ((s.placeEnt c i p).core c).ent i = (2, p % 0x100000) := by
  unfold State.placeEnt
  dsimp only
  rw [State.ent_loftPeaks, State.ent_scrWrite _ c i _ _ (Or.inl (by omega)) (Or.inl (by omega)), State.ent_setLoc_same,
    State.entState_setEnt_same]

end Sys2Proof.Machine
end

section
/-! The loft manager's copies, releases and configuration (O35). -/

namespace Sys2Proof.Machine

open Sys2Proof

/-! ### Nothing that waits for loft pages -/

/-- Nothing waits for loft pages of core c. -/
def State.loftIdle (s : State) (c : Nat) : Prop := (s.core c).loftM.waitAlloc = [] ∧ (s.core c).loftM.waitRecall = []

/-- When nothing waits for loft pages, pages that have been freed change nothing. -/
theorem State.loftFreed_of_idle {s : State} {c : Nat} (h : s.loftIdle c) : s.loftFreed c = s := by
  obtain ⟨halloc, hrecall⟩ := h
  unfold State.loftFreed
  simp only [halloc, State.tryAllocs, hrecall]

theorem LoftCopy.ne_of_mem_filter {l : List LoftCopy} {e : Nat} : ∀ q ∈ l.filter (fun p => p.entry ≠ e), q.entry ≠ e :=
  fun _ hq => of_decide_eq_true (List.mem_filter.mp hq).2

/-! ### Spills (R279) -/

theorem State.loftM_of_unwritten {s t : State} (h : t.unwritten = s.unwritten) (j : Nat) : (t.core j).loftM = (s.core j).loftM := by
  have e := congrArg (fun k : Core => k.loftM) (State.bare_of_unwritten h j)
  exact e

theorem State.loftIdle_of_unwritten {s t : State} {c : Nat} (h : t.unwritten = s.unwritten) (hs : s.loftIdle c) :
    t.loftIdle c := by
  rw [State.loftIdle, State.loftM_of_unwritten h]
  exact hs

/-- A write of memory does not take back the stop of an access: when none stands after it, none stood before. -/
theorem State.stop_writePiece {s t : State} {w : Acc} {a : Nat} {bs : List PByte} (h : s.writePiece w a bs = some t)
    (ht : t.acc.stop = none) : s.acc.stop = none := by
  have hended : (s.endWritten w.copy a bs.length).acc = s.acc := s.endTouched_acc _ _ _ _
  unfold State.writePiece at h
  dsimp only at h
  split at h
  · cases h
  · split at h
    all_goals cases h
    next st l _ =>
      by_contra hstop
      obtain ⟨v, hv⟩ := Option.ne_none_iff_exists'.mp hstop
      rw [← hended] at hv
      rw [State.writeStk, State.ask_of_stop _ st (l / 256) true v hv, hv] at ht
      exact absurd (hv.symm.trans ht) (Option.some_ne_none v)
    all_goals exact (congrArg AccSt.stop hended).symm.trans ht

theorem State.stop_writePieces {w : Acc} (l : List (Nat × Nat)) :
    ∀ {s : State} {bs : List PByte}, (s.writePieces w l bs).1.acc.stop = none → s.acc.stop = none := by
  induction l with
  | nil => exact fun h => h
  | cons p l ih =>
    intro s bs h
    rw [State.writePieces] at h
    split at h
    next t ht => exact State.stop_writePiece ht (ih h)
    next => exact h

theorem State.stk_withAcc (s : State) (acc : AccSt) (i : Nat) : (s.withAcc acc).stk i = s.stk i := rfl

/-- The entry of a copy to overflow that is made, after the write of its pages in state u. -/
def State.spillEnds (u : State) (c e ovf : Nat) : State :=
  ((((u.dropCopy c e).setEnt c e 4).setLoc c e true ovf).hdrAdd c 4 1).updLoft c (fun m => { m with spills := cnt m.spills 1 })

section
variable (u : State) (c e ovf : Nat)

theorem State.spillEnds_acc : (u.spillEnds c e ovf).acc = u.acc := by
  simp [State.spillEnds, State.hdrAdd, State.setLoc, State.dropCopy]

theorem State.spillEnds_offLoft : (u.spillEnds c e ovf).offLoft c = u.offLoft c := by simp [State.spillEnds]

theorem State.ent_spillEnds : ((u.spillEnds c e ovf).core c).ent e = (4, ovf % 0x100000) := by
  rw [State.spillEnds, State.ent_updLoft, State.ent_hdrAdd _ _ _ _ (by decide), State.ent_setLoc_same,
    State.entState_setEnt_same]
  exact fun _ => rfl

theorem State.loftM_spillEnds : ((u.spillEnds c e ovf).core c).loftM = { (u.core c).loftM with
    copies := (u.core c).loftM.copies.filter (fun p => p.entry ≠ e), spills := cnt (u.core c).loftM.spills 1 } := by
  simp [State.spillEnds]

theorem State.loftIdle_spillEnds (h : u.loftIdle c) : (u.spillEnds c e ovf).loftIdle c := by
  rw [State.loftIdle, State.loftM_spillEnds]
  exact h

end

/-- The manager's read of the loft pages of entry e, which are those of copy p (R323). -/
def State.spillReads (s : State) (c e : Nat) (p : LoftCopy) : State :=
  s.guardRead c (s.loftAddr c (p.page * 4096)) ((s.core c).entPages e * 4096)

/-- The pages of entry e of core k are written to overflow, at the pages of copy p. -/
def State.spillWrites (s : State) (k : Core) (e : Nat) (p : LoftCopy) : State :=
  (s.writeBytes {} (k.loftM.ovfPage p.ovf) (mread k.loft (p.page * 4096) (k.entPages e * 4096))).1

theorem State.spillCopy_eq (s : State) (c e : Nat) (p : LoftCopy) : s.spillCopy c e p
    = (((s.spillReads c e p).spillWrites (s.core c) e p).spillEnds c e p.ovf).loftFreed c := rfl

theorem State.spillReads_unwritten (s : State) (c e : Nat) (p : LoftCopy) : (s.spillReads c e p).unwritten = s.unwritten :=
  State.unwritten_of_unread (s.guardRead_unread c _ _)

theorem State.spillWrites_unwritten (s : State) (k : Core) (e : Nat) (p : LoftCopy) :
    (s.spillWrites k e p).unwritten = s.unwritten := s.writeBytes_unwritten _ _ _

theorem State.stop_spillWrites {s : State} {k : Core} {e : Nat} {p : LoftCopy} (h : (s.spillWrites k e p).acc.stop = none) :
    s.acc.stop = none := by
  rw [State.spillWrites, State.writeBytes, State.writeMem] at h
  exact State.stop_writePieces _ h

/-- A copy to overflow whose pages can be read, when nothing waits for loft pages. -/
theorem State.spillCopy_of_idle {s : State} {c e : Nat} {p : LoftCopy} (hidle : s.loftIdle c)
    (hstop : (s.spillCopy c e p).acc.stop = none) :
    s.spillCopy c e p = (s.spillWrites (s.core c) e p).spillEnds c e p.ovf := by
  have hfreed : s.spillCopy c e p = ((s.spillReads c e p).spillWrites (s.core c) e p).spillEnds c e p.ovf := by
    rw [State.spillCopy_eq, State.loftFreed_of_idle]
    exact State.loftIdle_spillEnds _ c e p.ovf
      (State.loftIdle_of_unwritten ((State.spillWrites_unwritten ..).trans (s.spillReads_unwritten c e p)) hidle)
  rw [hfreed, State.spillEnds_acc] at hstop
  have hread : s.spillReads c e p = s := State.guardRead_eq_self (State.stop_spillWrites hstop)
  rw [hfreed, hread]

theorem exec_loftSpillDone_served {s : State} {c e : Nat} {p : LoftCopy} (hruns : s.coreRuns c = true) (hidle : s.loftIdle c)
    (hfind : (s.core c).loftM.copies.find? (fun p => p.entry == e && !p.isRecall) = some p)
    (hserved : s.coreServed c (fun s => s.spillCopy c e p) = true) : exec (.loftSpillDone c e) s
    = .next ((((s.withAcc (s.agent c)).spillWrites (s.core c) e p).spillEnds c e p.ovf).withAcc s.acc) := by
  have hstop := State.stop_of_coreServed (f := fun s => s.spillCopy c e p) hserved
  have hspill := State.spillCopy_of_idle (s := s.withAcc (s.agent c)) hidle hstop
  rw [hspill, State.core_withAcc] at hstop
  rw [State.core_withAcc] at hspill
  refine congrArg Host.Outcome.next (State.access_of_stop_none ?_ hstop)
  have hfind' : ((s.withAcc (s.agent c)).core c).loftM.copies.find? (fun p => p.entry == e && !p.isRecall) = some p := hfind
  simp only [hfind']
  exact (if_pos hruns).trans hspill

/-! ### Recalls (R281) -/

/-- Entry i, whose recall is first to wait, with its copy on its way to the loft pages from page p on. -/
def State.recallStarts (s : State) (c i p : Nat) (rest : List Nat) : State :=
  ((s.setEnt c i 5).updLoft c (fun m => { m with
    waitRecall := rest,
    copies := m.copies ++ [{ entry := i, ovf := (s.core c).entLoc i, page := p, isRecall := true }] })).loftPeaks c

theorem exec_loftRecallStart_fits {s : State} {c i p : Nat} {rest : List Nat} (hruns : s.coreRuns c = true)
    (hwait : (s.core c).loftM.waitRecall = i :: rest) (hrun : (s.core c).loftRun ((s.core c).entPages i) = some p) :
    exec (.loftRecallStart c) s = .next (s.recallStarts c i p rest) := by
  refine congrArg Host.Outcome.next ?_
  simp only [hwait, hruns, Bool.not_true, Bool.false_eq_true, if_false, hrun]
  rfl

section
variable (s : State) (c i p : Nat) (rest : List Nat)

theorem State.recallStarts_offLoft : (s.recallStarts c i p rest).offLoft c = s.offLoft c := by simp [State.recallStarts]

theorem State.entState_recallStarts : ((s.recallStarts c i p rest).core c).entState i = 5 := by
  refine Core.entState_of_ent (l := (s.core c).entLoc i) ?_
  rw [State.recallStarts, State.ent_loftPeaks, State.ent_updLoft, State.ent_setEnt_same]
  exact fun _ => rfl

theorem State.loftM_recallStarts : ((s.recallStarts c i p rest).core c).loftM = { (s.core c).loftM with
    waitRecall := rest,
    copies := (s.core c).loftM.copies ++ [{ entry := i, ovf := (s.core c).entLoc i, page := p, isRecall := true }] } := by
  simp [State.recallStarts]

end

theorem State.core_loftWrite (s : State) (c o : Nat) (bs : List Byte) : ∃ gs, (s.loftWrite c o bs).core c
    = { s.core c with loft := mwrite (s.core c).loft o bs, guards := gs } := by
  rw [State.loftWrite, State.core_updCore, State.endLoftGuards, State.core_of_unguarded (s.endGuards_unguarded c _) c]
  exact ⟨_, rfl⟩

/-- The entry of a copy back into the loft that is made, after the write of its pages in state u. -/
def State.recallEnds (u : State) (c e page : Nat) : State :=
  (((u.dropCopy c e).placeEnt c e page).hdrAdd c 8 1).updLoft c (fun m => { m with recalls := cnt m.recalls 1 })

section
variable (u : State) (c e page : Nat)

theorem State.recallEnds_offLoft : (u.recallEnds c e page).offLoft c = u.offLoft c := by simp [State.recallEnds]

theorem State.ent_recallEnds : ((u.recallEnds c e page).core c).ent e = (2, page % 0x100000) := by
  rw [State.recallEnds, State.ent_updLoft, State.ent_hdrAdd _ _ _ _ (by decide), State.ent_placeEnt_same]
  exact fun _ => rfl

theorem State.loftM_recallEnds : ((u.recallEnds c e page).core c).loftM = { (u.core c).loftM with
    copies := (u.core c).loftM.copies.filter (fun p => p.entry ≠ e), stamp := ((u.core c).loftM.stamp + 1) % 2 ^ 32,
    recalls := cnt (u.core c).loftM.recalls 1 } := by
  simp [State.recallEnds]

end

theorem exec_loftRecallDone_served {s : State} {c e : Nat} {p : LoftCopy} (hruns : s.coreRuns c = true)
    (hfind : (s.core c).loftM.copies.find? (fun p => p.entry == e && p.isRecall) = some p)
    (hserved : s.coreServed c (fun s => s.recallCopy c e p) = true) : exec (.loftRecallDone c e) s
    = .next (((s.withAcc (s.agent c)).recallCopy c e p).withAcc s.acc) := by
  refine congrArg Host.Outcome.next (State.access_of_stop_none ?_
    (State.stop_of_coreServed (f := fun s => s.recallCopy c e p) hserved))
  have hfind' : ((s.withAcc (s.agent c)).core c).loftM.copies.find? (fun p => p.entry == e && p.isRecall) = some p := hfind
  simp only [hfind']
  exact if_pos hruns

/-- The core after a copy back into the loft, before its entry is changed. -/
theorem State.core_recallCopy (s : State) (c e : Nat) (p : LoftCopy) : ∃ u : State, s.recallCopy c e p = u.recallEnds c e p.page
    ∧ (u.core c).loftM = (s.core c).loftM ∧ (u.core c).loft = mwrite (s.core c).loft (p.page * 4096)
        (s.readBytes ((s.core c).loftM.ovfPage p.ovf) ((s.core c).entPages e * 4096)).2 := by
  refine ⟨_, rfl, ?_⟩
  obtain ⟨gs, hcore⟩ := State.core_loftWrite
    (s.readBytes ((s.core c).loftM.ovfPage p.ovf) ((s.core c).entPages e * 4096)).1 c (p.page * 4096)
    (s.readBytes ((s.core c).loftM.ovfPage p.ovf) ((s.core c).entPages e * 4096)).2
  rw [hcore, State.core_readBytes]
  exact ⟨rfl, rfl⟩

/-! ### Releases (R296, log entry 47) -/

/-- A release that names entry i. -/
def State.releaseEnt (s : State) (c i : Nat) : State :=
  if (s.core c).pinned i then s.updCore c (fun k => { k with wrIgn := true })
  else if !([2, 4, 6].contains ((s.core c).entState i)) then s
  else s.freeEnt c i

theorem State.loftReleaseAll_cons (s : State) (c i : Nat) (l : List Nat) :
    s.loftReleaseAll c (i :: l) = (s.releaseEnt c i).loftReleaseAll c l := rfl

/-- Whether a release can empty entry e of a core: it is in the loft, in overflow or dropped, and not pinned. -/
def Core.releasable (k : Core) (e : Nat) : Bool := [2, 4, 6].contains (k.entState e) && !(k.pinned e)

/-- State t after a release that names the entries of l in state s. -/
structure State.Released (s : State) (c : Nat) (l : List Nat) (t : State) : Prop where
  idle : t.loftIdle c
  offLoft : t.offLoft c = s.offLoft c
  entState : ∀ e, (t.core c).entState e = if e ∈ l ∧ (s.core c).releasable e = true then 0 else (s.core c).entState e
  wrIgn : (t.core c).wrIgn = ((s.core c).wrIgn || l.any (s.core c).pinned)

theorem State.pinned_of_offLoft {s t : State} {c : Nat} (h : t.offLoft c = s.offLoft c) : (t.core c).pinned = (s.core c).pinned := by
  unfold Core.pinned
  rw [State.arr_of_offLoft h]

theorem State.wrIgn_of_units {s t : State} (h : t.units = s.units) (j : Nat) : (t.core j).wrIgn = (s.core j).wrIgn := by
  have e := congrArg (fun k : Core => k.wrIgn) (State.still_of_units h j)
  exact e

/-- Entry i with STATE EMPTY, and without a recall. -/
def State.emptied (s : State) (c i : Nat) : State :=
  (s.setEnt c i 0).updLoft c (fun m => { m with waitRecall := m.waitRecall.filter (· ≠ i) })

theorem State.loftIdle_emptied {s : State} {c : Nat} (h : s.loftIdle c) (i : Nat) : (s.emptied c i).loftIdle c := by
  obtain ⟨halloc, hrecall⟩ := h
  rw [State.loftIdle, State.emptied, State.loftM_updLoft, State.loftM_setEnt]
  exact ⟨halloc, congrArg (List.filter (· ≠ i)) hrecall⟩

theorem State.freeEnt_of_idle {s : State} {c : Nat} (h : s.loftIdle c) (i : Nat) : s.freeEnt c i = s.emptied c i :=
  State.loftFreed_of_idle (State.loftIdle_emptied h i)

theorem State.entState_emptied (s : State) (c i e : Nat) :
    ((s.emptied c i).core c).entState e = if e = i then 0 else (s.core c).entState e := by
  have hent : ((s.emptied c i).core c).ent e = ((s.setEnt c i 0).core c).ent e := State.ent_updLoft _ c e fun _ => rfl
  rw [Core.entState_of_ent hent]
  split
  next he => rw [he, State.entState_setEnt_same]
  next he => exact Core.entState_of_ent (s.ent_setEnt_other c 0 he)

theorem State.released_freeEnt {s : State} {c i : Nat} (h : s.loftIdle c) (hfree : (s.core c).releasable i = true) :
    s.Released c [i] (s.freeEnt c i) where
  idle := State.freeEnt_of_idle h i ▸ State.loftIdle_emptied h i
  offLoft := by rw [State.freeEnt_of_idle h, State.emptied, State.updLoft_offLoft, State.setEnt_offLoft]
  entState := by
    intro e
    rw [State.freeEnt_of_idle h, State.entState_emptied]
    exact if_congr ⟨fun he => ⟨List.mem_singleton.mpr he, he ▸ hfree⟩, fun he => List.mem_singleton.mp he.1⟩ rfl rfl
  wrIgn := by
    have hpin : (s.core c).pinned i = false := by simpa using (Bool.and_eq_true_iff.mp hfree).2
    simp [State.wrIgn_of_units (s.freeEnt_units c i), hpin]

theorem State.released_releaseEnt {s : State} {c : Nat} (h : s.loftIdle c) (i : Nat) : s.Released c [i] (s.releaseEnt c i) := by
  have hkeep (hfree : (s.core c).releasable i = false) (e : Nat) : (s.core c).entState e
      = if e ∈ [i] ∧ (s.core c).releasable e = true then 0 else (s.core c).entState e := by
    refine (if_neg ?_).symm
    rintro ⟨hmem, he⟩
    rw [List.mem_singleton.mp hmem, hfree] at he
    cases he
  unfold State.releaseEnt
  by_cases hpin : (s.core c).pinned i = true
  · rw [if_pos hpin]
    refine ⟨?_, s.updCore_offLoft c fun _ => rfl, ?_, ?_⟩
    · rw [State.loftIdle, State.core_updCore]
      exact h
    · rw [State.core_updCore]
      exact hkeep (by rw [Core.releasable, hpin, Bool.not_true, Bool.and_false])
    · rw [State.core_updCore, List.any_cons, hpin, Bool.true_or, Bool.or_true]
  · rw [if_neg hpin]
    split
    next hstate =>
      refine ⟨h, rfl, hkeep ?_, ?_⟩
      · rw [Core.releasable, Bool.eq_false_of_not_eq_true' hstate, Bool.false_and]
      · simp [Bool.eq_false_iff.mpr hpin]
    next hstate =>
      refine State.released_freeEnt h ?_
      rw [Core.releasable, Bool.eq_false_iff.mpr hpin, Bool.not_false, Bool.and_true]
      exact (Bool.not_not _).symm.trans (congrArg not (Bool.eq_false_iff.mpr hstate))

/-- Two releases after each other release what either names. -/
theorem State.Released.trans {s t u : State} {c : Nat} {l l' : List Nat} (h : s.Released c l t) (h' : t.Released c l' u) :
    s.Released c (l ++ l') u := by
  have hpin := State.pinned_of_offLoft h.offLoft
  refine ⟨h'.idle, h'.offLoft.trans h.offLoft, fun e => ?_, ?_⟩
  · rw [h'.entState, Core.releasable, hpin, h.entState]
    by_cases he : e ∈ l ∧ (s.core c).releasable e = true
    · rw [if_pos he, ite_self, if_pos ⟨List.mem_append_left l' he.1, he.2⟩]
    · rw [if_neg he]
      refine if_congr ?_ rfl rfl
      change e ∈ l' ∧ (s.core c).releasable e = true ↔ _
      rw [List.mem_append]
      tauto
  · rw [h'.wrIgn, h.wrIgn, hpin, List.any_append, Bool.or_assoc]

theorem State.released_loftReleaseAll (c : Nat) (l : List Nat) :
    ∀ {s : State}, s.loftIdle c → s.Released c l (s.loftReleaseAll c l) := by
  induction l with
  | nil => exact fun h => ⟨h, rfl, fun _ => (if_neg fun hmem => List.not_mem_nil hmem.1).symm, (Bool.or_false _).symm⟩
  | cons i l ih =>
    intro s h
    rw [State.loftReleaseAll_cons]
    have hi := State.released_releaseEnt h i
    exact hi.trans (ih hi.idle)

theorem State.released_loftRel {s : State} {c : Nat} (hwin : s.coreWin c = true) (h : s.loftIdle c) (v : Nat) :
    s.Released c (if bit 8 v then List.range 256 else [v % 256]) (s.loftRel c v) := by
  obtain ⟨hidle, hoff, hent, hign⟩ := State.released_loftReleaseAll c (if bit 8 v then List.range 256 else [v % 256]) h
  rw [State.loftRel, hwin, Bool.not_true, if_neg Bool.false_ne_true]
  refine ⟨?_, (State.updCore_offLoft _ c fun k => ?_).trans hoff, ?_, ?_⟩
  · rw [State.loftIdle, State.core_updCore, Core.poke_eq]
    exact hidle
  · rw [Core.poke_eq]
    rfl
  · rw [State.core_updCore, Core.poke_eq]
    exact hent
  · rw [State.core_updCore, Core.wrIgn_poke, hign]

/-- The entries that a write of v to LOFT_RELEASE names. -/
theorem mem_named {v e : Nat} : e ∈ (if bit 8 v then List.range 256 else [v % 256])
    ↔ e < 256 ∧ (v.testBit 8 = true ∨ e = v % 256) := by
  rw [bit]
  split
  next h => simp [h]
  next h =>
    rw [List.mem_singleton]
    exact ⟨fun he => ⟨by omega, Or.inr he⟩, fun he => he.2.resolve_left h⟩

theorem Core.releasable_iff {k : Core} {e : Nat} : k.releasable e = true
    ↔ (k.entState e = 2 ∨ k.entState e = 4 ∨ k.entState e = 6) ∧ k.pinned e = false := by
  simp [Core.releasable]

/-! ### The configuration (R295, R296) -/

theorem Core.loftConfig_live {k : Core} (h : k.loftLive = true) (off v : Nat) : k.loftConfig off v = { k with wrIgn := true } :=
  if_pos h

theorem Core.loftConfig_free {k : Core} (h : ¬k.loftLive = true) (off v : Nat) :
    k.loftConfig off v = { k with loftM := k.loftM.config off v } := if_neg h

theorem Core.scratch_loftConfig (k : Core) (off v : Nat) : (k.loftConfig off v).scratch = k.scratch := by
  unfold Core.loftConfig
  split <;> rfl

theorem LoftSt.copies_config (l : LoftSt) (off v : Nat) : (l.config off v).copies = l.copies := by
  unfold LoftSt.config
  split <;> rfl

/-! ### The statement -/

/-- Settles O35: a copy's end and a recall's start rewrite one entry of the directory and the header, a release is the release of
each entry it names, and a configuration write is a write of the core's window. -/
theorem loftManager : Obligations.LoftManager := by
  unfold Obligations.LoftManager
  intro c s
  refine ⟨fun e p hruns halloc hrecall hfind hserved => ?_, fun i p rest hruns hwait hrun => ?_,
    fun e p hruns hfind hserved => ?_, fun v hwin halloc hrecall => ?_, fun off hoff v hwin => ?_⟩
  · refine ⟨_, exec_loftSpillDone_served hruns ⟨halloc, hrecall⟩ hfind hserved, ?_⟩
    generalize hu : (s.withAcc (s.agent c)).spillWrites (s.core c) e p = u
    have hloftM : (u.core c).loftM = (s.core c).loftM := hu ▸ State.loftM_of_unwritten (State.spillWrites_unwritten ..) c
    have hent := u.ent_spillEnds c e p.ovf
    have hmem := State.mem_of_offLoft (u.spillEnds_offLoft c e p.ovf)
    rw [State.core_withAcc, State.loftM_spillEnds, hloftM]
    refine ⟨Core.entState_of_ent hent, Core.entLoc_of_ent hent, LoftCopy.ne_of_mem_filter, rfl, fun st => ?_⟩
    rw [State.stk_withAcc, hmem, ← hu]
    rfl
  · refine ⟨_, exec_loftRecallStart_fits hruns hwait hrun, s.entState_recallStarts c i p rest, ?_⟩
    have hoff := s.recallStarts_offLoft c i p rest
    rw [State.loftM_recallStarts]
    exact ⟨rfl, rfl, State.loft_of_offLoft hoff, State.mem_of_offLoft hoff⟩
  · refine ⟨_, exec_loftRecallDone_served hruns hfind hserved, ?_⟩
    obtain ⟨u, hu, hloftM, hloft⟩ := (s.withAcc (s.agent c)).core_recallCopy c e p
    have hent := u.ent_recallEnds c e p.page
    rw [State.core_withAcc, hu, State.loftM_recallEnds, hloftM, State.loft_of_offLoft (u.recallEnds_offLoft c e p.page), hloft]
    exact ⟨Core.entState_of_ent hent, Core.entLoc_of_ent hent, LoftCopy.ne_of_mem_filter, rfl, rfl⟩
  · intro all i named full
    obtain ⟨-, hoff, hent, hign⟩ := State.released_loftRel hwin ⟨halloc, hrecall⟩ v.toNat
    refine ⟨s.loftRel c v.toNat, ?_, fun e he hnamed hfull hpin => ?_, fun e he hkept => ?_, ?_, fun hfree => ?_,
      (State.streams_of_offLoft hoff).1, (State.streams_of_offLoft hoff).2, State.cell_of_offLoft hoff,
      fun j hj => State.core_of_offLoft hoff hj⟩
    · cases hall : all
      · exact congrArg (exec · s) (if_neg (by rw [hall]; exact Bool.false_ne_true))
      · exact congrArg (exec · s) (if_pos hall)
    · rw [hent, if_pos ⟨mem_named.mpr ⟨he, hnamed⟩, Core.releasable_iff.mpr ⟨hfull, hpin⟩⟩]
    · rw [hent, if_neg]
      rintro ⟨hmem, hrel⟩
      obtain ⟨hfull, hpin⟩ := Core.releasable_iff.mp hrel
      rcases hkept with hnot | hnot | hpin'
      · exact hnot (mem_named.mp hmem).2
      · exact hnot hfull
      · exact Bool.eq_false_iff.mp hpin hpin'
    · rintro ⟨e, he, hnamed, hpin⟩
      rw [hign, List.any_eq_true.mpr ⟨e, mem_named.mpr ⟨he, hnamed⟩, hpin⟩, Bool.or_true]
    · rw [hign, List.any_eq_false.mpr, Bool.or_false]
      intro e hmem
      obtain ⟨he, hnamed⟩ := mem_named.mp hmem
      exact Bool.eq_false_iff.mp (hfree e he hnamed)
  · refine ⟨_, congrArg Host.Outcome.next (if_pos (List.contains_iff_mem.mpr hoff)), s.coreWrite_eq c _,
      fun j hj => s.core_coreWrite_other c _ hj, ?_⟩
    rw [State.core_coreWrite hwin, Core.poke_eq]
    refine ⟨Core.scratch_loftConfig _ off v.toNat, ?_⟩
    split
    next hlive =>
      rw [Core.loftConfig_live hlive]
      exact ⟨rfl, rfl⟩
    next hlive =>
      rw [Core.loftConfig_free hlive]
      refine ⟨rfl, LoftSt.copies_config _ off v.toNat, ?_, ?_, ?_, ?_, ?_⟩
      all_goals rintro rfl
      · exact ⟨fld_21_6 _, rfl⟩
      all_goals rfl

end Sys2Proof.Machine
end

section
/-! The sorter of a stack: what requests leave alone as they go on, and what becomes of a request that reaches it (O36). -/

namespace Sys2Proof.Machine

open Sys2Proof

/-! ### What requests leave alone as they go on (R312 to R314, R325) -/

/-- The stacks, with f of stack st in its place: when f leaves out what a command changes, what the command leaves alone. -/
def State.offStk (s : State) (f : Stack → Stack) (st : Nat) : Nat → Stack := fun j => if j = st then f (s.stk j) else s.stk j

section
variable {s t : State} {f : Stack → Stack} {st : Nat}

theorem State.stk_of_offStk (h : t.offStk f st = s.offStk f st) {j : Nat} (hj : j ≠ st) : t.stk j = s.stk j := by
  simpa only [State.offStk, if_neg hj] using congrFun h j

theorem State.kept_of_offStk (h : t.offStk f st = s.offStk f st) : f (t.stk st) = f (s.stk st) := by
  simpa only [State.offStk, if_true] using congrFun h st

theorem State.offStk_eq (hst : f (t.stk st) = f (s.stk st)) (hother : ∀ j, j ≠ st → t.stk j = s.stk j) :
    t.offStk f st = s.offStk f st := by
  funext j
  by_cases hj : j = st
  · rw [State.offStk, State.offStk, if_pos hj, if_pos hj, hj, hst]
  · rw [State.offStk, State.offStk, if_neg hj, if_neg hj, hother j hj]

theorem State.setStk_offStk {u : Stack} (h : f u = f (s.stk st)) : (s.setStk st u).offStk f st = s.offStk f st :=
  State.offStk_eq (by rw [State.stk_setStk, h]) fun _ => s.stk_setStk_other st u

theorem State.updStk_offStk (s : State) (st : Nat) {g : Stack → Stack} (h : ∀ u : Stack, f (g u) = f u) :
    (s.updStk st g).offStk f st = s.offStk f st := State.setStk_offStk (h _)

end

@[simp] theorem State.offStk_ite (p : Prop) [Decidable p] (s t : State) (f st) :
    (if p then s else t).offStk f st = if p then s.offStk f st else t.offStk f st :=
  apply_ite (fun u : State => u.offStk f st) p s t

/-- A stack without what requests change as they go on. -/
def Stack.unasked (t : Stack) : Stack :=
  { t with state := .off, slots := [], occPeak := 0, bankHolds := 0, heldReqs := [], meshQ := [], srcQ := [], waiters := [],
           responses := [], genDrops := 0 }

/-- What requests to stack st change neither in it nor in the other stacks as they go on. -/
abbrev State.offSorter (s : State) (st : Nat) : Nat → Stack := s.offStk Stack.unasked st

theorem State.mem_of_offSorter {s t : State} {st : Nat} (h : t.offSorter st = s.offSorter st) :
    (t.stk st).mem = (s.stk st).mem := by
  have e := congrArg (fun u : Stack => u.mem) (State.kept_of_offStk h)
  exact e

theorem State.cores_of_unqueued {s t : State} (h : t.unqueued = s.unqueued) : t.cores = s.cores := by
  have e := congrArg (fun u : State => u.cores) h
  exact e

@[simp] theorem State.updCtx_offSorter (s : State) (c f st) : (s.updCtx c f).offSorter st = s.offSorter st := rfl

@[simp] theorem State.respond_offSorter (s : State) (st r) : (s.respond st r).offSorter st = s.offSorter st :=
  s.updStk_offStk st fun _ => rfl

@[simp] theorem State.inMesh_offSorter (s : State) (st q) : (s.inMesh st q).offSorter st = s.offSorter st :=
  s.updStk_offStk st fun _ => rfl

@[simp] theorem State.inSource_offSorter (s : State) (st q) : (s.inSource st q).offSorter st = s.offSorter st :=
  s.updStk_offStk st fun _ => rfl

@[simp] theorem State.wakeStk_offSorter (s : State) (st) : (s.wakeStk st).offSorter st = s.offSorter st := by
  unfold State.wakeStk
  split
  · exact s.updStk_offStk st fun _ => rfl
  · rfl

@[simp] theorem State.takeReq_offSorter (s : State) (st q) : (s.takeReq st q).offSorter st = s.offSorter st := by
  unfold State.takeReq
  dsimp only
  split
  · exact (State.respond_offSorter _ _ _).trans (State.setStk_offStk rfl)
  · exact State.setStk_offStk rfl

@[simp] theorem State.bankHold_offSorter (s : State) (st q) : (s.bankHold st q).offSorter st = s.offSorter st :=
  (State.respond_offSorter _ _ _).trans (State.setStk_offStk rfl)

@[simp] theorem State.sorter_offSorter (s : State) (st q) : (s.sorter st q).offSorter st = s.offSorter st := by
  have hdrop : (s.updStk st fun t => { t with genDrops := cnt t.genDrops 1 }).offSorter st = s.offSorter st :=
    s.updStk_offStk st fun _ => rfl
  simp [State.sorter, hdrop]

@[simp] theorem State.arriveAll_offSorter (s : State) (st l) : (s.arriveAll st l).offSorter st = s.offSorter st := by
  induction l generalizing s with
  | nil => rfl
  | cons q t ih => simp [State.arriveAll, ih]

@[simp] theorem State.submitAll_offSorter (s : State) (st l) : (s.submitAll st l).offSorter st = s.offSorter st := by
  induction l generalizing s with
  | nil => rfl
  | cons q t ih => simp [State.submitAll, ih]

@[simp] theorem State.pump_offSorter (s : State) (st) : (s.pump st).offSorter st = s.offSorter st := by
  have hmesh : (s.updStk st fun t => { t with meshQ := [] }).offSorter st = s.offSorter st := s.updStk_offStk st fun _ => rfl
  have hsrc (u : State) : (u.updStk st fun t => { t with srcQ := [] }).offSorter st = u.offSorter st :=
    u.updStk_offStk st fun _ => rfl
  simp only [State.pump, State.submitAll_offSorter, hsrc, State.arriveAll_offSorter, hmesh]

@[simp] theorem State.resendAll_offSorter (s : State) (st l) : (s.resendAll st l).offSorter st = s.offSorter st :=
  (State.arriveAll_offSorter _ _ _).trans (s.updStk_offStk st fun _ => rfl)

@[simp] theorem State.resendAll_unqueued (s : State) (st l) : (s.resendAll st l).unqueued = s.unqueued :=
  State.arriveAll_unqueued _ _ _

/-- Requests that go on leave a stack's memory, the other stacks and the cores as they are. -/
theorem State.rest_of_goOn {s t : State} {st : Nat} (hstks : t.offSorter st = s.offSorter st) (hoff : t.unqueued = s.unqueued) :
    (t.stk st).mem = (s.stk st).mem ∧ (∀ j, j ≠ st → t.stk j = s.stk j) ∧ t.cores = s.cores :=
  ⟨State.mem_of_offSorter hstks, fun _ hj => State.stk_of_offStk hstks hj, State.cores_of_unqueued hoff⟩

/-! ### Nothing that waits (R313, R314) -/

theorem State.setStk_stk_setStk (s : State) (st : Nat) (t u : Stack) : (s.setStk st t).setStk st u = s.setStk st u := by
  simp [State.setStk]

/-- With nothing in the mesh and in the sources, nothing goes on. -/
theorem State.pump_idle {s : State} {st : Nat} (hmesh : (s.stk st).meshQ = []) (hsrc : (s.stk st).srcQ = []) :
    s.pump st = s.setStk st (s.stk st) := by
  have hnone : ({ s.stk st with meshQ := [], srcQ := [] } : Stack) = s.stk st :=
    congrArg₂ (fun m q => ({ s.stk st with meshQ := m, srcQ := q } : Stack)) hmesh.symm hsrc.symm
  unfold State.pump
  simp only [hmesh, State.arriveAll, State.stk_updStk, hsrc, State.submitAll]
  rw [State.updStk, State.updStk, State.setStk_stk_setStk, State.stk_setStk]
  exact congrArg (s.setStk st) hnone

/-! ### Queues with room (R18, R24) -/

theorem Queue.not_credit_iff (q : Queue) (n : Nat) : (!(q.credit n)) = true ↔ q.depth ≤ n := by simp [Queue.credit]

/-! ### A request that reaches the sorter (R306, R312, R313, R317, R325) -/

section
variable {s : State} {st : Nat} {q : StackReq}

theorem State.sorter_fault (hstate : (s.stk st).state = .fault) : s.sorter st q = s.respond st (faultAnswer q) := if_pos hstate

theorem State.sorter_waits (hfault : (s.stk st).state ≠ .fault)
    (hwait : (s.stk st).state ≠ .ready ∨ 6144 ≤ (s.stk st).slots.length) : s.sorter st q = s.inMesh st q := by
  unfold State.sorter
  dsimp only
  rw [if_neg hfault, if_pos (hwait.imp_right (Queue.not_credit_iff _ _).mpr)]

variable (hready : (s.stk st).state = .ready) (hslots : (s.stk st).slots.length < 6144)
include hready hslots

/-- A stack that is ready and has a slot looks at the bank and the generation. -/
theorem State.sorter_ready : s.sorter st q =
    if 48 ≤ ((s.stk st).bankSlots (blkBank q.block)).length then s.bankHold st q
    else if q.ctx ≠ 0xFFF ∧ sget 0 (s.stk st).gens q.ctx ≠ q.gen then
      (s.updStk st (fun t => { t with genDrops := cnt t.genDrops 1 })).updCtx q.ctx (fun c => { c with drops := cnt c.drops 1 })
    else s.takeReq st q := by
  have hslot : ¬Queue.sorter.depth ≤ (s.stk st).slots.length := Nat.not_le_of_lt hslots
  simp only [State.sorter, hready, Queue.not_credit_iff, hslot, reduceCtorEq, ne_eq, not_true_eq_false, or_self, if_false]
  rfl

theorem State.sorter_bankFull (hfull : ¬((s.stk st).bankSlots (blkBank q.block)).length < 48) :
    s.sorter st q = s.bankHold st q := by
  rw [State.sorter_ready hready hslots, if_pos (Nat.le_of_not_lt hfull)]

variable (hroom : ((s.stk st).bankSlots (blkBank q.block)).length < 48)
include hroom

theorem State.sorter_stale (hstale : ¬(q.ctx = 0xFFF ∨ sget 0 (s.stk st).gens q.ctx = q.gen)) : s.sorter st q =
    (s.updStk st (fun t => { t with genDrops := cnt t.genDrops 1 })).updCtx q.ctx (fun c => { c with drops := cnt c.drops 1 }) := by
  rw [State.sorter_ready hready hslots, if_neg (Nat.not_le_of_lt hroom), if_pos (not_or.mp hstale)]

theorem State.sorter_takes (hfresh : q.ctx = 0xFFF ∨ sget 0 (s.stk st).gens q.ctx = q.gen) : s.sorter st q = s.takeReq st q := by
  rw [State.sorter_ready hready hslots, if_neg (Nat.not_le_of_lt hroom), if_neg (fun h => hfresh.elim h.1 h.2)]

end

/-- The slot of a request that a stack admits at a keel tick (R317). -/
def Stack.slotFor (t : Stack) (now : Nat) (q : StackReq) : Slot := { req := q, at' := now, acked := q.write && t.ackNow q.block }

/-- A stack that has admitted a request holds it in a slot, and has acknowledged a write that no range may hold (R312, R317). -/
theorem State.stk_takeReq (s : State) (st : Nat) (q : StackReq) : (s.takeReq st q).stk st =
    { s.stk st with
      slots := (s.stk st).slots ++ [(s.stk st).slotFor s.env.ticks q]
      occPeak := Nat.max (s.stk st).occPeak ((s.stk st).slots.length + 1)
      responses := (s.stk st).responses ++ (if q.write && (s.stk st).ackNow q.block then [.ack q.src q.tag []] else []) } := by
  unfold State.takeReq
  dsimp only
  split
  next hack => simp [State.respond, Stack.slotFor, hack]
  next hack => simp [Stack.slotFor, hack]

theorem State.stk_bankHold (s : State) (st : Nat) (q : StackReq) : (s.bankHold st q).stk st =
    { s.stk st with
      bankHolds := cnt (s.stk st).bankHolds 1
      heldReqs := (s.stk st).heldReqs ++ [q]
      waiters := if (s.stk st).waiters.contains (blkBank q.block, q.src) then (s.stk st).waiters
        else (s.stk st).waiters ++ [(blkBank q.block, q.src)]
      responses := (s.stk st).responses ++ [.hold q.src q.tag (blkBank q.block)] } := by
  simp [State.bankHold, State.respond]

theorem State.mem_waiters_bankHold (s : State) (st : Nat) (q : StackReq) :
    (blkBank q.block, q.src) ∈ ((s.bankHold st q).stk st).waiters := by
  rw [State.stk_bankHold]
  dsimp only
  split
  next h => exact List.contains_iff_mem.mp h
  next => exact List.mem_append_right _ (List.mem_singleton.mpr rfl)

/-! ### Requests one by one -/

section
variable {s : State} {st : Nat} {q : StackReq}

theorem State.arriveAll_first (hmesh : (s.stk st).meshQ = []) : s.arriveAll st [q] = s.sorter st q := by
  simp [State.arriveAll, hmesh]

theorem State.arriveAll_behind (hmesh : (s.stk st).meshQ ≠ []) : s.arriveAll st [q] = s.inMesh st q := by
  simp [State.arriveAll, hmesh]

/-- Whether a request waits in its source (R314, R488). -/
def State.waitsAtSource (s : State) (st : Nat) (q : StackReq) : Bool :=
  s.rig.holds.ileave || !(s.mayAsk st q.src (blkBank q.block))
    || (s.stk st).srcQ.any (fun r => r.src == q.src && blkBank r.block == blkBank q.block)

theorem State.submitAll_one (s : State) (st : Nat) (q : StackReq) : s.submitAll st [q] =
    if s.waitsAtSource st q then s.inSource st q else (s.wakeStk st).arriveAll st [q] := by
  rw [State.submitAll, State.submitAll, State.waitsAtSource, Bool.or_right_comm]

section
variable (hst : st < 16) (hon : (s.stk st).powered = true) (hblock : q.block < stackBlocks)
include hst hon hblock

theorem exec_stackRequest_eq : exec (.stackRequest st q) s = .next (s.submitAll st [q]) :=
  congrArg Host.Outcome.next (if_neg (by simp [hst, hon, hblock]))

theorem exec_stackRequest_waits (hwaits : s.waitsAtSource st q = true) : exec (.stackRequest st q) s = .next (s.inSource st q) := by
  rw [exec_stackRequest_eq hst hon hblock, State.submitAll_one, if_pos hwaits]

theorem exec_stackRequest_goes (hgoes : s.waitsAtSource st q = false) :
    exec (.stackRequest st q) s = .next ((s.wakeStk st).arriveAll st [q]) := by
  rw [exec_stackRequest_eq hst hon hblock, State.submitAll_one, if_neg (Bool.eq_false_iff.mp hgoes)]

end

theorem exec_stackRequest_off (hon : (s.stk st).powered = false) : exec (.stackRequest st q) s = .next s := by
  refine congrArg Host.Outcome.next (if_pos ?_)
  simp [hon]

end

/-! ### Waking (R328) -/

/-- A stack that a request has woken. -/
def Stack.awake (t : Stack) : Stack := if t.state = .selfRefresh then { t with state := .ready } else t

theorem Stack.awake_with (t : Stack) : ∃ x, t.awake = { t with state := x } := by
  unfold Stack.awake
  split
  · exact ⟨.ready, rfl⟩
  · exact ⟨t.state, rfl⟩

/-- A stack that is ready, or sleeps, is ready once it has been woken. -/
theorem Stack.awake_ready {t : Stack} (h : t.state = .ready ∨ t.state = .selfRefresh) : t.awake = { t with state := .ready } := by
  unfold Stack.awake
  rcases h with h | h
  · rw [if_neg (by simp [h]), ← h]
  · rw [if_pos h]

theorem Stack.awake_eq_self {t : Stack} (h : t.state ≠ .selfRefresh) : t.awake = t := if_neg h

theorem Stack.awake_ne_fault {t : Stack} (h : t.state ≠ .fault) : t.awake.state ≠ .fault := by
  unfold Stack.awake
  split
  · exact nofun
  · exact h

theorem State.stk_wakeStk (s : State) (st : Nat) : (s.wakeStk st).stk st = (s.stk st).awake := by
  unfold State.wakeStk Stack.awake
  split
  · exact s.stk_updStk st _
  · rfl

theorem State.env_wakeStk (s : State) (st : Nat) : (s.wakeStk st).env = s.env := by
  unfold State.wakeStk
  split <;> rfl

theorem State.teth_wakeStk (s : State) (st : Nat) : (s.wakeStk st).teth = s.teth := by
  unfold State.wakeStk
  split <;> rfl

/-! ### STACK_REQUEST, BANK_OPEN and STACK_WRITE_ACK (O36) -/

section
variable {s : State} {st : Nat} {q : StackReq}

/-- A request behind others, or that meets a stack without a slot or in retrain, waits in the mesh (R306, R313). -/
theorem State.arrive_waits
    (hwait : (s.stk st).meshQ ≠ [] ∨ (s.stk st).state = .retraining
      ∨ 6144 ≤ (s.stk st).slots.length ∧ (s.stk st).state ≠ .fault) :
    (s.wakeStk st).arriveAll st [q] = (s.wakeStk st).inMesh st q := by
  obtain ⟨x, hx⟩ := (s.stk st).awake_with
  by_cases hmesh : (s.stk st).meshQ = []
  · rw [State.arriveAll_first (by rw [State.stk_wakeStk, hx, hmesh])]
    rcases hwait with h | h | ⟨hslots, hfault⟩
    · exact absurd hmesh h
    · apply State.sorter_waits <;> rw [State.stk_wakeStk, Stack.awake_eq_self (by simp [h])]
      · simp [h]
      · exact .inl (by simp [h])
    · apply State.sorter_waits <;> rw [State.stk_wakeStk]
      · exact Stack.awake_ne_fault hfault
      · exact .inr (by rw [hx]; exact hslots)
  · exact State.arriveAll_behind (by rw [State.stk_wakeStk, hx]; exact hmesh)

/-- A stack in FAULT answers a request that nothing is before (R306). -/
theorem State.arrive_fault (hmesh : (s.stk st).meshQ = []) (hfault : (s.stk st).state = .fault) :
    (s.wakeStk st).arriveAll st [q] = s.setStk st { s.stk st with responses := (s.stk st).responses ++ [faultAnswer q] } := by
  rw [show s.wakeStk st = s from if_neg (by simp [hfault]), State.arriveAll_first hmesh, State.sorter_fault hfault]
  rfl

section
variable (hmesh : (s.stk st).meshQ = []) (hstate : (s.stk st).state = .ready ∨ (s.stk st).state = .selfRefresh)
  (hslots : (s.stk st).slots.length < 6144)
include hmesh hstate hslots

theorem State.arrive_bankFull (hfull : ¬((s.stk st).bankSlots (blkBank q.block)).length < 48) :
    (s.wakeStk st).arriveAll st [q] = (s.wakeStk st).bankHold st q := by
  have hawake := (s.stk_wakeStk st).trans (Stack.awake_ready hstate)
  rw [State.arriveAll_first (by rw [hawake, hmesh]), State.sorter_bankFull]
  all_goals rw [hawake]
  · exact hslots
  · exact hfull

variable (hroom : ((s.stk st).bankSlots (blkBank q.block)).length < 48)
include hroom

theorem State.arrive_stale (hstale : ¬(q.ctx = 0xFFF ∨ sget 0 (s.stk st).gens q.ctx = q.gen)) :
    (s.wakeStk st).arriveAll st [q] = ((s.wakeStk st).updStk st (fun t => { t with genDrops := cnt t.genDrops 1 })).updCtx q.ctx
      (fun c => { c with drops := cnt c.drops 1 }) := by
  have hawake := (s.stk_wakeStk st).trans (Stack.awake_ready hstate)
  rw [State.arriveAll_first (by rw [hawake, hmesh]), State.sorter_stale]
  all_goals rw [hawake]
  · exact hslots
  · exact hroom
  · exact hstale

theorem State.arrive_takes (hfresh : q.ctx = 0xFFF ∨ sget 0 (s.stk st).gens q.ctx = q.gen) :
    (s.wakeStk st).arriveAll st [q] = (s.wakeStk st).takeReq st q := by
  have hawake := (s.stk_wakeStk st).trans (Stack.awake_ready hstate)
  rw [State.arriveAll_first (by rw [hawake, hmesh]), State.sorter_takes]
  all_goals rw [hawake]
  · exact hslots
  · exact hroom
  · exact hfresh

end

/-- What a request that reaches the sorter leaves as it is. -/
theorem State.rest_of_arrive (s : State) (st : Nat) (q : StackReq) {t : State} (ht : (s.wakeStk st).arriveAll st [q] = t) :
    (t.stk st).mem = (s.stk st).mem ∧ (∀ j, j ≠ st → t.stk j = s.stk j) ∧ t.cores = s.cores :=
  State.rest_of_goOn (by simp [← ht]) (by simp [← ht])

end

/-- The state after notice k of stack st has left, and the held requests l have gone again (R313). -/
def State.openedBank (s : State) (st k : Nat) (l : List StackReq) : State :=
  ((s.updStk st (fun t => { t with bankOpens := t.bankOpens.eraseIdx k })).resendAll st l).pump st

section
variable {s : State} {st k : Nat}

theorem exec_bankOpen {bank : Nat} {src : ReqSrc} (hopen : (s.stk st).bankOpens[k]? = some (bank, src)) :
    exec (.bankOpen st k) s =
      .next (s.openedBank st k ((s.stk st).heldReqs.filter (fun q => q.src == src && blkBank q.block == bank))) := by
  have hheld : ((s.updStk st (fun t => { t with bankOpens := t.bankOpens.eraseIdx k })).stk st).heldReqs
      = (s.stk st).heldReqs := by rw [State.stk_updStk]
  refine congrArg Host.Outcome.next ?_
  rw [hopen, ← hheld]
  rfl

theorem State.openedBank_offSorter (s : State) (st k l) : (s.openedBank st k l).offSorter st =
    (s.updStk st (fun t => { t with bankOpens := t.bankOpens.eraseIdx k })).offSorter st := by
  rw [State.openedBank, State.pump_offSorter, State.resendAll_offSorter]

theorem State.openedBank_unqueued (s : State) (st k l) : (s.openedBank st k l).unqueued = s.unqueued := by
  rw [State.openedBank, State.pump_unqueued, State.resendAll_unqueued, State.updStk_unqueued]

/-- The notice has left its list, and memory, the other stacks and the cores are as they were. -/
theorem State.openedBank_rest (s : State) (st k l) :
    (((s.openedBank st k l).stk st).mem = (s.stk st).mem ∧ (∀ j, j ≠ st → (s.openedBank st k l).stk j = s.stk j)
      ∧ (s.openedBank st k l).cores = s.cores)
    ∧ ((s.openedBank st k l).stk st).bankOpens = (s.stk st).bankOpens.eraseIdx k := by
  have h := s.openedBank_offSorter st k l
  refine ⟨⟨?_, fun j hj => ?_, State.cores_of_unqueued (s.openedBank_unqueued st k l)⟩, ?_⟩
  · rw [State.mem_of_offSorter h, State.stk_updStk]
  · rw [State.stk_of_offStk h hj, State.stk_updStk_other _ _ _ hj]
  · have e := congrArg (fun u : Stack => u.bankOpens) (State.kept_of_offStk h)
    rw [State.stk_updStk] at e
    exact e

variable (hmesh : (s.stk st).meshQ = []) (hsrc : (s.stk st).srcQ = [])
include hmesh hsrc

theorem State.slots_openedBank_none : ((s.openedBank st k []).stk st).slots = (s.stk st).slots := by
  unfold State.openedBank
  rw [State.pump_idle] <;> simp [State.resendAll, State.arriveAll, hmesh, hsrc]

/-- A held request that goes again is admitted when nothing is before it (R313). -/
theorem State.stk_openedBank_one {q : StackReq} (hready : (s.stk st).state = .ready) (hslots : (s.stk st).slots.length < 6144)
    (hroom : ((s.stk st).bankSlots (blkBank q.block)).length < 48)
    (hfresh : q.ctx = 0xFFF ∨ sget 0 (s.stk st).gens q.ctx = q.gen) :
    ((s.openedBank st k [q]).stk st).slots = (s.stk st).slots ++ [(s.stk st).slotFor s.env.ticks q]
    ∧ q ∉ ((s.openedBank st k [q]).stk st).heldReqs := by
  let v := (s.updStk st (fun t => { t with bankOpens := t.bankOpens.eraseIdx k })).updStk st
    (fun t => { t with heldReqs := t.heldReqs.filter (fun p => !([q].contains p)) })
  have hv : v.stk st = { s.stk st with bankOpens := (s.stk st).bankOpens.eraseIdx k
                                       heldReqs := (s.stk st).heldReqs.filter (fun p => !([q].contains p)) } := by
    simp only [v, State.stk_updStk]
  have htakes : s.openedBank st k [q] = (v.takeReq st q).pump st := by
    rw [← State.sorter_takes (s := v) (by rw [hv, hready]) (by rw [hv]; exact hslots) (by rw [hv]; exact hroom)
      (by rw [hv]; exact hfresh), ← State.arriveAll_first (by rw [hv, hmesh])]
    rfl
  have hstk := v.stk_takeReq st q
  rw [hv] at hstk
  rw [htakes, State.pump_idle (by rw [hstk, hmesh]) (by rw [hstk, hsrc]), State.stk_setStk, hstk]
  exact ⟨rfl, fun h => by simpa using (List.mem_filter.mp h).2⟩

end

theorem exec_stackWriteAck {s : State} {st k tag : Nat} {src : ReqSrc} {notes : List (Nat × Nat)}
    (hresp : (s.stk st).responses[k]? = some (.ack src tag notes)) :
    exec (.stackWriteAck st k) s = .next (if notes.any (fun n => s.stale.contains n) then s
      else s.setStk st { s.stk st with responses := (s.stk st).responses.eraseIdx k }) := by
  refine congrArg Host.Outcome.next ?_
  rw [hresp]
  rfl

/-- Settles O36: a request that its source sends wakes its stack and meets the sorter, whose answers `State.sorter_ready` lists. -/
theorem stackRequests : Obligations.StackRequests := by
  unfold Obligations.StackRequests
  intro st s hst u room fresh rest waits
  refine ⟨fun q hblock => ⟨exec_stackRequest_off, fun hon => exec_stackRequest_waits hst hon hblock, fun hon hgo => ?_⟩,
    fun k bank src hopen => ?_, fun k tag src notes hresp => exec_stackWriteAck hresp⟩
  · rw [exec_stackRequest_goes hst hon hblock hgo]
    have hrest := s.rest_of_arrive st q rfl
    refine ⟨fun hwait => ⟨_, rfl, hrest, ?_⟩, fun hmesh hfault => congrArg _ (State.arrive_fault hmesh hfault),
      fun hmesh hstate hslots => ?_⟩
    · obtain ⟨x, hx⟩ := u.awake_with
      rw [State.arrive_waits hwait, State.inMesh, State.stk_updStk, State.stk_wakeStk, hx]
      exact ⟨rfl, rfl, rfl⟩
    have hawake := (s.stk_wakeStk st).trans (Stack.awake_ready hstate)
    refine ⟨fun hroom hfresh => ⟨_, rfl, hrest, ?_⟩, fun hfull => ⟨_, rfl, hrest, ?_⟩,
      fun hroom hstale => ⟨_, rfl, hrest, ?_⟩⟩
    · rw [State.arrive_takes hmesh hstate hslots hroom hfresh, State.stk_takeReq, hawake, State.env_wakeStk]
      exact ⟨rfl, rfl, rfl, rfl⟩
    · rw [State.arrive_bankFull hmesh hstate hslots hfull]
      have hwaits := (s.wakeStk st).mem_waiters_bankHold st q
      rw [State.stk_bankHold, hawake] at hwaits ⊢
      exact ⟨rfl, rfl, rfl, hwaits, rfl⟩
    · rw [State.arrive_stale hmesh hstate hslots hroom hstale]
      refine ⟨?_, ?_⟩
      · change ((s.wakeStk st).updStk st (fun t => { t with genDrops := cnt t.genDrops 1 })).stk st = _
        rw [State.stk_updStk, hawake]
      · rw [State.ctx_updCtx_drops]
        exact congrArg (fun c : Ctx => cnt c.drops 1) (State.ctx_congr (congrArg TetherSt.ctxs (s.teth_wakeStk st)) q.ctx)
  · intro mine
    obtain ⟨hrest, hleft⟩ := s.openedBank_rest st k mine
    refine ⟨s.openedBank st k mine, exec_bankOpen hopen, hrest, hleft, fun hmesh hsrc hnone => ?_,
      fun q hone hmesh hsrc hready hslots hroom hfresh => ?_⟩
    · rw [hnone]
      exact State.slots_openedBank_none hmesh hsrc
    · rw [hone]
      exact State.stk_openedBank_one hmesh hsrc hready hslots hroom hfresh

end Sys2Proof.Machine
end

section
/-! The codewords of a stack: the pieces of an access (R307), and what reads and writes of codewords without errors do. -/

namespace Sys2Proof.Machine

open Sys2Proof

/-! ### The pieces of an access -/

/-- Pieces, one after another, that make up n bytes at address a, each within one run of w. -/
inductive Pieces (w : Nat) : Nat → Nat → List (Nat × Nat) → Prop
  | done (a : Nat) : Pieces w a 0 []
  | piece {a n m : Nat} {l : List (Nat × Nat)} (hpos : 0 < m) (hin : a % w + m ≤ w) (ht : Pieces w (a + m) n l) :
      Pieces w a (m + n) ((a, m) :: l)

theorem cuts_pieces {w : Nat} (hw : 0 < w) (fuel a n : Nat) (h : n = 0 ∨ n + a % w ≤ fuel * w) :
    Pieces w a n (cuts w fuel a n) := by
  induction fuel generalizing a n with
  | zero =>
    obtain rfl : n = 0 := by omega
    exact .done a
  | succ fuel ih =>
    by_cases hn : n = 0
    · rw [hn, cuts, if_pos rfl]
      exact .done a
    have hlt := Nat.mod_lt a hw
    rw [cuts, if_neg hn]
    dsimp only
    generalize hm : n.min (w - a % w) = m
    have hmin : m = n ∨ m = w - a % w ∧ m ≤ n := by
      rw [← hm]
      rcases Nat.le_total n (w - a % w) with h | h
      · exact .inl (Nat.min_eq_left h)
      · exact .inr ⟨Nat.min_eq_right h, (Nat.min_eq_right h).le.trans h⟩
    have hle : m ≤ w - a % w := hm ▸ Nat.min_le_right _ _
    have hrest : n - m = 0 ∨ n - m + (a + m) % w ≤ fuel * w := by
      rcases hmin with rfl | ⟨hrun, -⟩
      · exact .inl (Nat.sub_self m)
      · have hnext : a + m = w * (a / w) + w := by
          have := Nat.div_add_mod a w
          omega
        have halign : (a + m) % w = 0 := by rw [hnext, Nat.add_mod_right, Nat.mul_mod_right]
        rw [Nat.succ_mul] at h
        omega
    have hpiece := Pieces.piece (by omega) (by omega) (ih (a + m) (n - m) hrest)
    rwa [Nat.add_sub_of_le (by omega)] at hpiece

theorem cwCuts_pieces (a n : Nat) : Pieces 64 a n (cwCuts a n) := cuts_pieces (by decide) _ a n (.inr (by omega))

theorem sread_append {α : Type} (d : α) (m : Sparse α) (k n j : Nat) : sread d m k (n + j) = sread d m k n ++ sread d m (k + n) j := by
  induction n generalizing k with
  | zero => rw [Nat.zero_add]; rfl
  | succ n ih =>
    rw [Nat.succ_add, sread, sread, ih, List.cons_append, Nat.add_right_comm]
    rfl

theorem mread_append (m : Memory) (k n j : Nat) : mread m k (n + j) = mread m k n ++ mread m (k + n) j := sread_append 0 m k n j

@[simp] theorem length_mread (m : Memory) (k n : Nat) : (mread m k n).length = n := by
  unfold mread
  induction n generalizing k with
  | zero => rfl
  | succ n ih => rw [sread, List.length_cons, ih]

theorem mwrite_append (m : Memory) (k : Nat) (xs ys : List Byte) :
    mwrite m k (xs ++ ys) = mwrite (mwrite m k xs) (k + xs.length) ys := by
  unfold mwrite
  induction xs generalizing m k with
  | nil => rfl
  | cons x xs ih =>
    rw [List.cons_append, swrite, ih, List.length_cons, swrite]
    congr 1
    omega

/-! ### What the error code changes (R308, R309) -/

/-- A stack without what reads and writes of its codewords change. -/
def Stack.uncoded (t : Stack) : Stack :=
  { t with mem := [], upsets := [], poisoned := [], ue := false, ce := false, eccCe := 0, eccUe := 0, logKind := 0, logAddr := 0 }

theorem Stack.with_of_uncoded {t u : Stack} (h : t.uncoded = u.uncoded) :
    ∃ mem upsets poisoned ue ce eccCe eccUe logKind logAddr,
      t = { u with mem, upsets, poisoned, ue, ce, eccCe, eccUe, logKind, logAddr } :=
  ⟨t.mem, t.upsets, t.poisoned, t.ue, t.ce, t.eccCe, t.eccUe, t.logKind, t.logAddr,
    congrArg (fun v : Stack => { v with mem := t.mem, upsets := t.upsets, poisoned := t.poisoned, ue := t.ue, ce := t.ce,
                                        eccCe := t.eccCe, eccUe := t.eccUe, logKind := t.logKind, logAddr := t.logAddr }) h⟩

/-- What accesses to codewords of stack st change neither in it nor in the other stacks. -/
abbrev State.offWords (s : State) (st : Nat) : Nat → Stack := s.offStk Stack.uncoded st

theorem State.uncorr_offWords (s : State) (st cw kind : Nat) : (s.uncorr st cw kind).offWords st = s.offWords st := by
  have h : (s.setStk st { (if (s.stk st).ue then s.stk st else { s.stk st with logKind := kind, logAddr := cw }) with
      ue := true, eccUe := cnt (if (s.stk st).ue then s.stk st else { s.stk st with logKind := kind, logAddr := cw }).eccUe 1 }).offWords
        st = s.offWords st := by
    refine State.setStk_offStk ?_
    split <;> rfl
  exact h

theorem State.corr_offWords (s : State) (st cw : Nat) : (s.corr st cw).offWords st = s.offWords st := by
  have h : (s.setStk st { s.stk st with ce := true, eccCe := cnt (s.stk st).eccCe 1 }).offWords st = s.offWords st :=
    State.setStk_offStk rfl
  unfold State.corr
  dsimp only
  split <;> exact h

@[simp] theorem State.senseCw_offWords (s : State) (st cw kind : Nat) :
    (s.senseCw st cw kind).1.offWords st = s.offWords st := by
  unfold State.senseCw
  dsimp only
  split
  · exact s.uncorr_offWords st cw kind
  · exact (State.corr_offWords _ st cw).trans (State.setStk_offStk rfl)
  · split
    · rfl
    · exact State.setStk_offStk rfl

@[simp] theorem State.writeCw_offWords (s : State) (st a : Nat) (bs : List PByte) :
    (s.writeCw st a bs).offWords st = s.offWords st := by
  unfold State.writeCw
  dsimp only
  split
  · refine s.updStk_offStk st fun t => ?_
    split <;> rfl
  · refine (State.updStk_offStk _ st fun t => ?_).trans (s.senseCw_offWords st _ 3)
    split
    · split <;> rfl
    · rfl

@[simp] theorem State.writeCws_offWords (s : State) (st : Nat) (l) (bs : List PByte) :
    (s.writeCws st l bs).offWords st = s.offWords st := by
  induction l generalizing s bs with
  | nil => rw [State.writeCws]
  | cons p t ih => rw [State.writeCws, ih, State.writeCw_offWords]

@[simp] theorem State.writeCw_unread (s : State) (st a) (bs : List PByte) : (s.writeCw st a bs).unread = s.unread := by
  simp [State.writeCw]

@[simp] theorem State.writeCws_unread (s : State) (st l) (bs : List PByte) : (s.writeCws st l bs).unread = s.unread := by
  induction l generalizing s bs with
  | nil => rw [State.writeCws]
  | cons p t ih => simp [State.writeCws, ih]

/-! ### Codewords without errors (R307) -/

/-- What stands in the codewords of a stack: its bytes, the upsets, and which codewords are poisoned. -/
def Stack.words (t : Stack) : Memory × Sparse (List (Nat × Nat)) × List Nat := (t.mem, t.upsets, t.poisoned)

theorem State.words_uncorr (s : State) (st cw kind : Nat) : ((s.uncorr st cw kind).stk st).words = (s.stk st).words := by
  have h : (s.uncorr st cw kind).stk st = { (if (s.stk st).ue then s.stk st else { s.stk st with logKind := kind, logAddr := cw }) with
      ue := true
      eccUe := cnt (if (s.stk st).ue then s.stk st else { s.stk st with logKind := kind, logAddr := cw }).eccUe 1 } :=
    s.stk_setStk st _
  rw [h]
  split <;> rfl

section
variable {s : State} {st : Nat} (hupset : (s.stk st).upsets = [])
include hupset

/-- A read in a stack with no upset changes no memory. -/
theorem State.words_senseCw_noUpset (cw kind : Nat) : ((s.senseCw st cw kind).1.stk st).words = (s.stk st).words := by
  have hnone : sget [] (s.stk st).upsets cw = [] := by rw [hupset]; rfl
  have hsense : (s.stk st).sense cw = if (s.stk st).poisoned.contains cw then .many else .none := by
    rw [Stack.sense, if_pos hnone]
  unfold State.senseCw
  dsimp only
  rw [hsense]
  split
  next h => exact s.words_uncorr st cw kind
  next h => split at h <;> cases h
  next h => rw [if_pos hnone]

variable (hpoison : (s.stk st).poisoned = [])
include hpoison

theorem State.senseCw_clean (cw kind : Nat) : s.senseCw st cw kind = (s, true) := by
  have hnone : sget [] (s.stk st).upsets cw = [] := by rw [hupset]; rfl
  have hsense : (s.stk st).sense cw = .none := by
    rw [Stack.sense, hpoison, if_neg (by simp), if_pos hnone]
  unfold State.senseCw
  dsimp only
  rw [hsense]
  dsimp only
  rw [if_pos hnone]

theorem State.readCws_clean {a n : Nat} {l : List (Nat × Nat)} (hl : Pieces 64 a n l) :
    s.readCws st l = (s, (mread (s.stk st).mem a n).map (fun b => (b, false))) := by
  induction hl with
  | done a => rfl
  | piece hpos hin ht ih =>
    rw [State.readCws, State.readCw, State.senseCw_clean hupset hpoison]
    dsimp only
    rw [ih, mread_append, List.map_append, if_pos rfl]

theorem State.scrubCw_clean (cw : Nat) : s.scrubCw st cw = s := by
  rw [State.scrubCw, State.senseCw_clean hupset hpoison, if_pos rfl]

/-- Bytes without poison are stored. -/
theorem State.words_writeCw_clean (a : Nat) (bs : List Byte) : ((s.writeCw st a (bs.map (fun b => (b, false)))).stk st).words =
    (mwrite (s.stk st).mem a bs, [], []) := by
  have hclean : (bs.map (fun b => ((b, false) : PByte))).any (·.2) = false := by simp
  have hbytes : (bs.map (fun b => ((b, false) : PByte))).map (·.1) = bs := by
    rw [List.map_map]
    exact List.map_id bs
  unfold State.writeCw
  dsimp only
  rw [hclean, hbytes, State.senseCw_clean hupset hpoison]
  split
  · rw [State.stk_updStk, hupset, hpoison]
    rfl
  · rw [State.stk_updStk]
    exact congrArg₂ (fun u p => (mwrite (s.stk st).mem a bs, u, p)) hupset hpoison

theorem State.words_writeCws_clean {a n : Nat} {l : List (Nat × Nat)} (hl : Pieces 64 a n l) {bs : List Byte} (hn : bs.length = n) :
    ((s.writeCws st l (bs.map (fun b => (b, false)))).stk st).words = (mwrite (s.stk st).mem a bs, [], []) := by
  induction hl generalizing s bs with
  | done a =>
    obtain rfl := List.length_eq_zero_iff.mp hn
    rw [State.writeCws]
    exact congrArg₂ (fun u p => ((s.stk st).mem, u, p)) hupset hpoison
  | @piece a n m l hpos hin ht ih =>
    have hfirst := State.words_writeCw_clean hupset hpoison a (bs.take m)
    obtain ⟨hmem, hups, hpois⟩ : _ ∧ _ ∧ _ := by simpa only [Stack.words, Prod.mk.injEq] using hfirst
    rw [State.writeCws, ← List.map_take, ← List.map_drop, ih hups hpois (by simp [hn]), hmem]
    have hlen : (bs.take m).length = m := by simp [hn]
    have happ := mwrite_append (s.stk st).mem a (bs.take m) (bs.drop m)
    rw [List.take_append_drop, hlen] at happ
    rw [happ]

end

/-! ### Poisoned bytes (R309) -/

theorem Stack.mem_poison_iff (t : Stack) (cw x : Nat) : x ∈ (t.poison cw).poisoned ↔ x = cw ∨ x ∈ t.poisoned := by
  unfold Stack.poison
  dsimp only
  split
  next h => exact ⟨.inr, fun hx => hx.elim (fun e => e ▸ List.contains_iff_mem.mp h) id⟩
  next => exact List.mem_cons

/-- t has the bytes of u and no upset, and codeword cw is poisoned beside those of u. -/
structure Stack.Poisons (u t : Stack) (cw : Nat) : Prop where
  mem : t.mem = u.mem
  upsets : t.upsets = []
  poisoned : ∀ x, x = cw ∨ x ∈ u.poisoned → x ∈ t.poisoned

section
variable {s : State} {st : Nat} (hupset : (s.stk st).upsets = [])
include hupset

/-- A codeword that poisoned bytes are written to is poisoned, and no byte changes. -/
theorem State.writeCw_poisons (a : Nat) {bs : List PByte} (hbad : bs.any (·.2) = true) :
    (s.stk st).Poisons ((s.writeCw st a bs).stk st) (a / 64) := by
  unfold State.writeCw
  dsimp only
  simp only [hbad, if_true]
  split
  · rw [State.stk_updStk]
    refine ⟨rfl, by rw [hupset]; rfl, fun x hx => (Stack.mem_poison_iff _ _ x).mpr ?_⟩
    by_cases he : x = a / 64
    · exact .inl he
    · exact .inr (List.mem_filter.mpr ⟨hx.resolve_left he, by simpa using he⟩)
  · obtain ⟨hmem, hups, hpois⟩ : _ ∧ _ ∧ _ := by
      simpa only [Stack.words, Prod.mk.injEq] using State.words_senseCw_noUpset hupset (a / 64) 3
    have heither (p : Prop) [Decidable p] : (if p then fun t : Stack => t.poison (a / 64) else fun t => t.poison (a / 64))
        = fun t => t.poison (a / 64) := ite_self _
    rw [heither, State.stk_updStk]
    refine ⟨hmem, ?_, fun x hx => (Stack.mem_poison_iff _ _ x).mpr (hpois ▸ hx)⟩
    exact (congrArg (fun m => sset [] m (a / 64) []) (hups.trans hupset)).trans rfl

theorem State.writeCws_poisons {a n : Nat} {l : List (Nat × Nat)} (hl : Pieces 64 a n l) {bs : List Byte} (hn : bs.length = n) :
    ((s.writeCws st l (bs.map (fun b => (b, true)))).stk st).mem = (s.stk st).mem
    ∧ (∀ cw ∈ (s.stk st).poisoned, cw ∈ ((s.writeCws st l (bs.map (fun b => (b, true)))).stk st).poisoned)
    ∧ ∀ i < n, (a + i) / 64 ∈ ((s.writeCws st l (bs.map (fun b => (b, true)))).stk st).poisoned := by
  induction hl generalizing s bs with
  | done a =>
    rw [State.writeCws]
    exact ⟨rfl, fun _ h => h, fun i hi => absurd hi (Nat.not_lt_zero i)⟩
  | @piece a n m l hpos hin ht ih =>
    have hbad : ((bs.take m).map (fun b => ((b, true) : PByte))).any (·.2) = true := by
      obtain ⟨b, t, hb⟩ := List.exists_cons_of_length_pos (l := bs.take m) (by rw [List.length_take, hn]; omega)
      rw [hb]
      rfl
    have hfirst := State.writeCw_poisons hupset a hbad
    obtain ⟨hmem, hkept, hrest⟩ := ih hfirst.upsets (bs := bs.drop m) (by simp [hn])
    rw [State.writeCws, ← List.map_take, ← List.map_drop]
    refine ⟨hmem.trans hfirst.mem, fun cw hcw => hkept cw (hfirst.poisoned cw (.inr hcw)), fun i hi => ?_⟩
    by_cases him : i < m
    · have hsame : (a + i) / 64 = a / 64 := by omega
      exact hkept _ (hfirst.poisoned _ (.inl hsame))
    · have h := hrest (i - m) (by omega)
      rwa [Nat.add_assoc, Nat.add_sub_of_le (Nat.le_of_not_lt him)] at h

end

end Sys2Proof.Machine
end

section
/-! The sorter of a stack serves a request (R309, R310, R313, R315 to R317, R320 to R322), for O37. -/

namespace Sys2Proof.Machine

open Sys2Proof

/-! ### The request that is served (R315) -/

theorem Stack.mem_of_pick {t : Stack} {bank now : Nat} {q : Slot} {urg : Bool} (h : t.pick bank now = some (q, urg)) :
    q ∈ t.bankSlots bank := by
  have hsub : ∀ p ∈ (if ((t.bankSlots bank).filter (fun q => q.req.src != .scrub)).isEmpty then t.bankSlots bank
      else (t.bankSlots bank).filter (fun q => q.req.src != .scrub)), p ∈ t.bankSlots bank := by
    intro p hp
    split at hp
    · exact hp
    · exact (List.mem_filter.mp hp).1
  unfold Stack.pick at h
  dsimp only at h
  refine hsub q ?_
  split at h
  next p hfind =>
    obtain ⟨rfl, -⟩ := Prod.mk.inj (Option.some.inj h)
    exact List.mem_of_find?_eq_some hfind
  next =>
    split at h
    next p hfind =>
      obtain ⟨rfl, -⟩ := Prod.mk.inj (Option.some.inj h)
      split at hfind
      · exact List.mem_of_find?_eq_some hfind
      · cases hfind
    next =>
      obtain ⟨p, hhead, hp⟩ := Option.map_eq_some_iff.mp h
      obtain ⟨rfl, -⟩ := Prod.mk.inj hp
      exact List.mem_of_head? hhead

/-- A stack whose sorter has turned to a request of a bank (R315): its row has been used, and an urgent one counted. -/
def Stack.turnTo (t : Stack) (bank : Nat) (q : Slot) (urg : Bool) : Stack :=
  (if urg then { t with urgent := cnt t.urgent 1 } else t).useRow bank (blkRow q.req.block)

theorem Stack.useRow_with (t : Stack) (bank row : Nat) :
    ∃ rows hits, t.useRow bank row = { t with openRow := rows, hits } := by
  unfold Stack.useRow
  split
  · exact ⟨t.openRow, _, rfl⟩
  · exact ⟨_, _, rfl⟩

theorem Stack.turnTo_with (t : Stack) (bank : Nat) (q : Slot) (urg : Bool) :
    ∃ urgent rows hits, t.turnTo bank q urg = { t with urgent, openRow := rows, hits } := by
  unfold Stack.turnTo
  split
  · exact ⟨_, Stack.useRow_with _ bank _⟩
  · exact ⟨t.urgent, Stack.useRow_with t bank _⟩

theorem exec_stackRequestService {st bank : Nat} {s : State} {q : Slot} {urg : Bool} (hst : st < 16)
    (hready : (s.stk st).state = .ready) (hpick : (s.stk st).pick bank s.env.ticks = some (q, urg)) :
    exec (.stackRequestService st bank []) s = .next ((((s.setStk st ((s.stk st).turnTo bank q urg)).serve st q).openBank st bank
      ((s.stk st).bankSlots bank).length).pump st) := by
  refine congrArg Host.Outcome.next ?_
  dsimp only
  rw [if_neg (by simp [hst, hready]), hpick]
  rfl

/-! ### What follows a service (R313) -/

/-- After a service with nothing in the mesh and in the sources only the notices of the bank are new, and a bank that falls to 40
is opened to its waiters. -/
theorem State.openBank_pump {v : State} {st : Nat} (bank n : Nat) (hmesh : (v.stk st).meshQ = []) (hsrc : (v.stk st).srcQ = []) :
    ∃ opens waiters, (v.openBank st bank n).pump st = v.setStk st { v.stk st with bankOpens := opens, waiters }
      ∧ (40 < n → ((v.stk st).bankSlots bank).length ≤ 40 → ∀ w ∈ (v.stk st).waiters, w.1 = bank → w ∈ opens) := by
  unfold State.openBank
  dsimp only
  split
  next h =>
    rw [State.pump_idle (by rw [State.stk_setStk, hmesh]) (by rw [State.stk_setStk, hsrc]), State.stk_setStk, State.setStk_stk_setStk]
    refine ⟨_, _, rfl, fun _ _ w hw hbank => ?_⟩
    exact List.mem_append_right _ (List.mem_filter.mpr ⟨hw, by simpa using hbank⟩)
  next h =>
    rw [State.pump_idle hmesh hsrc]
    exact ⟨_, _, rfl, fun hfrom hto => absurd ⟨hfrom, hto⟩ h⟩

/-! ### A write (R309, R310, R317, R322) -/

theorem State.stk_postStale (s : State) (st : Nat) (l : List (Nat × Nat)) :
    (s.postStale st l).stk st = { s.stk st with staleNotices := cnt (s.stk st).staleNotices l.length } := by
  change (s.updStk st fun t => { t with staleNotices := cnt t.staleNotices l.length }).stk st = _
  rw [State.stk_updStk]

theorem State.stk_postStale_other (s : State) (st : Nat) (l : List (Nat × Nat)) {j : Nat} (hj : j ≠ st) :
    (s.postStale st l).stk j = s.stk j := by
  change (s.updStk st fun t => { t with staleNotices := cnt t.staleNotices l.length }).stk j = _
  rw [State.stk_updStk_other _ _ _ hj]

/-- The state after a write's notices have left, its bytes have been stored and it has left its slot. -/
def State.storeWrite (s : State) (st : Nat) (q : Slot) : State :=
  let bytes := q.req.data.take (256 - q.req.off)
  ((s.postStale st ((s.stk st).notesFor q.req.block)).writeCws st (cwCuts (q.req.block * 256 + q.req.off) bytes.length)
    (bytes.map (fun x => (x, q.req.poison)))).updStk st (fun t => { t with slots := t.slots.erase q })

section
variable {s : State} {st : Nat} {q : Slot}

theorem State.serve_write (hwrite : q.req.write = true) : s.serve st q =
    if q.acked then s.storeWrite st q
    else (s.storeWrite st q).respond st (.ack q.req.src q.req.tag ((s.stk st).notesFor q.req.block)) := by
  unfold State.serve
  dsimp only
  rw [if_pos hwrite, List.length_map]
  rfl

theorem State.stk_serve_write (hwrite : q.req.write = true) : (s.serve st q).stk st =
    { (s.storeWrite st q).stk st with responses := ((s.storeWrite st q).stk st).responses
        ++ (if q.acked then [] else [.ack q.req.src q.req.tag ((s.stk st).notesFor q.req.block)]) } := by
  rw [State.serve_write hwrite]
  split
  · rw [List.append_nil]
  · exact State.stk_updStk _ st _

/-- Apart from its codewords, what a stored write changes in its stack: the notices are counted and the slot is free. -/
theorem State.uncoded_storeWrite (s : State) (st : Nat) (q : Slot) : ∃ staleNotices, ((s.storeWrite st q).stk st).uncoded =
    ({ s.stk st with staleNotices, slots := (s.stk st).slots.erase q } : Stack).uncoded := by
  have hstale := s.stk_postStale st ((s.stk st).notesFor q.req.block)
  have hwords := State.kept_of_offStk (State.writeCws_offWords (s.postStale st ((s.stk st).notesFor q.req.block)) st
    (cwCuts (q.req.block * 256 + q.req.off) (q.req.data.take (256 - q.req.off)).length)
    ((q.req.data.take (256 - q.req.off)).map (fun x => (x, q.req.poison))))
  rw [hstale] at hwords
  refine ⟨cnt (s.stk st).staleNotices ((s.stk st).notesFor q.req.block).length, ?_⟩
  rw [State.storeWrite, State.stk_updStk]
  exact congrArg (fun t : Stack => { t with slots := t.slots.erase q }) hwords

theorem State.stk_serve_write_other (hwrite : q.req.write = true) {j : Nat} (hj : j ≠ st) : (s.serve st q).stk j = s.stk j := by
  have hstore : (s.storeWrite st q).stk j = s.stk j := by
    rw [State.storeWrite, State.stk_updStk_other _ _ _ hj, State.stk_of_offStk (State.writeCws_offWords _ _ _ _) hj]
    exact s.stk_postStale_other st _ hj
  rw [State.serve_write hwrite]
  split
  · exact hstore
  · rw [State.respond, State.stk_updStk_other _ _ _ hj, hstore]

theorem State.serve_write_unread (hwrite : q.req.write = true) :
    (s.serve st q).unread = { s with stale := s.stale ++ (s.stk st).notesFor q.req.block }.unread := by
  have hstore : (s.storeWrite st q).unread = { s with stale := s.stale ++ (s.stk st).notesFor q.req.block }.unread :=
    State.writeCws_unread (s.postStale st ((s.stk st).notesFor q.req.block)) st _ _
  rw [State.serve_write hwrite]
  split
  · exact hstore
  · exact hstore

variable (hupset : (s.stk st).upsets = [])
include hupset

theorem State.words_storeWrite_clean (hpoison : (s.stk st).poisoned = []) (hwhole : q.req.poison = false) :
    ((s.storeWrite st q).stk st).words =
      (mwrite (s.stk st).mem (q.req.block * 256 + q.req.off) (q.req.data.take (256 - q.req.off)), [], []) := by
  have hstale := s.stk_postStale st ((s.stk st).notesFor q.req.block)
  have h := State.words_writeCws_clean (s := s.postStale st ((s.stk st).notesFor q.req.block)) (st := st)
    (by rw [hstale, hupset]) (by rw [hstale, hpoison]) (cwCuts_pieces (q.req.block * 256 + q.req.off) _)
    (bs := q.req.data.take (256 - q.req.off)) rfl
  rw [hstale] at h
  rw [State.storeWrite, hwhole, State.stk_updStk]
  exact h

theorem State.storeWrite_poisons (hbad : q.req.poison = true) : ((s.storeWrite st q).stk st).mem = (s.stk st).mem
    ∧ ∀ i < (q.req.data.take (256 - q.req.off)).length,
      (q.req.block * 256 + q.req.off + i) / 64 ∈ ((s.storeWrite st q).stk st).poisoned := by
  have hstale := s.stk_postStale st ((s.stk st).notesFor q.req.block)
  obtain ⟨hmem, -, hall⟩ := State.writeCws_poisons (s := s.postStale st ((s.stk st).notesFor q.req.block)) (st := st)
    (by rw [hstale, hupset]) (cwCuts_pieces (q.req.block * 256 + q.req.off) _) (bs := q.req.data.take (256 - q.req.off)) rfl
  rw [hstale] at hmem
  rw [State.storeWrite, hbad, State.stk_updStk]
  exact ⟨hmem, hall⟩

end

/-! ### A read (R316, R320, R321) -/

theorem block_of_mem_mergedReads {b : Nat} {l : List Slot} {p : Slot} (h : p ∈ mergedReads b l) : p.req.block = b := by
  induction l with
  | nil => cases h
  | cons q l ih =>
    rw [mergedReads] at h
    split at h
    next hb =>
      split at h
      · cases h
      · rcases List.mem_cons.mp h with rfl | h
        · exact hb
        · exact ih h
    next => exact ih h

/-- A read is among those merged with it. -/
theorem mem_mergedReads {q : Slot} {l : List Slot} (hq : q ∈ l) (hread : q.req.write = false) :
    q ∈ mergedReads q.req.block (l.dropWhile (fun p => p ≠ q)) := by
  induction l with
  | nil => cases hq
  | cons p l ih =>
    by_cases hp : p = q
    · rw [hp, List.dropWhile_cons_of_neg (by simp), mergedReads, if_pos rfl, if_neg (by simp [hread])]
      exact List.mem_cons_self
    · rw [List.dropWhile_cons_of_pos (by simpa using hp)]
      exact ih ((List.mem_cons.mp hq).resolve_left (Ne.symm hp))

/-- A stack without its watch ranges and what it counts of them. -/
def Stack.unranged (t : Stack) : Stack := { t with ranges := [], watchMiss := 0 }

theorem Stack.with_of_unranged {t u : Stack} (h : t.unranged = u.unranged) :
    ∃ ranges watchMiss, t = { u with ranges, watchMiss } :=
  ⟨t.ranges, t.watchMiss, congrArg (fun v : Stack => { v with ranges := t.ranges, watchMiss := t.watchMiss }) h⟩

theorem Stack.unranged_watch (t : Stack) (c uid blk : Nat) : (t.watch c uid blk).1.unranged = t.unranged := by
  unfold Stack.watch
  split
  · rfl
  · split <;> rfl

theorem State.stk_unwatch (s : State) (c g j : Nat) : (s.unwatch c g).stk j = s.stk j := by
  unfold State.unwatch
  split
  · rfl
  · split <;> rfl

@[simp] theorem State.watchBlock_unranged (s : State) (st c g blk : Nat) :
    (s.watchBlock st c g blk).offStk Stack.unranged st = s.offStk Stack.unranged st := by
  have hset (uid : Nat) : (s.setStk st ((s.stk st).watch c uid blk).1).offStk Stack.unranged st = s.offStk Stack.unranged st :=
    State.setStk_offStk (Stack.unranged_watch _ c uid blk)
  unfold State.watchBlock
  split
  · rfl
  · dsimp only
    split
    · exact hset _
    · exact (State.offStk_eq (by rw [State.stk_unwatch]) fun j _ => State.stk_unwatch _ c g j).trans (hset _)

@[simp] theorem State.watchRead_unranged (s : State) (st : Nat) (q : StackReq) :
    (s.watchRead st q).offStk Stack.unranged st = s.offStk Stack.unranged st := by
  unfold State.watchRead
  split
  · rfl
  · exact s.watchBlock_unranged st _ _ _

@[simp] theorem State.watchReads_unranged (s : State) (st : Nat) (l : List Slot) :
    (s.watchReads st l).offStk Stack.unranged st = s.offStk Stack.unranged st := by
  induction l generalizing s with
  | nil => rfl
  | cons q l ih => rw [State.watchReads, ih, State.watchRead_unranged]

/-- A watch range of guard `uid` of core c holds a block (R320). -/
def Stack.Watches (t : Stack) (c uid blk : Nat) : Prop := ∃ r ∈ t.ranges, r.core = c ∧ r.guard = uid ∧ r.lo ≤ blk ∧ blk ≤ r.hi

/-- A block that gets into a range leaves those that hold another block. -/
theorem Stack.Watches.watch {t : Stack} {c uid blk : Nat} (h : t.Watches c uid blk) (c' uid' blk' : Nat) :
    (t.watch c' uid' blk').1.Watches c uid blk := by
  obtain ⟨r, hr, hc, hg, hlo, hhi⟩ := h
  unfold Stack.watch
  split
  · refine ⟨_, List.mem_map_of_mem hr, ?_⟩
    split
    · exact ⟨hc, hg, (Nat.min_le_left _ _).trans hlo, hhi.trans (Nat.le_max_left _ _)⟩
    · exact ⟨hc, hg, hlo, hhi⟩
  · split
    · exact ⟨r, List.mem_append_left _ hr, hc, hg, hlo, hhi⟩
    · exact ⟨r, hr, hc, hg, hlo, hhi⟩

/-- With room in the watch table a block gets into its guard's range, and at most one range is new (R320, R321). -/
theorem Stack.watch_room {t : Stack} (hroom : t.ranges.length < 1024) (c uid blk : Nat) :
    (t.watch c uid blk).2 = true ∧ (t.watch c uid blk).1.Watches c uid blk
      ∧ (t.watch c uid blk).1.ranges.length ≤ t.ranges.length + 1 := by
  unfold Stack.watch
  split
  next h =>
    obtain ⟨r, hr, hcg⟩ := List.any_eq_true.mp h
    obtain ⟨hc, hg⟩ : r.core = c ∧ r.guard = uid := by simpa using hcg
    refine ⟨rfl, ⟨_, List.mem_map_of_mem hr, ?_⟩, by simp⟩
    rw [if_pos ⟨hc, hg⟩]
    exact ⟨hc, hg, Nat.min_le_right _ _, Nat.le_max_right _ _⟩
  next =>
    exact ⟨rfl, ⟨_, List.mem_append_right _ (List.mem_singleton.mpr rfl), rfl, rfl, le_rfl, le_rfl⟩, by simp⟩

theorem State.watchBlock_watches {s : State} {st c uid blk : Nat} (h : (s.stk st).Watches c uid blk) (c' g blk' : Nat) :
    ((s.watchBlock st c' g blk').stk st).Watches c uid blk := by
  unfold State.watchBlock
  split
  · exact h
  · dsimp only
    split
    · rw [State.stk_setStk]
      exact h.watch c' _ blk'
    · rw [State.stk_unwatch, State.stk_setStk]
      exact h.watch c' _ blk'

/-- With room in the watch table no guard becomes UNWATCHED, and the block is in its guard's range (R320, R321). -/
theorem State.watchBlock_room {s : State} {st : Nat} (hroom : (s.stk st).ranges.length < 1024) (c g blk : Nat) :
    (s.watchBlock st c g blk).cores = s.cores ∧ ((s.watchBlock st c g blk).stk st).ranges.length ≤ (s.stk st).ranges.length + 1
      ∧ ∀ h, (s.core c).guard g = some h → ((s.watchBlock st c g blk).stk st).Watches c h.uid blk := by
  unfold State.watchBlock
  split
  next hnone =>
    rw [hnone]
    exact ⟨rfl, Nat.le_succ _, nofun⟩
  next q hsome =>
    obtain ⟨hfound, hwatches, hlen⟩ := Stack.watch_room hroom c q.uid blk
    dsimp only
    rw [if_pos hfound, State.stk_setStk, hsome]
    exact ⟨rfl, hlen, fun h he => Option.some.inj he ▸ hwatches⟩

theorem State.watchReads_watches {s : State} {st c uid blk : Nat} (h : (s.stk st).Watches c uid blk) (l : List Slot) :
    ((s.watchReads st l).stk st).Watches c uid blk := by
  induction l generalizing s with
  | nil => exact h
  | cons q l ih =>
    refine ih ?_
    unfold State.watchRead
    split
    · exact h
    · exact State.watchBlock_watches h _ _ _

/-- With room for all of them, each of the reads served together puts its block into the range of the guard it carries. -/
theorem State.watchReads_room {s : State} {st : Nat} {l : List Slot} (hroom : (s.stk st).ranges.length + l.length ≤ 1024) :
    ∀ p ∈ l, ∀ c g h, p.req.guard = some (c, g) → (s.core c).guard g = some h →
      ((s.watchReads st l).stk st).Watches c h.uid p.req.block := by
  induction l generalizing s with
  | nil => exact fun p hp => absurd hp List.not_mem_nil
  | cons q l ih =>
    intro p hp c g h hguard hcore
    rw [List.length_cons] at hroom
    rw [State.watchReads]
    have hfirst : (s.watchRead st q.req).cores = s.cores
        ∧ ((s.watchRead st q.req).stk st).ranges.length ≤ (s.stk st).ranges.length + 1
        ∧ (q.req.guard = some (c, g) → ((s.watchRead st q.req).stk st).Watches c h.uid q.req.block) := by
      unfold State.watchRead
      split
      next hnone => exact ⟨rfl, Nat.le_succ _, fun he => nomatch hnone.symm.trans he⟩
      next c' g' hsome =>
        obtain ⟨hcores, hlen, hwatches⟩ := s.watchBlock_room (st := st) (by omega) c' g' q.req.block
        refine ⟨hcores, hlen, fun he => ?_⟩
        obtain ⟨rfl, rfl⟩ := Prod.mk.inj (Option.some.inj (hsome.symm.trans he))
        exact hwatches h hcore
    obtain ⟨hcores, hlen, hwatches⟩ := hfirst
    rcases List.mem_cons.mp hp with rfl | hp
    · exact State.watchReads_watches (hwatches hguard) l
    · refine ih (by omega) p hp c g h hguard ?_
      rw [State.core, hcores]
      exact hcore

/-- Read data leaves for each of some requests, in order. -/
theorem State.stk_sendData (s : State) (st : Nat) (d : List PByte) (l : List Slot) : (s.sendData st d l).stk st =
    { s.stk st with responses := (s.stk st).responses ++ l.map (fun q => .data q.req.src q.req.tag (d.map (·.1))
        ((List.range 4).map (fun i => marked ((d.drop (64 * i)).take 64)))) } := by
  induction l generalizing s with
  | nil => rw [List.map_nil, List.append_nil]; rfl
  | cons q l ih =>
    rw [State.sendData, ih, State.respond, State.stk_updStk]
    simp only [List.map_cons, List.append_assoc, List.singleton_append]

theorem State.stk_sendData_other (s : State) (st : Nat) (d : List PByte) (l : List Slot) {j : Nat} (hj : j ≠ st) :
    (s.sendData st d l).stk j = s.stk j := by
  induction l generalizing s with
  | nil => rfl
  | cons q l ih => rw [State.sendData, ih, State.respond, State.stk_updStk_other _ _ _ hj]

theorem marked_clean (bs : List Byte) (i n : Nat) : marked (((bs.map (fun b => ((b, false) : PByte))).drop i).take n) = false := by
  rw [← List.map_drop, ← List.map_take, marked, List.any_map]
  exact List.any_eq_false.mpr fun _ _ => nofun

/-- The reads merged with a read in the slots of a stack (R316). -/
def Stack.mergedWith (t : Stack) (q : Slot) : List Slot := mergedReads q.req.block (t.slots.dropWhile (fun p => p ≠ q))

/-- The state after a read has been served in a stack with no upset or poisoned codeword. -/
theorem State.serve_read {s : State} {st : Nat} {q : Slot} (hread : q.req.write = false) (hupset : (s.stk st).upsets = [])
    (hpoison : (s.stk st).poisoned = []) :
    s.serve st q = ((s.watchReads st ((s.stk st).mergedWith q)).updStk st (fun t =>
        { t with slots := t.slots.filter (fun p => !(((s.stk st).mergedWith q).contains p)) })).sendData st
      ((mread (s.stk st).mem (q.req.block * 256) 256).map (fun b => (b, false)))
      (((s.stk st).mergedWith q).filter (fun p => p.req.src != .scrub)) := by
  have hstk := State.kept_of_offStk (s.watchReads_unranged st ((s.stk st).mergedWith q))
  have hups : ((s.watchReads st ((s.stk st).mergedWith q)).stk st).upsets = [] :=
    (congrArg (fun t : Stack => t.upsets) hstk).trans hupset
  have hpois : ((s.watchReads st ((s.stk st).mergedWith q)).stk st).poisoned = [] :=
    (congrArg (fun t : Stack => t.poisoned) hstk).trans hpoison
  have hmem : ((s.watchReads st ((s.stk st).mergedWith q)).stk st).mem = (s.stk st).mem :=
    (congrArg (fun t : Stack => t.mem) hstk :)
  unfold State.serve
  dsimp only
  rw [if_neg (by simp [hread])]
  change (if (((s.stk st).mergedWith q).filter (fun p => p.req.src != .scrub)).isEmpty then _ else _) = _
  split
  next hnone =>
    rw [List.isEmpty_iff.mp hnone]
    have hscrub : (List.range 4).foldl (fun u i => State.scrubCw u st (q.req.block * 4 + i))
        (s.watchReads st ((s.stk st).mergedWith q)) = s.watchReads st ((s.stk st).mergedWith q) :=
      List.foldl_fixed' (fun i => State.scrubCw_clean hups hpois _) _
    exact congrArg (fun u : State => u.updStk st _) hscrub
  next =>
    have hdata := State.readCws_clean hups hpois (cwCuts_pieces (q.req.block * 256) 256)
    rw [hmem] at hdata
    exact congrArg (fun r : State × List PByte => (r.1.updStk st _).sendData st r.2 _) hdata

end Sys2Proof.Machine
end

section
/-! STACK_REQUEST_SERVICE and GUARD_RECOPY_DONE (O37). -/

namespace Sys2Proof.Machine

open Sys2Proof

/-! ### The request the sorter picks (R313, R315) -/

/-- A bank has one request less when one of its requests leaves its slot. -/
theorem Stack.length_bankSlots_erase {t : Stack} {bank : Nat} {q : Slot} (hq : q ∈ t.bankSlots bank) :
    (({ t with slots := t.slots.erase q } : Stack).bankSlots bank).length = (t.bankSlots bank).length - 1 := by
  obtain ⟨hslot, hbank⟩ := List.mem_filter.mp hq
  rw [Stack.bankSlots, Stack.bankSlots, ← List.countP_eq_length_filter, ← List.countP_eq_length_filter, List.countP_erase,
    if_pos ⟨hslot, hbank⟩]

theorem State.cores_of_unread {s t : State} (h : t.unread = s.unread) : t.cores = s.cores := by
  have e := congrArg (fun u : State => u.cores) h
  exact e

theorem State.stale_of_unread {s t : State} (h : t.unread = s.unread) : t.stale = s.stale := by
  have e := congrArg (fun u : State => u.stale) h
  exact e

section
variable {s : State} {st bank : Nat} {q : Slot} {urg : Bool}

/-- The state in which the sorter of stack st serves a request that it has picked. -/
def State.servedFrom (s : State) (st bank : Nat) (q : Slot) (urg : Bool) : State := s.setStk st ((s.stk st).turnTo bank q urg)

theorem State.stk_servedFrom (s : State) (st bank : Nat) (q : Slot) (urg : Bool) :
    ∃ urgent rows hits, (s.servedFrom st bank q urg).stk st = { s.stk st with urgent, openRow := rows, hits } := by
  rw [State.servedFrom, State.stk_setStk]
  exact Stack.turnTo_with _ bank q urg

variable (hst : st < 16) (hready : (s.stk st).state = .ready) (hpick : (s.stk st).pick bank s.env.ticks = some (q, urg))
  (hmesh : (s.stk st).meshQ = []) (hsrc : (s.stk st).srcQ = [])
include hst hready hpick hmesh hsrc

/-- What becomes of a write that is served, stack by stack. -/
theorem exec_service_write (hwrite : q.req.write = true) : ∃ t, exec (.stackRequestService st bank []) s = .next t
    ∧ (t.stk st).slots = (s.stk st).slots.erase q ∧ (∀ j, j ≠ st → t.stk j = s.stk j) ∧ t.cores = s.cores
    ∧ t.stale = s.stale ++ (s.stk st).notesFor q.req.block
    ∧ (t.stk st).responses = (s.stk st).responses
        ++ (if q.acked then [] else [.ack q.req.src q.req.tag ((s.stk st).notesFor q.req.block)])
    ∧ (t.stk st).words = (((s.servedFrom st bank q urg).storeWrite st q).stk st).words
    ∧ (((s.stk st).bankSlots bank).length = 41 → ∀ w ∈ (s.stk st).waiters, w.1 = bank → w ∈ (t.stk st).bankOpens) := by
  obtain ⟨urgent, rows, hits, hx⟩ := s.stk_servedFrom st bank q urg
  set x := s.servedFrom st bank q urg with hxdef
  have hnotes : (x.stk st).notesFor q.req.block = (s.stk st).notesFor q.req.block := by rw [hx]; rfl
  obtain ⟨staleNotices, hkept⟩ := x.uncoded_storeWrite st q
  obtain ⟨mem, upsets, poisoned, ue, ce, eccCe, eccUe, logKind, logAddr, hstore⟩ := Stack.with_of_uncoded hkept
  have hserve := State.stk_serve_write (s := x) (st := st) hwrite
  have hunread := State.serve_write_unread (s := x) (st := st) hwrite
  rw [hstore, hnotes, hx] at hserve
  rw [hnotes] at hunread
  obtain ⟨opens, waiters, hafter, hfalls⟩ := State.openBank_pump (v := x.serve st q) (st := st) bank ((s.stk st).bankSlots bank).length
    (by rw [hserve]; exact hmesh) (by rw [hserve]; exact hsrc)
  refine ⟨_, (exec_stackRequestService hst hready hpick).trans (congrArg _ hafter), ?_⟩
  rw [State.stk_setStk, hserve, hstore]
  refine ⟨rfl, fun j hj => ?_, (State.cores_of_unread hunread :), (State.stale_of_unread hunread :), rfl, rfl, fun h41 w hw hbank => ?_⟩
  · rw [State.stk_setStk_other _ _ _ hj, State.stk_serve_write_other hwrite hj, hxdef, State.servedFrom, State.stk_setStk_other _ _ _ hj]
  · rw [hserve] at hfalls
    have hfall : ((s.stk st).bankSlots bank).length - 1 ≤ 40 := by omega
    rw [← Stack.length_bankSlots_erase (Stack.mem_of_pick hpick)] at hfall
    exact hfalls (by omega) hfall w hw hbank

/-- What becomes of a read that is served in a stack with no upset or poisoned codeword. -/
theorem exec_service_read (hread : q.req.write = false) (hpoison : (s.stk st).poisoned = []) (hupset : (s.stk st).upsets = []) :
    ∃ t, exec (.stackRequestService st bank []) s = .next t
    ∧ (t.stk st).words = (s.stk st).words
    ∧ (t.stk st).slots = (s.stk st).slots.filter (fun p => !(((s.stk st).mergedWith q).contains p))
    ∧ (∀ j, j ≠ st → t.stk j = s.stk j)
    ∧ (t.stk st).responses = (s.stk st).responses ++ (((s.stk st).mergedWith q).filter (fun p => p.req.src != .scrub)).map (fun p =>
        .data p.req.src p.req.tag (mread (s.stk st).mem (q.req.block * 256) 256) (List.replicate 4 false))
    ∧ ((s.stk st).ranges.length + ((s.stk st).mergedWith q).length ≤ 1024 → ∀ p ∈ (s.stk st).mergedWith q, ∀ c g h,
        p.req.guard = some (c, g) → (s.core c).guard g = some h → (t.stk st).Watches c h.uid p.req.block) := by
  obtain ⟨urgent, rows, hits, hx⟩ := s.stk_servedFrom st bank q urg
  set x := s.servedFrom st bank q urg with hxdef
  set ms := (s.stk st).mergedWith q with hms
  have hmerged : (x.stk st).mergedWith q = ms := by rw [hx]; rfl
  have hserve := State.serve_read (s := x) (st := st) hread (by rw [hx]; exact hupset) (by rw [hx]; exact hpoison)
  have hwatch := x.watchReads_unranged st ms
  have hkept := State.kept_of_offStk hwatch
  obtain ⟨ranges, watchMiss, hranges⟩ : ∃ ranges watchMiss, (x.watchReads st ms).stk st = { x.stk st with ranges, watchMiss } :=
    Stack.with_of_unranged hkept
  have hstk := State.stk_sendData ((x.watchReads st ms).updStk st (fun t => { t with slots := t.slots.filter (fun p => !(ms.contains p)) }))
    st ((mread (s.stk st).mem (q.req.block * 256) 256).map (fun b => (b, false))) (ms.filter (fun p => p.req.src != .scrub))
  have hmem : (x.stk st).mem = (s.stk st).mem := by rw [hx]
  rw [hmerged, hmem] at hserve
  rw [← hserve, State.stk_updStk, hranges, hx] at hstk
  obtain ⟨opens, waiters, hafter, -⟩ := State.openBank_pump (v := x.serve st q) (st := st) bank ((s.stk st).bankSlots bank).length
    (by rw [hstk]; exact hmesh) (by rw [hstk]; exact hsrc)
  refine ⟨_, (exec_stackRequestService hst hready hpick).trans (congrArg _ hafter), ?_⟩
  rw [State.stk_setStk, hstk]
  refine ⟨rfl, rfl, fun j hj => ?_, ?_, fun hroom p hp c g h hguard hcore => ?_⟩
  · rw [State.stk_setStk_other _ _ _ hj, hserve, State.stk_sendData_other _ _ _ _ hj, State.stk_updStk_other _ _ _ hj,
      State.stk_of_offStk hwatch hj, hxdef, State.servedFrom, State.stk_setStk_other _ _ _ hj]
  · have hbytes : ((mread (s.stk st).mem (q.req.block * 256) 256).map (fun b => ((b, false) : PByte))).map (·.1)
        = mread (s.stk st).mem (q.req.block * 256) 256 := by
      rw [List.map_map]
      exact List.map_id _
    have hmarks : (List.range 4).map (fun i => marked ((((mread (s.stk st).mem (q.req.block * 256) 256).map
        (fun b => ((b, false) : PByte))).drop (64 * i)).take 64)) = List.replicate 4 false := by
      rw [List.map_congr_left fun i _ => marked_clean _ _ _]
      rfl
    rw [hbytes, hmarks]
  · have hroom' : (x.stk st).ranges.length + ms.length ≤ 1024 := by rw [hx]; exact hroom
    have h := State.watchReads_room hroom' p hp c g h hguard hcore
    rw [hranges] at h
    exact h

end

/-! ### Re-copies (R323) -/

/-- The state after the blocks of a guard's descriptor have got into watch ranges and its rows have been copied again. -/
def State.recopyMoves (s : State) (c g : Nat) (q : Guard) : State :=
  ((s.watchBlocks c g (srcBlocks (rdesc q.desc) (rdesc q.desc).rows)).rowsMove c q.reel
    ((s.watchBlocks c g (srcBlocks (rdesc q.desc) (rdesc q.desc).rows)).ctx (rdesc q.desc).ctx).gen (rdesc q.desc)
    { copy := some (c, g) } [] 0 (rdesc q.desc).rows).1

theorem State.recopyMoves_units (s : State) (c g : Nat) (q : Guard) : (s.recopyMoves c g q).units = s.units := by
  rw [State.recopyMoves, State.rowsMove_units]
  exact State.units_of_unitsAcc (s.watchBlocks_unitsAcc c g _)

section
variable {s : State} {c g : Nat} {q : Guard}

theorem State.recopied_clean (hagain : q.again = false) : s.recopied c g q =
    (s.recopyMoves c g q).updGuard c g (fun q => { q with stale := false, copying := false, recopies := 0 }) :=
  if_pos (by rw [hagain]; rfl)

theorem State.recopied_again (hagain : q.again = true) (hfew : q.recopies < 7) : s.recopied c g q =
    (s.recopyMoves c g q).updGuard c g (fun q => { q with again := false, recopies := q.recopies + 1 }) :=
  (if_neg (by simp [hagain])).trans (if_neg (Nat.not_le_of_lt hfew))

theorem State.recopied_ends (hagain : q.again = true) (hmany : 7 ≤ q.recopies) : s.recopied c g q =
    ((s.recopyMoves c g q).endGuard c g).event 0x21 ((s.recopyMoves c g q).logNum c)
      (q.reel * 0x10000 + q.ringIdx) :=
  (if_neg (by simp [hagain])).trans (if_pos hmany)

theorem State.recopied_units (s : State) (c g : Nat) (q : Guard) : (s.recopied c g q).units = s.units := by
  rw [← s.recopyMoves_units c g q]
  by_cases hagain : q.again = true
  · rcases Nat.lt_or_ge q.recopies 7 with h | h
    · rw [State.recopied_again hagain h]
      exact State.updCore_units _ c fun _ => rfl
    · rw [State.recopied_ends hagain h, State.event_units, State.endGuard_units]
  · rw [State.recopied_clean (Bool.eq_false_iff.mpr hagain)]
    exact State.updCore_units _ c fun _ => rfl

/-- A change of the guards with one number shows in each of them. -/
theorem State.mem_guards_updGuard {f : Guard → Guard} {p : Nat × Guard} (hp : p ∈ ((s.updGuard c g f).core c).guards)
    (hg : p.1 = g) : ∃ u, p.2 = f u := by
  rw [State.updGuard, State.core_updCore] at hp
  obtain ⟨r, -, hr⟩ := List.mem_map.mp hp
  by_cases h : r.1 = g
  · rw [if_pos h] at hr
    exact ⟨r.2, by rw [← hr]⟩
  · rw [if_neg h] at hr
    exact absurd (hr ▸ hg) h

/-- No guard has the number of one that has ended (R324). -/
theorem State.guards_endGuard (s : State) (c g : Nat) : ∀ p ∈ ((s.endGuard c g).core c).guards, p.1 ≠ g := by
  unfold State.endGuard
  split
  next hnone =>
    intro p hp hg
    exact List.find?_eq_none.mp hnone p hp (by simpa using hg)
  next =>
    intro p hp
    rw [State.core_dropRanges, State.core_updCore] at hp
    simpa using (List.mem_filter.mp hp).2

theorem exec_guardRecopyDone (hfind : (s.core c).guards.find? (fun p => p.1 == g) = some (g, q)) (hcopying : q.copying = true)
    (hfirst : q.first = false) (hruns : s.coreRuns c = true) (hserved : s.coreServed c (fun s => s.recopied c g q) = true) :
    exec (.guardRecopyDone c g) s = .next (((s.withAcc (s.agent c)).recopied c g q).withAcc s.acc) := by
  have hfind' : ((s.withAcc (s.agent c)).core c).guards.find? (fun p => p.1 == g) = some (g, q) := hfind
  have hruns' : (s.withAcc (s.agent c)).coreRuns c = true := hruns
  refine congrArg Host.Outcome.next (State.access_of_stop_none ?_ (State.stop_of_coreServed (f := fun s => s.recopied c g q) hserved))
  simp only [hfind', hcopying, hfirst, hruns', Bool.not_true, Bool.or_self, Bool.false_eq_true, if_false]

end

/-- Settles O37: the request that is served is a write or a read, and what a re-copy does to its guard follows its copy. -/
theorem stackService : Obligations.StackService := by
  unfold Obligations.StackService
  refine ⟨fun st bank s q urg hst hready hpick hpoison hupset hmesh hsrc => ?_, fun c g q s hfind hcopying hfirst hruns hserved => ?_⟩
  · obtain ⟨hslot, -⟩ := List.mem_filter.mp (Stack.mem_of_pick hpick)
    obtain ⟨urgent, rows, hits, hx⟩ := s.stk_servedFrom st bank q urg
    refine ⟨fun hwrite => ?_, fun hread => ?_⟩
    · obtain ⟨t, hexec, hslots, hother, hcores, hstale, hresp, hwords, hopens⟩ :=
        exec_service_write hst hready hpick hmesh hsrc hwrite
      have hup : ((s.servedFrom st bank q urg).stk st).upsets = [] := by rw [hx]; exact hupset
      refine ⟨t, hexec, hslots, hother, hcores, hstale, hresp, fun hwhole => ?_, fun hbad => ?_, hopens⟩
      · have hclean := State.words_storeWrite_clean hup (by rw [hx]; exact hpoison) hwhole
        rw [hx] at hclean
        obtain ⟨hmem, -, hpois⟩ : _ ∧ _ ∧ _ := by simpa only [Stack.words, Prod.mk.injEq] using hwords.trans hclean
        exact ⟨hmem, hpois⟩
      · obtain ⟨hmem, -, hpois⟩ : _ ∧ _ ∧ _ := by simpa only [Stack.words, Prod.mk.injEq] using hwords
        obtain ⟨hsame, hall⟩ := State.storeWrite_poisons hup hbad
        rw [hx] at hsame
        exact ⟨hmem.trans hsame, fun i hi => hpois ▸ hall i hi⟩
    · obtain ⟨t, hexec, hwords, hslots, hother, hresp, hwatch⟩ :=
        exec_service_read hst hready hpick hmesh hsrc hread hpoison hupset
      obtain ⟨hmem, -, hpois⟩ : _ ∧ _ ∧ _ := by simpa only [Stack.words, Prod.mk.injEq] using hwords
      refine ⟨t, hexec, hmem, hpois.trans hpoison, hslots, ?_, hother, fun p hp hsrc => ?_, fun p hp c g h hguard hcore hroom => ?_⟩
      · rw [hslots]
        have hq : q ∈ (s.stk st).mergedWith q := mem_mergedReads hslot hread
        exact fun h => by simpa [hq] using (List.mem_filter.mp h).2
      · rw [hresp]
        exact List.mem_append_right _ (List.mem_map.mpr ⟨p, List.mem_filter.mpr ⟨hp, by simpa using hsrc⟩, rfl⟩)
      · have h := hwatch hroom p hp c g h hguard hcore
        rwa [block_of_mem_mergedReads hp] at h
  · rw [exec_guardRecopyDone hfind hcopying hfirst hruns hserved]
    have hunits := (s.withAcc (s.agent c)).recopied_units c g q
    refine ⟨_, rfl, (congrArg Core.credit (State.still_of_units hunits c) :), fun hagain p hp hg => ?_, fun hagain hfew p hp hg => ?_,
      fun hagain hmany => ?_⟩
    · rw [State.core_withAcc, State.recopied_clean hagain] at hp
      obtain ⟨u, hu⟩ := State.mem_guards_updGuard hp hg
      rw [hu]
      exact ⟨rfl, rfl, rfl⟩
    · rw [State.core_withAcc, State.recopied_again hagain hfew] at hp
      obtain ⟨u, hu⟩ := State.mem_guards_updGuard hp hg
      rw [hu]
    · rw [State.recopied_ends hagain hmany]
      refine ⟨State.guards_endGuard _ c g, List.mem_append_right _ (List.mem_singleton.mpr ?_)⟩
      rw [State.logNum_of_rig (State.rig_of_units ((s.withAcc (s.agent c)).recopyMoves_units c g q))]
      rfl

end Sys2Proof.Machine
end

section
/-! The stack link (R303 to R306): its frames' bytes, its lanes, and what becomes of a frame that comes in, for O38. -/

namespace Sys2Proof.Machine

open Sys2Proof

/-! ### CRC-32C and the bytes of a frame (R304) -/

theorem crcBits_lt (n : Nat) {r : Nat} (h : r < 2 ^ 32) : crcBits n r < 2 ^ 32 := by
  induction n generalizing r with
  | zero => exact h
  | succ n ih =>
    have hhalf : r / 2 < 2 ^ 32 := (Nat.div_le_self r 2).trans_lt h
    rw [crcBits]
    refine ih ?_
    split
    · exact Nat.xor_lt_two_pow hhalf (by decide)
    · exact hhalf

theorem crcBytes_lt (bs : List Byte) {r : Nat} (h : r < 2 ^ 32) : crcBytes r bs < 2 ^ 32 := by
  induction bs generalizing r with
  | nil => exact h
  | cons b t ih => exact ih (crcBits_lt 8 (Nat.xor_lt_two_pow h (b.isLt.trans (by decide))))

theorem crc32c_lt (bs : List Byte) : crc32c bs < 2 ^ 32 :=
  Nat.xor_lt_two_pow (crcBytes_lt bs (by decide)) (by decide)

theorem length_linkBody (seq : Nat) (f : LinkFrame) : (linkBody seq f).length = 272 := by
  simp only [linkBody, linkHeader, List.length_append, length_leBytes, List.length_take, List.length_replicate]
  omega

/-- The CRC of a frame that comes in as it was sent checks. -/
theorem linkCrcOk_linkBytes (seq : Nat) (f : LinkFrame) : linkCrcOk (linkBytes seq f) = true := by
  have hlen := length_linkBody seq f
  have hbody : (linkBytes seq f).take 272 = linkBody seq f := List.take_left' hlen
  have hcrc : (linkBytes seq f).drop 272 = leBytes 4 (crc32c (linkBody seq f)) := List.drop_left' hlen
  have hfour : (leBytes 4 (crc32c (linkBody seq f))).take 4 = leBytes 4 (crc32c (linkBody seq f)) :=
    List.take_of_length_le (length_leBytes 4 _).le
  rw [linkCrcOk, leAt, hbody, hcrc, hfour, ofLe_leBytes, Nat.mod_eq_of_lt (show _ < 256 ^ 4 from crc32c_lt _)]
  exact beq_self_eq_true _

/-- The first byte of a frame is its SEQ (R303). -/
theorem leAt_linkBytes_seq {seq : Nat} (h : seq < 256) (f : LinkFrame) : leAt (linkBytes seq f) 0 1 = seq := by
  change (BitVec.ofNat 8 seq).toNat + 256 * 0 = seq
  rw [BitVec.toNat_ofNat, Nat.mul_zero, Nat.add_zero, Nat.mod_eq_of_lt h]

/-! ### The lanes of a link -/

section
variable (t : Stack) (d : Bool) (e : LinkEnd)

@[simp] theorem Stack.lane_setLane : (t.setLane d e).lane d = e := by cases d <;> rfl

@[simp] theorem Stack.lane_setLane_other : (t.setLane d e).lane (!d) = t.lane (!d) := by cases d <;> rfl

@[simp] theorem Stack.setLane_setLane (e' : LinkEnd) : (t.setLane d e).setLane d e' = t.setLane d e' := by cases d <;> rfl

/-- The transmitter sends again what it keeps from SEQ n on, and counts it (R305). -/
theorem Stack.resendFrom_setLane (n : Nat) : (t.setLane d e).resendFrom d n =
    { t.setLane d { e with wire := e.wire ++ e.from' n } with resends := cnt t.resends (e.from' n).length } := by
  cases d <;> rfl

end

/-! ### A frame that comes in (R305, R306) -/

section
variable {s : State} {st : Nat} {d : Bool} {e : LinkEnd} {seq : Nat} {w : List Nat} {bs : List Byte}

/-- The state in which the receiver of stack st looks at the frame that has left the wire. -/
def State.offWire (s : State) (st : Nat) (d : Bool) (e : LinkEnd) (w : List Nat) : State :=
  s.setStk st ((s.stk st).setLane d { e with wire := w })

theorem exec_stackLinkFrame {send : Bool} {f g : LinkFrame} {ups : List (Nat × Nat)} (hst : st < 16)
    (hup : (s.stk st).linkUp = true) (he : (if send then ((s.stk st).lane d).send f else (s.stk st).lane d) = e)
    (hwire : e.wire = seq :: w) (hheld : e.held.find? (fun p => p.1 == seq) = some (seq, g)) :
    exec (.stackLinkFrame st d send f ups) s =
      .next ((s.offWire st d e w).linkReceive st d seq (upsetBytes (linkBytes seq g) ups)) := by
  refine congrArg Host.Outcome.next ?_
  dsimp only
  rw [if_neg (by simp [hst, hup]), he, hwire]
  dsimp only
  rw [hheld]
  rfl

theorem State.stk_offWire (s : State) (st : Nat) (d : Bool) (e : LinkEnd) (w : List Nat) :
    (s.offWire st d e w).stk st = (s.stk st).setLane d { e with wire := w } := s.stk_setStk st _

/-- The lane of a receiver that has accepted the frame it expects (R305). -/
def LinkEnd.accepts (e : LinkEnd) (now : Nat) : LinkEnd :=
  let e := { e with expect := (e.expect + 1) % 256, fails := 0, naked := false, owed := e.owed + 1,
                    owedAt := if e.owed = 0 then now else e.owedAt }
  if 8 ≤ e.owed then e.ack else e

theorem State.linkReceive_accepts (hseq : leAt bs 0 1 = e.expect) (hcrc : linkCrcOk bs = true) :
    (s.offWire st d e w).linkReceive st d seq bs =
      (s.setStk st ((s.stk st).setLane d (({ e with wire := w } : LinkEnd).accepts s.env.ticks))).linkTake st d (linkFields bs) := by
  unfold State.linkReceive
  dsimp only
  rw [State.stk_offWire, Stack.lane_setLane, if_pos ⟨hseq, hcrc⟩, Stack.setLane_setLane, State.offWire, State.setStk_stk_setStk]
  rfl

section
variable (hbad : ¬(leAt bs 0 1 = e.expect ∧ linkCrcOk bs = true))
include hbad

theorem State.linkReceive_retrains (hseq : seq = e.expect) (hmany : 7 ≤ e.fails) :
    (s.offWire st d e w).linkReceive st d seq bs = s.setStk st { (s.stk st).setLane d { e with wire := w } with
      state := .retraining
      toStack := ((s.stk st).setLane d { e with wire := w }).toStack.cut
      toDie := ((s.stk st).setLane d { e with wire := w }).toDie.cut } := by
  unfold State.linkReceive
  dsimp only
  rw [State.stk_offWire, Stack.lane_setLane, if_neg hbad, if_pos hseq, if_pos (Nat.succ_le_succ hmany), State.offWire,
    State.setStk_stk_setStk]

theorem State.linkReceive_fails (hseq : seq = e.expect) (hfew : ¬7 ≤ e.fails) :
    (s.offWire st d e w).linkReceive st d seq bs = s.setStk st
      { (s.stk st).setLane d { e with wire := w ++ e.from' e.expect, fails := e.fails + 1, naked := true } with
        resends := cnt (s.stk st).resends (e.from' e.expect).length } := by
  unfold State.linkReceive
  dsimp only
  rw [State.stk_offWire, Stack.lane_setLane, if_neg hbad, if_pos hseq, if_neg (fun h => hfew (Nat.le_of_succ_le_succ h)),
    State.offWire, State.setStk_stk_setStk, Stack.setLane_setLane, Stack.resendFrom_setLane]
  rfl

theorem State.linkReceive_outOfTurn (hseq : seq ≠ e.expect) :
    (s.offWire st d e w).linkReceive st d seq bs = s.setStk st
      (if e.naked then (s.stk st).setLane d { e with wire := w }
       else { (s.stk st).setLane d { e with wire := w ++ e.from' e.expect, naked := true } with
              resends := cnt (s.stk st).resends (e.from' e.expect).length }) := by
  unfold State.linkReceive
  dsimp only
  rw [State.stk_offWire, Stack.lane_setLane, if_neg hbad, if_neg hseq]
  split
  · rfl
  · rw [State.offWire, State.setStk_stk_setStk, Stack.setLane_setLane, Stack.resendFrom_setLane]
    rfl

end

end

/-! ### What an accepted frame does (R303) -/

/-- A stack without what an accepted frame changes as it takes effect. -/
def Stack.untaken (t : Stack) : Stack := { t.unasked with awaitData := [] }

theorem State.untaken_of_offSorter {s t : State} {st : Nat} (h : t.offSorter st = s.offSorter st) :
    t.offStk Stack.untaken st = s.offStk Stack.untaken st :=
  State.offStk_eq (congrArg (fun u : Stack => { u with awaitData := [] }) (State.kept_of_offStk h))
    fun _ hj => State.stk_of_offStk h hj

theorem State.updStk_untaken (s : State) (st : Nat) {f : Stack → Stack} (h : ∀ t : Stack, (f t).untaken = t.untaken) :
    (s.updStk st f).offStk Stack.untaken st = s.offStk Stack.untaken st := s.updStk_offStk st h

/-- Requests of an accepted frame wake the stack and meet the sorter. -/
theorem State.wakeArrive_untaken (s : State) (st : Nat) (l : List StackReq) :
    ((s.wakeStk st).arriveAll st l).offStk Stack.untaken st = s.offStk Stack.untaken st :=
  State.untaken_of_offSorter ((State.arriveAll_offSorter _ st l).trans (s.wakeStk_offSorter st))

theorem State.linkTake_untaken (s : State) (st : Nat) (d : Bool) (f : LinkFrame) :
    (s.linkTake st d f).offStk Stack.untaken st = s.offStk Stack.untaken st := by
  unfold State.linkTake
  dsimp only
  split
  · split
    · exact (State.wakeArrive_untaken _ st _).trans (s.updStk_untaken st fun _ => rfl)
    · split
      · split
        · rfl
        · exact (State.wakeArrive_untaken _ st _).trans (s.updStk_untaken st fun _ => rfl)
      · rfl
  · split
    · exact s.updStk_untaken st fun _ => rfl
    · rfl

/-! ### The state of a stack whose requests go on -/

@[simp] theorem State.state_inMesh (s : State) (st : Nat) (q : StackReq) : ((s.inMesh st q).stk st).state = (s.stk st).state := by
  rw [State.inMesh, State.stk_updStk]

@[simp] theorem State.state_sorter (s : State) (st : Nat) (q : StackReq) : ((s.sorter st q).stk st).state = (s.stk st).state := by
  by_cases hfault : (s.stk st).state = .fault
  · rw [State.sorter_fault hfault, State.respond, State.stk_updStk]
  by_cases hgo : (s.stk st).state = .ready ∧ (s.stk st).slots.length < 6144
  · rw [State.sorter_ready hgo.1 hgo.2]
    split
    · rw [State.stk_bankHold]
    split
    · change ((s.updStk st fun t => { t with genDrops := cnt t.genDrops 1 }).stk st).state = _
      rw [State.stk_updStk]
    · rw [State.stk_takeReq]
  · rw [State.sorter_waits hfault (Decidable.not_and_iff_or_not.mp hgo |>.imp_right Nat.le_of_not_lt), State.state_inMesh]

@[simp] theorem State.state_arriveAll (s : State) (st : Nat) (l : List StackReq) :
    ((s.arriveAll st l).stk st).state = (s.stk st).state := by
  induction l generalizing s with
  | nil => rfl
  | cons q l ih =>
    rw [State.arriveAll, ih]
    split
    · exact s.state_sorter st q
    · exact s.state_inMesh st q

/-- A stack that is ready stays so as requests go on. -/
theorem State.submitAll_ready {s : State} {st : Nat} (h : (s.stk st).state = .ready) (l : List StackReq) :
    ((s.submitAll st l).stk st).state = .ready := by
  induction l generalizing s with
  | nil => exact h
  | cons q l ih =>
    rw [State.submitAll]
    refine ih ?_
    split
    · rw [State.inSource, State.stk_updStk]
      exact h
    · rw [State.state_arriveAll, State.stk_wakeStk, Stack.awake_eq_self (by simp [h]), h]

theorem State.pump_ready {s : State} {st : Nat} (h : (s.stk st).state = .ready) : ((s.pump st).stk st).state = .ready := by
  unfold State.pump
  dsimp only
  refine State.submitAll_ready ?_ _
  rw [State.stk_updStk, State.state_arriveAll, State.stk_updStk, h]

/-- A stack whose requests wake it does not begin to retrain. -/
theorem State.wakeArrive_ne_retraining {s : State} {st : Nat} (h : (s.stk st).state ≠ .retraining) (l : List StackReq) :
    (((s.wakeStk st).arriveAll st l).stk st).state ≠ .retraining := by
  rw [State.state_arriveAll, State.stk_wakeStk, Stack.awake]
  split
  · exact nofun
  · exact h

theorem State.linkTake_ne_retraining {s : State} {st : Nat} (h : (s.stk st).state ≠ .retraining) (d : Bool) (f : LinkFrame) :
    ((s.linkTake st d f).stk st).state ≠ .retraining := by
  unfold State.linkTake
  dsimp only
  split
  · split
    · refine State.wakeArrive_ne_retraining ?_ _
      rw [State.stk_updStk]
      exact h
    · split
      · split
        · exact h
        · refine State.wakeArrive_ne_retraining ?_ _
          rw [State.stk_updStk]
          exact h
      · exact h
  · split
    · rw [State.stk_updStk]
      exact h
    · exact h

/-- Read data of a frame for the die leaves for its source (R303). -/
theorem State.linkTake_readData {s : State} {st : Nat} {f : LinkFrame} (hkind : f.kind = 3) {tag : Nat} {bytes : List Byte}
    {ps : List Bool} (hresp : (s.stk st).responses = [.data (srcOf f.src) tag bytes ps]) (htag : tag = f.tag) :
    ((s.linkTake st false f).stk st).responses = [] := by
  unfold State.linkTake
  dsimp only
  rw [if_neg Bool.false_ne_true, if_pos hkind, State.stk_updStk]
  dsimp only
  rw [hresp, List.find?_cons_of_pos (by simp [htag])]
  exact List.erase_cons_head _ _

/-- Write data that was awaited completes its request, which meets the sorter (R303). -/
theorem State.linkTake_writeData {s : State} {st : Nat} {f : LinkFrame} (hkind : f.kind = 2) {r : StackReq}
    (hawait : (s.stk st).awaitData = [r]) (hsrc : r.src = srcOf f.src) (htag : r.tag = f.tag) (hblock : r.block = f.block) :
    s.linkTake st true f = ((s.updStk st (fun t => { t with awaitData := t.awaitData.erase r })).wakeStk st).arriveAll st
      [{ r with data := f.payload, poison := bit 15 f.flags }] := by
  unfold State.linkTake
  dsimp only
  rw [if_pos rfl, if_neg (by simp [hkind]), if_pos hkind, hawait, List.find?_cons_of_pos (by simp [linkRequest, hsrc, htag, hblock])]
  simp [linkRequest, hkind]

end Sys2Proof.Machine
end

section
/-! O38: the stack link (R303 to R306), scrub, refresh and self-refresh (R311, R327, R328). -/

namespace Sys2Proof.Machine

open Sys2Proof

/-! ### A frame that is accepted, fails, or is out of turn (R305, R306) -/

/-- What a receiver's lane is once it has accepted a frame; it acknowledges at the eighth. -/
theorem LinkEnd.accepts_with (e : LinkEnd) (now : Nat) : ∃ held owedAt, e.accepts now =
    { e with held, owedAt, expect := (e.expect + 1) % 256, fails := 0, naked := false,
             owed := if 7 ≤ e.owed then 0 else e.owed + 1 } := by
  by_cases h : 7 ≤ e.owed
  · exact ⟨_, if e.owed = 0 then now else e.owedAt, by rw [if_pos h]; exact if_pos (Nat.succ_le_succ h)⟩
  · exact ⟨e.held, if e.owed = 0 then now else e.owedAt, by
      rw [if_neg h]; exact if_neg fun h8 => h (Nat.le_of_succ_le_succ h8)⟩

section
variable {s t : State} {st : Nat} {d : Bool} {e : LinkEnd}

/-- The state once the receiver of stack st has the lane e and takes a frame. -/
def State.tookFrame (s : State) (st : Nat) (d : Bool) (e : LinkEnd) (f : LinkFrame) : State :=
  (s.setStk st ((s.stk st).setLane d e)).linkTake st d f

theorem State.tookFrame_kept (s : State) (st : Nat) (d : Bool) (e : LinkEnd) (f : LinkFrame) :
    ((s.tookFrame st d e f).stk st).untaken = ((s.stk st).setLane d e).untaken := by
  rw [State.tookFrame, State.kept_of_offStk (State.linkTake_untaken _ st d f), State.stk_setStk]

theorem State.stk_tookFrame_other (s : State) {st j : Nat} (hj : j ≠ st) (d : Bool) (e : LinkEnd) (f : LinkFrame) :
    (s.tookFrame st d e f).stk j = s.stk j := by
  rw [State.tookFrame, State.stk_of_offStk (State.linkTake_untaken _ st d f) hj, State.stk_setStk_other _ _ _ hj]

theorem State.lane_tookFrame (s : State) (st : Nat) (d b : Bool) (e : LinkEnd) (f : LinkFrame) :
    ((s.tookFrame st d e f).stk st).lane b = ((s.stk st).setLane d e).lane b :=
  have h := congrArg (fun u : Stack => u.lane b) (s.tookFrame_kept st d e f)
  by cases b <;> exact h

theorem State.mem_tookFrame (s : State) (st : Nat) (d : Bool) (e : LinkEnd) (f : LinkFrame) :
    ((s.tookFrame st d e f).stk st).mem = (s.stk st).mem :=
  (congrArg Stack.mem (s.tookFrame_kept st d e f)).trans (by cases d <;> rfl)

/-- A link that is up does not begin to retrain as its receiver takes a frame. -/
theorem State.tookFrame_ne_retraining (hup : (s.stk st).linkUp = true) (d : Bool) (e : LinkEnd) (f : LinkFrame) :
    ((s.tookFrame st d e f).stk st).state ≠ .retraining := by
  refine State.linkTake_ne_retraining ?_ d f
  rw [State.stk_setStk]
  intro h
  have h : (s.stk st).state = .retraining := by cases d <;> exact h
  rw [Stack.linkUp, h] at hup
  exact absurd hup (by decide)

/-- The read data that a frame carries has left its stack for its source once the die takes the frame (R303). -/
theorem State.tookFrame_readData {f : LinkFrame} (hkind : f.kind = 3) {bytes : List Byte} {ps : List Bool}
    (hresp : (s.stk st).responses = [.data (srcOf f.src) f.tag bytes ps]) :
    ((s.tookFrame st false e f).stk st).responses = [] := by
  refine State.linkTake_readData hkind (bytes := bytes) (ps := ps) ?_ rfl
  rw [State.stk_setStk]
  exact hresp

/-- A ready stack that holds nothing admits a request of no context (R312, R325). -/
theorem State.arriveAll_empty {v : State} {q : StackReq} (hready : (v.stk st).state = .ready) (hmesh : (v.stk st).meshQ = [])
    (hslots : (v.stk st).slots = []) (hctx : q.ctx = 0xFFF) :
    ((v.arriveAll st [q]).stk st).awaitData = (v.stk st).awaitData
      ∧ ∃ x, ((v.arriveAll st [q]).stk st).slots = [x] ∧ x.req = q := by
  have hroom : ((v.stk st).bankSlots (blkBank q.block)).length < 48 := by
    rw [Stack.bankSlots, hslots]
    exact Nat.succ_pos _
  rw [State.arriveAll_first hmesh, State.sorter_takes hready (by rw [hslots]; exact Nat.succ_pos _) hroom (.inl hctx),
    State.stk_takeReq]
  exact ⟨rfl, _, congrArg (· ++ _) hslots, rfl⟩

/-- The write data that a frame carries completes its request, which takes a slot of the sorter (R303, R312). -/
theorem State.tookFrame_writeData {f : LinkFrame} (hup : (s.stk st).linkUp = true) (hkind : f.kind = 2) {r : StackReq}
    (hawait : (s.stk st).awaitData = [r]) (hsrc : r.src = srcOf f.src) (htag : r.tag = f.tag) (hblock : r.block = f.block)
    (hctx : r.ctx = 0xFFF) (hmesh : (s.stk st).meshQ = []) (hslots : (s.stk st).slots = []) :
    ((s.tookFrame st true e f).stk st).awaitData = []
      ∧ ∃ x, ((s.tookFrame st true e f).stk st).slots = [x] ∧ x.req = { r with data := f.payload, poison := bit 15 f.flags } := by
  have hstate : (s.stk st).state = .ready ∨ (s.stk st).state = .selfRefresh := by simpa [Stack.linkUp] using hup
  have hsel : (s.setStk st ((s.stk st).setLane true e)).stk st = { s.stk st with toStack := e } := State.stk_setStk _ st _
  have htaken : ((s.setStk st ((s.stk st).setLane true e)).updStk st (fun t => { t with awaitData := t.awaitData.erase r })).stk st
      = { s.stk st with toStack := e, awaitData := [] } := by
    have herase : (s.stk st).awaitData.erase r = [] := by rw [hawait, List.erase_cons_head]
    rw [State.stk_updStk, hsel]
    exact congrArg (fun l => { s.stk st with toStack := e, awaitData := l }) herase
  have hawake : (((s.setStk st ((s.stk st).setLane true e)).updStk st (fun t => { t with awaitData := t.awaitData.erase r })).wakeStk
      st).stk st = { s.stk st with toStack := e, awaitData := [], state := .ready } := by
    rw [State.stk_wakeStk, htaken]
    exact Stack.awake_ready hstate
  have htake : s.tookFrame st true e f = _ :=
    State.linkTake_writeData hkind (by rw [hsel]; exact hawait) hsrc htag hblock
  have hgoes := State.arriveAll_empty (q := { r with data := f.payload, poison := bit 15 f.flags })
    (by rw [hawake]) (by rw [hawake]; exact hmesh) (by rw [hawake]; exact hslots) hctx
  rw [hawake] at hgoes
  rw [htake]
  exact hgoes

end

/-! ### The end of a retrain (R306) -/

/-- One direction of a link after a retrain: what has been accepted is kept no longer, and the rest goes again in order. -/
def Stack.restartLane (t : Stack) (b : Bool) : Stack :=
  match (t.lane b).ack.held with
  | [] => t.setLane b (t.lane b).ack
  | p :: _ => (t.setLane b (t.lane b).ack).resendFrom b p.1

theorem Stack.restart_eq (t : Stack) : t.restart = (t.restartLane true).restartLane false := rfl

theorem Stack.restartLane_with (t : Stack) (b : Bool) : ∃ e resends,
    t.restartLane b = { t.setLane b e with resends } ∧ e.held = (t.lane b).ack.held := by
  unfold Stack.restartLane
  split
  · refine ⟨_, t.resends, ?_, rfl⟩
    cases b <;> rfl
  · exact ⟨_, _, Stack.resendFrom_setLane _ _ _ _, rfl⟩

theorem Stack.restart_with (t : Stack) : ∃ toStack toDie resends, t.restart = { t with toStack, toDie, resends }
    ∧ toStack.held = t.toStack.ack.held ∧ toDie.held = t.toDie.ack.held := by
  obtain ⟨e, n, hto, heldTo⟩ := t.restartLane_with true
  obtain ⟨e', n', hdie, heldDie⟩ := (t.restartLane true).restartLane_with false
  refine ⟨e, e', n', ?_, heldTo, ?_⟩
  · rw [Stack.restart_eq, hdie, hto]
    rfl
  · rw [heldDie, hto]
    rfl

section
variable {s : State} {st : Nat}

/-- A stack that enters FAULT holds no request, and keeps its memory and what it counts (R306). -/
theorem State.stk_stackFault (h : (s.stk st).state ≠ .fault) : ∃ responses, (s.stackFault st).stk st = { s.stk st with
    state := .fault, slots := [], heldReqs := [], meshQ := [], srcQ := [], waiters := [], bankOpens := [], awaitData := [],
    responses } := by
  unfold State.stackFault
  dsimp only
  rw [if_neg h, State.stk_report, State.stk_setStk]
  exact ⟨_, rfl⟩

theorem State.rip_stackFault (h : (s.stk st).state ≠ .fault) :
    (s.stackFault st).rip.last = stackCode st 0x2002 ∧ (s.stackFault st).rip.fault = true := by
  unfold State.stackFault
  dsimp only
  rw [if_neg h]
  exact ⟨rfl, rfl⟩

/-- The retrains of a stack that have ended within the last second, and the one that ends now. -/
def Stack.lately (t : Stack) (now : Nat) : List Nat := t.retrainTimes.filter (fun x => decide (now < x + 50000000)) ++ [now]

/-- A stack as a retrain ends well: it is ready, and its frames go again. -/
def Stack.trainedUp (t : Stack) (now : Nat) : Stack :=
  ({ t with retrains := cnt t.retrains 1, retrained := true, state := .ready, retrainFails := 0,
            retrainTimes := t.lately now } : Stack).restart

theorem Stack.trainedUp_with (t : Stack) (now : Nat) : ∃ toStack toDie resends, t.trainedUp now =
    { t with retrains := cnt t.retrains 1, retrained := true, state := .ready, retrainFails := 0, retrainTimes := t.lately now,
             toStack, toDie, resends } ∧ toStack.held = t.toStack.ack.held ∧ toDie.held = t.toDie.ack.held :=
  Stack.restart_with _

/-- A stack as a retrain fails. -/
def Stack.trainedAmiss (t : Stack) : Stack :=
  { t with retrains := cnt t.retrains 1, retrained := true, retrainFails := t.retrainFails + 1 }

variable (hst : st < 16) (htrain : (s.stk st).state = .retraining)
include hst htrain

theorem exec_retrainDone_ok : exec (.stackLinkRetrainDone st true) s = .next
    (if 8 ≤ ((s.stk st).lately s.env.ticks).length then (s.setStk st ((s.stk st).trainedUp s.env.ticks)).stackFault st
     else (s.setStk st ((s.stk st).trainedUp s.env.ticks)).pump st) := by
  refine congrArg Host.Outcome.next ?_
  dsimp only
  rw [if_neg (by simp [hst, htrain])]
  rfl

theorem exec_retrainDone_fails : exec (.stackLinkRetrainDone st false) s = .next
    (if 3 ≤ (s.stk st).retrainFails + 1 then (s.setStk st (s.stk st).trainedAmiss).stackFault st
     else s.setStk st (s.stk st).trainedAmiss) := by
  refine congrArg Host.Outcome.next ?_
  dsimp only
  rw [if_neg (by simp [hst, htrain])]
  rfl

end

/-- What a retrain that ends well leaves in its stack, whatever the requests that then go on do (R306). -/
structure Stack.Restarted (t u : Stack) : Prop where
  retrains : t.retrains = cnt u.retrains 1
  retrained : t.retrained = true
  mem : t.mem = u.mem
  fails : t.retrainFails = 0
  held : ∀ d, (t.lane d).held = (u.lane d).ack.held

theorem Stack.restarted_trainedUp (u : Stack) (now : Nat) : (u.trainedUp now).Restarted u := by
  obtain ⟨toStack, toDie, resends, h, hto, hdie⟩ := u.trainedUp_with now
  rw [h]
  exact ⟨rfl, rfl, rfl, rfl, fun d => by cases d; exacts [hdie, hto]⟩

theorem Stack.Restarted.of_unasked {t v u : Stack} (h : v.Restarted u) (hkept : t.unasked = v.unasked) : t.Restarted u where
  retrains := (congrArg Stack.retrains hkept).trans h.retrains
  retrained := (congrArg Stack.retrained hkept).trans h.retrained
  mem := (congrArg Stack.mem hkept).trans h.mem
  fails := (congrArg Stack.retrainFails hkept).trans h.fails
  held d := (congrArg LinkEnd.held (congrArg (fun u : Stack => u.lane d) hkept)).trans (h.held d)

theorem Stack.state_trainedUp (u : Stack) (now : Nat) : (u.trainedUp now).state = .ready := by
  obtain ⟨_, _, _, h, -⟩ := u.trainedUp_with now
  rw [h]

theorem Stack.queues_trainedUp (u : Stack) (now : Nat) :
    (u.trainedUp now).meshQ = u.meshQ ∧ (u.trainedUp now).srcQ = u.srcQ ∧ (u.trainedUp now).slots = u.slots := by
  obtain ⟨_, _, _, h, -⟩ := u.trainedUp_with now
  rw [h]
  exact ⟨rfl, rfl, rfl⟩

section
variable (s : State) (st : Nat)

/-- The eighth retrain within a second leaves its stack in FAULT. -/
theorem State.retrain_eighth :
    let t := (s.setStk st ((s.stk st).trainedUp s.env.ticks)).stackFault st
    (t.stk st).Restarted (s.stk st) ∧ (t.stk st).state = .fault ∧ (t.stk st).slots = [] := by
  obtain ⟨responses, h⟩ := State.stk_stackFault (s := s.setStk st ((s.stk st).trainedUp s.env.ticks)) (st := st)
    (by rw [State.stk_setStk, Stack.state_trainedUp]; exact nofun)
  obtain ⟨hretrains, hretrained, hmem, hfails, hheld⟩ := (s.stk st).restarted_trainedUp s.env.ticks
  rw [State.stk_setStk] at h
  dsimp only
  rw [h]
  exact ⟨⟨hretrains, hretrained, hmem, hfails, hheld⟩, rfl, rfl⟩

/-- A retrain that ends well makes its stack ready, and what waited goes on. -/
theorem State.retrain_ready :
    let t := (s.setStk st ((s.stk st).trainedUp s.env.ticks)).pump st
    (t.stk st).Restarted (s.stk st) ∧ (t.stk st).state = .ready
      ∧ ((s.stk st).meshQ = [] → (s.stk st).srcQ = [] → (t.stk st).slots = (s.stk st).slots) := by
  have hstk := s.stk_setStk st ((s.stk st).trainedUp s.env.ticks)
  obtain ⟨hmesh, hsrc, hslots⟩ := (s.stk st).queues_trainedUp s.env.ticks
  refine ⟨((s.stk st).restarted_trainedUp s.env.ticks).of_unasked ?_, State.pump_ready ?_, fun hmesh0 hsrc0 => ?_⟩
  · rw [State.kept_of_offStk (State.pump_offSorter _ st), hstk]
  · rw [hstk, Stack.state_trainedUp]
  · rw [State.pump_idle (by rw [hstk, hmesh, hmesh0]) (by rw [hstk, hsrc, hsrc0]), State.stk_setStk, hstk, hslots]

end

/-! ### The patrol scrub (R308, R309, R311) -/

theorem Stack.strike_with (t : Stack) (ups : List (Nat × Nat × Nat)) : ∃ upsets, t.strike ups = { t with upsets } := by
  induction ups generalizing t with
  | nil => exact ⟨t.upsets, rfl⟩
  | cons p l ih =>
    obtain ⟨upsets, h⟩ := ih { t with upsets := sset [] t.upsets p.1 (sget [] t.upsets p.1 ++ [(p.2.1, p.2.2)]) }
    exact ⟨upsets, h⟩

/-- A word that a codeword takes lies in its 64 bytes. -/
theorem Stack.mem_setWord_other (t : Stack) {cw a : Nat} (w : List Nat) (h : a / 64 ≠ cw) :
    sget 0 (t.setWord cw w).mem a = sget 0 t.mem a := by
  refine mwrite_other _ _ _ _ ?_
  have hlen : ((w.take 64).map (BitVec.ofNat 8)).length ≤ 64 := by
    rw [List.length_map]
    exact List.length_take_le _ _
  omega

theorem Stack.upsets_setWord (t : Stack) (cw : Nat) (w : List Nat) : sget [] (t.setWord cw w).upsets cw = [] :=
  sget_sset_same t.upsets cw []

theorem Stack.upsets_poison (t : Stack) (cw : Nat) : sget [] (t.poison cw).upsets cw = [] :=
  sget_sset_same t.upsets cw []

section
variable (s : State) (st cw : Nat)

theorem State.stk_corr : (s.corr st cw).stk st = { s.stk st with ce := true, eccCe := cnt (s.stk st).eccCe 1 } := by
  have h : (s.setStk st { s.stk st with ce := true, eccCe := cnt (s.stk st).eccCe 1 }).stk st = _ := State.stk_setStk ..
  unfold State.corr
  dsimp only
  split <;> exact h

/-- A stack in which an uncorrectable codeword has been found: the first is logged, each is counted (R309). -/
def Stack.logged (t : Stack) (cw kind : Nat) : Stack :=
  { (if t.ue then t else { t with logKind := kind, logAddr := cw }) with ue := true, eccUe := cnt t.eccUe 1 }

theorem State.stk_uncorr (kind : Nat) : (s.uncorr st cw kind).stk st = (s.stk st).logged cw kind := by
  refine (State.stk_setStk s st _).trans ?_
  unfold Stack.logged
  split <;> rfl

@[simp] theorem State.scrubCw_offWords : (s.scrubCw st cw).offWords st = s.offWords st := by
  unfold State.scrubCw
  dsimp only
  split
  · exact s.senseCw_offWords st cw 2
  · exact ((s.senseCw st cw 2).1.updStk_offStk st (g := fun t => t.poison cw) fun _ => rfl).trans (s.senseCw_offWords st cw 2)

variable {s st cw}

theorem State.stk_scrubCw_none (h : (s.stk st).sense cw = .none) : (s.scrubCw st cw).stk st =
    if sget [] (s.stk st).upsets cw = [] then s.stk st else (s.stk st).setWord cw ((s.stk st).word cw) := by
  unfold State.scrubCw State.senseCw
  dsimp only
  rw [h]
  dsimp only
  rw [if_pos rfl]
  split
  · rfl
  · exact State.stk_setStk ..

theorem State.stk_scrubCw_one {k v : Nat} (h : (s.stk st).sense cw = .one k v) : (s.scrubCw st cw).stk st =
    { (s.stk st).setWord cw (rsUpset ((s.stk st).word cw) [(k, v)]) with ce := true, eccCe := cnt (s.stk st).eccCe 1 } := by
  unfold State.scrubCw State.senseCw
  dsimp only
  rw [h]
  dsimp only
  rw [if_pos rfl, State.stk_corr, State.stk_setStk]
  rfl

theorem State.stk_scrubCw_many (h : (s.stk st).sense cw = .many) : (s.scrubCw st cw).stk st = ((s.stk st).logged cw 2).poison cw := by
  unfold State.scrubCw State.senseCw
  dsimp only
  rw [h]
  dsimp only
  rw [if_neg Bool.false_ne_true, State.stk_updStk, State.stk_uncorr]

theorem Stack.logged_with (t : Stack) (cw kind : Nat) : ∃ logKind logAddr, t.logged cw kind =
    { t with ue := true, eccUe := cnt t.eccUe 1, logKind, logAddr } ∧ (t.ue = false → logKind = kind ∧ logAddr = cw) := by
  unfold Stack.logged
  cases hue : t.ue
  · exact ⟨kind, cw, rfl, fun _ => ⟨rfl, rfl⟩⟩
  · exact ⟨t.logKind, t.logAddr, rfl, nofun⟩

/-- A patrol scrub changes no byte outside its codeword, and leaves no upset in it (R311). -/
theorem State.words_scrubCw (s : State) (st cw : Nat) :
    (∀ a, a / 64 ≠ cw → sget 0 ((s.scrubCw st cw).stk st).mem a = sget 0 (s.stk st).mem a)
      ∧ sget [] ((s.scrubCw st cw).stk st).upsets cw = [] := by
  cases hfound : (s.stk st).sense cw with
  | none =>
    rw [State.stk_scrubCw_none hfound]
    split
    next hclean => exact ⟨fun _ _ => rfl, hclean⟩
    next => exact ⟨fun _ ha => Stack.mem_setWord_other _ _ ha, Stack.upsets_setWord _ _ _⟩
  | one k v =>
    rw [State.stk_scrubCw_one hfound]
    have hword := (s.stk st).upsets_setWord cw (rsUpset ((s.stk st).word cw) [(k, v)])
    exact ⟨fun _ ha => (s.stk st).mem_setWord_other (rsUpset ((s.stk st).word cw) [(k, v)]) ha, hword⟩
  | many =>
    obtain ⟨logKind, logAddr, hlog, -⟩ := (s.stk st).logged_with cw 2
    rw [State.stk_scrubCw_many hfound, hlog]
    exact ⟨fun _ _ => rfl, Stack.upsets_poison _ _⟩

theorem State.scrubCw_unread (s : State) (st cw : Nat) : (s.scrubCw st cw).unread = s.unread := by
  unfold State.scrubCw
  dsimp only
  split <;> simp

end

/-! ### The commands of the link and of upkeep -/

section
variable {s : State} {st : Nat}

/-- A CRC that does not check is that of a frame that the receiver does not take (R305). -/
theorem not_takes_of_badCrc {bs : List Byte} {n : Nat} (h : linkCrcOk bs = false) : ¬(leAt bs 0 1 = n ∧ linkCrcOk bs = true) :=
  fun hok => Bool.false_ne_true (h.symm.trans hok.2)

theorem LinkEnd.from_first {e : LinkEnd} {p : Nat × LinkFrame} {l : List (Nat × LinkFrame)} (h : e.held = p :: l) :
    e.from' p.1 = e.held.map (·.1) := by
  rw [LinkEnd.from', h, List.map_cons, List.dropWhile_cons_of_neg (by simp)]

theorem exec_linkResendTimeout (hst : st < 16) (d : Bool) (hup : (s.stk st).linkUp = true) :
    let k := ((s.stk st).lane d).ack
    exec (.stackLinkResendTimeout st d) s = .next (s.setStk st
      (if k.held = [] then (s.stk st).setLane d k
       else { (s.stk st).setLane d { k with wire := k.wire ++ k.held.map (·.1) } with
              resends := cnt (s.stk st).resends k.held.length })) := by
  refine congrArg Host.Outcome.next ?_
  dsimp only
  rw [if_neg (by simp [hst, hup])]
  cases hheld : ((s.stk st).lane d).ack.held with
  | nil => rfl
  | cons p l =>
    dsimp only
    rw [if_neg (List.cons_ne_nil p l), Stack.resendFrom_setLane, LinkEnd.from_first hheld, hheld, List.length_map]

theorem exec_scrubRead_busy (ups : List (Nat × Nat × Nat)) (hbusy : (s.stk st).bankSlots (blkBank ((s.stk st).scrubPos / 4)) ≠ []) :
    exec (.scrubRead st ups) s = .next s := by
  refine congrArg Host.Outcome.next (if_pos ?_)
  simp [hbusy]

section
variable (hst : st < 16) (ups : List (Nat × Nat × Nat))
include hst

theorem exec_scrubRead (hup : (s.stk st).linkUp = true) (hperiod : (s.stk st).scrubPeriod ≠ 0)
    (hidle : (s.stk st).bankSlots (blkBank ((s.stk st).scrubPos / 4)) = []) :
    exec (.scrubRead st ups) s = .next ((s.setStk st { (s.stk st).strike ups with
      scrubPos := ((s.stk st).scrubPos + 1) % stackCws }).scrubCw st (s.stk st).scrubPos) := by
  refine congrArg Host.Outcome.next (if_neg ?_)
  simp [hst, hup, hperiod, hidle]

theorem exec_refresh {bank : Nat} (hbank : bank < 512) (hon : (s.stk st).powered = true) :
    exec (.refresh st bank) s = .next (s.setStk st { s.stk st with
      openRow := sset 0 (s.stk st).openRow bank 0
      hits := sset 0 (s.stk st).hits bank 0
      refreshes := sset 0 (s.stk st).refreshes bank (cnt (sget 0 (s.stk st).refreshes bank) 1) }) := by
  refine congrArg Host.Outcome.next (if_neg ?_)
  simp [hst, hbank, hon]

theorem exec_selfRefreshEntry (hen : (s.stk st).srEn = true) (hready : (s.stk st).state = .ready) (hslots : (s.stk st).slots = [])
    (hmesh : (s.stk st).meshQ = []) : exec (.selfRefreshEntry st) s = .next (s.setStk st { s.stk st with state := .selfRefresh }) := by
  refine congrArg Host.Outcome.next (if_pos ?_)
  simp [hst, hen, hready, hslots, hmesh]

end

end

/-- The code of a stack's FAULT as a number (R559). -/
theorem stackCode_fault (st : Nat) : stackCode st 0x2002 = 0x10102002 + st / 4 * 0x1000000 + st % 4 * 0x10000 := by
  unfold stackCode ripCode
  omega

/-- Settles O38: a frame that is taken acts through `tookFrame`, one that is not changes its lane alone, and the upkeep commands have
one outcome each. -/
theorem stackLinkAndUpkeep : Obligations.StackLinkAndUpkeep := by
  unfold Obligations.StackLinkAndUpkeep
  intro st s hst
  dsimp only
  refine ⟨fun d send f ups e seq w g hup he hwire hheld hseq => ⟨?_, ?_, ?_⟩, fun d hup => exec_linkResendTimeout hst d hup,
    fun htrain => ⟨?_, ?_⟩, fun ups hup hperiod => ⟨exec_scrubRead_busy ups, fun hidle => ?_⟩, fun bank hbank hon => ?_,
    exec_selfRefreshEntry hst⟩
  · rintro rfl rfl
    obtain ⟨held, owedAt, hacc⟩ := ({ e with wire := w } : LinkEnd).accepts_with s.env.ticks
    have hexec : exec (.stackLinkFrame st d send f []) s = .next (s.tookFrame st d (({ e with wire := w } : LinkEnd).accepts
        s.env.ticks) (linkFields (linkBytes e.expect g))) :=
      (exec_stackLinkFrame hst hup he hwire hheld).trans (congrArg Host.Outcome.next
        (State.linkReceive_accepts (leAt_linkBytes_seq hseq g) (linkCrcOk_linkBytes e.expect g)))
    refine ⟨_, hexec, s.mem_tookFrame .., ?_⟩
    rw [State.lane_tookFrame, State.lane_tookFrame, Stack.lane_setLane, Stack.lane_setLane_other, hacc]
    refine ⟨rfl, rfl, rfl, rfl, rfl, rfl, State.tookFrame_ne_retraining hup d _ _, fun j hj => s.stk_tookFrame_other hj d _ _, ?_, ?_⟩
    · rintro rfl hfields hkind tag bytes ps hresp rfl
      rw [hfields]
      exact State.tookFrame_readData hkind hresp
    · rintro rfl hfields hkind r hawait - hsrc htag hblock hctx hmesh hslots
      rw [hfields]
      exact State.tookFrame_writeData hup hkind hawait hsrc htag hblock hctx hmesh hslots
  · rintro rfl hcrc
    refine ⟨_, exec_stackLinkFrame hst hup he hwire hheld, ?_⟩
    by_cases hmany : 7 ≤ e.fails
    · rw [State.linkReceive_retrains (not_takes_of_badCrc hcrc) rfl hmany, if_pos hmany, State.stk_setStk]
      refine ⟨?_, ?_, fun j hj => s.stk_setStk_other _ _ hj, rfl, rfl, ?_⟩ <;> cases d
      exacts [rfl, rfl, rfl, rfl, ⟨rfl, rfl, rfl⟩, ⟨rfl, rfl, rfl⟩]
    · rw [State.linkReceive_fails (not_takes_of_badCrc hcrc) rfl hmany, if_neg hmany, State.stk_setStk]
      refine ⟨?_, ?_, fun j hj => s.stk_setStk_other _ _ hj, rfl, ?_⟩ <;> cases d
      exacts [rfl, rfl, rfl, rfl, ⟨rfl, rfl, rfl, rfl, rfl, rfl⟩, ⟨rfl, rfl, rfl, rfl, rfl, rfl⟩]
  · rintro hturn rfl
    have hbad : ¬(leAt (upsetBytes (linkBytes seq g) []) 0 1 = e.expect ∧ linkCrcOk (upsetBytes (linkBytes seq g) []) = true) :=
      fun h => hturn ((leAt_linkBytes_seq hseq g).symm.trans h.1)
    exact (exec_stackLinkFrame hst hup he hwire hheld).trans (congrArg Host.Outcome.next (State.linkReceive_outOfTurn hbad hturn))
  · have hcount : ((s.stk st).lately s.env.ticks).length =
        ((s.stk st).retrainTimes.filter (fun x => decide (s.env.ticks < x + 50000000))).length + 1 := List.length_append
    refine ⟨_, exec_retrainDone_ok hst htrain, ?_⟩
    rw [hcount]
    split
    next hmany =>
      obtain ⟨⟨hretrains, hretrained, hmem, hfails, hheld⟩, hstate, hslots⟩ := s.retrain_eighth st
      exact ⟨hretrains, hretrained, hmem, hfails, hheld, fun h => absurd h (by omega), fun _ => ⟨hstate, hslots⟩⟩
    next hfew =>
      obtain ⟨⟨hretrains, hretrained, hmem, hfails, hheld⟩, hstate, hslots⟩ := s.retrain_ready st
      exact ⟨hretrains, hretrained, hmem, hfails, hheld, fun _ => ⟨hstate, hslots⟩, fun h => absurd h (by omega)⟩
  · refine ⟨_, exec_retrainDone_fails hst htrain, ?_⟩
    by_cases hfew : (s.stk st).retrainFails < 2
    · rw [if_neg (by omega), State.stk_setStk, if_pos hfew]
      exact ⟨rfl, rfl, htrain, rfl⟩
    · have hlive : ((s.setStk st (s.stk st).trainedAmiss).stk st).state ≠ .fault := by
        rw [State.stk_setStk]
        exact fun h => nomatch htrain.symm.trans h
      obtain ⟨responses, hstk⟩ := State.stk_stackFault hlive
      obtain ⟨hlast, hfault⟩ := State.rip_stackFault hlive
      rw [State.stk_setStk] at hstk
      rw [if_pos (by omega), hstk, if_neg hfew, hlast, stackCode_fault]
      exact ⟨rfl, rfl, rfl, rfl, rfl, hfault⟩
  · obtain ⟨upsets, hstrike⟩ := (s.stk st).strike_with ups
    refine ⟨_, exec_scrubRead hst ups hup hperiod hidle, ?_⟩
    rw [hstrike]
    generalize hv : s.setStk st _ = v
    have hstk : v.stk st = { s.stk st with upsets, scrubPos := ((s.stk st).scrubPos + 1) % stackCws } := by
      rw [← hv, State.stk_setStk]
    obtain ⟨hmem, hupset⟩ := v.words_scrubCw st (s.stk st).scrubPos
    have hpos := congrArg Stack.scrubPos (State.kept_of_offStk (v.scrubCw_offWords st (s.stk st).scrubPos))
    refine ⟨hpos.trans (by rw [hstk]; rfl), fun j hj => ?_, ?_, fun a ha => (hmem a ha).trans (by rw [hstk]), hupset,
      fun hfound => ?_, fun k x hfound => ?_, fun hfound => ?_⟩
    · rw [State.stk_of_offStk (v.scrubCw_offWords st _) hj, ← hv, State.stk_setStk_other _ _ _ hj]
    · rw [State.cores_of_unread (v.scrubCw_unread st _), ← hv]
      rfl
    · rw [State.stk_scrubCw_none (by rw [hstk]; exact hfound), hstk]
      split <;> exact ⟨rfl, rfl, rfl⟩
    · rw [State.stk_scrubCw_one (by rw [hstk]; exact hfound), hstk]
      exact ⟨rfl, rfl, rfl⟩
    · obtain ⟨logKind, logAddr, hlog, hfirst⟩ := (v.stk st).logged_with (s.stk st).scrubPos 2
      rw [State.stk_scrubCw_many (by rw [hstk]; exact hfound), Stack.mem_poison_iff, hlog]
      rw [hstk] at hfirst ⊢
      exact ⟨rfl, rfl, .inl rfl, fun hue => (hfirst hue).symm⟩
  · refine ⟨_, exec_refresh hst hbank hon, ?_⟩
    rw [State.stk_setStk]
    exact ⟨sget_sset_same (s.stk st).openRow bank 0, sget_sset_same (s.stk st).hits bank 0,
      sget_sset_same (s.stk st).refreshes bank _, rfl, rfl, rfl, fun j hj => s.stk_setStk_other _ _ hj⟩

end Sys2Proof.Machine
end

section
/-! O49: the device directory (R413) and the transfer contexts (R422 to R424, R440). -/

namespace Sys2Proof.Machine

open Sys2Proof

/-! ### What keeps the directory, the contexts and the stacks -/

/-- The directory, the transfer contexts and the stacks: what messages to other devices and answers to streams leave alone. -/
def State.ctxTables (s : State) : Sparse Peer × Sparse Ctx × Sparse Stack := (s.teth.peers, s.teth.ctxs, s.stks)

section
variable {s t : State} (h : t.ctxTables = s.ctxTables)
include h

theorem State.peer_of_ctxTables (d : Nat) : t.peer d = s.peer d := by
  have e := congrArg (fun p => sget ({} : Peer) (Prod.fst p) d) h
  exact e

theorem State.ctxs_of_ctxTables : t.teth.ctxs = s.teth.ctxs := congrArg (fun p => p.2.1) h

theorem State.stks_of_ctxTables : t.stks = s.stks := congrArg (fun p => p.2.2) h

end

theorem State.stk_congr {s t : State} (h : t.stks = s.stks) (st : Nat) : t.stk st = s.stk st :=
  congrArg (fun m => sget ({} : Stack) m st) h

section
variable (s : State)

@[simp] theorem State.ctxTables_ite (p : Prop) [Decidable p] (s t : State) :
    (if p then s else t).ctxTables = if p then s.ctxTables else t.ctxTables := apply_ite State.ctxTables p s t

@[simp] theorem State.updPort_ctxTables (p f) : (s.updPort p f).ctxTables = s.ctxTables := rfl

@[simp] theorem State.updCore_ctxTables (c f) : (s.updCore c f).ctxTables = s.ctxTables := rfl

@[simp] theorem State.updSt_ctxTables (c x f) : (s.updSt c x f).ctxTables = s.ctxTables := rfl

@[simp] theorem State.setKn_ctxTables (k e) : (s.setKn k e).ctxTables = s.ctxTables := rfl

@[simp] theorem State.raise_ctxTables (c x code) : (s.raise c x code).ctxTables = s.ctxTables := rfl

@[simp] theorem State.retire_ctxTables (c x) : (s.retire c x).ctxTables = s.ctxTables := rfl

@[simp] theorem State.dropReqs_ctxTables (tags) : (s.dropReqs tags).ctxTables = s.ctxTables := rfl

@[simp] theorem State.nextFseq_ctxTables (cls dst ctx) : (s.nextFseq cls dst ctx).2.ctxTables = s.ctxTables := rfl

@[simp] theorem State.sendE2e_ctxTables (dst kind eph nonce pnonce) :
    (s.sendE2e dst kind eph nonce pnonce).ctxTables = s.ctxTables := by
  unfold State.sendE2e
  dsimp only
  split <;> rfl

@[simp] theorem State.startE2e_ctxTables (d) : (s.startE2e d).ctxTables = s.ctxTables := by
  unfold State.startE2e
  split
  · rfl
  · exact State.sendE2e_ctxTables _ d _ _ _ _

@[simp] theorem State.sendBridle_ctxTables (dst msg) : (s.sendBridle dst msg).ctxTables = s.ctxTables := by
  unfold State.sendBridle
  dsimp only
  split
  · rfl
  · simp

@[simp] theorem State.sendReply_ctxTables (k who op status) : (s.sendReply k who op status).ctxTables = s.ctxTables := by
  unfold State.sendReply
  split
  · exact s.sendBridle_ctxTables _ _
  · split <;> rfl

@[simp] theorem State.sendTree_ctxTables (kind dst k phase err) : (s.sendTree kind dst k phase err).ctxTables = s.ctxTables := by
  unfold State.sendTree
  split
  · rfl
  · exact s.sendBridle_ctxTables _ _

@[simp] theorem State.farAnswer_ctxTables (c x code done) : (s.farAnswer c x code done).ctxTables = s.ctxTables := by
  simp [State.farAnswer]

@[simp] theorem State.endReq_ctxTables (q code d) : (s.endReq q code d).ctxTables = s.ctxTables := by
  unfold State.endReq
  dsimp only
  split
  · simp
  · simp
  · rfl

end

section
variable {s : State}

@[simp] theorem State.sendTrees_ctxTables (kind k phase err l) : (s.sendTrees kind k phase err l).ctxTables = s.ctxTables := by
  induction l generalizing s with
  | nil => rfl
  | cons d l ih => simp [State.sendTrees, ih]

@[simp] theorem State.replyAll_ctxTables (k status l) : (s.replyAll k status l).ctxTables = s.ctxTables := by
  induction l generalizing s with
  | nil => rfl
  | cons w l ih => simp [State.replyAll, ih]

@[simp] theorem State.notifyAll_ctxTables (k l) : (s.notifyAll k l).ctxTables = s.ctxTables := by
  induction l generalizing s with
  | nil => rfl
  | cons p l ih =>
    rw [State.notifyAll, ih]
    split <;> rfl

@[simp] theorem State.abortKnot_ctxTables (k r told) : (s.abortKnot k r told).ctxTables = s.ctxTables := by
  unfold State.abortKnot
  dsimp only
  split
  · rw [State.sendTrees_ctxTables, State.notifyAll_ctxTables, State.replyAll_ctxTables]
    rfl
  · rw [State.notifyAll_ctxTables, State.replyAll_ctxTables]
    rfl

@[simp] theorem State.abortRange_ctxTables (r n) : (s.abortRange r n).ctxTables = s.ctxTables := by
  induction n with
  | zero => rfl
  | succ n ih => rw [State.abortRange, State.abortKnot_ctxTables, ih]

@[simp] theorem State.abortCtx_ctxTables (c l) : (s.abortCtx c l).ctxTables = s.ctxTables := by
  induction l generalizing s with
  | nil => rfl
  | cons r l ih => simp [State.abortCtx, ih]

@[simp] theorem State.failReqs_ctxTables (l) : (s.failReqs l).ctxTables = s.ctxTables := by
  induction l generalizing s with
  | nil => rfl
  | cons q l ih => rw [State.failReqs, ih, State.endReq_ctxTables]

@[simp] theorem State.meetPeers_ctxTables (l) : (s.meetPeers l).ctxTables = s.ctxTables := by
  induction l generalizing s with
  | nil => rfl
  | cons d l ih => simp [State.meetPeers, ih]

end

/-! ### The directory's entries (R413) -/

theorem State.startE2e_cores (s : State) (d : Nat) : (s.startE2e d).cores = s.cores :=
  State.cores_of_untold (s.startE2e_untold d)

theorem State.meetPeers_cores (s : State) (l : List Nat) : (s.meetPeers l).cores = s.cores := by
  induction l generalizing s with
  | nil => rfl
  | cons d l ih =>
    rw [State.meetPeers, ih]
    split
    · exact s.startE2e_cores d
    · rfl

theorem State.onlyTeth_peerTo (s : State) (d : Nat) (st : PeerState) :
    (s.peerTo d st).cores = s.cores ∧ (s.peerTo d st).stks = s.stks := by
  unfold State.peerTo
  dsimp only
  split <;> exact ⟨rfl, rfl⟩

/-- An entry that takes a state keeps all else but when it was last seen. -/
theorem State.peer_peerTo (s : State) (d : Nat) (st : PeerState) :
    ∃ seen, (s.peerTo d st).peer d = { s.peer d with state := st, seen } := by
  unfold State.peerTo
  dsimp only
  split
  next h => exact ⟨(s.peer d).seen, by rw [← h]⟩
  next => exact ⟨_, s.peer_setPeer d _⟩

theorem exec_peerEntryReplace {s : State} {d : Nat} (hup : s.diesUp = true) (hd : d < 65535) (v : W32) :
    exec (.peerEntryReplace d v) s = .next (s.peerReplace d v.toNat) := congrArg Host.Outcome.next (if_pos ⟨hup, hd⟩)

section
variable {s : State} {d v : Nat}

/-- The entry of device d that its staged bytes and the last word v give (R413). -/
def State.replacement (s : State) (d v : Nat) : Peer :=
  { s.peer d with flags := leAt (s.stagedPeer d) 1 1 % 8, ports := leAt (s.stagedPeer d) 2 2 % 4096,
                  nextDev := leAt (s.stagedPeer d) 4 2, fp := slice (s.stagedPeer d) 16 12 ++ leBytes 4 v }

/-- The state in which an entry of the directory is replaced: its staged words have been used. -/
def State.unstaged (s : State) (d : Nat) : State := { s with teth := { s.teth with peerOpen := sset 0 s.teth.peerOpen d 0 } }

theorem State.peerReplace_ignored (h : (s.peer d).state = .up ∨ (s.peer d).state = .self ∨ d = s.teth.self
    ∨ 1 < leAt (s.stagedPeer d) 0 1 % 8) : s.peerReplace d v = { s with teth := { s.teth with
      peerWrIgn := true, peerOpen := sset 0 s.teth.peerOpen d 0 } } := if_pos h

theorem State.peerReplace_replaces (h : ¬((s.peer d).state = .up ∨ (s.peer d).state = .self ∨ d = s.teth.self
    ∨ 1 < leAt (s.stagedPeer d) 0 1 % 8)) : s.peerReplace d v = (((s.unstaged d).setPeer d (s.replacement d v)).peerTo d
      (if leAt (s.stagedPeer d) 0 1 % 8 = 1 then .expected else .absent)).meetPeers [d] := if_neg h

theorem State.peer_replaces (st : PeerState) : ∃ seen,
    ((((s.unstaged d).setPeer d (s.replacement d v)).peerTo d st).meetPeers [d]).peer d
      = { s.replacement d v with state := st, seen } := by
  obtain ⟨seen, h⟩ := ((s.unstaged d).setPeer d (s.replacement d v)).peer_peerTo d st
  exact ⟨seen, by rw [State.peer_of_ctxTables (State.meetPeers_ctxTables _), h, State.peer_setPeer]⟩

theorem State.rest_replaces (st : PeerState) :
    ((((s.unstaged d).setPeer d (s.replacement d v)).peerTo d st).meetPeers [d]).cores = s.cores
      ∧ ((((s.unstaged d).setPeer d (s.replacement d v)).peerTo d st).meetPeers [d]).stks = s.stks := by
  obtain ⟨hcores, hstks⟩ := ((s.unstaged d).setPeer d (s.replacement d v)).onlyTeth_peerTo d st
  exact ⟨(State.meetPeers_cores _ _).trans hcores, (State.stks_of_ctxTables (State.meetPeers_ctxTables _)).trans hstks⟩

end

/-! ### The contexts (R422, R423) -/

section
variable {s : State} {c : Nat}

theorem State.ctx_eq (hc : c ≠ 0xFFF) : s.ctx c = sget {} s.teth.ctxs c := if_neg hc

theorem State.ctx_updCtx (hc : c ≠ 0xFFF) (f : Ctx → Ctx) : (s.updCtx c f).ctx c = f (s.ctx c) := by
  rw [State.ctx_eq hc, State.ctx_eq hc]
  exact sget_sset_same s.teth.ctxs c _

/-- The permanent context does not drain (R420). -/
theorem State.ctx_ne_permanent (h : (s.ctx c).state = .draining) : c ≠ 0xFFF := by
  rintro rfl
  cases h

section
variable (hup : s.diesUp = true) {v : W32} {i : Instr} (hi : i ∈ ([.ctxOpen v, .ctxClose v] : List Instr))
include hup hi

/-- Both commands of a context are one register (R440). -/
theorem exec_ctxCmd : exec i s = .next (s.ctxCmd v.toNat) := by
  rcases List.mem_pair.mp hi with rfl | rfl <;> exact congrArg Host.Outcome.next (if_pos hup)

end

variable {v : Nat} (hv : v < 2 ^ 32) (hc : v % 4096 ≠ 0xFFF)

include hv in
theorem fld_ctxOp : fld 31 30 v = v / 2 ^ 30 := by
  rw [fld, Nat.shiftRight_eq_div_pow]
  exact Nat.mod_eq_of_lt (show v / 2 ^ 30 < 4 by omega)

include hv hc

theorem State.ctxCmd_opens (hop : v / 2 ^ 30 = 1) (hstate : (s.ctx (v % 4096)).state = .closed) :
    s.ctxCmd v = s.updCtx (v % 4096) (fun t => { t with state := .opened }) := by
  unfold State.ctxCmd
  dsimp only
  rw [fld_ctxOp hv, hop, hstate]
  exact if_neg (by simp [hc])

theorem State.ctxCmd_drains (hop : v / 2 ^ 30 = 2) (hstate : (s.ctx (v % 4096)).state = .opened) :
    s.ctxCmd v = s.updCtx (v % 4096) (fun t => { t with state := .draining, since := s.env.ticks }) := by
  unfold State.ctxCmd
  dsimp only
  rw [fld_ctxOp hv, hop, hstate]
  exact if_neg (by simp [hc])

/-- A command that the context's state does not take is recorded (R422). -/
theorem State.ctxCmd_bad (hstate : (s.ctx (v % 4096)).state = .draining ∧ (v / 2 ^ 30 = 1 ∨ v / 2 ^ 30 = 2)
    ∨ (s.ctx (v % 4096)).state = .opened ∧ v / 2 ^ 30 = 1) : s.ctxCmd v = s.ctxBad := by
  unfold State.ctxCmd
  dsimp only
  rw [fld_ctxOp hv]
  rcases hstate with ⟨hstate, hop | hop⟩ | ⟨hstate, hop⟩ <;> rw [hop, hstate] <;> exact if_neg (by simp [hc])

end

/-! ### A generation reaches the stacks (R325, R326) -/

section
variable (s : State) (c gen : Nat)

theorem State.publishGen_with (l : List Nat) : ∃ stks, s.publishGen c gen l = { s with stks } := by
  induction l generalizing s with
  | nil => exact ⟨s.stks, rfl⟩
  | cons i l ih => exact ih (s.updStk i fun k => { k with gens := sset 0 k.gens c gen })

theorem State.ctx_publishGen (l : List Nat) (j : Nat) : (s.publishGen c gen l).ctx j = s.ctx j := by
  obtain ⟨stks, h⟩ := s.publishGen_with c gen l
  rw [h]
  rfl

theorem State.stk_publishGen {l : List Nat} (hl : l.Nodup) (st : Nat) : (s.publishGen c gen l).stk st =
    if st ∈ l then { s.stk st with gens := sset 0 (s.stk st).gens c gen } else s.stk st := by
  induction l generalizing s with
  | nil => rfl
  | cons i l ih =>
    obtain ⟨hi, hl⟩ := List.nodup_cons.mp hl
    rw [State.publishGen, ih _ hl]
    by_cases h : st = i
    · subst h
      rw [if_neg hi, if_pos List.mem_cons_self, State.stk_updStk]
    · rw [State.stk_updStk_other _ _ _ h]
      simp only [List.mem_cons, h, false_or]

theorem State.stk_publishAll (st : Nat) : (s.publishGen c gen (List.range 16)).stk st =
    if st < 16 then { s.stk st with gens := sset 0 (s.stk st).gens c gen } else s.stk st := by
  simp only [State.stk_publishGen s c gen List.nodup_range, List.mem_range]

end

/-! ### The end of a drain (R423) -/

/-- The state as a context's next generation is in its record and in every stack. -/
def State.nextGen (s : State) (c : Nat) : State :=
  (s.updCtx c (fun t => { t with gen := ((s.ctx c).gen + 1) % 65536 })).publishGen c (((s.ctx c).gen + 1) % 65536) (List.range 16)

/-- The state as a context's drain has ended: its next generation is everywhere, and its knots and requests have failed. -/
def State.drained (s : State) (c : Nat) : State :=
  ((s.nextGen c).abortCtx c (s.nextGen c).rig.live.ranges).failReqs (s.outstanding c)

section
variable (s : State) (c : Nat)

theorem State.drained_ctxTables : (s.drained c).ctxTables = (s.nextGen c).ctxTables := by
  rw [State.drained, State.failReqs_ctxTables, State.abortCtx_ctxTables]

theorem State.stk_drained (st : Nat) : (s.drained c).stk st =
    if st < 16 then { s.stk st with gens := sset 0 (s.stk st).gens c (((s.ctx c).gen + 1) % 65536) } else s.stk st := by
  have h := State.stks_of_ctxTables (s.drained_ctxTables c)
  exact (State.stk_congr h st).trans (State.stk_publishAll _ c _ st)

theorem State.ctx_drained {c : Nat} (hc : c ≠ 0xFFF) :
    (s.drained c).ctx c = { s.ctx c with gen := ((s.ctx c).gen + 1) % 65536 } := by
  rw [State.ctx_congr (State.ctxs_of_ctxTables (s.drained_ctxTables c)), State.nextGen, State.ctx_publishGen, State.ctx_updCtx hc]

theorem exec_ctxDrainEnd (hstate : (s.ctx c).state = .draining)
    (hend : s.outstanding c = [] ∨ (s.ctx c).since + (s.ctx c).drain * 50 ≤ s.env.ticks) :
    exec (.ctxDrainEnd c) s = .next (((s.drained c).updCtx c (fun t => { t with state := .closed })).event 0x33 c
      (b2n (s.outstanding c).isEmpty)) := by
  have hgo : ¬((s.ctx c).state ≠ .draining ∨ (!(s.outstanding c).isEmpty) = true ∧ s.env.ticks <
      (s.ctx c).since + (s.ctx c).drain * 50) := by
    rintro (h | ⟨hsome, hlate⟩)
    · exact h hstate
    · rcases hend with hnone | hpast
      · simp [hnone] at hsome
      · omega
  exact congrArg Host.Outcome.next (if_neg hgo)

end

/-- Settles O49: each command is one of the equations above. -/
theorem directoryAndContexts : Obligations.DirectoryAndContexts := by
  unfold Obligations.DirectoryAndContexts
  intro s hup
  refine ⟨fun d i v hd => ⟨fun hi => ?_, fun h => ?_, fun hnup hnself hother hst => ?_⟩, fun v i hi => ?_,
    fun c hstate hend => ?_, fun c v hc => ⟨fun hstate => ?_, fun hstate => ?_⟩⟩
  · exact congrArg Host.Outcome.next ((if_pos ⟨hup, hd⟩).trans (if_neg (by omega)))
  · rw [exec_peerEntryReplace hup hd, State.peerReplace_ignored h]
  · have hgo : ¬((s.peer d).state = .up ∨ (s.peer d).state = .self ∨ d = s.teth.self ∨ 1 < leAt (s.stagedPeer d) 0 1 % 8) := by
      rintro (h | h | h | h)
      exacts [hnup h, hnself h, hother h, absurd h (by omega)]
    obtain ⟨seen, hpeer⟩ := s.peer_replaces (d := d) (v := v.toNat) (if leAt (s.stagedPeer d) 0 1 % 8 = 1 then .expected else .absent)
    obtain ⟨hcores, hstks⟩ := s.rest_replaces (d := d) (v := v.toNat)
      (if leAt (s.stagedPeer d) 0 1 % 8 = 1 then .expected else .absent)
    refine ⟨_, by rw [exec_peerEntryReplace hup hd, State.peerReplace_replaces hgo], ?_⟩
    rw [hpeer]
    exact ⟨rfl, rfl, rfl, rfl, rfl, rfl, hcores, hstks⟩
  · intro c op hc
    rw [exec_ctxCmd hup hi]
    refine ⟨fun hop hstate => ⟨_, by rw [State.ctxCmd_opens v.isLt hc hop hstate], State.ctx_updCtx hc _, rfl⟩,
      fun hop hstate => ⟨_, by rw [State.ctxCmd_drains v.isLt hc hop hstate], State.ctx_updCtx hc _, rfl⟩, fun hop hstate => ?_⟩
    exact congrArg Host.Outcome.next (State.ctxCmd_bad v.isLt hc (hstate.imp (⟨·, hop⟩) And.symm))
  · have hc := State.ctx_ne_permanent hstate
    refine ⟨_, exec_ctxDrainEnd s c hstate hend, ?_⟩
    have hctx : ((s.drained c).updCtx c (fun t => { t with state := .closed })).ctx c = _ := State.ctx_updCtx hc _
    rw [State.ctx_drained s hc] at hctx
    refine ⟨congrArg Ctx.state hctx, congrArg Ctx.gen hctx, fun st hst => ?_, ?_, fun st => ?_⟩
    · have hstk := s.stk_drained c st
      rw [if_pos hst] at hstk
      exact (congrArg (fun u : Stack => sget 0 u.gens c) hstk).trans (sget_sset_same _ c _)
    · refine List.mem_append_right _ (List.mem_singleton.mpr ?_)
      cases s.outstanding c <;> rfl
    · refine (congrArg Stack.mem (s.stk_drained c st)).trans ?_
      split <;> rfl
  · have hwin : ¬(!s.diesUp || decide (0xFFF < c)) = true := by simp [hup, hc.le]
    have hgen : exec (.ctxGenWrite c v) s = .next ((s.updCtx c (fun t => { t with gen := v.toNat % 65536 })).publishGen c
        (v.toNat % 65536) (List.range 16)) := congrArg Host.Outcome.next (if_neg (by simp [hup, hc.le, hstate]))
    obtain ⟨stks, hstks⟩ := (s.updCtx c (fun t => { t with gen := v.toNat % 65536 })).publishGen_with c (v.toNat % 65536)
      (List.range 16)
    refine ⟨⟨_, congrArg Host.Outcome.next ((if_neg hwin).trans (if_neg (not_not_intro hstate))),
      State.ctx_updCtx hc.ne _, rfl⟩, _, hgen, ?_, fun st hst => ?_, ?_⟩
    · rw [State.ctx_publishGen, State.ctx_updCtx hc.ne]
    · rw [State.stk_publishAll, if_pos hst]
      rfl
    · rw [hstks]
      rfl
  · have hwin : ¬(!s.diesUp || decide (0xFFF < c)) = true := by simp [hup, hc.le]
    exact ⟨congrArg Host.Outcome.next ((if_neg hwin).trans (if_pos hstate)),
      congrArg Host.Outcome.next (if_pos (by simp [hstate]))⟩

end Sys2Proof.Machine
end

section
/-! O57: keyed writes to the ripcord registers (R550, R553, R554, R564), and the end of a die reset (R549, R554 to R556). -/

namespace Sys2Proof.Machine

open Sys2Proof

/-! ### A core leaves service (R547) -/

/-- The state t in which core c has left the service it was in in s, and nothing but a rebinding may have followed. -/
structure State.Leaves (s t : State) (c : Nat) : Prop where
  fenced : t.rip.fenced = s.rip.fenced ++ [c]
  fenceNew : t.rip.fenceNew = true
  last : t.rip.last = s.rip.last
  fault : t.rip.fault = s.rip.fault
  faults : t.rip.faults = s.rip.faults
  core : (t.core c).fenced = true ∧ (t.core c).sa.state ≠ .running ∧ (t.core c).sb.state ≠ .running ∧ (t.core c).credit = 0
  events : ∀ m ∈ s.knot.events, m ∈ t.knot.events
  keel : t.keel = s.keel
  anc : t.anc = s.anc
  host : t.host = s.host
  teth : t.teth = s.teth

/-- A stream of a core that leaves service. -/
def StreamSt.fenced (t : StreamSt) : StreamSt := { t with state := if t.state = .exception then .exception else .halted }

theorem StreamSt.fenced_not_running (t : StreamSt) : t.fenced.state ≠ .running := by
  unfold StreamSt.fenced
  dsimp only
  split <;> exact nofun

/-- A core that has left service. -/
def Core.outOfService (k : Core) : Core :=
  { k with fenced := true, sa := k.sa.fenced, sb := k.sb.fenced, credit := 0, guards := [], watch := { k.watch with held := [] } }

section
variable (s : State) (c : Nat)

/-- The state as core c has left service, before its logical number is bound again. -/
def State.outOfService : State :=
  { (s.dropToCore c).setCore c (s.core c).outOfService with
    rip := { s.rip with fenced := s.rip.fenced ++ [c], fenceNew := true }
    rig := { s.rig with live := { s.rig.live with
      spares := sset [] s.rig.live.spares (c / 100) ((sget [] s.rig.live.spares (c / 100)).filter
        (fun i => (c / 100) * 100 + i ≠ c)) } } }

theorem State.fence_eq {c : Nat} (h : s.rip.fenced.contains c = false) : s.fence c =
    match (s.outOfService c).logical c with
    | some l => (s.outOfService c).rebind l c (c / 100)
    | none => s.outOfService c := if_neg (by rw [h]; exact Bool.false_ne_true)

theorem State.outOfService_leaves : s.Leaves (s.outOfService c) c where
  fenced := rfl
  fenceNew := rfl
  last := rfl
  fault := rfl
  faults := rfl
  core := by
    have h : (s.outOfService c).core c = (s.core c).outOfService := State.core_setCore _ c _
    rw [h]
    exact ⟨rfl, StreamSt.fenced_not_running _, StreamSt.fenced_not_running _, rfl⟩
  events _ h := h
  keel := rfl
  anc := rfl
  host := rfl
  teth := rfl

variable {s c}

/-- The spare that takes a logical number is not fenced. -/
theorem State.not_fenced_of_nextSpare {d sp : Nat} (h : s.nextSpare d = some sp) : sp ∉ s.rip.fenced := by
  simpa using List.find?_some h

/-- A fenced core's logical number goes to another core. -/
theorem State.Leaves.rebind {u : State} (h : s.Leaves u c) (l d : Nat) : s.Leaves (u.rebind l c d) c := by
  have hmem : c ∈ u.rip.fenced := by
    rw [h.fenced]
    exact List.mem_append_right _ List.mem_cons_self
  unfold State.rebind
  dsimp only
  split
  next sp hsp =>
    have hne : c ≠ sp := fun he => State.not_fenced_of_nextSpare hsp (he ▸ hmem)
    refine ⟨h.fenced, h.fenceNew, h.last, h.fault, h.faults, ?_, h.events, h.keel, h.anc, h.host, h.teth⟩
    rw [State.core_setCore_other _ _ _ hne]
    exact h.core
  next => exact ⟨h.fenced, h.fenceNew, h.last, h.fault, h.faults, h.core, fun m hm => List.mem_append_left _ (h.events m hm),
      h.keel, h.anc, h.host, h.teth⟩

theorem State.fence_leaves (h : s.rip.fenced.contains c = false) : s.Leaves (s.fence c) c := by
  rw [State.fence_eq s h]
  split
  · exact (s.outOfService_leaves c).rebind _ _
  · exact s.outOfService_leaves c

/-- A fault of a core in service fences it (R545). -/
theorem State.coreFault_fences (cause : Nat) (hin : s.rip.fenced.contains c = false)
    (hdie : bit (dieOfCore c) s.rip.dieResetting = false) :
    s.Fences (s.coreFault c cause) c cause := by
  have hfault : s.coreFault c cause = (s.report (coreCode c cause)).fence c := by
    rw [State.coreFault, if_neg (by rw [hdie]; exact Bool.false_ne_true), if_neg (by rw [hin]; exact Bool.false_ne_true)]
  obtain ⟨hfenced, hnew, hlast, hset, hcount, ⟨hcore, hsa, hsb, hcredit⟩, hevents, hkeel, hanc, hhost, hteth⟩ :=
    State.fence_leaves (s := s.report (coreCode c cause)) hin
  rw [hfault]
  exact ⟨hfenced, hlast, hset, hnew, hcount, hcore, hsa, hsb, hcredit,
    hevents _ (List.mem_append_right _ List.mem_cons_self), hkeel, hanc, hhost, hteth⟩

end

/-! ### A commit is rejected as a die reset begins (R490, R554) -/

theorem State.rig_of_unqueued {s t : State} (h : t.unqueued = s.unqueued) : t.rig = s.rig := by
  have e := congrArg (fun u : State => u.rig) h
  exact e

theorem State.gons_of_unqueued {s t : State} (h : t.unqueued = s.unqueued) : t.gons = s.gons := by
  have e := congrArg (fun u : State => u.gons) h
  exact e

section
variable (s : State)

theorem State.unhold_rig : s.unhold.rig = { s.rig with holds := {} } := by
  unfold State.unhold
  dsimp only
  rw [State.rig_of_unqueued (State.pumpAll_unqueued _)]

theorem State.unhold_gons : s.unhold.gons = s.gons := by
  unfold State.unhold
  dsimp only
  rw [State.gons_of_unqueued (State.pumpAll_unqueued _)]

theorem State.ancDrop_eq (o : AncOp) : s.ancDrop o = { s with anc := (s.ancDrop o).anc } := by
  unfold State.ancDrop
  split
  · exact s.ancPump_eq s.anc.waiting
  · rfl

theorem State.ancDrop_rig (o : AncOp) : (s.ancDrop o).rig = s.rig := by rw [State.ancDrop_eq]

theorem State.ancDrop_gons (o : AncOp) : (s.ancDrop o).gons = s.gons := by rw [State.ancDrop_eq]

theorem State.rigResult_rig (tell : Bool) (code frame detail : Nat) :
    (s.rigResult tell code frame detail).rig = { s.rig with code, frame, detail := Nat.min detail 0xFFFF }
      ∧ (s.rigResult tell code frame detail).gons = s.gons := by
  unfold State.rigResult
  dsimp only
  split <;> exact ⟨rfl, rfl⟩

/-- A rejected commit leaves the live configuration and the gondola cores as they are (R490). -/
theorem State.rigReject_rig (code frame detail : Nat) :
    (s.rigReject code frame detail).rig = { s.rig with
      holds := {}, state := .verified, rejects := cnt s.rig.rejects 1, flashRun := false,
      code, frame, detail := Nat.min detail 0xFFFF } ∧ (s.rigReject code frame detail).gons = s.gons := by
  unfold State.rigReject
  dsimp only
  obtain ⟨hrig, hgons⟩ := State.rigResult_rig { s.unhold with
    rig := { s.unhold.rig with state := .verified, rejects := cnt s.unhold.rig.rejects 1, flashRun := false } } true code frame detail
  rw [State.ancDrop_rig, State.ancDrop_gons, hrig, hgons]
  dsimp only
  rw [s.unhold_rig, s.unhold_gons]
  exact ⟨rfl, rfl⟩

/-- The isolation of a die stops every gondola core, and rejects a commit (R554). -/
theorem State.isolate_stops (d : Nat) : (∀ g, ((s.isolate d).gon g).mode = 0) ∧ (s.isolate d).rig.live = s.rig.live
    ∧ (s.rig.state = .committing → (s.isolate d).rig.state = .verified ∧ (s.isolate d).rig.code = 0x24) := by
  have hgon (t : State) (ht : t.gons = smap {} (fun g => { g with mode := 0, petTicks := none }) s.gons) (g : Nat) :
      (t.gon g).mode = 0 := by
    rw [State.gon, ht, sget_smap _ rfl]
  unfold State.isolate
  dsimp only
  split
  next =>
    obtain ⟨hrig, hgons⟩ := State.rigReject_rig _ 0x24 0xFF 0
    refine ⟨hgon _ hgons, ?_, fun _ => ⟨?_, ?_⟩⟩ <;> rw [hrig]
  next hidle => exact ⟨hgon _ rfl, rfl, fun h => absurd h hidle⟩

end

/-! ### Keyed writes (R564) -/

section
variable {s : State} {v : Nat} {ok : Bool} {body : State → State}

theorem State.keyed_takes (hkey : fld 31 16 v = 0x5A5A) (hok : ok = true) : s.keyed v ok body = body s := if_pos ⟨hkey, hok⟩

theorem State.keyed_ignored (h : ¬(fld 31 16 v = 0x5A5A ∧ ok = true)) :
    s.keyed v ok body = { s with rip := { s.rip with wrIgn := true } } := if_neg h

end

section
variable {s : State} (hup : s.ctrlUp = true) (v : W32)
include hup

theorem exec_ripFenceReq : exec (.ripFenceReq v) s = .next (s.fenceReq v.toNat) := congrArg Host.Outcome.next (if_pos hup)

theorem exec_ripDieReset : exec (.ripDieReset v) s = .next (s.dieReq v.toNat) := congrArg Host.Outcome.next (if_pos hup)

theorem exec_ripPkgReset : exec (.ripPkgReset v) s = .next (s.pkgReq v.toNat) := congrArg Host.Outcome.next (if_pos hup)

theorem exec_ripCodeClr : exec (.ripCodeClr v) s = .next (s.updRip (fun r => r.codeClr v.toNat)) :=
  congrArg Host.Outcome.next (if_pos hup)

theorem exec_ripEvtBaseWrite (hi : Bool) : exec (.ripEvtBaseWrite hi v) s = .next (s.updRip (fun r => r.setBase hi v.toNat)) :=
  congrArg Host.Outcome.next (if_pos hup)

end

section
variable {s : State} {v : Nat}

theorem State.fenceReq_ignored (h : ¬(fld 31 16 v = 0x5A5A ∧ fld 8 0 v < 400)) :
    s.fenceReq v = { s with rip := { s.rip with wrIgn := true } } := by
  unfold State.fenceReq
  exact State.keyed_ignored fun ⟨hkey, hcore⟩ => h ⟨hkey, of_decide_eq_true hcore⟩

theorem State.dieReq_ignored (h : fld 31 16 v ≠ 0x5A5A) : s.dieReq v = { s with rip := { s.rip with wrIgn := true } } := by
  unfold State.dieReq
  exact State.keyed_ignored fun hkey => h hkey.1

theorem State.pkgReq_ignored (h : fld 31 16 v ≠ 0x5A5A) : s.pkgReq v = { s with rip := { s.rip with wrIgn := true } } := by
  unfold State.pkgReq
  exact State.keyed_ignored fun hkey => h hkey.1

end

section
variable {s : State} {v : Nat} (hkey : fld 31 16 v = 0x5A5A)
include hkey

theorem State.fenceReq_core (hcore : fld 8 0 v < 400) :
    s.fenceReq v = if s.rip.fenced.contains (fld 8 0 v) then s else s.coreFault (fld 8 0 v) 0x1007 := by
  unfold State.fenceReq
  dsimp only
  rw [State.keyed_takes hkey (decide_eq_true hcore)]

theorem State.pkgReq_key : s.pkgReq v = if bit 0 v then s.pkgFault 0x01000301 else s := State.keyed_takes hkey rfl

theorem State.dieReq_key (hup : s.diesUp = true) (hin : s.dieOut (fld 1 0 v) = false) :
    s.dieReq v = (s.report (ripCode (0x10 + fld 1 0 v) 0 0x0303)).dieReset (fld 1 0 v) (ripCode (0x10 + fld 1 0 v) 0 0x0303) := by
  obtain ⟨hheld, hresetting⟩ := Bool.or_eq_false_iff.mp hin
  unfold State.dieReq
  dsimp only
  rw [State.keyed_takes hkey rfl, if_neg (by simp [hup, hresetting]), if_neg (by simp [hheld])]

end

/-- A die reset begins with the isolation of its die (R554). -/
theorem State.dieReset_eq {s : State} {d : Nat} (h : bit d s.rip.dieResetting = false) (code : Nat) : s.dieReset d code =
    ((s.latch false code).isolate d).updRip (fun r => { r with
      dieResetting := r.dieResetting ||| 2 ^ d, dieHeld := if bit d r.dieHeld then r.dieHeld - 2 ^ d else r.dieHeld }) :=
  if_neg (by rw [h]; exact Bool.false_ne_true)

theorem State.rip_latch (s : State) (pkg : Bool) (code : Nat) :
    (s.latch pkg code).rip.dieResetting = s.rip.dieResetting ∧ (s.latch pkg code).rip.faults = s.rip.faults := by
  unfold State.latch
  dsimp only
  split <;> exact ⟨rfl, rfl⟩

/-- What a die reset has done as it begins: the die resets, no gondola core runs, and a commit is rejected (R490, R554). -/
theorem State.dieReset_begins {s : State} {d : Nat} (h : bit d s.rip.dieResetting = false) (code : Nat) :
    let t := s.dieReset d code
    t.rip.dieResetting = s.rip.dieResetting ||| 2 ^ d ∧ t.rip.faults = s.rip.faults ∧ (∀ g, (t.gon g).mode = 0)
      ∧ t.keel = s.keel ∧ t.rig.live = s.rig.live ∧ (s.rig.state = .committing → t.rig.state = .verified ∧ t.rig.code = 0x24) := by
  obtain ⟨hrip, -⟩ := (s.latch false code).isolate_keeps d
  obtain ⟨hgons, hlive, hcommit⟩ := (s.latch false code).isolate_stops d
  obtain ⟨hresetting, hfaults⟩ := s.rip_latch false code
  dsimp only
  rw [State.dieReset_eq h]
  refine ⟨?_, (congrArg RipSt.faults hrip).trans hfaults, hgons, (State.isolate_keel _ d).trans rfl, hlive.trans rfl, hcommit⟩
  exact congrArg (· ||| 2 ^ d) ((congrArg RipSt.dieResetting hrip).trans hresetting)

/-! ### What the rest of a die reset leaves alone (R554 to R556) -/

/-- The fenced cores, the dies that reset, and the stacks. -/
def State.fencesStks (s : State) : List Nat × Nat × Sparse Stack := (s.rip.fenced, s.rip.dieResetting, s.stks)

section
variable (s : State)

theorem State.foldl_fencesStks {α : Type} {f : State → α → State} (hf : ∀ s a, (f s a).fencesStks = s.fencesStks)
    (l : List α) : (l.foldl f s).fencesStks = s.fencesStks := by
  induction l generalizing s with
  | nil => rfl
  | cons a l ih => exact (ih _).trans (hf s a)

@[simp] theorem State.updPort_fencesStks (p f) : (s.updPort p f).fencesStks = s.fencesStks := rfl

@[simp] theorem State.updCore_fencesStks (c f) : (s.updCore c f).fencesStks = s.fencesStks := rfl

@[simp] theorem State.updGon_fencesStks (g f) : (s.updGon g f).fencesStks = s.fencesStks := rfl

@[simp] theorem State.updRig_fencesStks (f) : (s.updRig f).fencesStks = s.fencesStks := rfl

@[simp] theorem State.updAnc_fencesStks (f) : (s.updAnc f).fencesStks = s.fencesStks := rfl

@[simp] theorem State.event_fencesStks (code source arg) : (s.event code source arg).fencesStks = s.fencesStks := rfl

@[simp] theorem State.eraseKeys_fencesStks (d) : (s.eraseKeys d).fencesStks = s.fencesStks := rfl

@[simp] theorem State.knotReset_fencesStks (d) : (s.knotReset d).fencesStks = s.fencesStks := rfl

@[simp] theorem State.peerTo_fencesStks (d st) : (s.peerTo d st).fencesStks = s.fencesStks := by
  unfold State.peerTo
  dsimp only
  split <;> rfl

@[simp] theorem State.loseRouted_fencesStks (l) : (s.loseRouted l).fencesStks = s.fencesStks := by
  induction l generalizing s with
  | nil => rfl
  | cons d l ih => simp [State.loseRouted, ih]

@[simp] theorem State.leaveUp_fencesStks (d st) : (s.leaveUp d st).fencesStks = s.fencesStks := by simp [State.leaveUp]

@[simp] theorem State.loseAll_fencesStks (l) : (s.loseAll l).fencesStks = s.fencesStks := by
  induction l generalizing s with
  | nil => rfl
  | cons d l ih =>
    rw [State.loseAll, ih]
    split
    · exact s.leaveUp_fencesStks d .lost
    · rfl

@[simp] theorem State.losePartner_fencesStks (p) : (s.losePartner p).fencesStks = s.fencesStks := by
  unfold State.losePartner
  split
  · rfl
  · exact State.loseAll_fencesStks _ _

@[simp] theorem State.portReset_fencesStks (p) : (s.portReset p).fencesStks = s.fencesStks := by
  unfold State.portReset
  exact s.losePartner_fencesStks p

@[simp] theorem State.bindTo_fencesStks (l c f) : (s.bindTo l c f).fencesStks = s.fencesStks := by
  unfold State.bindTo
  dsimp only
  rw [State.event_fencesStks]
  split <;> rfl

@[simp] theorem State.rebindNow_fencesStks (l f d) : (s.rebindNow l f d).fencesStks = s.fencesStks := by
  unfold State.rebindNow
  split <;> simp

@[simp] theorem State.rebindAll_fencesStks (d l) : (s.rebindAll d l).fencesStks = s.fencesStks := by
  induction l generalizing s with
  | nil => rfl
  | cons p l ih => simp [State.rebindAll, ih]

@[simp] theorem State.writeCosts_fencesStks (p) : (s.writeCosts p).fencesStks = s.fencesStks := by
  unfold State.writeCosts
  dsimp only
  refine (State.foldl_fencesStks _ (fun u l => ?_) _).trans rfl
  split
  · split <;> rfl
  · rfl

@[simp] theorem State.startGons_fencesStks : s.startGons.fencesStks = s.fencesStks := by
  unfold State.startGons
  exact s.foldl_fencesStks (fun u g => u.updGon_fencesStks g _) _

@[simp] theorem State.waitGons_fencesStks : s.waitGons.fencesStks = s.fencesStks := by
  unfold State.waitGons
  exact s.foldl_fencesStks (fun u g => u.updGon_fencesStks g _) _

@[simp] theorem State.restartGons_fencesStks (d) : (s.restartGons d).fencesStks = s.fencesStks := by
  unfold State.restartGons
  split <;> simp

end

/-! ### The cores of a die after its reset (R549) -/

section
variable (s : State) (d : Nat)

theorem State.foldl_rip {f : State → Nat → State} (hf : ∀ s i, (f s i).rip = s.rip) (l : List Nat) :
    (l.foldl f s).rip = s.rip := by
  induction l generalizing s with
  | nil => rfl
  | cons i l ih => exact (ih _).trans (hf s i)

theorem State.rip_resetCores : (s.resetCores d).rip = { s.rip with
    fenced := s.rip.fenced.filter (fun c => !(c / 100 == d))
    sparesPending := s.rip.sparesPending.filter (fun p => !(p.2.2 / 100 == d)) } := by
  unfold State.resetCores
  dsimp only
  exact (State.foldl_rip _ (fun _ _ => rfl) (List.range 100)).trans rfl

theorem State.dieResetting_failCores (l : List Nat) : (s.failCores d l).rip.dieResetting = s.rip.dieResetting := by
  induction l generalizing s with
  | nil => rfl
  | cons a l ih =>
    rw [State.failCores]
    split
    · exact ih s
    · exact (ih _).trans rfl

/-- The cores of a die that fail their self-test are fenced, and no others (R549). -/
theorem State.mem_fenced_failCores {c : Nat} (hc : c / 100 = d) (l : List Nat) :
    c ∈ (s.failCores d l).rip.fenced ↔ c ∈ s.rip.fenced ∨ c ∈ l := by
  induction l generalizing s with
  | nil => simp [State.failCores]
  | cons a l ih =>
    rw [State.failCores]
    split
    next hskip =>
      have hhead : c = a → c ∈ s.rip.fenced := by
        rintro rfl
        simpa [hc] using hskip
      rw [ih, List.mem_cons]
      tauto
    next =>
      refine (ih _).trans ?_
      change c ∈ s.rip.fenced ++ [a] ∨ c ∈ l ↔ _
      simp [or_assoc]

end

/-! ### The stacks of a die after its reset (R329, R554) -/

/-- A stack after its die's reset: in FAULT where it failed to train, and otherwise ready, with all-zero memory. -/
def Stack.Cleared (t : Stack) (bad : List Nat) (i : Nat) : Prop :=
  t.state = (if bad.contains i then .fault else .ready) ∧ t.mem = []

section
variable (s : State) (bad : List Nat)

theorem State.stackReset_cleared (st : Nat) : ((s.stackReset bad st).stk st).Cleared bad st := by
  unfold State.stackReset State.stackTrained Stack.Cleared
  cases h : bad.contains st with
  | true =>
    rw [if_pos rfl, State.stk_report, State.stk_updStk, State.stk_setStk]
    exact ⟨rfl, rfl⟩
  | false =>
    rw [if_neg Bool.false_ne_true, State.stk_updStk]
    exact ⟨rfl, rfl⟩

theorem State.stackReset_other {st i : Nat} (h : i ≠ st) : (s.stackReset bad st).stk i = s.stk i := by
  rw [State.stackReset, State.stackTrained_other _ bad h, State.stk_setStk_other _ _ _ h]

theorem State.foldl_stackReset (d : Nat) (l : List Nat) {i : Nat}
    (h : i ∈ l ∨ (s.stk (4 * d + i)).Cleared bad (4 * d + i)) :
    ((l.foldl (fun s i => s.stackReset bad (4 * d + i)) s).stk (4 * d + i)).Cleared bad (4 * d + i) := by
  induction l generalizing s with
  | nil => exact h.resolve_left List.not_mem_nil
  | cons k l ih =>
    refine ih _ ?_
    by_cases hi : i = k
    · exact .inr (hi ▸ s.stackReset_cleared bad _)
    · rw [State.stackReset_other s bad (by omega)]
      exact h.imp_left fun hmem => (List.mem_cons.mp hmem).resolve_left hi

theorem State.rip_stackReset (st : Nat) : (s.stackReset bad st).rip.fenced = s.rip.fenced
    ∧ (s.stackReset bad st).rip.dieResetting = s.rip.dieResetting := by
  unfold State.stackReset State.stackTrained
  split <;> exact ⟨rfl, rfl⟩

end

/-! ### DIE_RESET_DONE (R549, R553 to R556) -/

section
variable (s : State) (d : Nat) (failed bad : List Nat)

/-- The state as the cores and the stacks of die d have come back. -/
def State.dieBack : State :=
  (List.range 4).foldl (fun s i => s.stackReset bad (4 * d + i)) (((s.loseTraffic d).resetCores d).failCores d failed)

theorem State.rip_dieBack : (s.dieBack d failed bad).rip.fenced = (((s.loseTraffic d).resetCores d).failCores d failed).rip.fenced
    ∧ (s.dieBack d failed bad).rip.dieResetting = s.rip.dieResetting := by
  have hstacks (l : List Nat) (u : State) : (l.foldl (fun s i => s.stackReset bad (4 * d + i)) u).rip.fenced = u.rip.fenced
      ∧ (l.foldl (fun s i => s.stackReset bad (4 * d + i)) u).rip.dieResetting = u.rip.dieResetting := by
    induction l generalizing u with
    | nil => exact ⟨rfl, rfl⟩
    | cons i l ih =>
      obtain ⟨hfenced, hresetting⟩ := ih (u.stackReset bad (4 * d + i))
      exact ⟨hfenced.trans (u.rip_stackReset bad _).1, hresetting.trans (u.rip_stackReset bad _).2⟩
  obtain ⟨hfenced, hresetting⟩ := hstacks (List.range 4) (((s.loseTraffic d).resetCores d).failCores d failed)
  refine ⟨hfenced, hresetting.trans ?_⟩
  rw [State.dieResetting_failCores, State.rip_resetCores]
  rfl

/-- Of the cores of a die that is back, those that failed their self-test are fenced (R549). -/
theorem State.mem_fenced_dieBack {c : Nat} (hc : c / 100 = d) : c ∈ (s.dieBack d failed bad).rip.fenced ↔ c ∈ failed := by
  rw [(s.rip_dieBack d failed bad).1, State.mem_fenced_failCores _ d hc, State.rip_resetCores]
  simp [hc]

theorem State.stk_dieBack {st : Nat} (h : st / 4 = d) : ((s.dieBack d failed bad).stk st).Cleared bad st := by
  have hst : 4 * d + st % 4 = st := by omega
  have hclear := State.foldl_stackReset (((s.loseTraffic d).resetCores d).failCores d failed) bad d (List.range 4)
    (i := st % 4) (.inl (List.mem_range.mpr (Nat.mod_lt _ (by decide))))
  rwa [hst] at hclear

/-- The state as the rest of a die's reset is over: its ports, knots and numbers are back, and the gondola cores restart. -/
def State.dieGoesOn (u : State) (d : Nat) (pend : List (Nat × Nat)) : State :=
  let u := ((List.range 3).foldl (fun s i => s.portReset (3 * d + i)) u).knotReset d
  let u := u.updRip (fun r => { r with dieResetting := r.dieResetting - 2 ^ d })
  let lost := (u.rig.live.bind.filter (fun p => p.2 ≠ 0 && u.rip.fenced.contains (p.2 - 1) && (p.2 - 1) / 100 == d)).map
    (fun p => (p.1, p.2 - 1))
  let u := u.rebindAll d (lost ++ pend)
  (if u.tables then u.writeCosts u.env.costPt else u).restartGons d

theorem State.fencesStks_resetOver {u v : State} (h : u.fencesStks = v.fencesStks) :
    (u.updRip (fun r => { r with dieResetting := r.dieResetting - 2 ^ d })).fencesStks
      = (v.rip.fenced, v.rip.dieResetting - 2 ^ d, v.stks) :=
  congrArg (fun p => (p.1, p.2.1 - 2 ^ d, p.2.2)) h

/-- What follows the return of a die's cores and stacks changes neither them nor what is fenced. -/
theorem State.fencesStks_dieGoesOn (u : State) (pend : List (Nat × Nat)) :
    (u.dieGoesOn d pend).fencesStks = (u.rip.fenced, u.rip.dieResetting - 2 ^ d, u.stks) := by
  have hports : ((List.range 3).foldl (fun s i => s.portReset (3 * d + i)) u).fencesStks = u.fencesStks :=
    u.foldl_fencesStks (fun v i => v.portReset_fencesStks (3 * d + i)) _
  have hover := State.fencesStks_resetOver d ((State.knotReset_fencesStks _ d).trans hports)
  unfold State.dieGoesOn
  dsimp only
  rw [State.restartGons_fencesStks]
  split
  · rw [State.writeCosts_fencesStks, State.rebindAll_fencesStks, hover]
  · rw [State.rebindAll_fencesStks, hover]

variable {s d}

theorem exec_dieResetDone (hup : s.diesUp = true) (hd : d < 4) (hreset : bit d s.rip.dieResetting = true) :
    exec (.dieResetDone d failed bad) s = .next (((s.dieBack d failed bad).dieGoesOn d
      ((s.rip.sparesPending.filter (fun p => p.2.2 / 100 == d)).map (fun p => (p.1, p.2.1)))).event 0x63 d
      (failed.filter (fun c => c / 100 == d)).length) := by
  have hgo : ¬(!s.diesUp || decide (3 < d) || !(bit d s.rip.dieResetting)) = true := by
    simp only [hup, hreset, Bool.not_true, Bool.false_or, Bool.or_false, decide_eq_true_eq]
    omega
  refine congrArg Host.Outcome.next ?_
  unfold State.dieGoesOn State.dieBack
  dsimp only
  rw [if_neg hgo]

end

/-- Settles O57: keyed writes act by `keyed_takes`, a fence by `coreFault_fences`, a die reset by `dieReset_begins`, and its end by
`exec_dieResetDone`. -/
theorem keyedWritesAndDieResets : Obligations.KeyedWritesAndDieResets := by
  unfold Obligations.KeyedWritesAndDieResets
  intro v s
  refine ⟨fun hup => ⟨fun hkey i hi => ?_, fun hkey => ⟨fun hcore => ?_, fun hcore hfenced => ?_, fun hcore hfenced hdie => ?_,
    fun hgo => ?_, fun hstay => ?_, fun hdies hin => ?_⟩, ?_, fun hi => exec_ripEvtBaseWrite hup v hi⟩,
    fun d failed bad hup hd hreset => ?_⟩
  · simp only [List.mem_cons, List.not_mem_nil, or_false] at hi
    rcases hi with rfl | rfl | rfl
    · rw [exec_ripFenceReq hup, State.fenceReq_ignored fun h => hkey h.1]
    · rw [exec_ripDieReset hup, State.dieReq_ignored hkey]
    · rw [exec_ripPkgReset hup, State.pkgReq_ignored hkey]
  · rw [exec_ripFenceReq hup, State.fenceReq_ignored fun h => Nat.not_lt.mpr hcore h.2]
  · rw [exec_ripFenceReq hup, State.fenceReq_core hkey hcore, if_pos hfenced]
  · refine ⟨_, exec_ripFenceReq hup v, ?_⟩
    rw [State.fenceReq_core hkey hcore, if_neg (by rw [hfenced]; exact Bool.false_ne_true)]
    exact State.coreFault_fences 0x1007 hfenced hdie
  · refine ⟨_, exec_ripPkgReset hup v, ?_⟩
    rw [State.pkgReq_key hkey, if_pos hgo]
    exact s.pkgFault_resetTo 0x01000301
  · rw [exec_ripPkgReset hup, State.pkgReq_key hkey, if_neg (by rw [hstay]; exact Bool.false_ne_true)]
  · refine ⟨_, exec_ripDieReset hup v, ?_⟩
    rw [State.dieReq_key hkey hdies hin]
    exact State.dieReset_begins (s := s.report _) (Bool.or_eq_false_iff.mp hin).2 _
  · rw [exec_ripCodeClr hup, State.updRip, RipSt.codeClr]
    split <;> rfl
  · have hexec := exec_dieResetDone failed bad hup hd hreset
    generalize hw : (s.dieBack d failed bad).dieGoesOn d _ = w at hexec
    have hw := hw ▸ State.fencesStks_dieGoesOn d (s.dieBack d failed bad) _
    obtain ⟨hfenced, hrest⟩ := Prod.mk.inj hw
    obtain ⟨hresetting, hstks⟩ := Prod.mk.inj hrest
    refine ⟨_, hexec, hresetting.trans (by rw [(s.rip_dieBack d failed bad).2]), fun c hc => ?_, fun st _ hst => ?_,
      List.mem_append_right _ List.mem_cons_self, execDieResetDone_keeps s d failed bad _ hexec⟩
    · exact hfenced ▸ s.mem_fenced_dieBack d failed bad hc
    · rw [State.stk_congr (t := w.event _ _ _) hstks]
      exact s.stk_dieBack d failed bad hst

end Sys2Proof.Machine
end
